-- ==== Sys2Proof/Word.lean ====
section
/-! DEFINITION. Words, bytes and the values of the number formats, with the plainest conversions between numbers and
little-endian bytes (R14). -/

namespace Sys2Proof

/-- One byte of a memory, a packet or a record. -/
abbrev Byte := BitVec 8

/-- A byte sequence, lowest address first. -/
abbrev Bytes := List Byte

/-- The little-endian bytes of `v`, `n` of them (R14). -/
def leBytes : Nat → Nat → Bytes
  | 0, _ => []
  | n + 1, v => BitVec.ofNat 8 v :: leBytes n (v / 256)

/-- The number a little-endian byte sequence spells (R14). -/
def leNat : Bytes → Nat
  | [] => 0
  | b :: bs => b.toNat + 256 * leNat bs

/-- Bits `[lo + w - 1 : lo]` of `v`. -/
def bitsOf (v lo w : Nat) : Nat := v / 2 ^ lo % 2 ^ w

/-- An exact value `m × 2^e`. -/
structure Dy where
  m : Int
  e : Int
  deriving DecidableEq, Repr

/-- A value an element holds or an operation gives: the NaN class, an infinity, or an exact signed magnitude
`± m × 2^e`, zero having a sign (R46 to R48). -/
inductive Num where
  | nan
  | inf (neg : Bool)
  | fin (neg : Bool) (m : Nat) (e : Int)
  deriving DecidableEq, Repr

/-- The formats of Table 2.1. -/
inductive Fmt where
  | fp32 | bf16 | fp16 | e4m3 | e5m2 | mxfp4 | int8 | int4 | int32
  deriving DecidableEq, Repr

/-- The rounding modes of Table 2.6. -/
inductive RMode where
  | rne | rtz | rup | rdn | sr
  deriving DecidableEq, Repr

/-- The fields of a floating-point format (Table 2.2): exponent and fraction widths, bias, the largest finite code,
and whether it has infinities (Table 2.3). -/
structure FloatF where
  ebits : Nat
  fbits : Nat
  bias : Nat
  maxCode : Nat
  hasInf : Bool
  nan : Nat
  deriving DecidableEq, Repr

/-- A rounded element: its code and whether a limit replaced the value (R60). -/
structure Rounded where
  code : Nat
  sat : Bool
  deriving DecidableEq, Repr

end Sys2Proof
end

