-- ==== Sys2Proof/Syntax.lean ====
section
/-! DEFINITION. The commands of the DZ6: one constructor of `Instr` for each row of the table of operations and
events, with the row's operands, and the data those operands are made of. The fields of the bundle slots follow
Tables 7.4 to 7.9; what the outside world answers (data of a host-bus read, a partner's message, the outcome of a
signature check, a sensor reading) is an operand of the command that reports it. -/

namespace Sys2Proof

/-- Physical core number, 0 to 1,343 (R20). -/
abbrev CoreId := Fin 1344
/-- Resident slot 0 to 7 (R410). -/
abbrev SlotId := Fin 8
/-- Registered context number 0 to 63 (R409). -/
abbrev CtxId := Fin 64
/-- Fabric port 0 to 47 (R333). -/
abbrev PortId := Fin 48
/-- Bulk mover channel 0 to 63 (R258). -/
abbrev BulkId := Fin 64
/-- Compute tile 0 to 3 (R18). -/
abbrev TileId := Fin 4
/-- Edge tile: 0 is E0, 1 is E1 (R18). -/
abbrev EdgeId := Fin 2

/-! ### The slots of a bundle -/

/-- Fields of `LOOP` (Table 7.4). -/
structure LoopF where
  n : BitVec 2
  imm : Bool
  cnt : BitVec 5
  last : BitVec 12
  deriving DecidableEq, Repr

/-- Fields of the branch forms of `BR`: `inv` is `MODE` 0b01 (Table 7.4). -/
structure BrF where
  inv : Bool
  p : BitVec 3
  target : BitVec 12
  deriving DecidableEq, Repr

/-- Fields of the set form of `BR` (Table 7.4). -/
structure BrSetF where
  p : BitVec 3
  cond : BitVec 3
  sa : BitVec 5
  sb : BitVec 5
  deriving DecidableEq, Repr

/-- Fields of the single form of `WAITTOK` and of `SENDTOK` (Table 7.4). -/
structure TokF where
  q : BitVec 3
  imm : Bool
  k : BitVec 16
  deriving DecidableEq, Repr

/-- Fields of the ANY form of `WAITTOK` (Table 7.4). -/
structure AnyF where
  d : BitVec 5
  mask : BitVec 8
  deriving DecidableEq, Repr

/-- Fields of `ACTION` (Table 7.4). -/
structure ActionF where
  group : BitVec 8
  ts : BitVec 5
  deriving DecidableEq, Repr

/-- Fields of `SLATE` (Table 7.4). -/
structure SlateF where
  point : BitVec 12
  dr : BitVec 5
  deriving DecidableEq, Repr

/-- The control slot (Table 7.4); a slot of zeros is the no-op (R177). -/
inductive CInstr where
  | nop
  | loop (f : LoopF)
  | br (f : BrF)
  | brSet (f : BrSetF)
  | waittok (f : TokF)
  | recvAny (f : AnyF)
  | sendtok (f : TokF)
  | action (f : ActionF)
  | cut
  | fence (kind : BitVec 2)
  | slate (f : SlateF)
  | trapcfg (nan : Bool)
  | endStep
  deriving DecidableEq, Repr

/-- Fields of `MCFG` (Table 7.5). -/
structure McfgF where
  fa : BitVec 4
  fb : BitVec 4
  fo : BitVec 4
  rm : BitVec 3
  fast : Bool
  deriving DecidableEq, Repr

/-- Fields of `MMUL` (Table 7.5). -/
structure MmulF where
  fin : Bool
  t : BitVec 4
  tag : BitVec 8
  deriving DecidableEq, Repr

/-- Fields of `MEW` (Table 7.5). -/
structure MewF where
  d : BitVec 4
  x : BitVec 4
  y : BitVec 4
  op : BitVec 3
  rm : BitVec 3
  deriving DecidableEq, Repr

/-- Fields of `SPADD` (Table 7.5). -/
structure SpaddF where
  t : BitVec 4
  ars : BitVec 5
  deriving DecidableEq, Repr

/-- Fields of `SPMERGE` (Table 7.5). -/
structure SpmergeF where
  dst : BitVec 5
  src : BitVec 5
  clr : Bool
  deriving DecidableEq, Repr

/-- Fields of `SPROUND` (Table 7.5). -/
structure SproundF where
  t : BitVec 4
  ars : BitVec 5
  rm : BitVec 3
  clr : Bool
  deriving DecidableEq, Repr

/-- Fields of `SPEXPORT` (Table 7.5). -/
structure SpexportF where
  addr : BitVec 5
  ars : BitVec 5
  clr : Bool
  deriving DecidableEq, Repr

/-- Fields of `SPIMPORT` (Table 7.5). -/
structure SpimportF where
  addr : BitVec 5
  ars : BitVec 5
  deriving DecidableEq, Repr

/-- The matrix and splice slot (Table 7.5). -/
inductive MInstr where
  | nop
  | mcfg (f : McfgF)
  | mstagea (t : BitVec 4)
  | mstageb (t : BitVec 4)
  | mmul (f : MmulF)
  | mdrain
  | mew (f : MewF)
  | spadd (f : SpaddF)
  | spmerge (f : SpmergeF)
  | spround (f : SproundF)
  | spexport (f : SpexportF)
  | spimport (f : SpimportF)
  deriving DecidableEq, Repr

/-- The vector opcodes of the common layout (Table 7.7). -/
inductive VOp where
  | vadd | vmul | vfma | vmax | vcmp | vsel | vcvt | vred
  | vexp | vlog | vrsq | vrcp | vtanh | vsig | vgelu | vsin | vcos
  | vrand | vrowreplay
  deriving DecidableEq, Repr

/-- The common vector layout (Table 7.6). -/
structure VecF where
  t : BitVec 4
  a : BitVec 5
  b : BitVec 5
  rm : BitVec 3
  mz : Bool
  x : BitVec 5
  sb : Bool
  deriving DecidableEq, Repr

/-- The layout of `VUPD` (Table 7.8). -/
structure VupdF where
  th : BitVec 4
  tg : BitVec 4
  sbase : BitVec 5
  sgdm : Bool
  mz : Bool
  deriving DecidableEq, Repr

/-- The vector slot (Table 7.7). -/
inductive VInstr where
  | nop
  | vec (op : VOp) (f : VecF)
  | vupd (f : VupdF)
  deriving DecidableEq, Repr

/-- The kinds of a transfer (Table 8.3). -/
inductive MKind where
  | xfer | movg | hash | fill | cmpm | swp
  deriving DecidableEq, Repr

/-- Fields of a transfer instruction: the channel and the scalar that holds the descriptor's address (Table 7.9). -/
structure XferF where
  ch : BitVec 2
  sd : BitVec 5
  deriving DecidableEq, Repr

/-- Fields of `SETI` and `SETHI` (Table 7.9). -/
structure SetiF where
  d : BitVec 5
  imm : BitVec 16
  deriving DecidableEq, Repr

/-- Fields of `SALU` (Table 7.9). -/
structure SaluF where
  op : BitVec 3
  d : BitVec 5
  a : BitVec 5
  b : BitVec 5
  deriving DecidableEq, Repr

/-- Fields of `TADJ` (Table 7.9). -/
structure TadjF where
  n : BitVec 4
  fld : BitVec 2
  set : Bool
  a : BitVec 5
  deriving DecidableEq, Repr

/-- The mover slot (Table 7.9). -/
inductive DInstr where
  | nop
  | move (k : MKind) (f : XferF)
  | seti (f : SetiF)
  | sethi (f : SetiF)
  | salu (f : SaluF)
  | tadj (f : TadjF)
  | setvl (a : BitVec 5)
  deriving DecidableEq, Repr

/-- The four slots of a bundle (R213). -/
structure Bundle where
  c : CInstr
  m : MInstr
  v : VInstr
  d : DInstr
  deriving DecidableEq, Repr

/-! ### Register accesses -/

/-- Which part of a 64-bit register an access covers (R600). -/
inductive Half where
  | both | low | high
  deriving DecidableEq, Repr

/-- A BAR0 write of one register: the part written and the 64-bit word the data stand in (R600, R602). -/
structure RegWrite where
  half : Half
  data : BitVec 64
  deriving DecidableEq, Repr

/-- A mailbox command comes over PCIe or over I3C (R557). -/
inductive MbSrc where
  | pcie | i3c
  deriving DecidableEq, Repr

/-! ### Movers, tokens, memory -/

/-- A mover channel: channel `c` of a core, or a bulk channel (R258). -/
inductive ChanRef where
  | core (n : CoreId) (c : Fin 4)
  | bulk (b : BulkId)
  deriving DecidableEq, Repr

/-- How a host-bus read ends (R573): with data, of which some 64-byte lines may be poisoned, or not. -/
inductive HostRead where
  | data (bytes : Bytes) (ep : Bool)
  | unsupported
  | abort
  | timeout
  deriving DecidableEq, Repr

/-- What training found on one DDR channel (R290 to R292): the capacity code of the module (0 for none), a number that
stands for its type, rank count and die stacking, its fastest mode coded as `MEM_CFG.MAXMODE`, and whether it trains. -/
structure DdrModule where
  capCode : BitVec 4
  kind : Nat
  mode : BitVec 2
  trains : Bool
  deriving DecidableEq, Repr

/-! ### Host descriptors -/

/-- What the call-sheet unit reads for one context at a poll: the tail word, absent when its read failed, and the
slots from `CTX_CS_HEAD` on, each absent when its read failed (R581, R584). -/
structure SheetRead where
  ctx : CtxId
  tail : Option (BitVec 64)
  slots : List (Option Bytes)
  deriving DecidableEq, Repr

/-- One entry of the input log as a replay reads it (Table 11.3). -/
structure LogRec where
  type : Nat
  ctx : Nat
  stepId : BitVec 64
  timecode : BitVec 64
  key : Bytes
  data : Bytes
  payload : Bytes
  deriving DecidableEq, Repr

/-! ### The program image: its contents, as the manual names them (it gives no byte layout) -/

/-- Where a token channel of the image leads (R197, R360, R425). -/
inductive ChanPeer where
  | core (dev : Option Nat) (ctx : Option CtxId) (vx vy ch : Nat)
  | engine (e : EdgeId)
  deriving DecidableEq, Repr

/-- One token channel of a virtual core: send channels name their peer, receive channels whether the sender is
another context (R197, R425). -/
inductive ChanDecl where
  | none
  | send (peer : ChanPeer)
  | recv (unbound : Bool)
  deriving DecidableEq, Repr

/-- What the image declares for one virtual core (R178, R184, R94, R197, R256, R414, R425, R498). -/
structure CoreImage where
  vx : Nat
  vy : Nat
  granules : Nat
  segments : Nat
  wide : Option Nat
  classes : List (BitVec 2)
  entries : List (Nat × Nat)
  code : List (BitVec 128)
  descs : List (BitVec 256)
  chans : List ChanDecl
  data : List (Nat × Byte)
  mailboxes : List (Nat × Nat)
  carried : List Nat
  deriving DecidableEq, Repr

/-- One launch group: the virtual cores and their entries (R383). -/
structure LaunchGroup where
  group : Nat
  cores : List (Nat × Nat × Nat)
  deriving DecidableEq, Repr

/-- A program image; `splits` tells of each micro-batch its token count and whether it is the last of the global batch (R178, R197, R207, R209, R256, R383, R415, R417, R426, R440,
R447, Table 12.2). -/
structure Image where
  width : Nat
  height : Nat
  profile : Nat
  cores : List CoreImage
  groups : List LaunchGroup
  splits : List (Nat × Bool)
  fast : Bool
  fpAtomics : Bool
  entropy : Bool
  recvAny : Bool
  deadline : Bool
  keySlots : List (BitVec 4)
  mirror : Bool
  powerFloor : Nat
  floats : List (Nat × List CoreImage)
  fallbacks : List Nat
  deriving DecidableEq, Repr

/-! ### Links and packets -/

/-- A packet (Table 10.5). -/
structure Packet where
  type : Nat
  pool : BitVec 8
  hops : Nat
  status : Nat
  src : Nat
  dst : Nat
  addr : Nat
  data : Bytes
  atom : Nat
  reqid : Nat
  birth : Nat
  ext : Nat
  poison : BitVec 64
  deriving DecidableEq, Repr

/-- What the partner shows in IDENT: its identity and its random value, the bytes of that message, its quote, and whether its
certificate chains and signatures verify (R339, R556). -/
structure IdentInfo where
  dev : BitVec 12
  port : BitVec 6
  space : BitVec 32
  role : BitVec 2
  verified : Bool
  nonce : Bytes
  text : Bytes
  quote : Bytes
  deriving DecidableEq, Repr

/-- A timecode marker and the receiver's stamps, in 1/16 ns (R376, R377): t1 sent here, t2 its arrival at the
partner, t3 sent by the partner, t4 its arrival here. -/
structure Marker where
  master : BitVec 12
  stratum : BitVec 8
  t1 : Int
  t2 : Int
  t3 : Int
  t4 : Int
  deriving DecidableEq, Repr

/-- A convoy announcement (R543). -/
structure Convoy where
  dev : BitVec 12
  group : BitVec 16
  rate : Nat
  release : Bool
  deriving DecidableEq, Repr

/-- An announcement of an alias (R516). -/
structure AliasMsg where
  aliasDev : BitVec 12
  active : BitVec 12
  epoch : BitVec 16
  deriving DecidableEq, Repr

/-! ### Reliability and the pair -/

/-- What the partner's pairing shows (R510), and whether it serves alone (R518). -/
structure PairInfo where
  dev : BitVec 12
  names : BitVec 12
  life : BitVec 2
  dbg : BitVec 2
  measure : BitVec 256
  fwmix : Bool
  enf : Bool
  solo : Bool
  deriving DecidableEq, Repr

/-- The partner's context of the same number, as the counterpart check sees it (R510). -/
structure Counterpart where
  digest : BitVec 256
  pair : BitVec 2
  deriving DecidableEq, Repr

/-- A page as resync ships it: its number, its bytes, the offsets of its poisoned lines (R518). -/
structure PageCopy where
  page : Nat
  data : Bytes
  bad : List Nat
  deriving DecidableEq, Repr

/-- What a stand-in receives of a commit: the step, and the 256-byte lines written by address, with the offsets of their
poisoned 64-byte lines (R511). -/
structure Commit where
  step : BitVec 64
  lines : List (Nat × Bytes × List Nat)
  deriving DecidableEq, Repr

/-- What a run of a checked take comes to (R400, R508): the take digest, and the contributions to slate points. -/
structure TakeRun where
  digest : BitVec 256
  contribs : List (Nat × BitVec 256)
  deriving DecidableEq, Repr

/-- One failure that a wrap or online test found: `kind` and places as Table 15.10 has them. -/
structure TestFail where
  kind : BitVec 8
  unit : BitVec 16
  sub : BitVec 8
  at_ : BitVec 16
  deriving DecidableEq, Repr

/-! ### Security -/

/-- A firmware image (Table 17.1) with what the SMC's two signature checks find (R551). -/
structure FwImage where
  header : Bytes
  tail : Bytes
  payload : Bytes
  edOk : Bool
  mlOk : Bool
  deriving DecidableEq, Repr

/-- A token (Table 17.5): its bytes [127:0], what the checks of R565 find of its signatures, and the owner keys. -/
structure TokenMsg where
  body : Bytes
  edOk : Bool
  mlOk : Bool
  owner : Bytes
  deriving DecidableEq, Repr

/-- What a `KEY_LOAD` carries (R559): the sender's X25519 public key, an ML-KEM-768 ciphertext and the wrapped record,
its bytes [7:0] and the encrypted key with its tag. -/
structure KeyRecord where
  pub : Bytes
  kem : Bytes
  head : Bytes
  sealed : Bytes
  deriving DecidableEq, Repr

/-- Clock domains a scan can reach (R564). -/
inductive ScanDomain where
  | a (t : TileId)
  | e0f | e1f
  | m (i : Fin 8)
  | l (i : Fin 8)
  | p
  deriving DecidableEq, Repr

/-- What a JTAG write changes (R564). -/
inductive JtagTarget where
  | scratch (addr : Nat)
  | istore (bundle : Nat)
  deriving DecidableEq, Repr

/-- A digest of 32 bytes as a number, byte 0 lowest. -/
abbrev Digest := BitVec 256

/-- The commands: one constructor for each row of the table of operations and events. -/
inductive Instr where
  /-- `BUNDLE_ISSUE` (R191): The sequencer issues the next bundle, all four slots together, in the first cycle in
  which every slot's operands are present, its destinations are free and its own conditions hold. -/
  | bundleIssue (n : CoreId)
  /-- `HOLD_END` (R194): A core hold ends in the first cycle in which its cause has cleared, and the frozen units
  resume in the next cycle exactly where they stopped. -/
  | holdEnd (n : CoreId)
  /-- `CORE_STOP` (R631): After a stop cause, once the last instruction or transfer already issued has completed,
  the core stops, writes its trap record, empties its units and frees itself for other takes. -/
  | coreStop (n : CoreId)
  /-- `TAKE_TIMEOUT` (R206): TAKECYC reaches 500,000 non-hold cycles and the core stops. -/
  | takeTimeout (n : CoreId)
  /-- `LOOP` (R224): LOOP opens a hardware loop on a counter, with a count taken from an immediate or from a scalar. -/
  | loop (n : CoreId) (f : LoopF)
  /-- `BR` (R226): The branch form of BR branches to TARGET according to a predicate. -/
  | br (n : CoreId) (f : BrF)
  /-- `BR_SET` (R227): The set form of BR writes a predicate from a comparison of two scalars. -/
  | brSet (n : CoreId) (f : BrSetF)
  /-- `WAITTOK` (R199): WAITTOK issues when RECV minus CONS reaches k, and then adds k to CONS. -/
  | waittok (n : CoreId) (f : TokF)
  /-- `RECV_ANY` (R229): The ANY form of WAITTOK takes the lowest-numbered ready channel, or the logged channel in
  replay, and logs its choice. -/
  | recvAny (n : CoreId) (f : AnyF)
  /-- `SENDTOK` (R198): SENDTOK, once earlier writes are acknowledged, adds k to SENT and delivers the new total to
  the peer. -/
  | sendtok (n : CoreId) (f : TokF)
  /-- `ACTION` (R230): ACTION asks the timecode unit to launch a launch group at a target timecode. -/
  | action (n : CoreId) (f : ActionF)
  /-- `CUT` (R204): CUT empties the splice accumulators, commits the take, advances TAKE and yields the core to a
  pending take. -/
  | cut (n : CoreId)
  /-- `FENCE` (R232): FENCE waits for earlier writes to be acknowledged, for earlier local results, or for both. -/
  | fence (n : CoreId) (kind : (BitVec 2))
  /-- `SLATE` (R233): SLATE submits a 32-byte digest as this core's contribution to a slate point. -/
  | slate (n : CoreId) (f : SlateF)
  /-- `TRAPCFG` (R234): TRAPCFG sets the first-NaN trap enable of the context frame. -/
  | trapcfg (n : CoreId) (nan : Bool)
  /-- `END` (R231): END acts as a final cut and completes the core's part of the step. -/
  | endTake (n : CoreId)
  /-- `MCFG` (R235): MCFG sets the operand formats, the output format, the rounding mode and the accumulation mode. -/
  | mcfg (n : CoreId) (f : McfgF)
  /-- `MSTAGEA` (R120): MSTAGEA appends an A tile to its staging queue and fills block images, with the prescan
  computing the anchors. -/
  | mstagea (n : CoreId) (t : (BitVec 4))
  /-- `MSTAGEB` (R120): MSTAGEB appends a B tile to its staging queue and fills block images, with the prescan
  computing the anchors. -/
  | mstageb (n : CoreId) (t : (BitVec 4))
  /-- `MMUL` (R237): MMUL claims the oldest staged tiles and computes one output tile through the lead, the
  wavefront steps and the drain. -/
  | mmul (n : CoreId) (f : MmulF)
  /-- `SPLICE_PARTIAL_ARRIVAL` (R130): A block partial from a drain chain or from VRED enters its splice accumulator
  and is added exactly. -/
  | splicePartialArrival (n : CoreId)
  /-- `MMUL_FINISH` (R131): With the finish flag, each output is rounded and written six cycles after its last
  partial enters, followed by the status word. -/
  | mmulFinish (n : CoreId)
  /-- `MDRAIN` (R239): MDRAIN waits for earlier MMULs to deliver their partials and, under FAST, discards the
  running values. -/
  | mdrain (n : CoreId)
  /-- `MEW` (R139): MEW computes an element-wise operation over a tile in the array. -/
  | mew (n : CoreId) (f : MewF)
  /-- `SPADD` (R241): SPADD adds tile elements exactly into a range of splice accumulators. -/
  | spadd (n : CoreId) (f : SpaddF)
  /-- `SPMERGE` (R242): SPMERGE adds one range of accumulators into another. -/
  | spmerge (n : CoreId) (f : SpmergeF)
  /-- `SPROUND` (R243): SPROUND rounds a range of accumulators once into the destination format. -/
  | spround (n : CoreId) (f : SproundF)
  /-- `SPEXPORT` (R244): SPEXPORT writes canonical XPs for a range of accumulators as a stream. -/
  | spexport (n : CoreId) (f : SpexportF)
  /-- `SPIMPORT` (R245): SPIMPORT reads an XP stream and adds each XP into its accumulator. -/
  | spimport (n : CoreId) (f : SpimportF)
  /-- `VADD` (R154): VADD adds two streams, rounding once. -/
  | vadd (n : CoreId) (f : VecF)
  /-- `VMUL` (R154): VMUL multiplies two streams, rounding once. -/
  | vmul (n : CoreId) (f : VecF)
  /-- `VFMA` (R154): VFMA computes a fused multiply-add, rounding once. -/
  | vfma (n : CoreId) (f : VecF)
  /-- `VMAX` (R154): VMAX computes the element-wise maximum or minimum. -/
  | vmax (n : CoreId) (f : VecF)
  /-- `VCMP` (R249): VCMP compares two streams and writes a mask. -/
  | vcmp (n : CoreId) (f : VecF)
  /-- `VSEL` (R154): VSEL selects between two streams by a mask. -/
  | vsel (n : CoreId) (f : VecF)
  /-- `VCVT` (R64): VCVT converts elements between formats. -/
  | vcvt (n : CoreId) (f : VecF)
  /-- `VRED` (R250): VRED reduces each row by SUM, SUMSQ, MAX or MIN. -/
  | vred (n : CoreId) (f : VecF)
  /-- `VEXP` (R165): VEXP evaluates exp or exp2 by the reference algorithm. -/
  | vexp (n : CoreId) (f : VecF)
  /-- `VLOG` (R165): VLOG evaluates ln or log2 by the reference algorithm. -/
  | vlog (n : CoreId) (f : VecF)
  /-- `VRSQ` (R165): VRSQ evaluates the reciprocal square root by the reference algorithm. -/
  | vrsq (n : CoreId) (f : VecF)
  /-- `VRCP` (R165): VRCP evaluates the reciprocal by the reference algorithm. -/
  | vrcp (n : CoreId) (f : VecF)
  /-- `VTANH` (R165): VTANH evaluates tanh by the reference algorithm. -/
  | vtanh (n : CoreId) (f : VecF)
  /-- `VSIG` (R165): VSIG evaluates the sigmoid by the reference algorithm. -/
  | vsig (n : CoreId) (f : VecF)
  /-- `VGELU` (R165): VGELU evaluates GELU by the reference algorithm. -/
  | vgelu (n : CoreId) (f : VecF)
  /-- `VSIN` (R165): VSIN evaluates the sine by the reference algorithm. -/
  | vsin (n : CoreId) (f : VecF)
  /-- `VCOS` (R165): VCOS evaluates the cosine by the reference algorithm. -/
  | vcos (n : CoreId) (f : VecF)
  /-- `VRAND` (R166): VRAND writes Philox-derived raw, uniform or Bernoulli values. -/
  | vrand (n : CoreId) (f : VecF)
  /-- `VROWREPLAY` (R169): VROWREPLAY recomputes softmax, RMSNorm or LayerNorm rows bit for bit. -/
  | vrowreplay (n : CoreId) (f : VecF)
  /-- `VUPD` (R173): VUPD applies the AdamW or SGDM split-master update in place. -/
  | vupd (n : CoreId) (f : VupdF)
  /-- `SETI` (R254): MOV SETI writes a sign-extended immediate to a scalar. -/
  | seti (n : CoreId) (f : SetiF)
  /-- `SETHI` (R254): MOV SETHI writes the upper half of a scalar. -/
  | sethi (n : CoreId) (f : SetiF)
  /-- `SALU` (R254): MOV SALU performs a scalar ALU operation. -/
  | salu (n : CoreId) (f : SaluF)
  /-- `TADJ` (R254): MOV TADJ sets or adjusts one descriptor field. -/
  | tadj (n : CoreId) (f : TadjF)
  /-- `SETVL` (R254): MOV SETVL writes vl from a scalar. -/
  | setvl (n : CoreId) (a : (BitVec 5))
  /-- `XFER` (R255): XFER starts a core mover channel on a transfer descriptor, which is checked in the next cycle. -/
  | xfer (n : CoreId) (f : XferF)
  /-- `MOVG` (R255): MOVG starts a transfer with one side at a global address, optionally atomic. -/
  | movg (n : CoreId) (f : XferF)
  /-- `HASH` (R283): HASH computes the tree digest of a region in ROOT, LEAVES or JOIN mode. -/
  | hash (n : CoreId) (f : XferF)
  /-- `FILL` (R281): FILL writes a repeated 8-byte constant. -/
  | fill (n : CoreId) (f : XferF)
  /-- `CMPM` (R282): CMPM compares two regions and writes a result record. -/
  | cmpm (n : CoreId) (f : XferF)
  /-- `SWP` (R263): SWP copies with byte or half-word swapping. -/
  | swp (n : CoreId) (f : XferF)
  /-- `BURST_ISSUE` (R267): A channel issues a burst once its request-line total releases it or bandwidth allows. -/
  | burstIssue (ch : ChanRef)
  /-- `TRANSFER_COMPLETE` (R269): A transfer completes when its last write is acknowledged. -/
  | transferComplete (ch : ChanRef)
  /-- `PAUSE` (R270): Setting CMV_CTLc.PAUSE stops new burst reads on a core channel. -/
  | pause (n : CoreId) (c : (Fin 4))
  /-- `CHANNEL_PAUSED` (R270): The last drained write of a pausing channel is acknowledged, and STATE becomes
  PAUSED. -/
  | channelPaused (n : CoreId) (c : (Fin 4))
  /-- `RESUME_TRANSFER` (R271): Clearing PAUSE resumes the transfer from its recorded addresses and byte count. -/
  | resumeTransfer (n : CoreId) (c : (Fin 4))
  /-- `BMV_ENABLE` (R277): Writing 1 to BMV_CTL.EN checks a bulk channel and starts it. -/
  | bmvEnable (b : BulkId) (w : RegWrite)
  /-- `BMV_DISABLE` (R279): Writing 0 to BMV_CTL.EN stops a bulk channel and discards the data in flight. -/
  | bmvDisable (b : BulkId) (w : RegWrite)
  /-- `BMV_DESC_COMPLETE` (R278): A bulk descriptor completes, and the channel fetches NEXT or ends the chain. -/
  | bmvDescComplete (b : BulkId)
  /-- `TOKEN_DELIVERY` (R202): A token delivery reaches a receive channel and updates RECV, is held, is discarded or
  is answered not yet. -/
  | tokenDelivery (k : Nat)
  /-- `STEP_LAUNCH` (R420): The next accepted home-set step launches, rebuilding frames, logging SEED and REEL, and
  applying held deliveries. -/
  | stepLaunch (r : CtxId)
  /-- `STEP_END` (R71): A step ends when every core has finished, stopped or is blocked and every transfer and
  collective is done, and its slate is formed. -/
  | stepEnd (r : CtxId)
  /-- `COMPLETION_RECORD` (R587): Once room allows, the slate area, the log entries, the completion record and then
  the MSI-X message are written. -/
  | completionRecord (r : CtxId)
  /-- `COMPLETION_COALESCE_TIMEOUT` (R587): COALUS expires with an unsignalled record, and the completion vector is
  signalled. -/
  | completionCoalesceTimeout (r : CtxId)
  /-- `CALL_SHEET_POLL` (R581): At each POLLNS multiple, the call-sheet unit reads tail words and accepts
  submissions. `reads`: what the host bus answers, report by report. -/
  | callSheetPoll (reads : (List SheetRead))
  /-- `RESUME` (R584): Writing CTX_CS_CTL.RESUME reads the refused slot again. `slot`: the slot read again. -/
  | resume (sl : SlotId) (w : RegWrite) (slot : (Option Bytes))
  /-- `SKIP` (R584): Writing CTX_CS_CTL.SKIP advances the head past the refused submission and resumes polling. -/
  | skip (sl : SlotId) (w : RegWrite)
  /-- `LAUNCH_GROUP` (R384): The timecode reaches a launch target, and the group's cores start with a per-core
  stagger. -/
  | launchGroup (r : CtxId) (group : (BitVec 8))
  /-- `TICK` (R387): A tick generator reaches a tick instant and advances its total. -/
  | tick (g : (Fin 4))
  /-- `TC_SET` (R375): A write to TC_SET sets the master's count forward while FREE. -/
  | tcSet (w : RegWrite)
  /-- `REACQ` (R380): Writing TC_CTL.REACQ with no context enabled enters ACQUIRE. -/
  | reacq (w : RegWrite)
  /-- `MARKER_SEND` (R376): Every 1,000 counts, each UP port sends a timecode marker. -/
  | markerSend (p : PortId)
  /-- `MARKER` (R379): A received marker updates the offset, the upstream choice and the alignment state, stepping
  or slewing the count. `m`: what the marker carries; the low four bits of its `t4` are the instant of its arrival
  within the nanosecond, in 1/16 ns. -/
  | marker (p : PortId) (m : Marker)
  /-- `LOG_NOTE` (R408): A write to CTX_LOG_NOTE logs a NOTE entry. -/
  | logNote (sl : SlotId) (w : RegWrite)
  /-- `LOG_MODE_WRITE` (R408): Writing CTX_LOG_CFG.MODE zeroes HEAD and clears the replay counters. -/
  | logModeWrite (sl : SlotId) (w : RegWrite)
  /-- `LOG_ENTRY_WRITE` (R395): A waiting log entry is written once the ring has room, releasing its producer. -/
  | logEntryWrite (r : CtxId)
  /-- `REPLAY_SUBMIT` (R399): In REPLAY, a logged SUBMIT is accepted in SEQ order, paced by timecode when PACE is 1.
  `entries`: the entries that stand in the ring from the head on. -/
  | replaySubmit (r : CtxId) (entries : (List LogRec))
  /-- `CONTEXT_ENABLE` (R416): Writing 1 to CTX_CTL.EN enters CHECKING and reads the image. -/
  | contextEnable (sl : SlotId) (w : RegWrite)
  /-- `CONSISTENCY_CHECK` (R417): The image check completes, and the context becomes RESIDENT or is refused with a
  reason code. `bytes`, `img`: the image read and its meaning; `partner`: the counterpart on a paired device. -/
  | consistencyCheck (sl : SlotId) (bytes : (Option Bytes)) (img : (Option Image)) (partner : (Option Counterpart))
  /-- `CONTEXT_DISABLE` (R418): Writing 0 to CTX_CTL.EN cancels the context's steps and frees all its resources. -/
  | contextDisable (sl : SlotId) (w : RegWrite)
  /-- `SHELVE` (R435): Writing CTX_CTL.SHELVE requests shelving when the context is next blocked. -/
  | shelve (sl : SlotId) (w : RegWrite)
  /-- `RETURN` (R435): Writing SCHED_DIRCTL.RETURN requests the return of a shelved context. -/
  | returnCtx (w : RegWrite)
  /-- `DISABLE` (R418): Writing SCHED_DIRCTL.DISABLE disables a SHELVED context. -/
  | disableShelved (w : RegWrite)
  /-- `SWAP` (R433): Once every resident context has been blocked beyond SWAPT, one is shelved and a runnable
  shelved one returns. -/
  | swap
  /-- `SHELVING_COMPLETE` (R434): Shelving copies are done, and the granules, code segments and slot are released. -/
  | shelvingComplete (r : CtxId)
  /-- `RETURN_COMPLETE` (R434): A return copies the shelf back in and resumes the takes. `bytes`: the image read
  again. -/
  | returnComplete (r : CtxId) (bytes : (Option Bytes))
  /-- `FLOATING_CLAIM` (R428): A floating step claims its first N candidate cores once enough are free. -/
  | floatingClaim (r : CtxId) (k : Nat)
  /-- `FLOAT_TIMEOUT` (R430): A floating step that has waited FLOATTO without claiming its cores times out, is
  abandoned or fails. -/
  | floatTimeout (r : CtxId) (k : Nat)
  /-- `PAGE_ACCESS` (R304): An access to a context virtual address reaches the page manager and is translated. -/
  | pageAccess (r : CtxId) (va : Nat) (write : Bool)
  /-- `PLACEMENT_TIMEOUT` (R306): A page that finds no frame for 10 ms faults with MV_UNMAPPED. -/
  | placementTimeout (r : CtxId) (va : Nat)
  /-- `DDR_READ` (R320): A DDR line read is decoded, and corrected, poisoned or served as poisoned. `err`: the 40
  symbols in which the line read differs from the line written; `copy`: those of the other copy of a system-area
  line. -/
  | ddrRead (ch : (Fin 16)) (addr : Nat) (err : (List (BitVec 16))) (copy : (List (BitVec 16)))
  /-- `DDR_REFRESH` (R293): A controller refreshes its modules at the JEDEC interval. -/
  | ddrRefresh (ch : (Fin 16))
  /-- `PATROL_SCRUB` (R321): Patrol scrub reads a line and treats it under R320. `err`, `copy`: as for DDR_READ;
  `raced`: another write has reached the line since the read. -/
  | patrolScrub (ch : (Fin 16)) (addr : Nat) (err : (List (BitVec 16))) (copy : (List (BitVec 16))) (raced : Bool)
  /-- `DDR_TRAINING` (R629): DDR training begins once MEM_CFG is locked or 500 ms after firmware start. -/
  | ddrTraining
  /-- `MIGRATION_EPOCH` (R309): At each epoch end, the page manager promotes and demotes pages and clears the
  counters. -/
  | migrationEpoch (e : EdgeId)
  /-- `MIGRATION_DRAIN` (R311): The last access to the old frame is acknowledged, and the page copy begins. -/
  | migrationDrain (r : CtxId) (page : Nat)
  /-- `MIGRATION_COPY` (R311): The page copy completes, and the entry is switched and the old frame released. `ok`:
  every line has been acknowledged at the new place. -/
  | migrationCopy (r : CtxId) (page : Nat) (ok : Bool)
  /-- `LENDER_LOST` (R308): An unreachable lender poisons every page on its frames. -/
  | lenderLost (dev : (BitVec 12))
  /-- `ALLOC` (R315): The ALLOC page command maps unmapped pages. -/
  | alloc (sl : SlotId) (w : RegWrite)
  /-- `FREE` (R315): The FREE page command unmaps pages and frees their frames. -/
  | free (sl : SlotId) (w : RegWrite)
  /-- `SETATTR` (R315): The SETATTR page command sets MIRROR. -/
  | setattr (sl : SlotId) (w : RegWrite)
  /-- `CLRATTR` (R315): The CLRATTR page command clears MIRROR. -/
  | clrattr (sl : SlotId) (w : RegWrite)
  /-- `PIN` (R315): The PIN page command pins pages, promoting them first. -/
  | pin (sl : SlotId) (w : RegWrite)
  /-- `UNPIN` (R315): The UNPIN page command clears PIN. -/
  | unpin (sl : SlotId) (w : RegWrite)
  /-- `CLEARPOISON` (R315): The CLEARPOISON page command zeroes poisoned lines, clears POISONED and logs an
  INTERVENE entry. -/
  | clearPoison (sl : SlotId) (w : RegWrite)
  /-- `LINK_ENABLE` (R340): Writing 1 to LNK_CTL.EN checks the port and enters DETECT. -/
  | linkEnable (p : PortId) (w : RegWrite)
  /-- `LINK_DISABLE` (R346): Writing 0 to LNK_CTL.EN takes the port to OFF. -/
  | linkDisable (p : PortId) (w : RegWrite)
  /-- `DETECT_BURST` (R339): Every 10 ms in DETECT, a training burst is sent and the port looks for signal. `lanes`:
  the lanes with signal. -/
  | detectBurst (p : PortId) (lanes : (BitVec 8))
  /-- `LINK_TRAINING` (R339): Training ends with an agreed lane mask, or fails. `lanes`: the lane mask agreed, if
  training succeeded. -/
  | linkTraining (p : PortId) (lanes : (Option (BitVec 8)))
  /-- `IDENT` (R556): The IDENT exchange of device number, role and quote completes, or rejects the partner. `info`:
  what the partner shows. -/
  | ident (p : PortId) (info : (Option IdentInfo))
  /-- `KEYX` (R341): The hybrid key exchange completes and sets the direction keys. `partner`: the messages of the
  other end; none: the exchange or a signature has failed. -/
  | keyx (p : PortId) (partner : (Option Bytes))
  /-- `TIMECAL` (R377): The 64 marker exchanges complete and fix the link delay d. `markers`: the 64 marker
  exchanges. -/
  | timecal (p : PortId) (markers : (List Marker))
  /-- `LINK_STATE_TIMEOUT` (R339): A training, identification, key-exchange or calibration state exceeds its time
  limit. -/
  | linkStateTimeout (p : PortId)
  /-- `REKEY` (R342): Before the counter limit or after 24 hours, a new KEYX runs over the live link. `partner`: as
  for KEYX. -/
  | rekey (p : PortId) (partner : (Option Bytes))
  /-- `FLIT_RECEIVE` (R337): A flit is received, checked by FEC and CRC, accepted in SEQ order, and updates
  acknowledgements and credits. The 256 bytes received: `head`: the header; `payload`: the 224 bytes after it;
  `check`: the CRC and the FEC symbols. -/
  | flitReceive (p : PortId) (head : (BitVec 64)) (payload : Bytes) (check : Bytes)
  /-- `RETRY_TIMEOUT` (R338): ACKSEQ stalls for 20 µs, or a SEQ is replayed 8 times, and the port fails with
  PT_RETRY. -/
  | retryTimeout (p : PortId)
  /-- `LANE_FAULT` (R343): A lane loses symbol lock, exceeds the FEC limit or is retired by LANERET, starting
  RELANE. -/
  | laneFault (p : PortId) (lane : (Fin 8))
  /-- `RELANE_COMPLETE` (R343): The ports restripe and return to UP, or fail with PT_LANES. `ok`: the ends agree on
  a mask; `markers`: the 64 marker exchanges. -/
  | relaneComplete (p : PortId) (ok : Bool) (markers : (List Marker))
  /-- `LOSS_OF_SIGNAL` (R345): Every lane loses signal for 1 µs, and the port goes down to DETECT or OFF. -/
  | lossOfSignal (p : PortId)
  /-- `WRITE` (R356): A WRITE packet is accepted, written and acknowledged, or refused. Received on port `p`. -/
  | writePkt (p : PortId) (pkt : Packet)
  /-- `READ_REQ` (R356): A READ_REQ packet is answered with data and poison map, or refused. Received on port `p`. -/
  | readReq (p : PortId) (pkt : Packet)
  /-- `READ_RESP` (R351): A READ_RESP answers a read; the first copy is used. Received on port `p`. -/
  | readResp (p : PortId) (pkt : Packet)
  /-- `ACK` (R351): An ACK answers a request as done, refused or not yet. Received on port `p`. -/
  | ack (p : PortId) (pkt : Packet)
  /-- `TOKEN_PACKET` (R358): A TOKEN packet delivers a SENT value to a receive channel or is refused. Received on
  port `p`. -/
  | tokenPacket (p : PortId) (pkt : Packet)
  /-- `ATOMIC` (R357): An ATOMIC packet applies its operation at the destination in arrival order. Received on port
  `p`. -/
  | atomic (p : PortId) (pkt : Packet)
  /-- `COLL` (R363): A COLL packet delivers XPs or bytes of a collective segment to the reduce engine. Received on
  port `p`. -/
  | coll (p : PortId) (pkt : Packet)
  /-- `REQUEST_RESEND` (R351): A request unanswered for LIFETIME is sent again with a new BIRTH. -/
  | requestResend (id : Nat)
  /-- `REQUEST_RTO` (R351): A request unanswered until RTO faults its transfer or ends its step with FAILED_LINK. -/
  | requestRto (id : Nat)
  /-- `NOT_YET_RETRY` (R352): 10 µs after a not-yet answer, the request is sent again. -/
  | notYetRetry (id : Nat)
  /-- `NOT_YET_TIMEOUT` (R352): A request answered not yet for COLLTO fails its collective or ends its step. -/
  | notYetTimeout (id : Nat)
  /-- `ROUTE_ENTRY_WRITE` (R371): A write to FAB_RTDATA stores a route entry and advances ENTRY. -/
  | routeEntryWrite (w : RegWrite)
  /-- `CREDIT_FLOOR_WRITE` (R354): A write to FAB_CRFLOORc is checked against the floor sum limit. -/
  | creditFloorWrite (c : (Fin 8)) (w : RegWrite)
  /-- `RQ_WINDOW_ENABLE` (R359): Setting FAB_RQCFGi.EN binds a receive threshold line and zeroes its total. -/
  | rqWindowEnable (k : (Fin 32)) (w : RegWrite)
  /-- `COLLECTIVE_START` (R366): The reduce engine starts a queued collective once its token count is reached and
  fewer than 16 are running. -/
  | collectiveStart (e : EdgeId) (r : CtxId)
  /-- `COLLECTIVE_COMPLETE` (R368): A collective's writes are visible, and the engine delivers its completion in
  queue order. -/
  | collectiveComplete (e : EdgeId) (r : CtxId)
  /-- `COLLECTIVE_TIMEOUT` (R367): A collective without progress for COLLTO fails with FAILED_TIMEOUT. -/
  | collectiveTimeout (e : EdgeId) (r : CtxId)
  /-- `GO` (R462): Writing CTX_PRINTCTL.GO checks and arms an evaluation snapshot. -/
  | goSnapshot (sl : SlotId) (w : RegWrite)
  /-- `SNAPSHOT_START` (R463): At the first instant with no step in progress, the snapshot marks its pages PRINTING
  and starts shipping. -/
  | snapshotStart (r : CtxId)
  /-- `SNAPSHOT_PAGE_SENT` (R464): A page's last write is acknowledged, and its PRINTING bit clears. -/
  | snapshotPageSent (r : CtxId)
  /-- `REEL_LOAD` (R476): Writing CTX_REELCTL.GO checks the manifest and starts loading a reel. `manifest`: the
  manifest as the host bus answers it. -/
  | reelLoad (sl : SlotId) (w : RegWrite) (manifest : (Option Bytes))
  /-- `ABORT` (R490): Writing CTX_REELCTL.ABORT ends the load and frees the staging pages. -/
  | abort (sl : SlotId) (w : RegWrite)
  /-- `COMMIT` (R484): Setting CTX_REELCTL.COMMIT selects the staged generation for later steps. -/
  | commit (sl : SlotId) (w : RegWrite)
  /-- `REEL_STREAM_BIND` (R488): A write to CTX_REELSTRMn binds a weight-stream request line to a layer. -/
  | reelStreamBind (sl : SlotId) (k : (Fin 4)) (w : RegWrite)
  /-- `REEL_CHUNK` (R478): A reel chunk is received, verified, written to staging, hashed and forwarded. `data`: the
  chunk as it comes, ciphertext and tag. -/
  | reelChunk (r : CtxId) (shard : Nat) (chunk : Nat) (data : Bytes)
  /-- `CHUNK_TIMEOUT` (R481): A chunk missing for CHUNKTO is requested again, and fails the reel on its third
  failure. -/
  | chunkTimeout (r : CtxId) (shard : Nat) (chunk : Nat)
  /-- `REEL_SWITCH` (R486): Once no floating step runs and no page migrates, shard and staging entries are exchanged
  and ACTGEN is set. -/
  | reelSwitch (r : CtxId)
  /-- `CORE_FAULT` (R494): A core fault detector fires, and the core is fenced and retired in service. -/
  | coreFault (n : CoreId)
  /-- `BEAT_TIMEOUT` (R493): No beat arrives from a core for 40 µs, and a core fault is declared. -/
  | beatTimeout (n : CoreId)
  /-- `RETAKE` (R502): A faulted take is remapped to a candidate core from its mirror, and run again. `n`: the core
  that has failed. -/
  | retake (n : CoreId) (r : CtxId)
  /-- `MIRROR_COMMIT` (R499): The buddy applies a take commit once all of it has arrived. -/
  | mirrorCommit (n : CoreId) (r : CtxId)
  /-- `CHECK_TAKE` (R508): A checked take is rerun on another core, and the two take digests are compared. `orig`:
  the take digest of the original run; `check`: that of the check take, with its contributions. -/
  | checkTake (n : CoreId) (r : CtxId) (orig : Digest) (check : TakeRun)
  /-- `ARBITER` (R509): An arbiter run settles a check mismatch and names the suspect. `arb`: the take digest of the
  third run, with its contributions. -/
  | arbiter (n : CoreId) (r : CtxId) (arb : TakeRun)
  /-- `DEVICE_FAULT` (R495): A device fault stops issue, sends resign messages, fails steps and asserts ALERT_N. -/
  | deviceFault
  /-- `PAIR_ENABLE` (R510): Writing 1 to PAIR_CTL.EN runs the pairing check. -/
  | pairEnable (w : RegWrite)
  /-- `PAIR_DISABLE` (R528): Writing 0 to PAIR_CTL.EN ends the pairing. -/
  | pairDisable (w : RegWrite)
  /-- `HANDOVER` (R518): Writing PAIR_CTL.HANDOVER starts the firmware-renewal handover. -/
  | handover (w : RegWrite)
  /-- `PROMOTE` (R512): Writing CTX_RELCTL.PROMOTE turns a stand-in into a serving context. -/
  | promote (sl : SlotId) (w : RegWrite)
  /-- `MIRROR_STEP_COMMIT` (R511): At each step end, a mirror primary ships written MIRROR lines and awaits the
  stand-in's acknowledgement. `acked`: the stand-in has the commit; `got`: a commit received. -/
  | mirrorStepCommit (r : CtxId) (acked : Bool) (got : (Option Commit))
  /-- `TWIN_SLATE_EXCHANGE` (R515): The twins exchange step slates, and both fail on a mismatch. -/
  | twinSlateExchange (r : CtxId) (slate : (BitVec 256))
  /-- `HEARTBEAT` (R516): Every 50 µs, each twin sends a heartbeat on each PAIR port. -/
  | heartbeat
  /-- `PARTNER_LOST` (R516): Four missed heartbeat periods or a resign message declare the partner lost, and the
  survivor takes over. `resign`: the partner says so itself. -/
  | partnerLost (resign : Bool)
  /-- `TAKEOVER_ANNOUNCE` (R516): A received alias announcement with a higher EPOCH updates the entry, is forwarded,
  and triggers resends. -/
  | takeoverAnnounce (p : PortId) (m : AliasMsg)
  /-- `RESYNC` (R518): At a step boundary, the serving twin ships every page to the renewed twin, which becomes
  passive. `got`: pages received. -/
  | resync (r : CtxId) (got : (List PageCopy))
  /-- `ONLINE_TEST` (R520): Writing REL_OTEST.GO drains and tests one core, port or lane. -/
  | onlineTest (w : RegWrite)
  /-- `ONLINE_TEST_COMPLETE` (R521): An online test ends, and the unit becomes a spare, is restored or is retired.
  `fails`: what the test found. -/
  | onlineTestComplete (fails : (List TestFail))
  /-- `WRAP_TEST` (R522): Writing REL_WRAP.GO runs the shutdown self-test on every block. -/
  | wrapTest (w : RegWrite)
  /-- `WRAP_TEST_COMPLETE` (R522): The wrap test ends and writes its repair records. `fails`: what the test found. -/
  | wrapTestComplete (fails : (List TestFail))
  /-- `HEALTH_RECORD` (R525): Every PERIOD seconds, a health record is written to the dailies ring. -/
  | healthRecord
  /-- `COLD_START` (R531): PWR_EN asserts, and the rail groups come up in order, banks are repaired and the device
  starts. -/
  | coldStart
  /-- `RAIL_SEQUENCE_TIMEOUT` (R531): A rail group fails to reach regulation within 5 ms, and SEQFAIL is set.
  `group`: the rail group that did not come up. -/
  | railSequenceTimeout (group : (BitVec 3))
  /-- `POWER_DOWN` (R621): PWR_EN deasserts, keys are emptied and the rail groups go down in reverse order. -/
  | powerDown
  /-- `VIN_UNDERVOLTAGE` (R622): VIN below 38 V for 10 µs sets SEQFAIL and takes the rails down. -/
  | vinUndervoltage
  /-- `VAUX_LOSS` (R622): VAUX leaves its limits, and every VIN rail goes off. -/
  | vauxLoss
  /-- `TC_REF_LOSS` (R622): TC_REF absent for 10 µs causes a device fault. -/
  | tcRefLoss
  /-- `POWER_PERIOD` (R536): Every 10 µs, the power controller estimates power, allocates the budget, sets throttles
  and attributes energy. `counts`: the events of the period by class and kind. -/
  | powerPeriod (counts : (List Nat))
  /-- `POWER_CALIBRATION` (R534): Every 1 ms, the measured power recalibrates the estimate gain. `meas`: the
  measured power word. -/
  | powerCalibration (meas : Nat)
  /-- `CAP_WRITE` (R535): A write to PWR_CAP or MG_CAP sets or refuses the power cap. -/
  | capWrite (src : MbSrc) (w : RegWrite)
  /-- `RETAIN_REQUEST` (R533): Writing PWR_CTL.REQ 0b01 enters RETAIN or is refused. -/
  | retainRequest (w : RegWrite)
  /-- `RETAIN_EXIT` (R533): Writing PWR_CTL.REQ 0b10 leaves RETAIN. -/
  | retainExit (w : RegWrite)
  /-- `IDLE_ENTRY` (R533): After 1 ms with no activity, the device enters IDLE. -/
  | idleEntry
  /-- `FREQUENCY_STEP` (R538): An A clock moves one 25 MHz step, with its rail following. -/
  | frequencyStep (t : TileId)
  /-- `DROOP` (R539): A droop sensor reads below the threshold, and the tile's clock stretches. -/
  | droop (t : TileId)
  /-- `DROOP_END` (R539): Every sensor has been above the threshold for 32 cycles, and stretching ends. -/
  | droopEnd (t : TileId)
  /-- `FILL_LIGHT_TIMEOUT` (R541): Fill-light stops after MAXUS µs of continuous waiting. -/
  | fillLightTimeout (n : CoreId)
  /-- `CONVOY_ANNOUNCE` (R543): A throttle lasting 200 µs is announced, and repeated every 100 µs. -/
  | convoyAnnounce
  /-- `CONVOY_RECEIVE` (R544): A received convoy announcement is forwarded once and lowers the A clocks of a
  following device. -/
  | convoyReceive (p : PortId) (m : Convoy)
  /-- `CONVOY_EXPIRE` (R544): An announcement not repeated for 500 µs is dropped. -/
  | convoyExpire (dev : (BitVec 12))
  /-- `THERMAL_STEP` (R545): Every 100 µs, thermal limits lower or raise the frequency and duty, and act at 105 °C
  and 110 °C. `temps`: the six temperatures in °C. -/
  | thermalStep (temps : (List Nat))
  /-- `FIRMWARE_FETCH` (R578): Writing HOST_FWCTL.GO makes the SMC read the firmware image. -/
  | firmwareFetch (w : RegWrite)
  /-- `BOOT_CHECK` (R551): The fetched image is verified and runs, or is rejected. `img`: the firmware image
  fetched. -/
  | bootCheck (img : FwImage)
  /-- `FIRMWARE_FETCH_TIMEOUT` (R551): A fetch not complete within 1 s fails with code 0x7. -/
  | firmwareFetchTimeout
  /-- `GET_CERTS` (R557): The mailbox command GET_CERTS returns both certificate chains. -/
  | getCerts (src : MbSrc) (req : Bytes)
  /-- `QUOTE` (R555): The mailbox command QUOTE returns a signed quote. -/
  | quote (src : MbSrc) (req : Bytes)
  /-- `KEY_OPEN` (R559): The mailbox command KEY_OPEN creates an ephemeral key pair and returns a quote binding it. -/
  | keyOpen (src : MbSrc) (req : Bytes)
  /-- `KEY_LOAD` (R559): The mailbox command KEY_LOAD unwraps a key into a page slot or transport key. -/
  | keyLoad (src : MbSrc) (req : KeyRecord)
  /-- `KEY_CLEAR` (R557): The mailbox command KEY_CLEAR empties a key target. -/
  | keyClear (src : MbSrc) (req : Bytes)
  /-- `DBG_CHAL` (R557): The mailbox command DBG_CHAL returns a fresh nonce. -/
  | dbgChal (src : MbSrc) (req : Bytes)
  /-- `TOKEN` (R565): The mailbox command TOKEN verifies a debug grant or lifecycle token and applies it. -/
  | token (src : MbSrc) (req : TokenMsg)
  /-- `DBG_DROP` (R565): The mailbox command DBG_DROP lowers the debug level at once. -/
  | dbgDrop (src : MbSrc) (req : Bytes)
  /-- `ARB_FUSE` (R552): The mailbox command ARB_FUSE blows anti-rollback fuses up to the running SVN. -/
  | arbFuse (src : MbSrc) (req : Bytes)
  /-- `EPHEMERAL_KEY_EXPIRE` (R559): The ephemeral key pair expires 60 s after KEY_OPEN. -/
  | ephemeralKeyExpire
  /-- `DEBUG_HALT` (R564): At D2, a core is halted, as a hold with cause 0x8. -/
  | debugHalt (n : CoreId)
  /-- `EXTEST` (R568): Selecting JTAG EXTEST empties the key store and holds the device in reset. -/
  | extest
  /-- `CLAMP` (R568): Selecting JTAG CLAMP empties the key store and holds the device in reset. -/
  | clamp
  /-- `HIGHZ` (R568): Selecting JTAG HIGHZ empties the key store and holds the device in reset. -/
  | highz
  /-- `TEST_LOGIC_RESET` (R568): The TAP enters Test-Logic-Reset and releases the device. -/
  | testLogicReset
  /-- `WARM_RESET` (R443): A warm reset ends every step, empties scratchpads and keys, and deasserts domains in
  order. -/
  | warmReset
  /-- `RST` (R588): Writing GLB_CTL.RST starts a warm reset with the link kept in L0. -/
  | rst (w : RegWrite)
  /-- `PERST_N` (R588): Asserting PERST_N causes a fundamental reset and a warm reset. -/
  | perstN
  /-- `FUNCTION_LEVEL_RESET` (R588): A Function Level Reset causes a warm reset and a firmware fetch. -/
  | functionLevelReset
  /-- `D3HOT` (R572): Entering D3hot stops polling and bus requests. -/
  | d3hot
  /-- `BAR2_ACCESS` (R575): A BAR2 access is mapped through its segment, served or refused. -/
  | bar2Access (off : Nat) (size : Nat) (data : (Option Bytes))
  /-- `INGEST_WRITE` (R577): A write to an ingest window lands units, advances the total and logs INPUT entries. -/
  | ingestWrite (off : Nat) (data : Bytes)
  /-- `ENTDAA` (R591): The I3C CCC ENTDAA assigns a dynamic address. -/
  | entdaa (addr : (BitVec 7))
  /-- `SETDASA` (R591): The I3C CCC SETDASA sets a dynamic address from the static one. -/
  | setdasa (addr : (BitVec 7))
  /-- `SETNEWDA` (R591): The I3C CCC SETNEWDA changes the dynamic address. -/
  | setnewda (addr : (BitVec 7))
  /-- `RSTDAA` (R591): The I3C CCC RSTDAA resets the dynamic address. -/
  | rstdaa
  /-- `GETPID` (R591): The I3C CCC GETPID returns the provisioned id. -/
  | getpid
  /-- `GETBCR` (R591): The I3C CCC GETBCR returns the bus characteristics register. -/
  | getbcr
  /-- `GETDCR` (R591): The I3C CCC GETDCR returns the device characteristics register. -/
  | getdcr
  /-- `GETSTATUS` (R591): The I3C CCC GETSTATUS returns the target status. -/
  | getstatus
  /-- `ENEC` (R591): The I3C CCC ENEC enables in-band interrupts. -/
  | enec (mask : (BitVec 8))
  /-- `DISEC` (R591): The I3C CCC DISEC disables in-band interrupts. -/
  | disec (mask : (BitVec 8))
  /-- `SETMWL` (R591): The I3C CCC SETMWL sets the maximum write length. -/
  | setmwl (len : (BitVec 16))
  /-- `GETMWL` (R591): The I3C CCC GETMWL returns the maximum write length. -/
  | getmwl
  /-- `SETMRL` (R591): The I3C CCC SETMRL sets the maximum read length. -/
  | setmrl (len : (BitVec 16))
  /-- `GETMRL` (R591): The I3C CCC GETMRL returns the maximum read length. -/
  | getmrl
  /-- `I3C_PRIVATE_WRITE` (R592): An I3C private write sets the offset and writes the management map. -/
  | i3cPrivateWrite (bytes : Bytes)
  /-- `GLB_DET_WRITE` (R110): A write to GLB_DET.ENF takes effect only while no context is enabled. -/
  | glbDetWrite (w : RegWrite)
  /-- `RC_READ` (R601): A read of a register holding an RC field returns the value and clears the field. -/
  | rcRead (off : Nat) (size : Nat)
  /-- `REGISTER_WRITE` (R609): A BAR0 write to a register with no row of its own is applied under the access, range,
  lock and W1C rules. -/
  | registerWrite (off : Nat) (size : Nat) (data : (BitVec 64))
  /-- `STAND_STILL_END` (R381): In ACQUIRE, the upstream time plus d reaches the stood-still count, BEHIND clears
  and the count resumes. -/
  | standStillEnd
  /-- `PAIRING_COMPLETE` (R510): The pairing check ends: the partner's pairing arrives and the state becomes PAIRED,
  or 1 s passes and the state returns to OFF with a reason. `info`: what the partner shows. -/
  | pairingComplete (info : (Option PairInfo))
  /-- `ANSWERED_REPORT` (R514): The active twin reports that a forwarded packet has been answered, and the passive
  twin releases the held packet and its space. -/
  | answeredReport (id : Nat)
  /-- `VAUX_PRESENT` (R617): VAUX comes within its limits: VDD_AON comes up, the SMC runs and the straps are
  sampled. -/
  | vauxPresent (sl : (BitVec 2)) (rcls : (BitVec 2))
  /-- `PERST_N_DEASSERT` (R620): PERST_N goes high, or PWR_OK rises while it is high, and PCIe link training begins. -/
  | perstNDeassert
  /-- `PCIE_LINK_L0` (R578): PCIe training settles: in L0 the SMC sets FWWANT, and in an unsupported configuration
  UNSUPLINK is set. `rate`, `width`: what the link has trained to; `ok`: it can be used. -/
  | pcieLinkL0 (rate : Nat) (width : Nat) (ok : Bool)
  /-- `D3HOT_EXIT` (R572): The function returns from D3hot to D0, and polling and bus requests resume. -/
  | d3hotExit
  /-- `DDR_TRAINING_DONE` (R292): DDR training completes, channels become up or retired, and MEM_STAT.INIT becomes
  ready or failed. `found`: what SPD and training give for each module. -/
  | ddrTrainingDone (found : (List DdrModule))
  /-- `BURST_COMPLETE` (R265): A burst's data lands at its destination, the lines stop being write-pending and the
  poison marks are applied. -/
  | burstComplete (ch : ChanRef) (k : Nat)
  /-- `HOST_READ_COMPLETION` (R573): A host-bus read completes with data, with EP poison, with UR or CA, or times
  out, faulting the channel where the rule says so. `read`: what the host bus answers. -/
  | hostReadCompletion (ch : ChanRef) (k : Nat) (read : HostRead)
  /-- `SCAN` (R564): At D2, a JTAG scan of the A, E0F, E1F, M, L or P domains stops the clocks of the domains
  scanned. `domains`: the clock domains stopped for the scan. -/
  | scan (domains : (List ScanDomain))
  /-- `JTAG_WRITE` (R564): At D2, a JTAG write changes a halted core's scratchpad or instruction store. -/
  | jtagWrite (n : CoreId) (target : JtagTarget) (data : Bytes)
  /-- `CHUNK_REQUEST` (R481): An upstream device or the alternate root receives a request for a chunk again and
  serves it. -/
  | chunkRequest (r : CtxId) (shard : Nat) (chunk : Nat) (dev : (BitVec 12))
  /-- `PARTNER_TEST_REQUEST` (R520): The partner of a port under online test receives the request and takes its end
  of the port into test. -/
  | partnerTestRequest (p : PortId)
  deriving DecidableEq, Repr

end Sys2Proof
end

