-- ==== Sys2Proof/Decode.lean ====
section
/-! DEFINITION. The table of operations and events gives its rows no bits, so no word spells a command
(`decodeTableWord`). What the device itself decodes is the bundle of four slots that its sequencers fetch (R213); that
decoder follows Tables 7.4 to 7.9 and answers, for each slot, the instruction or the cause code of Table 7.3. -/

namespace Sys2Proof

/-- The command a table word spells: the table gives its rows no bits. -/
def decodeTableWord (_nbits _w : Nat) : Option Instr := none

/-- Field of `w` bits from bit `lo` of a slot word. -/
def slotF (x : BitVec 32) (lo w : Nat) : BitVec w := x.extractLsb' lo w

/-- A slot decodes to an instruction, or to a cause code of Table 7.3. -/
abbrev SlotResult (α : Type) := Except Nat α

/-- The instruction `i` where the reserved bits `r` are zero, and cause 0x02 otherwise. -/
def ifZero {α : Type} (r : Bool) (i : α) : SlotResult α := if r then .ok i else .error 2

/-- The control slot (Table 7.4, R177). -/
def decodeC (x : BitVec 32) : SlotResult CInstr :=
  if x = 0 then .ok .nop
  else
    match (slotF x 24 8).toNat with
    | 0x01 => ifZero (slotF x 12 4 == 0) (.loop ⟨slotF x 22 2, slotF x 21 1 == 1, slotF x 16 5, slotF x 0 12⟩)
    | 0x02 =>
      match (slotF x 22 2).toNat with
      | 0 => ifZero (slotF x 12 7 == 0) (.br ⟨false, slotF x 19 3, slotF x 0 12⟩)
      | 1 => ifZero (slotF x 12 7 == 0) (.br ⟨true, slotF x 19 3, slotF x 0 12⟩)
      | 2 =>
        ifZero (slotF x 0 6 == 0 && slotF x 16 3 != 7)
          (.brSet ⟨slotF x 19 3, slotF x 16 3, slotF x 11 5, slotF x 6 5⟩)
      | _ => .error 1
    | 0x03 =>
      if slotF x 19 1 = 1 then
        ifZero (slotF x 20 4 == 0 && slotF x 16 3 == 0 && slotF x 8 3 == 0) (.recvAny ⟨slotF x 11 5, slotF x 0 8⟩)
      else
        ifZero (slotF x 16 3 == 0 && (slotF x 20 1 == 1 || slotF x 5 11 == 0))
          (.waittok ⟨slotF x 21 3, slotF x 20 1 == 1, slotF x 0 16⟩)
    | 0x04 =>
      ifZero (slotF x 16 4 == 0 && (slotF x 20 1 == 1 || slotF x 5 11 == 0))
        (.sendtok ⟨slotF x 21 3, slotF x 20 1 == 1, slotF x 0 16⟩)
    | 0x05 => ifZero (slotF x 0 11 == 0) (.action ⟨slotF x 16 8, slotF x 11 5⟩)
    | 0x06 => ifZero (slotF x 0 24 == 0) .cut
    | 0x07 => ifZero (slotF x 0 22 == 0 && slotF x 22 2 != 3) (.fence (slotF x 22 2))
    | 0x08 => ifZero (slotF x 0 7 == 0) (.slate ⟨slotF x 12 12, slotF x 7 5⟩)
    | 0x09 => ifZero (slotF x 1 23 == 0) (.trapcfg (slotF x 0 1 == 1))
    | 0x0A => ifZero (slotF x 0 24 == 0) .endStep
    | _ => .error 1

/-- The matrix and splice slot (Table 7.5). -/
def decodeM (x : BitVec 32) : SlotResult MInstr :=
  if x = 0 then .ok .nop
  else
    match (slotF x 24 8).toNat with
    | 0x01 =>
      ifZero (slotF x 0 8 == 0)
        (.mcfg ⟨slotF x 20 4, slotF x 16 4, slotF x 12 4, slotF x 9 3, slotF x 8 1 == 1⟩)
    | 0x02 => ifZero (slotF x 0 20 == 0) (.mstagea (slotF x 20 4))
    | 0x03 => ifZero (slotF x 0 20 == 0) (.mstageb (slotF x 20 4))
    | 0x04 => ifZero (slotF x 0 11 == 0) (.mmul ⟨slotF x 23 1 == 1, slotF x 19 4, slotF x 11 8⟩)
    | 0x05 => ifZero (slotF x 0 24 == 0) .mdrain
    | 0x06 =>
      ifZero (slotF x 0 6 == 0)
        (.mew ⟨slotF x 20 4, slotF x 16 4, slotF x 12 4, slotF x 9 3, slotF x 6 3⟩)
    | 0x10 => ifZero (slotF x 0 15 == 0) (.spadd ⟨slotF x 20 4, slotF x 15 5⟩)
    | 0x11 => ifZero (slotF x 0 13 == 0) (.spmerge ⟨slotF x 19 5, slotF x 14 5, slotF x 13 1 == 1⟩)
    | 0x12 =>
      ifZero (slotF x 0 11 == 0)
        (.spround ⟨slotF x 20 4, slotF x 15 5, slotF x 12 3, slotF x 11 1 == 1⟩)
    | 0x13 => ifZero (slotF x 0 13 == 0) (.spexport ⟨slotF x 19 5, slotF x 14 5, slotF x 13 1 == 1⟩)
    | 0x14 => ifZero (slotF x 0 14 == 0) (.spimport ⟨slotF x 19 5, slotF x 14 5⟩)
    | _ => .error 1

/-- The vector opcodes of the common layout (Table 7.7). -/
def vopOf (op : Nat) : Option VOp :=
  match op with
  | 0x01 => some .vadd | 0x02 => some .vmul | 0x03 => some .vfma | 0x04 => some .vmax | 0x05 => some .vcmp
  | 0x06 => some .vsel | 0x07 => some .vcvt | 0x08 => some .vred | 0x10 => some .vexp | 0x11 => some .vlog
  | 0x12 => some .vrsq | 0x13 => some .vrcp | 0x14 => some .vtanh | 0x15 => some .vsig | 0x16 => some .vgelu
  | 0x17 => some .vsin | 0x18 => some .vcos | 0x20 => some .vrand | 0x22 => some .vrowreplay | _ => none

/-- The common vector layout (Table 7.6). -/
def vecOf (x : BitVec 32) : VecF :=
  ⟨slotF x 20 4, slotF x 15 5, slotF x 10 5, slotF x 7 3, slotF x 6 1 == 1, slotF x 1 5, slotF x 0 1 == 1⟩

/-- The vector slot (Tables 7.6 to 7.8). -/
def decodeV (x : BitVec 32) : SlotResult VInstr :=
  if x = 0 then .ok .nop
  else
    let op := (slotF x 24 8).toNat
    if op = 0x21 then
      ifZero (slotF x 7 3 == 0 && slotF x 0 6 == 0)
        (.vupd ⟨slotF x 20 4, slotF x 16 4, slotF x 11 5, slotF x 10 1 == 1, slotF x 6 1 == 1⟩)
    else
      match vopOf op with
      | some v => .ok (.vec v (vecOf x))
      | none => .error 1

/-- The transfer kind of a D-slot opcode (Table 7.9). -/
def mkindOf (op : Nat) : Option MKind :=
  match op with
  | 0x02 => some .movg | 0x03 => some .hash | 0x04 => some .fill | 0x05 => some .cmpm | 0x06 => some .swp | _ => none

/-- The mover slot (Table 7.9). -/
def decodeD (x : BitVec 32) : SlotResult DInstr :=
  if x = 0 then .ok .nop
  else
    let op := (slotF x 24 8).toNat
    if op = 0x01 then
      match (slotF x 21 3).toNat with
      | 0 => ifZero (slotF x 0 14 == 0) (.move .xfer ⟨slotF x 19 2, slotF x 14 5⟩)
      | 1 => .ok (.seti ⟨slotF x 16 5, slotF x 0 16⟩)
      | 2 => .ok (.sethi ⟨slotF x 16 5, slotF x 0 16⟩)
      | 3 => ifZero (slotF x 0 3 == 0) (.salu ⟨slotF x 18 3, slotF x 13 5, slotF x 8 5, slotF x 3 5⟩)
      | 4 => ifZero (slotF x 0 9 == 0) (.tadj ⟨slotF x 17 4, slotF x 15 2, slotF x 14 1 == 1, slotF x 9 5⟩)
      | 5 => ifZero (slotF x 0 16 == 0) (.setvl (slotF x 16 5))
      | _ => .error 1
    else
      match mkindOf op with
      | some k => ifZero (slotF x 0 17 == 0) (.move k ⟨slotF x 22 2, slotF x 17 5⟩)
      | none => .error 1

/-- The four slots of a bundle (R213), or the first slot in the order C, M, V, D that does not decode, with its
cause. -/
def decodeBundle (x : BitVec 128) : Except (Nat × Nat) Bundle :=
  match decodeC (x.extractLsb' 96 32), decodeM (x.extractLsb' 64 32), decodeV (x.extractLsb' 32 32),
      decodeD (x.extractLsb' 0 32) with
  | .error c, _, _, _ => .error (0, c)
  | _, .error c, _, _ => .error (1, c)
  | _, _, .error c, _ => .error (2, c)
  | _, _, _, .error c => .error (3, c)
  | .ok c, .ok m, .ok v, .ok d => .ok ⟨c, m, v, d⟩

end Sys2Proof
end

