-- ==== Sys2Proof/Machine/Hash.lean ====
section
/-! DEFINITION. The hash and check functions: SHA3-256 and the tree digest over it (R283 to R285), the CRC-32 of repair
records (Table 15.10) and the CRC-64 of flits and take digests (R335, R507). -/

namespace Sys2Proof.Machine

/-! ### SHA3-256 (FIPS 202), lane `x + 5 y` of the state at index `x + 5 y` of the list -/

/-- A 64-bit rotation to the left. -/
def rotl64 (v n : Nat) : Nat := (v * 2 ^ (n % 64)) % 2 ^ 64 + v / 2 ^ (64 - n % 64) % 2 ^ (n % 64)

/-- Lane `i` of a state. -/
def lane (a : List Nat) (i : Nat) : Nat := a.getD i 0

/-- The rotation offsets of the rho step, by lane. -/
def rhoOffsets : List Nat :=
  [0, 1, 62, 28, 27, 36, 44, 6, 55, 20, 3, 10, 43, 25, 39, 41, 45, 15, 21, 8, 18, 2, 61, 56, 14]

/-- The round constants of the iota step. -/
def keccakRc : List Nat :=
  [0x0000000000000001, 0x0000000000008082, 0x800000000000808A, 0x8000000080008000, 0x000000000000808B,
   0x0000000080000001, 0x8000000080008081, 0x8000000000008009, 0x000000000000008A, 0x0000000000000088,
   0x0000000080008009, 0x000000008000000A] ++
  [0x000000008000808B, 0x800000000000008B, 0x8000000000008089, 0x8000000000008003, 0x8000000000008002,
   0x8000000000000080, 0x000000000000800A, 0x800000008000000A, 0x8000000080008081, 0x8000000000008080,
   0x0000000080000001, 0x8000000080008008]

/-- The theta step. -/
def keccakTheta (a : List Nat) : List Nat :=
  let c := (List.range 5).map fun x =>
    lane a x ^^^ lane a (x + 5) ^^^ lane a (x + 10) ^^^ lane a (x + 15) ^^^ lane a (x + 20)
  let d := (List.range 5).map fun x => lane c ((x + 4) % 5) ^^^ rotl64 (lane c ((x + 1) % 5)) 1
  (List.range 25).map fun i => lane a i ^^^ lane d (i % 5)

/-- The rho and pi steps: lane (x, y) of the result is lane (x + 3 y, x) of the rotated state. -/
def keccakRhoPi (a : List Nat) : List Nat :=
  (List.range 25).map fun i =>
    let j := (i % 5 + 3 * (i / 5)) % 5 + 5 * (i % 5)
    rotl64 (lane a j) (rhoOffsets.getD j 0)

/-- The chi step. -/
def keccakChi (a : List Nat) : List Nat :=
  (List.range 25).map fun i =>
    let y := 5 * (i / 5)
    lane a i ^^^ ((2 ^ 64 - 1 - lane a (y + (i + 1) % 5)) &&& lane a (y + (i + 2) % 5))

/-- One round of Keccak-f[1600] with its constant. -/
def keccakRound (a : List Nat) (rc : Nat) : List Nat :=
  match keccakChi (keccakRhoPi (keccakTheta a)) with
  | [] => []
  | x :: xs => (x ^^^ rc) :: xs

/-- Keccak-f[1600]. -/
def keccakF (a : List Nat) : List Nat := keccakRc.foldl keccakRound a

/-- The 17 lanes of one 136-byte block. -/
def blockLanes : Nat → Bytes → List Nat
  | 0, _ => []
  | n + 1, bs => leNat (bs.take 8) :: blockLanes n (bs.drop 8)

/-- Absorbing one block. -/
def absorb (a : List Nat) (blk : Bytes) : List Nat :=
  let w := blockLanes 17 blk
  keccakF ((List.range 25).map fun i => lane a i ^^^ lane w i)

/-- The padded message: 0x06, zeros, and the last bit of the rate. -/
def sha3Pad (bs : Bytes) : Bytes :=
  let n := 136 - bs.length % 136
  if n = 1 then bs ++ [0x86#8] else bs ++ [0x06#8] ++ List.replicate (n - 2) 0#8 ++ [0x80#8]

/-- Absorbing `n` blocks. -/
def absorbAll : Nat → List Nat → Bytes → List Nat
  | 0, a, _ => a
  | n + 1, a, bs => absorbAll n (absorb a (bs.take 136)) (bs.drop 136)

/-- SHA3-256 of a byte sequence, 32 bytes. -/
def sha3 (bs : Bytes) : Bytes :=
  let p := sha3Pad bs
  let a := absorbAll (p.length / 136) (List.replicate 25 0) p
  ((a.take 4).map (leBytes 8)).flatten

/-- A 32-byte digest as a number, byte 0 lowest. -/
def digestNat (bs : Bytes) : BitVec 256 := BitVec.ofNat 256 (leNat bs)

/-- The 32 bytes of a digest. -/
def digestBytes (d : BitVec 256) : Bytes := leBytes 32 d.toNat

/-! ### Tree digests (R283 to R285) -/

/-- The leaf digest of the chunk with index `i` (R283). -/
def leafDigest (i : Nat) (c : Bytes) : Bytes := sha3 (0x00#8 :: leBytes 8 i ++ leBytes 4 c.length ++ c)

/-- The leaf digests of a sequence from chunk index `i` on. -/
def leaves : Nat → Nat → Bytes → List Bytes
  | 0, _, _ => []
  | n + 1, i, bs => leafDigest i (bs.take 65536) :: leaves n (i + 1) (bs.drop 65536)

/-- All leaf digests of a sequence, the first chunk having index `i`. -/
def leavesOf (i : Nat) (bs : Bytes) : List Bytes := leaves ((bs.length + 65535) / 65536) i bs

/-- The root over a leaf list for a region of `n` bytes (R284). -/
def treeRoot (n : Nat) (ls : Bytes) : Bytes := sha3 (0x01#8 :: leBytes 8 n ++ ls)

/-- The root of a byte sequence (R284). -/
def rootOf (bs : Bytes) : Bytes := treeRoot bs.length (leavesOf 0 bs).flatten

/-! ### Cyclic redundancy checks -/

/-- `n` reflected steps of the CRC-32 of IEEE 802.3. -/
def crc32Bits : Nat → Nat → Nat
  | 0, c => c
  | n + 1, c => crc32Bits n (if c % 2 = 1 then (c / 2) ^^^ 0xEDB88320 else c / 2)

/-- The CRC-32 of IEEE 802.3 (Table 15.10). -/
def crc32 (bs : Bytes) : Nat :=
  (bs.foldl (fun c b => crc32Bits 8 (c ^^^ b.toNat)) 0xFFFFFFFF) ^^^ 0xFFFFFFFF

/-- `n` steps of the CRC-64 of ECMA-182. -/
def crc64Bits : Nat → Nat → Nat
  | 0, c => c
  | n + 1, c => crc64Bits n (if c ≥ 2 ^ 63 then (c * 2 % 2 ^ 64) ^^^ 0x42F0E1EBA9EA3693 else c * 2)

/-- The CRC-64 of ECMA-182, most significant bit first, register 0 at the start (R335). -/
def crc64 (bs : Bytes) : Nat := bs.foldl (fun c b => crc64Bits 8 (c ^^^ (b.toNat * 2 ^ 56))) 0

end Sys2Proof.Machine
end

