-- ==== Sys2Proof/Machine/Ecc.lean ====
section
/-! DEFINITION. The Reed–Solomon codes of DDR lines (R317, R318) and of flits (R336), and a flit as it is received (R335,
R337): decoding by syndromes, the shortest locator, its roots and Forney's formula. -/

namespace Sys2Proof.Machine

/-! ### The fields -/

/-- A field GF(2^`bits`), its polynomial written with its leading term; α is the residue of x. -/
structure Gf where
  bits : Nat
  poly : Nat
  deriving DecidableEq, Repr

/-- The field of flits (R336) and the field of DDR lines (R317). -/
def gfFlit : Gf := ⟨8, 0x11D⟩
def gfLine : Gf := ⟨16, 0x1100B⟩

/-- A field element times α. -/
def gfTwice (f : Gf) (a : Nat) : Nat := if (2 * a).testBit f.bits then (2 * a) ^^^ f.poly else 2 * a

/-- A product, over the `n` lowest bits of the second factor. -/
def gfMulBits (f : Gf) : Nat → Nat → Nat → Nat
  | 0, _, _ => 0
  | n + 1, a, b => (if b % 2 = 1 then a else 0) ^^^ gfMulBits f n (gfTwice f a) (b / 2)

/-- A product. -/
def gfMul (f : Gf) (a b : Nat) : Nat := gfMulBits f f.bits a b

/-- α to a power. -/
def gfAlpha (f : Gf) : Nat → Nat
  | 0 => 1
  | n + 1 => gfTwice f (gfAlpha f n)

/-- The product of a², a⁴ and so on, `n` factors. -/
def gfSquares (f : Gf) : Nat → Nat → Nat
  | 0, _ => 1
  | n + 1, a => gfMul f (gfMul f a a) (gfSquares f n (gfMul f a a))

/-- The inverse of an element other than 0. -/
def gfInv (f : Gf) (a : Nat) : Nat := gfSquares f (f.bits - 1) a

/-! ### Polynomials, the coefficient of x^0 first -/

/-- The value of a polynomial. -/
def gfEval (f : Gf) (p : List Nat) (x : Nat) : Nat := p.foldr (fun c a => c ^^^ gfMul f a x) 0

/-- Two polynomials added. -/
def gfAdd : List Nat → List Nat → List Nat
  | [], q => q
  | p, [] => p
  | a :: p, b :: q => (a ^^^ b) :: gfAdd p q

/-- A polynomial times a constant and a power of x. -/
def gfShift (f : Gf) (c n : Nat) (p : List Nat) : List Nat := List.replicate n 0 ++ p.map (gfMul f c)

/-! ### Decoding (R317, R336) -/

/-- The eight syndromes of a word whose first symbol is the coefficient of the highest power; the generator's roots are
α^0 to α^7. -/
def rsSyndromes (f : Gf) (w : List Nat) : List Nat :=
  (List.range 8).map fun j =>
    let x := gfAlpha f j
    w.foldl (fun a r => gfMul f a x ^^^ r) 0

/-- The search for the shortest locator: the locator, the one before its length last grew, that length, the steps since,
the discrepancy then. -/
structure RsSearch where
  c : List Nat
  b : List Nat
  len : Nat
  gap : Nat
  d : Nat
  deriving DecidableEq, Repr

/-- One step of the search, at syndrome `n`. -/
def rsStep (f : Gf) (syn : List Nat) (a : RsSearch) (n : Nat) : RsSearch :=
  let d := (List.range (a.len + 1)).foldl (fun x i => if i ≤ n then x ^^^ gfMul f (a.c.getD i 0) (syn.getD (n - i) 0) else x) 0
  if d = 0 then { a with gap := a.gap + 1 }
  else
    let c := gfAdd a.c (gfShift f (gfMul f d (gfInv f a.d)) a.gap a.b)
    if 2 * a.len ≤ n then ⟨c, a.c, n + 1 - a.len, 1, d⟩ else { a with c := c, gap := a.gap + 1 }

/-- The error locator of eight syndromes, and its length. -/
def rsLocator (f : Gf) (syn : List Nat) : List Nat × Nat :=
  let a := (List.range 8).foldl (rsStep f syn) ⟨[1], [1], 0, 1, 1⟩
  (a.c, a.len)

/-- The value of the error where the locator `c` has the root that belongs to power `p`. -/
def rsValue (f : Gf) (syn c : List Nat) (p : Nat) : Nat :=
  let x := gfAlpha f p
  let xi := gfInv f x
  let om := ((List.range 8).map fun k => (List.range (k + 1)).foldl (fun a i => a ^^^ gfMul f (c.getD i 0) (syn.getD (k - i) 0)) 0)
  let odd := (List.range c.length).map fun i => if i % 2 = 0 then c.getD (i + 1) 0 else 0
  gfMul f (gfMul f x (gfEval f om xi)) (gfInv f (gfEval f odd xi))

/-- The generator polynomial without its highest coefficient, from the next one down: its roots are α^0 to α^7. -/
def rsGenerator (f : Gf) : List Nat :=
  ((List.range 8).foldl
    (fun g j => (List.range (g.length + 1)).map fun i =>
      (if i < g.length then g.getD i 0 else 0) ^^^ (if i = 0 then 0 else gfMul f (g.getD (i - 1) 0) (gfAlpha f j))) [1]).drop 1

/-- The eight check symbols of a word's data, the first of the highest power. -/
def rsCheck (f : Gf) (data : List Nat) : List Nat :=
  let g := rsGenerator f
  data.foldl
    (fun r d =>
      let k := d ^^^ r.getD 0 0
      (List.range 8).map fun i => r.getD (i + 1) 0 ^^^ gfMul f k (g.getD i 0)) (List.replicate 8 0)

/-- A word with errors taken away. -/
def rsApply (w : List Nat) (es : List (Nat × Nat)) : List Nat :=
  es.foldl (fun w e => w.set e.1 (w.getD e.1 0 ^^^ e.2)) w

/-- The errors of a word, by symbol and value: none at all, or at most four, where these explain it; no answer where the
word is uncorrectable. -/
def rsErrors (f : Gf) (w : List Nat) : Option (List (Nat × Nat)) :=
  let syn := rsSyndromes f w
  if syn.all (· == 0) then some []
  else
    let l := rsLocator f syn
    let at_ := (List.range w.length).filter fun i => gfEval f l.1 (gfInv f (gfAlpha f (w.length - 1 - i))) == 0
    if 4 < l.2 ∨ at_.length ≠ l.2 then none
    else
      let es := at_.map fun i => (i, rsValue f syn l.1 (w.length - 1 - i))
      if (rsSyndromes f (rsApply w es)).all (· == 0) then some es else none

/-! ### DDR lines (R318, R320) -/

/-- The poison pattern over the 40 symbols of a line: its check symbols XORed with 0x5A5A. -/
def poisonPattern : List Nat := List.replicate 32 0 ++ List.replicate 8 0x5A5A

/-- The symbols of a word with a pattern XORed. -/
def xorSymbols (a b : List Nat) : List Nat := (List.range 40).map fun i => a.getD i 0 ^^^ b.getD i 0

/-- What the decoder makes of a line read with an error pattern, the line standing poisoned or not: whether it is a
poisoned line, and the errors it corrects, none where it is uncorrectable. The code is linear, so the data do not
matter. -/
def lineDecode (err : List (BitVec 16)) (poisoned : Bool) : Bool × Option (List (Nat × Nat)) :=
  let e := err.map (·.toNat)
  let asPoison := if poisoned then e else xorSymbols e poisonPattern
  let asData := if poisoned then xorSymbols e poisonPattern else e
  match rsErrors gfLine asPoison with
  | some es => (true, some es)
  | none => (false, rsErrors gfLine asData)

/-- What the 64 bytes of a line are XORed with once the errors `es` of a pattern are taken away; symbol i holds bytes 2i and
2i + 1 (R14). -/
def lineMask (err : List (BitVec 16)) (es : List (Nat × Nat)) : Bytes :=
  (((rsApply (err.map (·.toNat)) es).take 32).map (leBytes 2)).flatten

/-! ### Flits (R335 to R337) -/

/-- A flit as the receiver has it after FEC; `fixed` lists the bytes that FEC has corrected. -/
structure Flit where
  seq : BitVec 12
  ackseq : BitVec 12
  nak : Bool
  ctrl : Bool
  crcls : BitVec 4
  crcnt : BitVec 11
  payload : Bytes
  crcOk : Bool
  fixed : List Nat
  uncorr : Nat
  deriving DecidableEq, Repr

/-- Codeword 0 or 1 of a flit: its even or its odd bytes. -/
def flitWord (raw : Bytes) (k : Nat) : List Nat := (List.range 128).map fun i => (raw.getD (2 * i + k) 0).toNat

/-- The header, the payload, the check and the corrections of 256 received bytes; a codeword that cannot be corrected is
taken as it came. -/
def flitDecode (raw : Bytes) : Flit :=
  let e0 := rsErrors gfFlit (flitWord raw 0)
  let e1 := rsErrors gfFlit (flitWord raw 1)
  let w0 := rsApply (flitWord raw 0) (e0.getD [])
  let w1 := rsApply (flitWord raw 1) (e1.getD [])
  let bs : Bytes := (List.range 256).map fun i => BitVec.ofNat 8 ((if i % 2 = 0 then w0 else w1).getD (i / 2) 0)
  let h := leNat (bs.take 8)
  { seq := BitVec.ofNat 12 h, ackseq := BitVec.ofNat 12 (h / 2 ^ 12), nak := h.testBit 24, ctrl := h.testBit 25
    crcls := BitVec.ofNat 4 (h / 2 ^ 26), crcnt := BitVec.ofNat 11 (h / 2 ^ 30), payload := (bs.drop 8).take 224
    crcOk := crc64 (bs.take 232) == leNat ((bs.drop 232).take 8)
    fixed := ((e0.getD []).map fun e => 2 * e.1) ++ (e1.getD []).map fun e => 2 * e.1 + 1
    uncorr := (if e0.isNone then 1 else 0) + (if e1.isNone then 1 else 0) }

/-- The header of a flit (Table 10.2). -/
def flitHeader (seq ackseq : BitVec 12) (nak ctrl : Bool) (pool count : Nat) : Nat :=
  seq.toNat + ackseq.toNat * 2 ^ 12 + (if nak then 2 ^ 24 else 0) + (if ctrl then 2 ^ 25 else 0) + pool % 16 * 2 ^ 26 +
    count % 2048 * 2 ^ 30

/-- A flit as it goes out: header, payload, CRC, check symbols (Table 10.2, R336). -/
def flitEncode (header : Nat) (payload : Bytes) : Bytes :=
  let body := leBytes 8 header ++ (payload ++ List.replicate 224 0).take 224
  let bs := body ++ leBytes 8 (crc64 body)
  let check (k : Nat) : List Nat := rsCheck gfFlit ((List.range 120).map fun i => (bs.getD (2 * i + k) 0).toNat)
  let c0 := check 0
  let c1 := check 1
  bs ++ (List.range 16).map fun i => BitVec.ofNat 8 ((if i % 2 = 0 then c0 else c1).getD (i / 2) 0)

end Sys2Proof.Machine
end

