-- ==== Sys2Proof/Machine/Aes.lean ====
section
/-! DEFINITION. AES-256 (FIPS 197) and its two modes in the device: GCM for the chunks of a reel (R475) and XTS for the lines
of protected pages (R326). A block is a list of 16 bytes. -/

namespace Sys2Proof.Machine

/-! ### The block cipher -/

/-- The field of AES. -/
def gfAes : Gf := ⟨8, 0x11B⟩

/-- A byte rotated to the left. -/
def rotl8 (a n : Nat) : Nat := (a * 2 ^ n ||| a / 2 ^ (8 - n)) % 256

/-- The S-box: the inverse, then the affine map. -/
def sboxOf (a : Nat) : Nat :=
  let b := if a = 0 then 0 else gfInv gfAes a
  b ^^^ rotl8 b 1 ^^^ rotl8 b 2 ^^^ rotl8 b 3 ^^^ rotl8 b 4 ^^^ 0x63

/-- The S-box and its inverse as tables. -/
def sboxTable : List Nat := (List.range 256).map sboxOf
def invTable : List Nat := (List.range 256).map fun b => sboxTable.findIdx (· == b)
def sbox (a : Byte) : Byte := BitVec.ofNat 8 (sboxTable.getD a.toNat 0)
def invSbox (a : Byte) : Byte := BitVec.ofNat 8 (invTable.getD a.toNat 0)

/-- A byte times a constant of the field. -/
def aesMul (c : Nat) (a : Byte) : Byte := BitVec.ofNat 8 (gfMul gfAes a.toNat c)

/-- Two byte sequences XORed, as far as the shorter goes. -/
def xorBytes (a b : Bytes) : Bytes := (a.zip b).map fun p => p.1 ^^^ p.2

/-- The words of the key schedule, 4 bytes each, latest first: word `n` from those before it. -/
def keyWords : Nat → List Bytes → List Bytes
  | 0, ws => ws
  | k + 1, ws =>
    let ws := keyWords k ws
    let n := ws.length
    let t := ws.headD []
    let t :=
      if n % 8 = 0 then
        xorBytes ((t.drop 1 ++ t.take 1).map sbox) [BitVec.ofNat 8 (gfAlpha gfAes (n / 8 - 1)), 0, 0, 0]
      else if n % 8 = 4 then t.map sbox else t
    xorBytes t (ws.getD 7 []) :: ws

/-- The 15 round keys of a 32-byte key. -/
def roundKeys (key : Bytes) : List Bytes :=
  let ws := (keyWords 52 ((List.range 8).map fun i => (key.drop (4 * (7 - i))).take 4)).reverse
  (List.range 15).map fun r => ((ws.drop (4 * r)).take 4).flatten

/-- Rows shifted: byte `r + 4 c` of the result comes from column `c + r`, or `c - r` in the inverse. -/
def shiftRows (b : Bytes) : Bytes := (List.range 16).map fun i => b.getD (i % 4 + 4 * ((i / 4 + i % 4) % 4)) 0
def unshiftRows (b : Bytes) : Bytes := (List.range 16).map fun i => b.getD (i % 4 + 4 * ((i / 4 + 4 - i % 4) % 4)) 0

/-- Columns mixed with the constants of the first row of the matrix. -/
def mixColumns (m : List Nat) (b : Bytes) : Bytes :=
  (List.range 16).map fun i =>
    (List.range 4).foldl (fun a k => a ^^^ aesMul (m.getD ((k + 4 - i % 4) % 4) 0) (b.getD (i / 4 * 4 + k) 0)) 0

/-- One block encrypted. -/
def aesEnc (key blk : Bytes) : Bytes :=
  let ks := roundKeys key
  let b := (List.range 13).foldl (fun b r => xorBytes (mixColumns [2, 3, 1, 1] (shiftRows (b.map sbox))) (ks.getD (r + 1) []))
    (xorBytes blk (ks.getD 0 []))
  xorBytes (shiftRows (b.map sbox)) (ks.getD 14 [])

/-- One block decrypted. -/
def aesDec (key blk : Bytes) : Bytes :=
  let ks := roundKeys key
  let b := (List.range 13).foldl
    (fun b r => mixColumns [14, 11, 13, 9] (xorBytes ((unshiftRows b).map invSbox) (ks.getD (13 - r) [])))
    (xorBytes blk (ks.getD 14 []))
  xorBytes ((unshiftRows b).map invSbox) (ks.getD 0 [])

/-! ### GCM (R475) -/

/-- The number a byte sequence spells, first byte highest, and the bytes of a number so. -/
def beNat (bs : Bytes) : Nat := leNat bs.reverse
def beOf (n v : Nat) : Bytes := (leBytes n v).reverse

/-- A product of GHASH, over the `n` bits of the first factor from the highest on. -/
def ghashMul : Nat → Nat → Nat → Nat
  | 0, _, _ => 0
  | n + 1, x, v =>
    (if x.testBit n then v else 0) ^^^ ghashMul n x (if v % 2 = 1 then (v / 2) ^^^ (0xE1 * 2 ^ 120) else v / 2)

/-- The 16-byte blocks of a sequence, the last filled with zeros. -/
def blocks16 (bs : Bytes) : List Bytes :=
  (List.range ((bs.length + 15) / 16)).map fun i =>
    let b := (bs.drop (16 * i)).take 16
    b ++ List.replicate (16 - b.length) 0

/-- The tag over additional data and ciphertext. -/
def gcmTag (key iv aad ct : Bytes) : Bytes :=
  let h := beNat (aesEnc key (List.replicate 16 0))
  let lens := beOf 8 (8 * aad.length) ++ beOf 8 (8 * ct.length)
  let y := (blocks16 aad ++ blocks16 ct ++ [lens]).foldl (fun y b => ghashMul 128 (y ^^^ beNat b) h) 0
  xorBytes (beOf 16 y) (aesEnc key (iv ++ beOf 4 1))

/-- The keystream applied: encryption and decryption alike. -/
def gcmCrypt (key iv bs : Bytes) : Bytes :=
  xorBytes bs (((List.range ((bs.length + 15) / 16)).map fun i => aesEnc key (iv ++ beOf 4 (i + 2))).flatten)

/-- A ciphertext followed by its tag opened, where the tag holds. -/
def gcmOpen (key iv aad bs : Bytes) : Option Bytes :=
  let ct := bs.take (bs.length - 16)
  if 16 ≤ bs.length ∧ gcmTag key iv aad ct = bs.drop (bs.length - 16) then some (gcmCrypt key iv ct) else none

/-- A plaintext sealed: the ciphertext and its tag. -/
def gcmSeal (key iv aad pt : Bytes) : Bytes :=
  let ct := gcmCrypt key iv pt
  ct ++ gcmTag key iv aad ct

/-! ### XTS (R326) -/

/-- A tweak times α, over its little-endian bytes. -/
def tweakNext (t : Bytes) : Bytes :=
  let v := 2 * leNat t
  leBytes 16 (if v.testBit 128 then v ^^^ 0x87 else v)

/-- The tweaks of `n` blocks from the first. -/
def tweaks : Nat → Bytes → List Bytes
  | 0, _ => []
  | n + 1, t => t :: tweaks n (tweakNext t)

/-- Blocks passed through a cipher between two additions of their tweaks. -/
def xtsWith (f : Bytes → Bytes) (key tweak bs : Bytes) : Bytes :=
  ((blocks16 bs).zip (tweaks ((bs.length + 15) / 16) (aesEnc (key.drop 32) tweak))).flatMap fun p =>
    xorBytes (f (xorBytes p.1 p.2)) p.2

/-- A line of whole blocks encrypted and decrypted under a 64-byte key. -/
def xtsEnc (key tweak bs : Bytes) : Bytes := xtsWith (aesEnc (key.take 32)) key tweak bs
def xtsDec (key tweak bs : Bytes) : Bytes := xtsWith (aesDec (key.take 32)) key tweak bs

/-- The tweak of the line at a virtual address (R326): its number in bits [41:0], little-endian. -/
def lineTweak (va : Nat) : Bytes := leBytes 16 (va / 64 % 2 ^ 42)

end Sys2Proof.Machine
end

