-- ==== Sys2Proof/Config.lean ====
section
/-! DEFINITION. The values the manual leaves open, as constants without a body: nothing can be proved of them but what
holds whatever they are. -/

namespace Sys2Proof

/-- A value the manual calls undefined, or gives no number for, drawn in the order of the counter `State.freeCtr`;
log entry 2. -/
opaque Config.free : Nat → Nat

/-- The wide form after an addition that overflows it (R96); log entry 26. -/
opaque Config.wideOverflow : Int → Int → BitVec 768

/-- The random word of the hardware entropy source (R168), in drawing order; log entry 11. -/
opaque Config.entropy : Nat → BitVec 32

/-- The fused unique secret U (R554); log entry 11. -/
opaque Config.fusedSecret : List (BitVec 8)

/-- The public key of an Ed25519 private key, and the signature of a message by it (RFC 8032); log entry 11. -/
opaque Config.edPublic : List (BitVec 8) → List (BitVec 8)
opaque Config.edSign : List (BitVec 8) → List (BitVec 8) → List (BitVec 8)

/-- The public key that ML-DSA-65 makes from a seed, and the deterministic signature of a message by its private key
(FIPS 204); log entry 11. -/
opaque Config.mldsaPublic : List (BitVec 8) → List (BitVec 8)
opaque Config.mldsaSign : List (BitVec 8) → List (BitVec 8) → List (BitVec 8)

/-- The X25519 function of a private key and a public key (RFC 7748); log entry 11. -/
opaque Config.x25519 : List (BitVec 8) → List (BitVec 8) → List (BitVec 8)

/-- The encapsulation key that ML-KEM-768 makes from a seed, the secret and the ciphertext that it makes from an encapsulation
key and a random value, and the secret of a ciphertext under the key of a seed (FIPS 203); log entry 11. -/
opaque Config.mlkemPublic : List (BitVec 8) → List (BitVec 8)
opaque Config.mlkemEncaps : List (BitVec 8) → List (BitVec 8) → List (BitVec 8) × List (BitVec 8)
opaque Config.mlkemDecaps : List (BitVec 8) → List (BitVec 8) → List (BitVec 8)

/-- What the n-th draw of random bytes gives: a private key, a seed, the random value of IDENT (R341, R556, R559); log entry 11. -/
opaque Config.random : Nat → List (BitVec 8)

/-- The certificate chains of R553 as `GET_CERTS` returns them; log entry 11. -/
opaque Config.certs : List (BitVec 8)

/-- The plaintext a page reads as once its data was lost with its frame or its key (R308, R328); log entry 30. -/
opaque Config.lostByte : Nat → BitVec 8

/-- The bytes of a control message after its code, by code and contents (R335); log entry 39. -/
opaque Config.ctrlByte : Nat → List Nat → Nat → BitVec 8

/-- The hash of `SRCDEV`, `DSTDEV` and `REQID` by which a device picks among the ports of a route (R348);
log entry 37. -/
opaque Config.portHash : Nat → Nat → Nat → Nat

/-- The order in which the ten x4 devices of a subchannel carry the 40 symbols of the line at a channel address, four
each (R317); log entry 103. -/
opaque Config.symbolPlace : Nat → Equiv.Perm (Fin 40)

/-- The subchannel of the line at a channel address (R317); log entry 103. -/
opaque Config.subchannel : Nat → Fin 2

/-- `FIRST_DIFF` of two regions that differ by poison marks alone, over the bytes of both and the poisoned lines
(R282); log entry 121. -/
opaque Config.compareOffset : List (BitVec 8) → List Nat → Nat

/-- Where the page tables lie: the 128 KiB unit of the system area that the table of a number takes, each its own (R301);
log entry 99. -/
opaque Config.tableUnit : Equiv.Perm (Fin 65536)

/-- A byte of the system area outside the page tables, over the frame table and the address within a copy (R296, R297);
log entry 99. -/
opaque Config.systemByte : List (List Nat) → Nat → BitVec 8

/-- Whether a lender has a frame left for this device, which holds a number of its frames (R306, R307); log entry 29. -/
opaque Config.lenderHas : Nat → Nat → Bool

/-- The bus address of a page of the host pool, in units of 2 MiB, as the array at a base gives it, over the number of the
array's contents (R313); log entry 29. -/
opaque Config.poolAddr : Nat → Nat → Nat → Nat

/-- The energy in pJ of an event of a class (0 links, 1 memory, 2 compute) and kind, a constant of the firmware
(R534); log entry 88. -/
opaque Config.energy : Nat → Nat → Nat

/-- The leakage model of the firmware, in units of 10^-7 W, over the tiles' temperatures and clocks (R534);
log entry 88. -/
opaque Config.leak : List Nat → List Nat → Nat

end Sys2Proof
end

