-- ==== Sys2Proof/Machine/RegMap.lean ====
section
/-! DEFINITION. The BAR0 map (R596 to R599): where every register lies, and the fields of every register with their
places, access kinds and cold values, as the register tables of the chapters give them. The management map's registers
(R592) are kept beside them, above the BAR0 range. -/

namespace Sys2Proof.Machine

/-- Access kinds of a field (R16, R17, R610). -/
inductive Acc4 where
  | ro | rw | rwl | w1c | rc | wo
  deriving DecidableEq, Repr

/-- A field: the offset of its register's first instance, the strides of its two indices, its lowest bit, its width,
its cold value and its access kind. -/
structure Fld where
  off : Nat
  s1 : Nat
  s2 : Nat
  lo : Nat
  w : Nat
  cold : Nat
  acc : Acc4
  deriving DecidableEq, Repr

/-- A register: the offset of its first instance, the counts and strides of its two indices, and its fields. -/
structure RegD where
  off : Nat
  c1 : Nat
  s1 : Nat
  c2 : Nat
  s2 : Nat
  fields : List Fld
  deriving DecidableEq, Repr

/-- Where the management map's registers are kept: above every BAR0 offset. -/
def mgBase : Nat := 0x40000000

/-! ### Fields -/

/-- `CORE_STATE.USE` (R212, Table 6.7). -/
def F.coreStateUse : Fld := ⟨0x1000000, 0x1000, 0x0, 0, 2, 0, .ro⟩
/-- `CORE_STATE.RUNCTX` (R212, Table 6.7). -/
def F.coreStateRunctx : Fld := ⟨0x1000000, 0x1000, 0x0, 2, 3, 0, .ro⟩
/-- `CORE_STATE.RUNNING` (R212, Table 6.7). -/
def F.coreStateRunning : Fld := ⟨0x1000000, 0x1000, 0x0, 5, 1, 0, .ro⟩
/-- `CORE_STATE.HOLD` (R212, Table 6.7). -/
def F.coreStateHold : Fld := ⟨0x1000000, 0x1000, 0x0, 6, 1, 0, .ro⟩
/-- `CORE_STATE.ISSUEWAIT` (R212, Table 6.7). -/
def F.coreStateIssuewait : Fld := ⟨0x1000000, 0x1000, 0x0, 7, 1, 0, .ro⟩
/-- `CORE_STATE.HOLDCAUSE` (R212, Table 6.7). -/
def F.coreStateHoldcause : Fld := ⟨0x1000000, 0x1000, 0x0, 8, 4, 0, .ro⟩
/-- `CORE_STATE.PC` (R212, Table 6.7). -/
def F.coreStatePc : Fld := ⟨0x1000000, 0x1000, 0x0, 12, 12, 0, .ro⟩
/-- `CORE_HOLDCYC.COUNT` (R212, Table 6.8). -/
def F.coreHoldcycCount : Fld := ⟨0x1000008, 0x1000, 0x0, 0, 64, 0, .rc⟩
/-- `CORE_WAITCYC.COUNT` (R212, Table 6.8). -/
def F.coreWaitcycCount : Fld := ⟨0x1000010, 0x1000, 0x0, 0, 64, 0, .rc⟩
/-- `CORE_TAKECYC.COUNT` (R212, Table 6.8). -/
def F.coreTakecycCount : Fld := ⟨0x1000018, 0x1000, 0x0, 0, 64, 0, .ro⟩
/-- `CORE_VMAPs.VX` (R212, Table 6.9). -/
def F.coreVmapVx : Fld := ⟨0x1000020, 0x1000, 0x8, 0, 6, 0, .ro⟩
/-- `CORE_VMAPs.VY` (R212, Table 6.9). -/
def F.coreVmapVy : Fld := ⟨0x1000020, 0x1000, 0x8, 8, 5, 0, .ro⟩
/-- `CORE_VMAPs.VALID` (R212, Table 6.9). -/
def F.coreVmapValid : Fld := ⟨0x1000020, 0x1000, 0x8, 31, 1, 0, .ro⟩
/-- `CMV_CTLc.PAUSE` (R275, Table 8.7). -/
def F.cmvCtlPause : Fld := ⟨0x1000100, 0x1000, 0x40, 0, 1, 0, .rw⟩
/-- `CMV_STATc.STATE` (R275, Table 8.7). -/
def F.cmvStatState : Fld := ⟨0x1000108, 0x1000, 0x40, 0, 2, 0, .ro⟩
/-- `CMV_STATc.CLASS` (R275, Table 8.7). -/
def F.cmvStatClass : Fld := ⟨0x1000108, 0x1000, 0x40, 2, 2, 0, .ro⟩
/-- `CMV_STATc.FAULT` (R275, Table 8.7). -/
def F.cmvStatFault : Fld := ⟨0x1000108, 0x1000, 0x40, 4, 1, 0, .w1c⟩
/-- `CMV_STATc.REASON` (R275, Table 8.7). -/
def F.cmvStatReason : Fld := ⟨0x1000108, 0x1000, 0x40, 8, 8, 0, .ro⟩
/-- `CMV_SRCc.ADDR` (R275, Table 8.7). -/
def F.cmvSrcAddr : Fld := ⟨0x1000110, 0x1000, 0x40, 0, 64, 0, .ro⟩
/-- `CMV_DSTc.ADDR` (R275, Table 8.7). -/
def F.cmvDstAddr : Fld := ⟨0x1000118, 0x1000, 0x40, 0, 64, 0, .ro⟩
/-- `CMV_REMc.BYTES` (R275, Table 8.7). -/
def F.cmvRemBytes : Fld := ⟨0x1000120, 0x1000, 0x40, 0, 32, 0, .ro⟩
/-- `BMV_DESCw.DATA` (R280, Table 8.8). -/
def F.bmvDescData : Fld := ⟨0x800000, 0x100, 0x8, 0, 64, 0, .rw⟩
/-- `BMV_CTL.EN` (R280, Table 8.8). -/
def F.bmvCtlEn : Fld := ⟨0x800040, 0x100, 0x0, 0, 1, 0, .rw⟩
/-- `BMV_CTL.CLASS` (R280, Table 8.8). -/
def F.bmvCtlClass : Fld := ⟨0x800040, 0x100, 0x0, 1, 2, 0, .rw⟩
/-- `BMV_CTL.OWNER` (R280, Table 8.8). -/
def F.bmvCtlOwner : Fld := ⟨0x800040, 0x100, 0x0, 3, 6, 0, .rw⟩
/-- `BMV_CTL.FWOWN` (R280, Table 8.8). -/
def F.bmvCtlFwown : Fld := ⟨0x800040, 0x100, 0x0, 9, 1, 0, .rw⟩
/-- `BMV_CTL.IRQ` (R280, Table 8.8). -/
def F.bmvCtlIrq : Fld := ⟨0x800040, 0x100, 0x0, 10, 8, 0, .rw⟩
/-- `BMV_CTL.IRQEN` (R280, Table 8.8). -/
def F.bmvCtlIrqen : Fld := ⟨0x800040, 0x100, 0x0, 18, 1, 0, .rw⟩
/-- `BMV_STAT.STATE` (R280, Table 8.8). -/
def F.bmvStatState : Fld := ⟨0x800048, 0x100, 0x0, 0, 2, 0, .ro⟩
/-- `BMV_STAT.DONE` (R280, Table 8.8). -/
def F.bmvStatDone : Fld := ⟨0x800048, 0x100, 0x0, 2, 1, 0, .w1c⟩
/-- `BMV_STAT.FAIL` (R280, Table 8.8). -/
def F.bmvStatFail : Fld := ⟨0x800048, 0x100, 0x0, 3, 1, 0, .w1c⟩
/-- `BMV_STAT.REASON` (R280, Table 8.8). -/
def F.bmvStatReason : Fld := ⟨0x800048, 0x100, 0x0, 4, 8, 0, .ro⟩
/-- `BMV_STAT.FAILCODE` (R280, Table 8.8). -/
def F.bmvStatFailcode : Fld := ⟨0x800048, 0x100, 0x0, 12, 8, 0, .ro⟩
/-- `BMV_STAT.DESCCNT` (R280, Table 8.8). -/
def F.bmvStatDesccnt : Fld := ⟨0x800048, 0x100, 0x0, 32, 32, 0, .ro⟩
/-- `DDR_STAT.STATE` (R330, Table 9.6). -/
def F.ddrStatState : Fld := ⟨0x200000, 0x1000, 0x0, 0, 3, 0, .ro⟩
/-- `DDR_STAT.MODE` (R330, Table 9.6). -/
def F.ddrStatMode : Fld := ⟨0x200000, 0x1000, 0x0, 3, 3, 0, .ro⟩
/-- `DDR_STAT.CAP` (R330, Table 9.6). -/
def F.ddrStatCap : Fld := ⟨0x200000, 0x1000, 0x0, 6, 4, 0, .ro⟩
/-- `DDR_CE.COUNT` (R330, Table 9.6). -/
def F.ddrCeCount : Fld := ⟨0x200008, 0x1000, 0x0, 0, 32, 0, .rc⟩
/-- `DDR_UE.COUNT` (R330, Table 9.6). -/
def F.ddrUeCount : Fld := ⟨0x200010, 0x1000, 0x0, 0, 32, 0, .rc⟩
/-- `DDR_ELOG.ADDR` (R330, Table 9.6). -/
def F.ddrElogAddr : Fld := ⟨0x200018, 0x1000, 0x0, 0, 42, 0, .ro⟩
/-- `DDR_ELOG.DEVICE` (R330, Table 9.6). -/
def F.ddrElogDevice : Fld := ⟨0x200018, 0x1000, 0x0, 42, 5, 0, .ro⟩
/-- `DDR_ELOG.KIND` (R330, Table 9.6). -/
def F.ddrElogKind : Fld := ⟨0x200018, 0x1000, 0x0, 47, 2, 0, .ro⟩
/-- `DDR_DEVERR.SEEN` (R330, Table 9.6). -/
def F.ddrDeverrSeen : Fld := ⟨0x200020, 0x1000, 0x0, 0, 20, 0, .ro⟩
/-- `MEM_CFG.MAXMODE` (R330, Table 9.6). -/
def F.memCfgMaxmode : Fld := ⟨0x200800, 0x0, 0x0, 0, 2, 2, .rwl⟩
/-- `MEM_CFG.RCLASS` (R330, Table 9.6). -/
def F.memCfgRclass : Fld := ⟨0x200800, 0x0, 0x0, 2, 2, 2, .rwl⟩
/-- `MEM_CFG.LOCK` (R330, Table 9.6). -/
def F.memCfgLock : Fld := ⟨0x200800, 0x0, 0x0, 4, 1, 0, .rwl⟩
/-- `MEM_STAT.INIT` (R330, Table 9.6). -/
def F.memStatInit : Fld := ⟨0x200808, 0x0, 0x0, 0, 2, 0, .ro⟩
/-- `MEM_STAT.FAILCODE` (R330, Table 9.6). -/
def F.memStatFailcode : Fld := ⟨0x200808, 0x0, 0x0, 4, 4, 0, .ro⟩
/-- `MEM_STAT.CAPGIB` (R330, Table 9.6). -/
def F.memStatCapgib : Fld := ⟨0x200808, 0x0, 0x0, 32, 32, 0, .ro⟩
/-- `MEM_SCRUB.PERIOD` (R330, Table 9.6). -/
def F.memScrubPeriod : Fld := ⟨0x200810, 0x0, 0x0, 0, 16, 24, .rw⟩
/-- `MEM_SCRUB.EN` (R330, Table 9.6). -/
def F.memScrubEn : Fld := ⟨0x200810, 0x0, 0x0, 16, 1, 1, .rw⟩
/-- `MEM_MIG.EPOCH` (R330, Table 9.6). -/
def F.memMigEpoch : Fld := ⟨0x200818, 0x0, 0x0, 0, 16, 100, .rw⟩
/-- `MEM_MIG.RATE` (R330, Table 9.6). -/
def F.memMigRate : Fld := ⟨0x200818, 0x0, 0x0, 16, 16, 64, .rw⟩
/-- `MEM_MIG.EN` (R330, Table 9.6). -/
def F.memMigEn : Fld := ⟨0x200818, 0x0, 0x0, 32, 1, 1, .rw⟩
/-- `MEM_MIG.DEMOTE` (R330, Table 9.6). -/
def F.memMigDemote : Fld := ⟨0x200818, 0x0, 0x0, 33, 1, 1, .rw⟩
/-- `MEM_LEND.FRAMES` (R330, Table 9.6). -/
def F.memLendFrames : Fld := ⟨0x200820, 0x0, 0x0, 0, 32, 0, .rw⟩
/-- `MEM_PEERk.DEV` (R330, Table 9.6). -/
def F.memPeerDev : Fld := ⟨0x200828, 0x0, 0x8, 0, 12, 0, .rw⟩
/-- `MEM_PEERk.VALID` (R330, Table 9.6). -/
def F.memPeerValid : Fld := ⟨0x200828, 0x0, 0x8, 12, 1, 0, .rw⟩
/-- `MEM_HPOOL_BASE.ADDR` (R330, Table 9.6). -/
def F.memHpoolBaseAddr : Fld := ⟨0x200868, 0x0, 0x0, 0, 64, 0, .rw⟩
/-- `MEM_HPOOL_CNT.COUNT` (R330, Table 9.6). -/
def F.memHpoolCntCount : Fld := ⟨0x200870, 0x0, 0x0, 0, 32, 0, .rw⟩
/-- `MEM_MIGCNT.IN` (R330, Table 9.6). -/
def F.memMigcntIn : Fld := ⟨0x200878, 0x0, 0x0, 0, 32, 0, .rc⟩
/-- `MEM_MIGCNT.OUT` (R330, Table 9.6). -/
def F.memMigcntOut : Fld := ⟨0x200878, 0x0, 0x0, 32, 32, 0, .rc⟩
/-- `CTX_PGQUOTA.QUOTA` (R331, Table 9.7). -/
def F.ctxPgquotaQuota : Fld := ⟨0x10C000, 0x10000, 0x0, 0, 32, 0, .rw⟩
/-- `CTX_PGQUOTA.FLOOR` (R331, Table 9.7). -/
def F.ctxPgquotaFloor : Fld := ⟨0x10C000, 0x10000, 0x0, 32, 32, 0, .rw⟩
/-- `CTX_PGUSED.MAPPED` (R331, Table 9.7). -/
def F.ctxPgusedMapped : Fld := ⟨0x10C008, 0x10000, 0x0, 0, 32, 0, .ro⟩
/-- `CTX_PGUSED.LOCAL` (R331, Table 9.7). -/
def F.ctxPgusedLocal : Fld := ⟨0x10C008, 0x10000, 0x0, 32, 32, 0, .ro⟩
/-- `CTX_PGVA.VA` (R331, Table 9.7). -/
def F.ctxPgvaVa : Fld := ⟨0x10C010, 0x10000, 0x0, 0, 48, 0, .rw⟩
/-- `CTX_PGCNT.PAGES` (R331, Table 9.7). -/
def F.ctxPgcntPages : Fld := ⟨0x10C018, 0x10000, 0x0, 0, 32, 0, .rw⟩
/-- `CTX_PGCMD.OP` (R331, Table 9.7). -/
def F.ctxPgcmdOp : Fld := ⟨0x10C020, 0x10000, 0x0, 0, 4, 0, .rw⟩
/-- `CTX_PGCMD.ATTR` (R331, Table 9.7). -/
def F.ctxPgcmdAttr : Fld := ⟨0x10C020, 0x10000, 0x0, 4, 2, 0, .rw⟩
/-- `CTX_PGCMD.KEYSLOT` (R331, Table 9.7). -/
def F.ctxPgcmdKeyslot : Fld := ⟨0x10C020, 0x10000, 0x0, 6, 4, 0, .rw⟩
/-- `CTX_PGCMD.GO` (R331, Table 9.7). -/
def F.ctxPgcmdGo : Fld := ⟨0x10C020, 0x10000, 0x0, 10, 1, 0, .rw⟩
/-- `CTX_PGSTAT.RESULT` (R331, Table 9.7). -/
def F.ctxPgstatResult : Fld := ⟨0x10C028, 0x10000, 0x0, 0, 4, 0, .ro⟩
/-- `CTX_PGSTAT.DONE` (R331, Table 9.7). -/
def F.ctxPgstatDone : Fld := ⟨0x10C028, 0x10000, 0x0, 4, 1, 0, .w1c⟩
/-- `CTX_PGSTAT.DONEPAGES` (R331, Table 9.7). -/
def F.ctxPgstatDonepages : Fld := ⟨0x10C028, 0x10000, 0x0, 32, 32, 0, .ro⟩
/-- `LNK_CTL.EN` (R370, Table 10.9). -/
def F.lnkCtlEn : Fld := ⟨0x300000, 0x1000, 0x0, 0, 1, 0, .rw⟩
/-- `LNK_CTL.ROLE` (R370, Table 10.9). -/
def F.lnkCtlRole : Fld := ⟨0x300000, 0x1000, 0x0, 1, 2, 0, .rw⟩
/-- `LNK_CTL.MINLANES` (R370, Table 10.9). -/
def F.lnkCtlMinlanes : Fld := ⟨0x300000, 0x1000, 0x0, 3, 4, 4, .rw⟩
/-- `LNK_CTL.AUTO` (R370, Table 10.9). -/
def F.lnkCtlAuto : Fld := ⟨0x300000, 0x1000, 0x0, 7, 1, 1, .rw⟩
/-- `LNK_CTL.LANERET` (R370, Table 10.9). -/
def F.lnkCtlLaneret : Fld := ⟨0x300000, 0x1000, 0x0, 8, 8, 0, .rw⟩
/-- `LNK_STAT.STATE` (R370, Table 10.9). -/
def F.lnkStatState : Fld := ⟨0x300008, 0x1000, 0x0, 0, 4, 0, .ro⟩
/-- `LNK_STAT.LANES` (R370, Table 10.9). -/
def F.lnkStatLanes : Fld := ⟨0x300008, 0x1000, 0x0, 4, 8, 0, .ro⟩
/-- `LNK_STAT.REASON` (R370, Table 10.9). -/
def F.lnkStatReason : Fld := ⟨0x300008, 0x1000, 0x0, 12, 8, 0, .ro⟩
/-- `LNK_STAT.UPEVT` (R370, Table 10.9). -/
def F.lnkStatUpevt : Fld := ⟨0x300008, 0x1000, 0x0, 20, 1, 0, .w1c⟩
/-- `LNK_STAT.DOWNEVT` (R370, Table 10.9). -/
def F.lnkStatDownevt : Fld := ⟨0x300008, 0x1000, 0x0, 21, 1, 0, .w1c⟩
/-- `LNK_STAT.FAILEVT` (R370, Table 10.9). -/
def F.lnkStatFailevt : Fld := ⟨0x300008, 0x1000, 0x0, 22, 1, 0, .w1c⟩
/-- `LNK_STAT.LANEEVT` (R370, Table 10.9). -/
def F.lnkStatLaneevt : Fld := ⟨0x300008, 0x1000, 0x0, 23, 1, 0, .w1c⟩
/-- `LNK_STAT.LOSCNT` (R370, Table 10.9). -/
def F.lnkStatLoscnt : Fld := ⟨0x300008, 0x1000, 0x0, 32, 16, 0, .ro⟩
/-- `LNK_PARTNER.DEV` (R370, Table 10.9). -/
def F.lnkPartnerDev : Fld := ⟨0x300010, 0x1000, 0x0, 0, 12, 0, .ro⟩
/-- `LNK_PARTNER.PORT` (R370, Table 10.9). -/
def F.lnkPartnerPort : Fld := ⟨0x300010, 0x1000, 0x0, 12, 6, 0, .ro⟩
/-- `LNK_PARTNER.VALID` (R370, Table 10.9). -/
def F.lnkPartnerValid : Fld := ⟨0x300010, 0x1000, 0x0, 18, 1, 0, .ro⟩
/-- `LNK_FEC.CORR` (R370, Table 10.9). -/
def F.lnkFecCorr : Fld := ⟨0x300018, 0x1000, 0x0, 0, 32, 0, .rc⟩
/-- `LNK_FEC.UNCORR` (R370, Table 10.9). -/
def F.lnkFecUncorr : Fld := ⟨0x300018, 0x1000, 0x0, 32, 32, 0, .rc⟩
/-- `LNK_RETRY.NAKS` (R370, Table 10.9). -/
def F.lnkRetryNaks : Fld := ⟨0x300020, 0x1000, 0x0, 0, 32, 0, .rc⟩
/-- `LNK_RETRY.REPLAYS` (R370, Table 10.9). -/
def F.lnkRetryReplays : Fld := ⟨0x300020, 0x1000, 0x0, 32, 32, 0, .rc⟩
/-- `LNK_TXBYTES.COUNT` (R370, Table 10.9). -/
def F.lnkTxbytesCount : Fld := ⟨0x300028, 0x1000, 0x0, 0, 64, 0, .rc⟩
/-- `LNK_RXBYTES.COUNT` (R370, Table 10.9). -/
def F.lnkRxbytesCount : Fld := ⟨0x300030, 0x1000, 0x0, 0, 64, 0, .rc⟩
/-- `FAB_CFG.DEVNUM` (R371, Table 10.10). -/
def F.fabCfgDevnum : Fld := ⟨0x300800, 0x0, 0x0, 0, 12, 0, .rwl⟩
/-- `FAB_CFG.SPACEID` (R371, Table 10.10). -/
def F.fabCfgSpaceid : Fld := ⟨0x300800, 0x0, 0x0, 12, 32, 0, .rwl⟩
/-- `FAB_CFG.LOCK` (R371, Table 10.10). -/
def F.fabCfgLock : Fld := ⟨0x300800, 0x0, 0x0, 44, 1, 0, .rwl⟩
/-- `FAB_STAT.REASON` (R371, Table 10.10). -/
def F.fabStatReason : Fld := ⟨0x300808, 0x0, 0x0, 0, 8, 0, .ro⟩
/-- `FAB_TIMERS.LIFETIME` (R371, Table 10.10). -/
def F.fabTimersLifetime : Fld := ⟨0x300810, 0x0, 0x0, 0, 16, 250, .rw⟩
/-- `FAB_TIMERS.RTO` (R371, Table 10.10). -/
def F.fabTimersRto : Fld := ⟨0x300810, 0x0, 0x0, 16, 16, 200, .rw⟩
/-- `FAB_TIMERS.COLLTO` (R371, Table 10.10). -/
def F.fabTimersCollto : Fld := ⟨0x300810, 0x0, 0x0, 32, 16, 100, .rw⟩
/-- `FAB_TIMERS.HOPS` (R371, Table 10.10). -/
def F.fabTimersHops : Fld := ⟨0x300810, 0x0, 0x0, 48, 8, 8, .rw⟩
/-- `FAB_RTIDX.ENTRY` (R371, Table 10.10). -/
def F.fabRtidxEntry : Fld := ⟨0x300818, 0x0, 0x0, 0, 12, 0, .rw⟩
/-- `FAB_RTDATA.PORTS` (R371, Table 10.10). -/
def F.fabRtdataPorts : Fld := ⟨0x300820, 0x0, 0x0, 0, 48, 0, .rw⟩
/-- `FAB_RTDATA.VALID` (R371, Table 10.10). -/
def F.fabRtdataValid : Fld := ⟨0x300820, 0x0, 0x0, 63, 1, 0, .rw⟩
/-- `FAB_CRFLOORc.FLOOR` (R371, Table 10.10). -/
def F.fabCrfloorFloor : Fld := ⟨0x300828, 0x0, 0x8, 0, 11, 0, .rw⟩
/-- `FAB_DROP.LIFE` (R371, Table 10.10). -/
def F.fabDropLife : Fld := ⟨0x300868, 0x0, 0x0, 0, 32, 0, .rc⟩
/-- `FAB_DROP.NOROUTE` (R371, Table 10.10). -/
def F.fabDropNoroute : Fld := ⟨0x300868, 0x0, 0x0, 32, 32, 0, .rc⟩
/-- `FAB_RQBASEi.ADDR` (R371, Table 10.10). -/
def F.fabRqbaseAddr : Fld := ⟨0x300900, 0x0, 0x10, 0, 45, 0, .rw⟩
/-- `FAB_RQCFGi.UNITLOG2` (R371, Table 10.10). -/
def F.fabRqcfgUnitlog2 : Fld := ⟨0x300908, 0x0, 0x10, 0, 3, 0, .rw⟩
/-- `FAB_RQCFGi.EN` (R371, Table 10.10). -/
def F.fabRqcfgEn : Fld := ⟨0x300908, 0x0, 0x10, 3, 1, 0, .rw⟩
/-- `FAB_RQCFGi.UNITS` (R371, Table 10.10). -/
def F.fabRqcfgUnits : Fld := ⟨0x300908, 0x0, 0x10, 4, 28, 0, .rw⟩
/-- `FAB_RQCFGi.TOTAL` (R371, Table 10.10). -/
def F.fabRqcfgTotal : Fld := ⟨0x300908, 0x0, 0x10, 32, 32, 0, .ro⟩
/-- `CTX_LNKCR.CLASS` (R372, Table 10.11). -/
def F.ctxLnkcrClass : Fld := ⟨0x10C100, 0x10000, 0x0, 0, 3, 0, .rw⟩
/-- `CTX_COLLQ0.VA` (R372, Table 10.11). -/
def F.ctxCollq0Va : Fld := ⟨0x10C108, 0x10000, 0x0, 0, 48, 0, .rw⟩
/-- `CTX_COLLQ1.VA` (R372, Table 10.11). -/
def F.ctxCollq1Va : Fld := ⟨0x10C110, 0x10000, 0x0, 0, 48, 0, .rw⟩
/-- `CTX_COLLSTAT.DONE0` (R372, Table 10.11). -/
def F.ctxCollstatDone0 : Fld := ⟨0x10C118, 0x10000, 0x0, 0, 24, 0, .ro⟩
/-- `CTX_COLLSTAT.DONE1` (R372, Table 10.11). -/
def F.ctxCollstatDone1 : Fld := ⟨0x10C118, 0x10000, 0x0, 24, 24, 0, .ro⟩
/-- `CTX_COLLSTAT.FAIL` (R372, Table 10.11). -/
def F.ctxCollstatFail : Fld := ⟨0x10C118, 0x10000, 0x0, 48, 1, 0, .w1c⟩
/-- `CTX_COLLSTAT.FAILQ` (R372, Table 10.11). -/
def F.ctxCollstatFailq : Fld := ⟨0x10C118, 0x10000, 0x0, 49, 1, 0, .ro⟩
/-- `CTX_COLLSTAT.FAILIDX` (R372, Table 10.11). -/
def F.ctxCollstatFailidx : Fld := ⟨0x10C118, 0x10000, 0x0, 56, 8, 0, .ro⟩
/-- `TC_CFG.MASTER` (R407, Table 11.8). -/
def F.tcCfgMaster : Fld := ⟨0x500000, 0x0, 0x0, 0, 1, 0, .rwl⟩
/-- `TC_CFG.LOCK` (R407, Table 11.8). -/
def F.tcCfgLock : Fld := ⟨0x500000, 0x0, 0x0, 1, 1, 0, .rwl⟩
/-- `TC_CTL.REACQ` (R407, Table 11.8). -/
def F.tcCtlReacq : Fld := ⟨0x500008, 0x0, 0x0, 0, 1, 0, .wo⟩
/-- `TC_STAT.STATE` (R407, Table 11.8). -/
def F.tcStatState : Fld := ⟨0x500010, 0x0, 0x0, 0, 3, 0, .ro⟩
/-- `TC_STAT.STRATUM` (R407, Table 11.8). -/
def F.tcStatStratum : Fld := ⟨0x500010, 0x0, 0x0, 3, 8, 255, .ro⟩
/-- `TC_STAT.UPPORT` (R407, Table 11.8). -/
def F.tcStatUpport : Fld := ⟨0x500010, 0x0, 0x0, 11, 6, 0, .ro⟩
/-- `TC_STAT.MASTERDEV` (R407, Table 11.8). -/
def F.tcStatMasterdev : Fld := ⟨0x500010, 0x0, 0x0, 17, 12, 0, .ro⟩
/-- `TC_STAT.ALARM` (R407, Table 11.8). -/
def F.tcStatAlarm : Fld := ⟨0x500010, 0x0, 0x0, 29, 1, 0, .w1c⟩
/-- `TC_STAT.CONFLICT` (R407, Table 11.8). -/
def F.tcStatConflict : Fld := ⟨0x500010, 0x0, 0x0, 30, 1, 0, .w1c⟩
/-- `TC_STAT.BEHIND` (R407, Table 11.8). -/
def F.tcStatBehind : Fld := ⟨0x500010, 0x0, 0x0, 31, 1, 0, .ro⟩
/-- `TC_NOW.COUNT` (R407, Table 11.8). -/
def F.tcNowCount : Fld := ⟨0x500018, 0x0, 0x0, 0, 64, 0, .ro⟩
/-- `TC_SET.COUNT` (R407, Table 11.8). -/
def F.tcSetCount : Fld := ⟨0x500020, 0x0, 0x0, 0, 64, 0, .wo⟩
/-- `TC_OFFSET.THETA` (R407, Table 11.8). -/
def F.tcOffsetTheta : Fld := ⟨0x500028, 0x0, 0x0, 0, 32, 0, .ro⟩
/-- `TC_OFFSET.DELAY` (R407, Table 11.8). -/
def F.tcOffsetDelay : Fld := ⟨0x500028, 0x0, 0x0, 32, 32, 0, .ro⟩
/-- `TC_LAUNCH.LATE` (R407, Table 11.8). -/
def F.tcLaunchLate : Fld := ⟨0x500030, 0x0, 0x0, 0, 32, 0, .rc⟩
/-- `TC_LAUNCH.DUP` (R407, Table 11.8). -/
def F.tcLaunchDup : Fld := ⟨0x500030, 0x0, 0x0, 32, 32, 0, .rc⟩
/-- `TC_TICKgCFG.PERIOD` (R407, Table 11.8). -/
def F.tcTickCfgPeriod : Fld := ⟨0x500040, 0x0, 0x10, 0, 32, 0, .rw⟩
/-- `TC_TICKgCFG.EN` (R407, Table 11.8). -/
def F.tcTickCfgEn : Fld := ⟨0x500040, 0x0, 0x10, 32, 1, 0, .rw⟩
/-- `TC_TICKgSTART.COUNT` (R407, Table 11.8). -/
def F.tcTickStartCount : Fld := ⟨0x500048, 0x0, 0x10, 0, 64, 0, .rw⟩
/-- `TC_TICKgTOT.TOTAL` (R407, Table 11.8). -/
def F.tcTickTotTotal : Fld := ⟨0x500080, 0x0, 0x8, 0, 32, 0, .ro⟩
/-- `CTX_LOG_BASE.ADDR` (R408, Table 11.9). -/
def F.ctxLogBaseAddr : Fld := ⟨0x10C200, 0x10000, 0x0, 0, 64, 0, .rw⟩
/-- `CTX_LOG_CFG.MODE` (R408, Table 11.9). -/
def F.ctxLogCfgMode : Fld := ⟨0x10C208, 0x10000, 0x0, 0, 2, 0, .rw⟩
/-- `CTX_LOG_CFG.SIZELOG2` (R408, Table 11.9). -/
def F.ctxLogCfgSizelog2 : Fld := ⟨0x10C208, 0x10000, 0x0, 2, 6, 0, .rw⟩
/-- `CTX_LOG_CFG.PACE` (R408, Table 11.9). -/
def F.ctxLogCfgPace : Fld := ⟨0x10C208, 0x10000, 0x0, 8, 1, 0, .rw⟩
/-- `CTX_LOG_HEAD.COUNT` (R408, Table 11.9). -/
def F.ctxLogHeadCount : Fld := ⟨0x10C210, 0x10000, 0x0, 0, 64, 0, .ro⟩
/-- `CTX_LOG_TAIL.COUNT` (R408, Table 11.9). -/
def F.ctxLogTailCount : Fld := ⟨0x10C218, 0x10000, 0x0, 0, 64, 0, .rw⟩
/-- `CTX_LOG_NOTE.VALUE` (R408, Table 11.9). -/
def F.ctxLogNoteValue : Fld := ⟨0x10C220, 0x10000, 0x0, 0, 64, 0, .wo⟩
/-- `CTX_SLATE_BASE.ADDR` (R408, Table 11.9). -/
def F.ctxSlateBaseAddr : Fld := ⟨0x10C228, 0x10000, 0x0, 0, 64, 0, .rw⟩
/-- `CTX_SLATE_CFG.SLOTS` (R408, Table 11.9). -/
def F.ctxSlateCfgSlots : Fld := ⟨0x10C230, 0x10000, 0x0, 0, 9, 0, .rw⟩
/-- `CTX_SLATE_CFG.DETAIL` (R408, Table 11.9). -/
def F.ctxSlateCfgDetail : Fld := ⟨0x10C230, 0x10000, 0x0, 9, 1, 0, .rw⟩
/-- `CTX_SLATE_CFG.DPOINT` (R408, Table 11.9). -/
def F.ctxSlateCfgDpoint : Fld := ⟨0x10C230, 0x10000, 0x0, 10, 12, 0, .rw⟩
/-- `CTX_REPLAY.MISMATCH` (R408, Table 11.9). -/
def F.ctxReplayMismatch : Fld := ⟨0x10C238, 0x10000, 0x0, 0, 32, 0, .ro⟩
/-- `CTX_REPLAY.DIVERGE` (R408, Table 11.9). -/
def F.ctxReplayDiverge : Fld := ⟨0x10C238, 0x10000, 0x0, 32, 1, 0, .w1c⟩
/-- `CTX_REPLAY.DKIND` (R408, Table 11.9). -/
def F.ctxReplayDkind : Fld := ⟨0x10C238, 0x10000, 0x0, 33, 3, 0, .ro⟩
/-- `CTX_REPLAY_STEP.STEP_ID` (R408, Table 11.9). -/
def F.ctxReplayStepStepId : Fld := ⟨0x10C240, 0x10000, 0x0, 0, 64, 0, .ro⟩
/-- `CTX_CTL.EN` (R444, Table 12.6). -/
def F.ctxCtlEn : Fld := ⟨0x100000, 0x10000, 0x0, 0, 1, 0, .rw⟩
/-- `CTX_CTL.REGNUM` (R444, Table 12.6). -/
def F.ctxCtlRegnum : Fld := ⟨0x100000, 0x10000, 0x0, 1, 6, 0, .rw⟩
/-- `CTX_CTL.PRIO` (R444, Table 12.6). -/
def F.ctxCtlPrio : Fld := ⟨0x100000, 0x10000, 0x0, 7, 3, 0, .rw⟩
/-- `CTX_CTL.SHELVE` (R444, Table 12.6). -/
def F.ctxCtlShelve : Fld := ⟨0x100000, 0x10000, 0x0, 10, 1, 0, .rw⟩
/-- `CTX_STAT.STATE` (R444, Table 12.6). -/
def F.ctxStatState : Fld := ⟨0x100008, 0x10000, 0x0, 0, 3, 0, .ro⟩
/-- `CTX_STAT.BLOCKED` (R444, Table 12.6). -/
def F.ctxStatBlocked : Fld := ⟨0x100008, 0x10000, 0x0, 3, 1, 0, .ro⟩
/-- `CTX_STAT.REFUSED` (R444, Table 12.6). -/
def F.ctxStatRefused : Fld := ⟨0x100008, 0x10000, 0x0, 4, 1, 0, .w1c⟩
/-- `CTX_STAT.STEP` (R444, Table 12.6). -/
def F.ctxStatStep : Fld := ⟨0x100008, 0x10000, 0x0, 5, 1, 0, .ro⟩
/-- `CTX_STAT.REASON` (R444, Table 12.6). -/
def F.ctxStatReason : Fld := ⟨0x100008, 0x10000, 0x0, 8, 8, 0, .ro⟩
/-- `CTX_IMAGE.ADDR` (R444, Table 12.6). -/
def F.ctxImageAddr : Fld := ⟨0x100010, 0x10000, 0x0, 0, 64, 0, .rw⟩
/-- `CTX_IMAGELEN.BYTES` (R444, Table 12.6). -/
def F.ctxImagelenBytes : Fld := ⟨0x100018, 0x10000, 0x0, 0, 32, 0, .rw⟩
/-- `CTX_DIGESTw.DATA` (R444, Table 12.6). -/
def F.ctxDigestData : Fld := ⟨0x100020, 0x10000, 0x8, 0, 64, 0, .rw⟩
/-- `CTX_SEED.SEED` (R444, Table 12.6). -/
def F.ctxSeedSeed : Fld := ⟨0x100040, 0x10000, 0x0, 0, 64, 0, .rw⟩
/-- `CTX_TRAP_BASE.ADDR` (R444, Table 12.6). -/
def F.ctxTrapBaseAddr : Fld := ⟨0x100048, 0x10000, 0x0, 0, 64, 0, .rw⟩
/-- `CTX_SHELF.VA` (R444, Table 12.6). -/
def F.ctxShelfVa : Fld := ⟨0x100050, 0x10000, 0x0, 0, 48, 0, .rw⟩
/-- `CTX_SHELFSZ.PAGES` (R444, Table 12.6). -/
def F.ctxShelfszPages : Fld := ⟨0x100058, 0x10000, 0x0, 0, 32, 0, .ro⟩
/-- `CTX_DLCFG.EN` (R444, Table 12.6). -/
def F.ctxDlcfgEn : Fld := ⟨0x100060, 0x10000, 0x0, 0, 1, 0, .rw⟩
/-- `CTX_DLCFG.FBIDX` (R444, Table 12.6). -/
def F.ctxDlcfgFbidx : Fld := ⟨0x100060, 0x10000, 0x0, 1, 2, 0, .rw⟩
/-- `CTX_DLCFG.MARGIN` (R444, Table 12.6). -/
def F.ctxDlcfgMargin : Fld := ⟨0x100060, 0x10000, 0x0, 32, 32, 0, .rw⟩
/-- `CTX_DLSTAT.TLAST` (R444, Table 12.6). -/
def F.ctxDlstatTlast : Fld := ⟨0x100068, 0x10000, 0x0, 0, 40, 0, .ro⟩
/-- `CTX_DLSTAT.SWITCHES` (R444, Table 12.6). -/
def F.ctxDlstatSwitches : Fld := ⟨0x100068, 0x10000, 0x0, 40, 24, 0, .ro⟩
/-- `CTX_ACCT_WAIT.NS` (R444, Table 12.6). -/
def F.ctxAcctWaitNs : Fld := ⟨0x100070, 0x10000, 0x0, 0, 64, 0, .ro⟩
/-- `CTX_ACCT_PREEMPT.COUNT` (R444, Table 12.6). -/
def F.ctxAcctPreemptCount : Fld := ⟨0x100078, 0x10000, 0x0, 0, 64, 0, .ro⟩
/-- `CTX_ACCT_ENERGY.UJ` (R444, Table 12.6). -/
def F.ctxAcctEnergyUj : Fld := ⟨0x100080, 0x10000, 0x0, 0, 64, 0, .ro⟩
/-- `CTX_ACCT_STEPS.COUNT` (R444, Table 12.6). -/
def F.ctxAcctStepsCount : Fld := ⟨0x100088, 0x10000, 0x0, 0, 64, 0, .ro⟩
/-- `CTX_HOMEw.CORES` (R444, Table 12.6). -/
def F.ctxHomeCores : Fld := ⟨0x100100, 0x10000, 0x8, 0, 64, 0, .rw⟩
/-- `SCHED_CFG.SWAPT` (R445, Table 12.7). -/
def F.schedCfgSwapt : Fld := ⟨0x10E000, 0x0, 0x0, 0, 32, 2000, .rw⟩
/-- `SCHED_CFG.AUTO` (R445, Table 12.7). -/
def F.schedCfgAuto : Fld := ⟨0x10E000, 0x0, 0x0, 32, 1, 1, .rw⟩
/-- `SCHED_CFG.FLOATTO` (R445, Table 12.7). -/
def F.schedCfgFloatto : Fld := ⟨0x10E000, 0x0, 0x0, 33, 16, 1000, .rw⟩
/-- `SCHED_STAT.SWAPS` (R445, Table 12.7). -/
def F.schedStatSwaps : Fld := ⟨0x10E008, 0x0, 0x0, 0, 32, 0, .rc⟩
/-- `SCHED_STAT.NOFIT` (R445, Table 12.7). -/
def F.schedStatNofit : Fld := ⟨0x10E008, 0x0, 0x0, 32, 32, 0, .rc⟩
/-- `SCHED_DIRSEL.REGNUM` (R445, Table 12.7). -/
def F.schedDirselRegnum : Fld := ⟨0x10E010, 0x0, 0x0, 0, 6, 0, .rw⟩
/-- `SCHED_DIR.STATE` (R445, Table 12.7). -/
def F.schedDirState : Fld := ⟨0x10E018, 0x0, 0x0, 0, 3, 0, .ro⟩
/-- `SCHED_DIR.SLOT` (R445, Table 12.7). -/
def F.schedDirSlot : Fld := ⟨0x10E018, 0x0, 0x0, 3, 3, 0, .ro⟩
/-- `SCHED_DIR.PRIO` (R445, Table 12.7). -/
def F.schedDirPrio : Fld := ⟨0x10E018, 0x0, 0x0, 6, 3, 0, .ro⟩
/-- `SCHED_DIR.BLOCKED` (R445, Table 12.7). -/
def F.schedDirBlocked : Fld := ⟨0x10E018, 0x0, 0x0, 9, 1, 0, .ro⟩
/-- `SCHED_DIR.RUNNABLE` (R445, Table 12.7). -/
def F.schedDirRunnable : Fld := ⟨0x10E018, 0x0, 0x0, 10, 1, 0, .ro⟩
/-- `SCHED_DIR.SHELFLOST` (R445, Table 12.7). -/
def F.schedDirShelflost : Fld := ⟨0x10E018, 0x0, 0x0, 11, 1, 0, .ro⟩
/-- `SCHED_DIR.KEYWAIT` (R445, Table 12.7). -/
def F.schedDirKeywait : Fld := ⟨0x10E018, 0x0, 0x0, 12, 1, 0, .ro⟩
/-- `SCHED_DIR.BLOCKUS` (R445, Table 12.7). -/
def F.schedDirBlockus : Fld := ⟨0x10E018, 0x0, 0x0, 32, 32, 0, .ro⟩
/-- `SCHED_DIRWAIT.VALUE` (R445, Table 12.7). -/
def F.schedDirwaitValue : Fld := ⟨0x10E020, 0x0, 0x0, 0, 64, 0, .ro⟩
/-- `SCHED_DIRPRE.VALUE` (R445, Table 12.7). -/
def F.schedDirpreValue : Fld := ⟨0x10E028, 0x0, 0x0, 0, 64, 0, .ro⟩
/-- `SCHED_DIRENERGY.VALUE` (R445, Table 12.7). -/
def F.schedDirenergyValue : Fld := ⟨0x10E030, 0x0, 0x0, 0, 64, 0, .ro⟩
/-- `SCHED_DIRCTL.RETURN` (R445, Table 12.7). -/
def F.schedDirctlReturn : Fld := ⟨0x10E038, 0x0, 0x0, 0, 1, 0, .wo⟩
/-- `SCHED_DIRCTL.DISABLE` (R445, Table 12.7). -/
def F.schedDirctlDisable : Fld := ⟨0x10E038, 0x0, 0x0, 1, 1, 0, .wo⟩
/-- `CTX_PRINTVA.VA` (R468, Table 13.5). -/
def F.ctxPrintvaVa : Fld := ⟨0x10C300, 0x10000, 0x0, 0, 48, 0, .rw⟩
/-- `CTX_PRINTCNT.PAGES` (R468, Table 13.5). -/
def F.ctxPrintcntPages : Fld := ⟨0x10C308, 0x10000, 0x0, 0, 32, 0, .rw⟩
/-- `CTX_PRINTTBL.VA` (R468, Table 13.5). -/
def F.ctxPrinttblVa : Fld := ⟨0x10C310, 0x10000, 0x0, 0, 48, 0, .rw⟩
/-- `CTX_PRINTCTL.GO` (R468, Table 13.5). -/
def F.ctxPrintctlGo : Fld := ⟨0x10C318, 0x10000, 0x0, 0, 1, 0, .rw⟩
/-- `CTX_PRINTCTL.HASH` (R468, Table 13.5). -/
def F.ctxPrintctlHash : Fld := ⟨0x10C318, 0x10000, 0x0, 1, 1, 0, .rw⟩
/-- `CTX_PRINTCTL.IRQ` (R468, Table 13.5). -/
def F.ctxPrintctlIrq : Fld := ⟨0x10C318, 0x10000, 0x0, 2, 8, 0, .rw⟩
/-- `CTX_PRINTCTL.IRQEN` (R468, Table 13.5). -/
def F.ctxPrintctlIrqen : Fld := ⟨0x10C318, 0x10000, 0x0, 10, 1, 0, .rw⟩
/-- `CTX_PRINTSTAT.STATE` (R468, Table 13.5). -/
def F.ctxPrintstatState : Fld := ⟨0x10C320, 0x10000, 0x0, 0, 2, 0, .ro⟩
/-- `CTX_PRINTSTAT.DONE` (R468, Table 13.5). -/
def F.ctxPrintstatDone : Fld := ⟨0x10C320, 0x10000, 0x0, 2, 1, 0, .w1c⟩
/-- `CTX_PRINTSTAT.FAIL` (R468, Table 13.5). -/
def F.ctxPrintstatFail : Fld := ⟨0x10C320, 0x10000, 0x0, 3, 1, 0, .w1c⟩
/-- `CTX_PRINTSTAT.RESULT` (R468, Table 13.5). -/
def F.ctxPrintstatResult : Fld := ⟨0x10C320, 0x10000, 0x0, 4, 4, 0, .ro⟩
/-- `CTX_PRINTSTAT.SENT` (R468, Table 13.5). -/
def F.ctxPrintstatSent : Fld := ⟨0x10C320, 0x10000, 0x0, 32, 32, 0, .ro⟩
/-- `CTX_PRINTDIGw.DATA` (R468, Table 13.5). -/
def F.ctxPrintdigData : Fld := ⟨0x10C328, 0x10000, 0x8, 0, 64, 0, .ro⟩
/-- `CTX_REELMAN.ADDR` (R491, Table 14.5). -/
def F.ctxReelmanAddr : Fld := ⟨0x10C400, 0x10000, 0x0, 0, 64, 0, .rw⟩
/-- `CTX_REELMANLEN.BYTES` (R491, Table 14.5). -/
def F.ctxReelmanlenBytes : Fld := ⟨0x10C408, 0x10000, 0x0, 0, 32, 0, .rw⟩
/-- `CTX_REELSRC.ADDR` (R491, Table 14.5). -/
def F.ctxReelsrcAddr : Fld := ⟨0x10C410, 0x10000, 0x0, 0, 64, 0, .rw⟩
/-- `CTX_REELCFG.STAGEOFF` (R491, Table 14.5). -/
def F.ctxReelcfgStageoff : Fld := ⟨0x10C418, 0x10000, 0x0, 0, 48, 0, .rw⟩
/-- `CTX_REELCFG.STREAM` (R491, Table 14.5). -/
def F.ctxReelcfgStream : Fld := ⟨0x10C418, 0x10000, 0x0, 48, 1, 0, .rw⟩
/-- `CTX_REELCFG.CHUNKTO` (R491, Table 14.5). -/
def F.ctxReelcfgChunkto : Fld := ⟨0x10C418, 0x10000, 0x0, 49, 8, 10, .rw⟩
/-- `CTX_REELCFG.IRQEN` (R491, Table 14.5). -/
def F.ctxReelcfgIrqen : Fld := ⟨0x10C418, 0x10000, 0x0, 57, 1, 0, .rw⟩
/-- `CTX_REELCTL.GO` (R491, Table 14.5). -/
def F.ctxReelctlGo : Fld := ⟨0x10C420, 0x10000, 0x0, 0, 1, 0, .rw⟩
/-- `CTX_REELCTL.COMMIT` (R491, Table 14.5). -/
def F.ctxReelctlCommit : Fld := ⟨0x10C420, 0x10000, 0x0, 1, 1, 0, .rw⟩
/-- `CTX_REELCTL.ABORT` (R491, Table 14.5). -/
def F.ctxReelctlAbort : Fld := ⟨0x10C420, 0x10000, 0x0, 2, 1, 0, .rw⟩
/-- `CTX_REELCTL.IRQ` (R491, Table 14.5). -/
def F.ctxReelctlIrq : Fld := ⟨0x10C420, 0x10000, 0x0, 3, 8, 0, .rw⟩
/-- `CTX_REELSTAT.STATE` (R491, Table 14.5). -/
def F.ctxReelstatState : Fld := ⟨0x10C428, 0x10000, 0x0, 0, 2, 0, .ro⟩
/-- `CTX_REELSTAT.STAGED` (R491, Table 14.5). -/
def F.ctxReelstatStaged : Fld := ⟨0x10C428, 0x10000, 0x0, 2, 1, 0, .w1c⟩
/-- `CTX_REELSTAT.FAIL` (R491, Table 14.5). -/
def F.ctxReelstatFail : Fld := ⟨0x10C428, 0x10000, 0x0, 3, 1, 0, .w1c⟩
/-- `CTX_REELSTAT.RESULT` (R491, Table 14.5). -/
def F.ctxReelstatResult : Fld := ⟨0x10C428, 0x10000, 0x0, 4, 4, 0, .ro⟩
/-- `CTX_REELSTAT.STALE` (R491, Table 14.5). -/
def F.ctxReelstatStale : Fld := ⟨0x10C428, 0x10000, 0x0, 32, 32, 0, .ro⟩
/-- `CTX_REELGEN.ACTGEN` (R491, Table 14.5). -/
def F.ctxReelgenActgen : Fld := ⟨0x10C430, 0x10000, 0x0, 0, 32, 0, .ro⟩
/-- `CTX_REELGEN.STGGEN` (R491, Table 14.5). -/
def F.ctxReelgenStggen : Fld := ⟨0x10C430, 0x10000, 0x0, 32, 32, 0, .ro⟩
/-- `CTX_REELFAIL.SHARD` (R491, Table 14.5). -/
def F.ctxReelfailShard : Fld := ⟨0x10C438, 0x10000, 0x0, 0, 32, 0, .ro⟩
/-- `CTX_REELFAIL.DEV` (R491, Table 14.5). -/
def F.ctxReelfailDev : Fld := ⟨0x10C438, 0x10000, 0x0, 32, 12, 0, .ro⟩
/-- `CTX_REELFAIL.KIND` (R491, Table 14.5). -/
def F.ctxReelfailKind : Fld := ⟨0x10C438, 0x10000, 0x0, 44, 4, 0, .ro⟩
/-- `CTX_REELDIGw.DATA` (R491, Table 14.5). -/
def F.ctxReeldigData : Fld := ⟨0x10C440, 0x10000, 0x8, 0, 64, 0, .rw⟩
/-- `CTX_REELUNDER.COUNT` (R491, Table 14.5). -/
def F.ctxReelunderCount : Fld := ⟨0x10C460, 0x10000, 0x0, 0, 32, 0, .rc⟩
/-- `CTX_REELUNDER.NS` (R491, Table 14.5). -/
def F.ctxReelunderNs : Fld := ⟨0x10C460, 0x10000, 0x0, 32, 32, 0, .rc⟩
/-- `CTX_REELSTRMn.LAYER` (R491, Table 14.5). -/
def F.ctxReelstrmLayer : Fld := ⟨0x10C468, 0x10000, 0x8, 0, 16, 0, .rw⟩
/-- `CTX_REELSTRMn.EN` (R491, Table 14.5). -/
def F.ctxReelstrmEn : Fld := ⟨0x10C468, 0x10000, 0x8, 16, 1, 0, .rw⟩
/-- `CTX_REELRETRY.UPSTREAM` (R491, Table 14.5). -/
def F.ctxReelretryUpstream : Fld := ⟨0x10C488, 0x10000, 0x0, 0, 32, 0, .rc⟩
/-- `CTX_REELRETRY.ALTROOT` (R491, Table 14.5). -/
def F.ctxReelretryAltroot : Fld := ⟨0x10C488, 0x10000, 0x0, 32, 32, 0, .rc⟩
/-- `CTX_RELCFG.RETAKE` (R527, Table 15.13). -/
def F.ctxRelcfgRetake : Fld := ⟨0x10C500, 0x10000, 0x0, 0, 1, 0, .rw⟩
/-- `CTX_RELCFG.CHK_FRAC` (R527, Table 15.13). -/
def F.ctxRelcfgChkFrac : Fld := ⟨0x10C500, 0x10000, 0x0, 1, 3, 0, .rw⟩
/-- `CTX_RELCFG.PAIR` (R527, Table 15.13). -/
def F.ctxRelcfgPair : Fld := ⟨0x10C500, 0x10000, 0x0, 4, 2, 0, .rw⟩
/-- `CTX_RELSTAT.PROT` (R527, Table 15.13). -/
def F.ctxRelstatProt : Fld := ⟨0x10C508, 0x10000, 0x0, 0, 1, 0, .ro⟩
/-- `CTX_RELSTAT.LOST` (R527, Table 15.13). -/
def F.ctxRelstatLost : Fld := ⟨0x10C508, 0x10000, 0x0, 1, 1, 0, .ro⟩
/-- `CTX_RELSTAT.PREASON` (R527, Table 15.13). -/
def F.ctxRelstatPreason : Fld := ⟨0x10C508, 0x10000, 0x0, 2, 8, 0, .ro⟩
/-- `CTX_RELSTAT.RETAKES` (R527, Table 15.13). -/
def F.ctxRelstatRetakes : Fld := ⟨0x10C508, 0x10000, 0x0, 16, 16, 0, .rc⟩
/-- `CTX_RELSTAT.CHECKS` (R527, Table 15.13). -/
def F.ctxRelstatChecks : Fld := ⟨0x10C508, 0x10000, 0x0, 32, 16, 0, .rc⟩
/-- `CTX_RELSTAT.CHKMISS` (R527, Table 15.13). -/
def F.ctxRelstatChkmiss : Fld := ⟨0x10C508, 0x10000, 0x0, 48, 16, 0, .rc⟩
/-- `CTX_RELMIR.STEP_ID` (R527, Table 15.13). -/
def F.ctxRelmirStepId : Fld := ⟨0x10C510, 0x10000, 0x0, 0, 64, 0, .ro⟩
/-- `CTX_RELCTL.PROMOTE` (R527, Table 15.13). -/
def F.ctxRelctlPromote : Fld := ⟨0x10C518, 0x10000, 0x0, 0, 1, 0, .wo⟩
/-- `REL_CFG.CETHRESH` (R528, Table 15.14). -/
def F.relCfgCethresh : Fld := ⟨0x10E100, 0x0, 0x0, 0, 16, 64, .rw⟩
/-- `REL_CFG.AUTOTEST` (R528, Table 15.14). -/
def F.relCfgAutotest : Fld := ⟨0x10E100, 0x0, 0x0, 16, 1, 0, .rw⟩
/-- `REL_STAT.DEVFAULT` (R528, Table 15.14). -/
def F.relStatDevfault : Fld := ⟨0x10E108, 0x0, 0x0, 0, 1, 0, .ro⟩
/-- `REL_STAT.RSFULL` (R528, Table 15.14). -/
def F.relStatRsfull : Fld := ⟨0x10E108, 0x0, 0x0, 1, 1, 0, .w1c⟩
/-- `REL_STAT.DLDROP` (R528, Table 15.14). -/
def F.relStatDldrop : Fld := ⟨0x10E108, 0x0, 0x0, 16, 16, 0, .ro⟩
/-- `REL_STAT.BOOT` (R528, Table 15.14). -/
def F.relStatBoot : Fld := ⟨0x10E108, 0x0, 0x0, 32, 32, 0, .ro⟩
/-- `REL_OTEST.KIND` (R528, Table 15.14). -/
def F.relOtestKind : Fld := ⟨0x10E110, 0x0, 0x0, 0, 2, 0, .rw⟩
/-- `REL_OTEST.INDEX` (R528, Table 15.14). -/
def F.relOtestIndex : Fld := ⟨0x10E110, 0x0, 0x0, 2, 11, 0, .rw⟩
/-- `REL_OTEST.LANE` (R528, Table 15.14). -/
def F.relOtestLane : Fld := ⟨0x10E110, 0x0, 0x0, 13, 3, 0, .rw⟩
/-- `REL_OTEST.GO` (R528, Table 15.14). -/
def F.relOtestGo : Fld := ⟨0x10E110, 0x0, 0x0, 16, 1, 0, .rw⟩
/-- `REL_OTEST.RESULT` (R528, Table 15.14). -/
def F.relOtestResult : Fld := ⟨0x10E110, 0x0, 0x0, 17, 3, 0, .ro⟩
/-- `REL_OTEST.DONE` (R528, Table 15.14). -/
def F.relOtestDone : Fld := ⟨0x10E110, 0x0, 0x0, 20, 1, 0, .w1c⟩
/-- `REL_WRAP.GO` (R528, Table 15.14). -/
def F.relWrapGo : Fld := ⟨0x10E118, 0x0, 0x0, 0, 1, 0, .rw⟩
/-- `REL_WRAP.STATE` (R528, Table 15.14). -/
def F.relWrapState : Fld := ⟨0x10E118, 0x0, 0x0, 1, 2, 0, .ro⟩
/-- `REL_WRAP.FAILS` (R528, Table 15.14). -/
def F.relWrapFails : Fld := ⟨0x10E118, 0x0, 0x0, 8, 8, 0, .ro⟩
/-- `REL_DLBASE.ADDR` (R528, Table 15.14). -/
def F.relDlbaseAddr : Fld := ⟨0x10E120, 0x0, 0x0, 0, 64, 0, .rw⟩
/-- `REL_DLCFG.SIZELOG2` (R528, Table 15.14). -/
def F.relDlcfgSizelog2 : Fld := ⟨0x10E128, 0x0, 0x0, 0, 6, 0, .rw⟩
/-- `REL_DLCFG.EN` (R528, Table 15.14). -/
def F.relDlcfgEn : Fld := ⟨0x10E128, 0x0, 0x0, 6, 1, 0, .rw⟩
/-- `REL_DLCFG.PERIOD` (R528, Table 15.14). -/
def F.relDlcfgPeriod : Fld := ⟨0x10E128, 0x0, 0x0, 16, 16, 3600, .rw⟩
/-- `REL_DLHEAD.COUNT` (R528, Table 15.14). -/
def F.relDlheadCount : Fld := ⟨0x10E130, 0x0, 0x0, 0, 64, 0, .ro⟩
/-- `REL_DLTAIL.COUNT` (R528, Table 15.14). -/
def F.relDltailCount : Fld := ⟨0x10E138, 0x0, 0x0, 0, 64, 0, .rw⟩
/-- `PAIR_CFG.PARTNER` (R528, Table 15.14). -/
def F.pairCfgPartner : Fld := ⟨0x10E140, 0x0, 0x0, 0, 12, 0, .rw⟩
/-- `PAIR_CFG.FWMIX` (R528, Table 15.14). -/
def F.pairCfgFwmix : Fld := ⟨0x10E140, 0x0, 0x0, 12, 1, 0, .rw⟩
/-- `PAIR_CTL.EN` (R528, Table 15.14). -/
def F.pairCtlEn : Fld := ⟨0x10E148, 0x0, 0x0, 0, 1, 0, .rw⟩
/-- `PAIR_CTL.HANDOVER` (R528, Table 15.14). -/
def F.pairCtlHandover : Fld := ⟨0x10E148, 0x0, 0x0, 1, 1, 0, .rw⟩
/-- `PAIR_STAT.STATE` (R528, Table 15.14). -/
def F.pairStatState : Fld := ⟨0x10E150, 0x0, 0x0, 0, 3, 0, .ro⟩
/-- `PAIR_STAT.ACTIVE` (R528, Table 15.14). -/
def F.pairStatActive : Fld := ⟨0x10E150, 0x0, 0x0, 3, 1, 0, .ro⟩
/-- `PAIR_STAT.REASON` (R528, Table 15.14). -/
def F.pairStatReason : Fld := ⟨0x10E150, 0x0, 0x0, 4, 8, 0, .ro⟩
/-- `PAIR_STAT.LOSTEVT` (R528, Table 15.14). -/
def F.pairStatLostevt : Fld := ⟨0x10E150, 0x0, 0x0, 12, 1, 0, .w1c⟩
/-- `PAIR_STAT.TAKEOVER` (R528, Table 15.14). -/
def F.pairStatTakeover : Fld := ⟨0x10E150, 0x0, 0x0, 13, 1, 0, .w1c⟩
/-- `PAIR_STAT.SLATEMISS` (R528, Table 15.14). -/
def F.pairStatSlatemiss : Fld := ⟨0x10E150, 0x0, 0x0, 32, 16, 0, .ro⟩
/-- `PAIR_STAT.LOSSES` (R528, Table 15.14). -/
def F.pairStatLosses : Fld := ⟨0x10E150, 0x0, 0x0, 48, 16, 0, .ro⟩
/-- `PAIR_ALIASk.ALIAS` (R528, Table 15.14). -/
def F.pairAliasAlias : Fld := ⟨0x10E180, 0x0, 0x8, 0, 12, 0, .rw⟩
/-- `PAIR_ALIASk.DEVA` (R528, Table 15.14). -/
def F.pairAliasDeva : Fld := ⟨0x10E180, 0x0, 0x8, 12, 12, 0, .rw⟩
/-- `PAIR_ALIASk.DEVB` (R528, Table 15.14). -/
def F.pairAliasDevb : Fld := ⟨0x10E180, 0x0, 0x8, 24, 12, 0, .rw⟩
/-- `PAIR_ALIASk.ACTB` (R528, Table 15.14). -/
def F.pairAliasActb : Fld := ⟨0x10E180, 0x0, 0x8, 36, 1, 0, .rw⟩
/-- `PAIR_ALIASk.VALID` (R528, Table 15.14). -/
def F.pairAliasValid : Fld := ⟨0x10E180, 0x0, 0x8, 37, 1, 0, .rw⟩
/-- `PAIR_ALIASk.EPOCH` (R528, Table 15.14). -/
def F.pairAliasEpoch : Fld := ⟨0x10E180, 0x0, 0x8, 48, 16, 0, .rw⟩
/-- `PWR_CFG.ORDER` (R549, Table 16.6). -/
def F.pwrCfgOrder : Fld := ⟨0x400000, 0x0, 0x0, 0, 6, 36, .rw⟩
/-- `PWR_CFG.FMIN` (R549, Table 16.6). -/
def F.pwrCfgFmin : Fld := ⟨0x400000, 0x0, 0x0, 8, 7, 40, .rw⟩
/-- `PWR_CFG.DROOPMV` (R549, Table 16.6). -/
def F.pwrCfgDroopmv : Fld := ⟨0x400000, 0x0, 0x0, 16, 8, 30, .rw⟩
/-- `PWR_CAP.WATTS` (R549, Table 16.6). -/
def F.pwrCapWatts : Fld := ⟨0x400008, 0x0, 0x0, 0, 12, 2000, .rw⟩
/-- `PWR_STAT.STATE` (R549, Table 16.6). -/
def F.pwrStatState : Fld := ⟨0x400010, 0x0, 0x0, 0, 3, 3, .ro⟩
/-- `PWR_STAT.CAPPED` (R549, Table 16.6). -/
def F.pwrStatCapped : Fld := ⟨0x400010, 0x0, 0x0, 3, 1, 0, .ro⟩
/-- `PWR_STAT.THERMAL` (R549, Table 16.6). -/
def F.pwrStatThermal : Fld := ⟨0x400010, 0x0, 0x0, 4, 1, 0, .ro⟩
/-- `PWR_STAT.CONVOY` (R549, Table 16.6). -/
def F.pwrStatConvoy : Fld := ⟨0x400010, 0x0, 0x0, 5, 1, 0, .ro⟩
/-- `PWR_STAT.SEQFAIL` (R549, Table 16.6). -/
def F.pwrStatSeqfail : Fld := ⟨0x400010, 0x0, 0x0, 6, 1, 0, .ro⟩
/-- `PWR_STAT.CAPREF` (R549, Table 16.6). -/
def F.pwrStatCapref : Fld := ⟨0x400010, 0x0, 0x0, 7, 1, 0, .w1c⟩
/-- `PWR_STAT.REQREF` (R549, Table 16.6). -/
def F.pwrStatReqref : Fld := ⟨0x400010, 0x0, 0x0, 8, 1, 0, .w1c⟩
/-- `PWR_STAT.FLOORS` (R549, Table 16.6). -/
def F.pwrStatFloors : Fld := ⟨0x400010, 0x0, 0x0, 16, 16, 0, .ro⟩
/-- `PWR_CTL.REQ` (R549, Table 16.6). -/
def F.pwrCtlReq : Fld := ⟨0x400018, 0x0, 0x0, 0, 2, 0, .rw⟩
/-- `PWR_MEAS.VIN` (R549, Table 16.6). -/
def F.pwrMeasVin : Fld := ⟨0x400020, 0x0, 0x0, 0, 16, 0, .ro⟩
/-- `PWR_MEAS.IIN` (R549, Table 16.6). -/
def F.pwrMeasIin : Fld := ⟨0x400020, 0x0, 0x0, 16, 16, 0, .ro⟩
/-- `PWR_MEAS.WATTS` (R549, Table 16.6). -/
def F.pwrMeasWatts : Fld := ⟨0x400020, 0x0, 0x0, 32, 16, 0, .ro⟩
/-- `PWR_EST.TOTAL` (R549, Table 16.6). -/
def F.pwrEstTotal : Fld := ⟨0x400028, 0x0, 0x0, 0, 16, 0, .ro⟩
/-- `PWR_EST.LINKS` (R549, Table 16.6). -/
def F.pwrEstLinks : Fld := ⟨0x400028, 0x0, 0x0, 16, 16, 0, .ro⟩
/-- `PWR_EST.COMPUTE` (R549, Table 16.6). -/
def F.pwrEstCompute : Fld := ⟨0x400028, 0x0, 0x0, 32, 16, 0, .ro⟩
/-- `PWR_EST.GAIN` (R549, Table 16.6). -/
def F.pwrEstGain : Fld := ⟨0x400028, 0x0, 0x0, 48, 16, 4096, .ro⟩
/-- `PWR_FILL.LEVEL` (R549, Table 16.6). -/
def F.pwrFillLevel : Fld := ⟨0x400030, 0x0, 0x0, 0, 2, 2, .rw⟩
/-- `PWR_FILL.MAXUS` (R549, Table 16.6). -/
def F.pwrFillMaxus : Fld := ⟨0x400030, 0x0, 0x0, 16, 16, 2000, .rw⟩
/-- `PWR_CONVOY.EN` (R549, Table 16.6). -/
def F.pwrConvoyEn : Fld := ⟨0x400038, 0x0, 0x0, 0, 1, 0, .rw⟩
/-- `PWR_CONVOY.ANNOUNCE` (R549, Table 16.6). -/
def F.pwrConvoyAnnounce : Fld := ⟨0x400038, 0x0, 0x0, 1, 1, 0, .rw⟩
/-- `PWR_CONVOY.GROUP` (R549, Table 16.6). -/
def F.pwrConvoyGroup : Fld := ⟨0x400038, 0x0, 0x0, 2, 16, 0, .rw⟩
/-- `PWR_CONVSTAT.SLOWDEV` (R549, Table 16.6). -/
def F.pwrConvstatSlowdev : Fld := ⟨0x400040, 0x0, 0x0, 0, 12, 0, .ro⟩
/-- `PWR_CONVSTAT.RATE` (R549, Table 16.6). -/
def F.pwrConvstatRate : Fld := ⟨0x400040, 0x0, 0x0, 12, 7, 0, .ro⟩
/-- `PWR_CONVSTAT.FOLLOWUS` (R549, Table 16.6). -/
def F.pwrConvstatFollowus : Fld := ⟨0x400040, 0x0, 0x0, 32, 32, 0, .ro⟩
/-- `PWR_ENERGY.UJ` (R549, Table 16.6). -/
def F.pwrEnergyUj : Fld := ⟨0x400048, 0x0, 0x0, 0, 64, 0, .ro⟩
/-- `PWR_UNATTR.UJ` (R549, Table 16.6). -/
def F.pwrUnattrUj : Fld := ⟨0x400050, 0x0, 0x0, 0, 64, 0, .ro⟩
/-- `PWR_THROT.CAPUS` (R549, Table 16.6). -/
def F.pwrThrotCapus : Fld := ⟨0x400058, 0x0, 0x0, 0, 32, 0, .rc⟩
/-- `PWR_THROT.DROOPS` (R549, Table 16.6). -/
def F.pwrThrotDroops : Fld := ⟨0x400058, 0x0, 0x0, 32, 16, 0, .rc⟩
/-- `PWR_THROT.ANNOUNCES` (R549, Table 16.6). -/
def F.pwrThrotAnnounces : Fld := ⟨0x400058, 0x0, 0x0, 48, 16, 0, .rc⟩
/-- `PWR_TILEn.FREQREQ` (R549, Table 16.6). -/
def F.pwrTileFreqreq : Fld := ⟨0x400080, 0x0, 0x8, 0, 7, 100, .rw⟩
/-- `PWR_TILEn.FREQ` (R549, Table 16.6). -/
def F.pwrTileFreq : Fld := ⟨0x400080, 0x0, 0x8, 8, 7, 0, .ro⟩
/-- `PWR_TILEn.DUTY` (R549, Table 16.6). -/
def F.pwrTileDuty : Fld := ⟨0x400080, 0x0, 0x8, 16, 3, 0, .ro⟩
/-- `PWR_TILEn.TEMP` (R549, Table 16.6). -/
def F.pwrTileTemp : Fld := ⟨0x400080, 0x0, 0x8, 24, 8, 0, .ro⟩
/-- `SEC_STAT.BOOT` (R570, Table 17.11). -/
def F.secStatBoot : Fld := ⟨0x600000, 0x0, 0x0, 0, 2, 0, .ro⟩
/-- `SEC_STAT.BOOTERR` (R570, Table 17.11). -/
def F.secStatBooterr : Fld := ⟨0x600000, 0x0, 0x0, 4, 4, 0, .ro⟩
/-- `SEC_STAT.LIFE` (R570, Table 17.11). -/
def F.secStatLife : Fld := ⟨0x600000, 0x0, 0x0, 8, 2, 0, .ro⟩
/-- `SEC_STAT.DEBUG` (R570, Table 17.11). -/
def F.secStatDebug : Fld := ⟨0x600000, 0x0, 0x0, 10, 2, 0, .ro⟩
/-- `SEC_STAT.DBGMAX` (R570, Table 17.11). -/
def F.secStatDbgmax : Fld := ⟨0x600000, 0x0, 0x0, 12, 2, 0, .ro⟩
/-- `SEC_STAT.D2CNT` (R570, Table 17.11). -/
def F.secStatD2cnt : Fld := ⟨0x600000, 0x0, 0x0, 16, 16, 0, .ro⟩
/-- `SEC_STAT.SVN` (R570, Table 17.11). -/
def F.secStatSvn : Fld := ⟨0x600000, 0x0, 0x0, 32, 32, 0, .ro⟩
/-- `SEC_ARB.ARB_RS` (R570, Table 17.11). -/
def F.secArbArbRs : Fld := ⟨0x600008, 0x0, 0x0, 0, 32, 0, .ro⟩
/-- `SEC_ARB.ARB_F` (R570, Table 17.11). -/
def F.secArbArbF : Fld := ⟨0x600008, 0x0, 0x0, 32, 6, 0, .ro⟩
/-- `SEC_MBREQ.ADDR` (R570, Table 17.11). -/
def F.secMbreqAddr : Fld := ⟨0x600010, 0x0, 0x0, 0, 64, 0, .rw⟩
/-- `SEC_MBCTL.LEN` (R570, Table 17.11). -/
def F.secMbctlLen : Fld := ⟨0x600018, 0x0, 0x0, 0, 16, 0, .rw⟩
/-- `SEC_MBCTL.GO` (R570, Table 17.11). -/
def F.secMbctlGo : Fld := ⟨0x600018, 0x0, 0x0, 16, 1, 0, .rw⟩
/-- `SEC_MBCTL.IRQ` (R570, Table 17.11). -/
def F.secMbctlIrq : Fld := ⟨0x600018, 0x0, 0x0, 17, 8, 0, .rw⟩
/-- `SEC_MBCTL.IRQEN` (R570, Table 17.11). -/
def F.secMbctlIrqen : Fld := ⟨0x600018, 0x0, 0x0, 25, 1, 0, .rw⟩
/-- `SEC_MBSTAT.DONE` (R570, Table 17.11). -/
def F.secMbstatDone : Fld := ⟨0x600020, 0x0, 0x0, 0, 1, 0, .w1c⟩
/-- `SEC_MBSTAT.RESULT` (R570, Table 17.11). -/
def F.secMbstatResult : Fld := ⟨0x600020, 0x0, 0x0, 8, 8, 0, .ro⟩
/-- `SEC_MBSTAT.RESPLEN` (R570, Table 17.11). -/
def F.secMbstatResplen : Fld := ⟨0x600020, 0x0, 0x0, 16, 32, 0, .ro⟩
/-- `SEC_MBRESP.ADDR` (R570, Table 17.11). -/
def F.secMbrespAddr : Fld := ⟨0x600028, 0x0, 0x0, 0, 64, 0, .rw⟩
/-- `SEC_CFG.LINKDBG` (R570, Table 17.11). -/
def F.secCfgLinkdbg : Fld := ⟨0x600030, 0x0, 0x0, 0, 2, 1, .rwl⟩
/-- `SEC_CFG.LOCK` (R570, Table 17.11). -/
def F.secCfgLock : Fld := ⟨0x600030, 0x0, 0x0, 2, 1, 0, .rwl⟩
/-- `SEC_KEYSEL.REGNUM` (R570, Table 17.11). -/
def F.secKeyselRegnum : Fld := ⟨0x600038, 0x0, 0x0, 0, 6, 0, .rw⟩
/-- `SEC_KEYMAP.SLOTS` (R570, Table 17.11). -/
def F.secKeymapSlots : Fld := ⟨0x600040, 0x0, 0x0, 0, 16, 0, .ro⟩
/-- `SEC_KEYMAP.TRANSPORT` (R570, Table 17.11). -/
def F.secKeymapTransport : Fld := ⟨0x600040, 0x0, 0x0, 16, 7, 0, .ro⟩
/-- `SEC_DEVIDw.DATA` (R570, Table 17.11). -/
def F.secDevidData : Fld := ⟨0x600048, 0x0, 0x8, 0, 64, 0, .ro⟩
/-- `MG_ID.PART` (R592, Table 18.8). -/
def F.mgIdPart : Fld := ⟨0x40000000, 0x0, 0x0, 0, 8, 0, .ro⟩
/-- `MG_ID.STEP` (R592, Table 18.8). -/
def F.mgIdStep : Fld := ⟨0x40000000, 0x0, 0x0, 8, 8, 0, .ro⟩
/-- `MG_STATE.POWER` (R592, Table 18.8). -/
def F.mgStatePower : Fld := ⟨0x40000008, 0x0, 0x0, 0, 3, 3, .ro⟩
/-- `MG_STATE.BOOT` (R592, Table 18.8). -/
def F.mgStateBoot : Fld := ⟨0x40000008, 0x0, 0x0, 3, 2, 0, .ro⟩
/-- `MG_STATE.READY` (R592, Table 18.8). -/
def F.mgStateReady : Fld := ⟨0x40000008, 0x0, 0x0, 5, 1, 0, .ro⟩
/-- `MG_STATE.LIFE` (R592, Table 18.8). -/
def F.mgStateLife : Fld := ⟨0x40000008, 0x0, 0x0, 6, 2, 0, .ro⟩
/-- `MG_ALERT.DEVFAULT` (R592, Table 18.8). -/
def F.mgAlertDevfault : Fld := ⟨0x40000010, 0x0, 0x0, 0, 1, 0, .w1c⟩
/-- `MG_ALERT.SEQFAIL` (R592, Table 18.8). -/
def F.mgAlertSeqfail : Fld := ⟨0x40000010, 0x0, 0x0, 1, 1, 0, .w1c⟩
/-- `MG_ALERT.BOOTREJ` (R592, Table 18.8). -/
def F.mgAlertBootrej : Fld := ⟨0x40000010, 0x0, 0x0, 2, 1, 0, .w1c⟩
/-- `MG_ALERT.THERMAL` (R592, Table 18.8). -/
def F.mgAlertThermal : Fld := ⟨0x40000010, 0x0, 0x0, 3, 1, 0, .w1c⟩
/-- `MG_ALERT.MASK` (R592, Table 18.8). -/
def F.mgAlertMask : Fld := ⟨0x40000010, 0x0, 0x0, 8, 8, 7, .rw⟩
/-- `MG_POWER.MEAS` (R592, Table 18.8). -/
def F.mgPowerMeas : Fld := ⟨0x40000018, 0x0, 0x0, 0, 48, 0, .ro⟩
/-- `MG_TEMP.TEMP` (R592, Table 18.8). -/
def F.mgTempTemp : Fld := ⟨0x40000020, 0x0, 0x0, 0, 48, 0, .ro⟩
/-- `MG_CAP.WATTS` (R592, Table 18.8). -/
def F.mgCapWatts : Fld := ⟨0x40000028, 0x0, 0x0, 0, 12, 2000, .rw⟩
/-- `MG_MBCTL.LEN` (R592, Table 18.8). -/
def F.mgMbctlLen : Fld := ⟨0x40001000, 0x0, 0x0, 0, 16, 0, .rw⟩
/-- `MG_MBCTL.GO` (R592, Table 18.8). -/
def F.mgMbctlGo : Fld := ⟨0x40001000, 0x0, 0x0, 16, 1, 0, .rw⟩
/-- `MG_MBCTL.DONE` (R592, Table 18.8). -/
def F.mgMbctlDone : Fld := ⟨0x40001000, 0x0, 0x0, 17, 1, 0, .w1c⟩
/-- `MG_MBCTL.RESULT` (R592, Table 18.8). -/
def F.mgMbctlResult : Fld := ⟨0x40001000, 0x0, 0x0, 24, 8, 0, .ro⟩
/-- `MG_MBCTL.RESPLEN` (R592, Table 18.8). -/
def F.mgMbctlResplen : Fld := ⟨0x40001000, 0x0, 0x0, 32, 16, 0, .ro⟩
/-- `HOST_STAT.RATE` (R594, Table 18.9). -/
def F.hostStatRate : Fld := ⟨0x10E200, 0x0, 0x0, 0, 2, 0, .ro⟩
/-- `HOST_STAT.WIDTH` (R594, Table 18.9). -/
def F.hostStatWidth : Fld := ⟨0x10E200, 0x0, 0x0, 2, 5, 0, .ro⟩
/-- `HOST_STAT.UNSUPLINK` (R594, Table 18.9). -/
def F.hostStatUnsuplink : Fld := ⟨0x10E200, 0x0, 0x0, 7, 1, 0, .ro⟩
/-- `HOST_STAT.FWWANT` (R594, Table 18.9). -/
def F.hostStatFwwant : Fld := ⟨0x10E200, 0x0, 0x0, 8, 1, 0, .ro⟩
/-- `HOST_STAT.READY` (R594, Table 18.9). -/
def F.hostStatReady : Fld := ⟨0x10E200, 0x0, 0x0, 9, 1, 0, .ro⟩
/-- `HOST_STAT.B2REFUSED` (R594, Table 18.9). -/
def F.hostStatB2refused : Fld := ⟨0x10E200, 0x0, 0x0, 16, 16, 0, .ro⟩
/-- `HOST_STAT.POLLERR` (R594, Table 18.9). -/
def F.hostStatPollerr : Fld := ⟨0x10E200, 0x0, 0x0, 32, 16, 0, .ro⟩
/-- `HOST_FWADDR.ADDR` (R594, Table 18.9). -/
def F.hostFwaddrAddr : Fld := ⟨0x10E208, 0x0, 0x0, 0, 64, 0, .rw⟩
/-- `HOST_FWCTL.BYTES` (R594, Table 18.9). -/
def F.hostFwctlBytes : Fld := ⟨0x10E210, 0x0, 0x0, 0, 25, 0, .rw⟩
/-- `HOST_FWCTL.GO` (R594, Table 18.9). -/
def F.hostFwctlGo : Fld := ⟨0x10E210, 0x0, 0x0, 25, 1, 0, .rw⟩
/-- `HOST_TAILPG.ADDR` (R594, Table 18.9). -/
def F.hostTailpgAddr : Fld := ⟨0x10E218, 0x0, 0x0, 0, 64, 0, .rw⟩
/-- `HOST_CSCFG.POLLNS` (R594, Table 18.9). -/
def F.hostCscfgPollns : Fld := ⟨0x10E220, 0x0, 0x0, 0, 16, 1000, .rw⟩
/-- `HOST_B2MAPs.MODE` (R594, Table 18.9). -/
def F.hostB2mapMode : Fld := ⟨0x10E240, 0x0, 0x8, 0, 2, 0, .rw⟩
/-- `HOST_B2MAPs.REGNUM` (R594, Table 18.9). -/
def F.hostB2mapRegnum : Fld := ⟨0x10E240, 0x0, 0x8, 2, 6, 0, .rw⟩
/-- `HOST_B2MAPs.BASE` (R594, Table 18.9). -/
def F.hostB2mapBase : Fld := ⟨0x10E240, 0x0, 0x8, 21, 27, 0, .rw⟩
/-- `HOST_INGDSTi.VA` (R594, Table 18.9). -/
def F.hostIngdstVa : Fld := ⟨0x10E280, 0x0, 0x8, 0, 48, 0, .rw⟩
/-- `HOST_INGCFGi.B2OFF` (R594, Table 18.9). -/
def F.hostIngcfgB2off : Fld := ⟨0x10E2C0, 0x0, 0x8, 0, 34, 0, .rw⟩
/-- `HOST_INGCFGi.EN` (R594, Table 18.9). -/
def F.hostIngcfgEn : Fld := ⟨0x10E2C0, 0x0, 0x8, 34, 1, 0, .rw⟩
/-- `HOST_INGCFGi.OWNER` (R594, Table 18.9). -/
def F.hostIngcfgOwner : Fld := ⟨0x10E2C0, 0x0, 0x8, 35, 6, 0, .rw⟩
/-- `HOST_INGCFGi.UNITLOG2` (R594, Table 18.9). -/
def F.hostIngcfgUnitlog2 : Fld := ⟨0x10E2C0, 0x0, 0x8, 41, 3, 0, .rw⟩
/-- `HOST_INGCFGi.UNITS` (R594, Table 18.9). -/
def F.hostIngcfgUnits : Fld := ⟨0x10E2C0, 0x0, 0x8, 44, 20, 0, .rw⟩
/-- `HOST_INGTOTi.TOTAL` (R594, Table 18.9). -/
def F.hostIngtotTotal : Fld := ⟨0x10E300, 0x0, 0x8, 0, 32, 0, .ro⟩
/-- `CTX_CS_BASE.ADDR` (R595, Table 18.10). -/
def F.ctxCsBaseAddr : Fld := ⟨0x10C600, 0x10000, 0x0, 0, 64, 0, .rw⟩
/-- `CTX_CS_CFG.SIZELOG2` (R595, Table 18.10). -/
def F.ctxCsCfgSizelog2 : Fld := ⟨0x10C608, 0x10000, 0x0, 0, 5, 6, .rw⟩
/-- `CTX_CS_HEAD.COUNT` (R595, Table 18.10). -/
def F.ctxCsHeadCount : Fld := ⟨0x10C610, 0x10000, 0x0, 0, 64, 0, .ro⟩
/-- `CTX_CS_STAT.BAD` (R595, Table 18.10). -/
def F.ctxCsStatBad : Fld := ⟨0x10C618, 0x10000, 0x0, 0, 1, 0, .w1c⟩
/-- `CTX_CS_STAT.BADCODE` (R595, Table 18.10). -/
def F.ctxCsStatBadcode : Fld := ⟨0x10C618, 0x10000, 0x0, 4, 4, 0, .ro⟩
/-- `CTX_CS_STAT.QUEUED` (R595, Table 18.10). -/
def F.ctxCsStatQueued : Fld := ⟨0x10C618, 0x10000, 0x0, 16, 9, 0, .ro⟩
/-- `CTX_CS_CTL.RESUME` (R595, Table 18.10). -/
def F.ctxCsCtlResume : Fld := ⟨0x10C620, 0x10000, 0x0, 0, 1, 0, .wo⟩
/-- `CTX_CS_CTL.SKIP` (R595, Table 18.10). -/
def F.ctxCsCtlSkip : Fld := ⟨0x10C620, 0x10000, 0x0, 1, 1, 0, .wo⟩
/-- `CTX_CQ_BASE.ADDR` (R595, Table 18.10). -/
def F.ctxCqBaseAddr : Fld := ⟨0x10C628, 0x10000, 0x0, 0, 64, 0, .rw⟩
/-- `CTX_CQ_CFG.SIZELOG2` (R595, Table 18.10). -/
def F.ctxCqCfgSizelog2 : Fld := ⟨0x10C630, 0x10000, 0x0, 0, 5, 6, .rw⟩
/-- `CTX_CQ_CFG.IRQ` (R595, Table 18.10). -/
def F.ctxCqCfgIrq : Fld := ⟨0x10C630, 0x10000, 0x0, 5, 8, 0, .rw⟩
/-- `CTX_CQ_CFG.IRQEN` (R595, Table 18.10). -/
def F.ctxCqCfgIrqen : Fld := ⟨0x10C630, 0x10000, 0x0, 13, 1, 0, .rw⟩
/-- `CTX_CQ_CFG.COALUS` (R595, Table 18.10). -/
def F.ctxCqCfgCoalus : Fld := ⟨0x10C630, 0x10000, 0x0, 16, 16, 0, .rw⟩
/-- `CTX_CQ_HEAD.COUNT` (R595, Table 18.10). -/
def F.ctxCqHeadCount : Fld := ⟨0x10C638, 0x10000, 0x0, 0, 64, 0, .ro⟩
/-- `CTX_CQ_TAIL.COUNT` (R595, Table 18.10). -/
def F.ctxCqTailCount : Fld := ⟨0x10C640, 0x10000, 0x0, 0, 64, 0, .rw⟩
/-- `GLB_ID.PART` (R613, Table 19.7). -/
def F.glbIdPart : Fld := ⟨0x0, 0x0, 0x0, 0, 8, 0, .ro⟩
/-- `GLB_ID.STEP` (R613, Table 19.7). -/
def F.glbIdStep : Fld := ⟨0x0, 0x0, 0x0, 8, 8, 0, .ro⟩
/-- `GLB_ID.USABLE` (R613, Table 19.7). -/
def F.glbIdUsable : Fld := ⟨0x0, 0x0, 0x0, 16, 11, 0, .ro⟩
/-- `GLB_ID.MAXW` (R613, Table 19.7). -/
def F.glbIdMaxw : Fld := ⟨0x0, 0x0, 0x0, 32, 6, 0, .ro⟩
/-- `GLB_ID.MAXH` (R613, Table 19.7). -/
def F.glbIdMaxh : Fld := ⟨0x0, 0x0, 0x0, 38, 6, 32, .ro⟩
/-- `GLB_ID.PROFILES` (R613, Table 19.7). -/
def F.glbIdProfiles : Fld := ⟨0x0, 0x0, 0x0, 44, 2, 0, .ro⟩
/-- `GLB_DET.ENF` (R613, Table 19.7). -/
def F.glbDetEnf : Fld := ⟨0x8, 0x0, 0x0, 0, 1, 1, .rw⟩
/-- `GLB_DET.NRSEEN` (R613, Table 19.7). -/
def F.glbDetNrseen : Fld := ⟨0x8, 0x0, 0x0, 1, 1, 0, .w1c⟩
/-- `GLB_CTL.RST` (R613, Table 19.7). -/
def F.glbCtlRst : Fld := ⟨0x10, 0x0, 0x0, 0, 1, 0, .wo⟩
/-- `GLB_STAT.READY` (R613, Table 19.7). -/
def F.glbStatReady : Fld := ⟨0x18, 0x0, 0x0, 0, 1, 0, .ro⟩
/-- `GLB_STAT.DEVFAULT` (R613, Table 19.7). -/
def F.glbStatDevfault : Fld := ⟨0x18, 0x0, 0x0, 1, 1, 0, .ro⟩
/-- `GLB_STAT.WARMCNT` (R613, Table 19.7). -/
def F.glbStatWarmcnt : Fld := ⟨0x18, 0x0, 0x0, 16, 16, 0, .ro⟩
/-- `GLB_STAT.BOOT` (R613, Table 19.7). -/
def F.glbStatBoot : Fld := ⟨0x18, 0x0, 0x0, 32, 32, 0, .ro⟩
/-- `GLB_REFUSE.CODE` (R613, Table 19.7). -/
def F.glbRefuseCode : Fld := ⟨0x20, 0x0, 0x0, 0, 8, 0, .ro⟩
/-- `GLB_REFUSE.SOURCE` (R613, Table 19.7). -/
def F.glbRefuseSource : Fld := ⟨0x20, 0x0, 0x0, 8, 4, 0, .ro⟩
/-- `GLB_REFUSE.INDEX` (R613, Table 19.7). -/
def F.glbRefuseIndex : Fld := ⟨0x20, 0x0, 0x0, 12, 12, 0, .ro⟩
/-- `GLB_REFUSE.COUNT` (R613, Table 19.7). -/
def F.glbRefuseCount : Fld := ⟨0x20, 0x0, 0x0, 32, 16, 0, .rc⟩
/-- `GLB_ERR.BADACC` (R613, Table 19.7). -/
def F.glbErrBadacc : Fld := ⟨0x28, 0x0, 0x0, 0, 16, 0, .rc⟩
/-- `GLB_ERR.LOCKED` (R613, Table 19.7). -/
def F.glbErrLocked : Fld := ⟨0x28, 0x0, 0x0, 16, 16, 0, .rc⟩
/-- `GLB_ERR.RANGE` (R613, Table 19.7). -/
def F.glbErrRange : Fld := ⟨0x28, 0x0, 0x0, 32, 16, 0, .rc⟩
/-- `GLB_IRQCFG.IRQ` (R613, Table 19.7). -/
def F.glbIrqcfgIrq : Fld := ⟨0x30, 0x0, 0x0, 0, 8, 0, .rw⟩
/-- `GLB_IRQCFG.IRQEN` (R613, Table 19.7). -/
def F.glbIrqcfgIrqen : Fld := ⟨0x30, 0x0, 0x0, 8, 1, 0, .rw⟩
/-- `GLB_IRQCFG.MASK` (R613, Table 19.7). -/
def F.glbIrqcfgMask : Fld := ⟨0x30, 0x0, 0x0, 16, 6, 63, .rw⟩
/-- `GLB_IRQSTAT.DEVFAULT` (R613, Table 19.7). -/
def F.glbIrqstatDevfault : Fld := ⟨0x38, 0x0, 0x0, 0, 1, 0, .w1c⟩
/-- `GLB_IRQSTAT.PORT` (R613, Table 19.7). -/
def F.glbIrqstatPort : Fld := ⟨0x38, 0x0, 0x0, 1, 1, 0, .w1c⟩
/-- `GLB_IRQSTAT.POWER` (R613, Table 19.7). -/
def F.glbIrqstatPower : Fld := ⟨0x38, 0x0, 0x0, 2, 1, 0, .w1c⟩
/-- `GLB_IRQSTAT.TIME` (R613, Table 19.7). -/
def F.glbIrqstatTime : Fld := ⟨0x38, 0x0, 0x0, 3, 1, 0, .w1c⟩
/-- `GLB_IRQSTAT.PAIR` (R613, Table 19.7). -/
def F.glbIrqstatPair : Fld := ⟨0x38, 0x0, 0x0, 4, 1, 0, .w1c⟩
/-- `GLB_IRQSTAT.REFUSE` (R613, Table 19.7). -/
def F.glbIrqstatRefuse : Fld := ⟨0x38, 0x0, 0x0, 5, 1, 0, .w1c⟩

/-! ### Registers -/

/-- `CORE_STATE` (R212). -/
def R.coreState : RegD := ⟨0x1000000, 1344, 0x1000, 1, 0x0, [F.coreStateUse, F.coreStateRunctx, F.coreStateRunning, F.coreStateHold, F.coreStateIssuewait, F.coreStateHoldcause, F.coreStatePc]⟩
/-- `CORE_HOLDCYC` (R212). -/
def R.coreHoldcyc : RegD := ⟨0x1000008, 1344, 0x1000, 1, 0x0, [F.coreHoldcycCount]⟩
/-- `CORE_WAITCYC` (R212). -/
def R.coreWaitcyc : RegD := ⟨0x1000010, 1344, 0x1000, 1, 0x0, [F.coreWaitcycCount]⟩
/-- `CORE_TAKECYC` (R212). -/
def R.coreTakecyc : RegD := ⟨0x1000018, 1344, 0x1000, 1, 0x0, [F.coreTakecycCount]⟩
/-- `CORE_VMAPs` (R212). -/
def R.coreVmap : RegD := ⟨0x1000020, 1344, 0x1000, 8, 0x8, [F.coreVmapVx, F.coreVmapVy, F.coreVmapValid]⟩
/-- `CMV_CTLc` (R275). -/
def R.cmvCtl : RegD := ⟨0x1000100, 1344, 0x1000, 4, 0x40, [F.cmvCtlPause]⟩
/-- `CMV_STATc` (R275). -/
def R.cmvStat : RegD := ⟨0x1000108, 1344, 0x1000, 4, 0x40, [F.cmvStatState, F.cmvStatClass, F.cmvStatFault, F.cmvStatReason]⟩
/-- `CMV_SRCc` (R275). -/
def R.cmvSrc : RegD := ⟨0x1000110, 1344, 0x1000, 4, 0x40, [F.cmvSrcAddr]⟩
/-- `CMV_DSTc` (R275). -/
def R.cmvDst : RegD := ⟨0x1000118, 1344, 0x1000, 4, 0x40, [F.cmvDstAddr]⟩
/-- `CMV_REMc` (R275). -/
def R.cmvRem : RegD := ⟨0x1000120, 1344, 0x1000, 4, 0x40, [F.cmvRemBytes]⟩
/-- `BMV_DESCw` (R280). -/
def R.bmvDesc : RegD := ⟨0x800000, 64, 0x100, 8, 0x8, [F.bmvDescData]⟩
/-- `BMV_CTL` (R280). -/
def R.bmvCtl : RegD := ⟨0x800040, 64, 0x100, 1, 0x0, [F.bmvCtlEn, F.bmvCtlClass, F.bmvCtlOwner, F.bmvCtlFwown, F.bmvCtlIrq, F.bmvCtlIrqen]⟩
/-- `BMV_STAT` (R280). -/
def R.bmvStat : RegD := ⟨0x800048, 64, 0x100, 1, 0x0, [F.bmvStatState, F.bmvStatDone, F.bmvStatFail, F.bmvStatReason, F.bmvStatFailcode, F.bmvStatDesccnt]⟩
/-- `DDR_STAT` (R330). -/
def R.ddrStat : RegD := ⟨0x200000, 16, 0x1000, 1, 0x0, [F.ddrStatState, F.ddrStatMode, F.ddrStatCap]⟩
/-- `DDR_CE` (R330). -/
def R.ddrCe : RegD := ⟨0x200008, 16, 0x1000, 1, 0x0, [F.ddrCeCount]⟩
/-- `DDR_UE` (R330). -/
def R.ddrUe : RegD := ⟨0x200010, 16, 0x1000, 1, 0x0, [F.ddrUeCount]⟩
/-- `DDR_ELOG` (R330). -/
def R.ddrElog : RegD := ⟨0x200018, 16, 0x1000, 1, 0x0, [F.ddrElogAddr, F.ddrElogDevice, F.ddrElogKind]⟩
/-- `DDR_DEVERR` (R330). -/
def R.ddrDeverr : RegD := ⟨0x200020, 16, 0x1000, 1, 0x0, [F.ddrDeverrSeen]⟩
/-- `MEM_CFG` (R330). -/
def R.memCfg : RegD := ⟨0x200800, 1, 0x0, 1, 0x0, [F.memCfgMaxmode, F.memCfgRclass, F.memCfgLock]⟩
/-- `MEM_STAT` (R330). -/
def R.memStat : RegD := ⟨0x200808, 1, 0x0, 1, 0x0, [F.memStatInit, F.memStatFailcode, F.memStatCapgib]⟩
/-- `MEM_SCRUB` (R330). -/
def R.memScrub : RegD := ⟨0x200810, 1, 0x0, 1, 0x0, [F.memScrubPeriod, F.memScrubEn]⟩
/-- `MEM_MIG` (R330). -/
def R.memMig : RegD := ⟨0x200818, 1, 0x0, 1, 0x0, [F.memMigEpoch, F.memMigRate, F.memMigEn, F.memMigDemote]⟩
/-- `MEM_LEND` (R330). -/
def R.memLend : RegD := ⟨0x200820, 1, 0x0, 1, 0x0, [F.memLendFrames]⟩
/-- `MEM_PEERk` (R330). -/
def R.memPeer : RegD := ⟨0x200828, 1, 0x0, 8, 0x8, [F.memPeerDev, F.memPeerValid]⟩
/-- `MEM_HPOOL_BASE` (R330). -/
def R.memHpoolBase : RegD := ⟨0x200868, 1, 0x0, 1, 0x0, [F.memHpoolBaseAddr]⟩
/-- `MEM_HPOOL_CNT` (R330). -/
def R.memHpoolCnt : RegD := ⟨0x200870, 1, 0x0, 1, 0x0, [F.memHpoolCntCount]⟩
/-- `MEM_MIGCNT` (R330). -/
def R.memMigcnt : RegD := ⟨0x200878, 1, 0x0, 1, 0x0, [F.memMigcntIn, F.memMigcntOut]⟩
/-- `CTX_PGQUOTA` (R331). -/
def R.ctxPgquota : RegD := ⟨0x10C000, 8, 0x10000, 1, 0x0, [F.ctxPgquotaQuota, F.ctxPgquotaFloor]⟩
/-- `CTX_PGUSED` (R331). -/
def R.ctxPgused : RegD := ⟨0x10C008, 8, 0x10000, 1, 0x0, [F.ctxPgusedMapped, F.ctxPgusedLocal]⟩
/-- `CTX_PGVA` (R331). -/
def R.ctxPgva : RegD := ⟨0x10C010, 8, 0x10000, 1, 0x0, [F.ctxPgvaVa]⟩
/-- `CTX_PGCNT` (R331). -/
def R.ctxPgcnt : RegD := ⟨0x10C018, 8, 0x10000, 1, 0x0, [F.ctxPgcntPages]⟩
/-- `CTX_PGCMD` (R331). -/
def R.ctxPgcmd : RegD := ⟨0x10C020, 8, 0x10000, 1, 0x0, [F.ctxPgcmdOp, F.ctxPgcmdAttr, F.ctxPgcmdKeyslot, F.ctxPgcmdGo]⟩
/-- `CTX_PGSTAT` (R331). -/
def R.ctxPgstat : RegD := ⟨0x10C028, 8, 0x10000, 1, 0x0, [F.ctxPgstatResult, F.ctxPgstatDone, F.ctxPgstatDonepages]⟩
/-- `LNK_CTL` (R370). -/
def R.lnkCtl : RegD := ⟨0x300000, 48, 0x1000, 1, 0x0, [F.lnkCtlEn, F.lnkCtlRole, F.lnkCtlMinlanes, F.lnkCtlAuto, F.lnkCtlLaneret]⟩
/-- `LNK_STAT` (R370). -/
def R.lnkStat : RegD := ⟨0x300008, 48, 0x1000, 1, 0x0, [F.lnkStatState, F.lnkStatLanes, F.lnkStatReason, F.lnkStatUpevt, F.lnkStatDownevt, F.lnkStatFailevt, F.lnkStatLaneevt, F.lnkStatLoscnt]⟩
/-- `LNK_PARTNER` (R370). -/
def R.lnkPartner : RegD := ⟨0x300010, 48, 0x1000, 1, 0x0, [F.lnkPartnerDev, F.lnkPartnerPort, F.lnkPartnerValid]⟩
/-- `LNK_FEC` (R370). -/
def R.lnkFec : RegD := ⟨0x300018, 48, 0x1000, 1, 0x0, [F.lnkFecCorr, F.lnkFecUncorr]⟩
/-- `LNK_RETRY` (R370). -/
def R.lnkRetry : RegD := ⟨0x300020, 48, 0x1000, 1, 0x0, [F.lnkRetryNaks, F.lnkRetryReplays]⟩
/-- `LNK_TXBYTES` (R370). -/
def R.lnkTxbytes : RegD := ⟨0x300028, 48, 0x1000, 1, 0x0, [F.lnkTxbytesCount]⟩
/-- `LNK_RXBYTES` (R370). -/
def R.lnkRxbytes : RegD := ⟨0x300030, 48, 0x1000, 1, 0x0, [F.lnkRxbytesCount]⟩
/-- `FAB_CFG` (R371). -/
def R.fabCfg : RegD := ⟨0x300800, 1, 0x0, 1, 0x0, [F.fabCfgDevnum, F.fabCfgSpaceid, F.fabCfgLock]⟩
/-- `FAB_STAT` (R371). -/
def R.fabStat : RegD := ⟨0x300808, 1, 0x0, 1, 0x0, [F.fabStatReason]⟩
/-- `FAB_TIMERS` (R371). -/
def R.fabTimers : RegD := ⟨0x300810, 1, 0x0, 1, 0x0, [F.fabTimersLifetime, F.fabTimersRto, F.fabTimersCollto, F.fabTimersHops]⟩
/-- `FAB_RTIDX` (R371). -/
def R.fabRtidx : RegD := ⟨0x300818, 1, 0x0, 1, 0x0, [F.fabRtidxEntry]⟩
/-- `FAB_RTDATA` (R371). -/
def R.fabRtdata : RegD := ⟨0x300820, 1, 0x0, 1, 0x0, [F.fabRtdataPorts, F.fabRtdataValid]⟩
/-- `FAB_CRFLOORc` (R371). -/
def R.fabCrfloor : RegD := ⟨0x300828, 1, 0x0, 8, 0x8, [F.fabCrfloorFloor]⟩
/-- `FAB_DROP` (R371). -/
def R.fabDrop : RegD := ⟨0x300868, 1, 0x0, 1, 0x0, [F.fabDropLife, F.fabDropNoroute]⟩
/-- `FAB_RQBASEi` (R371). -/
def R.fabRqbase : RegD := ⟨0x300900, 1, 0x0, 32, 0x10, [F.fabRqbaseAddr]⟩
/-- `FAB_RQCFGi` (R371). -/
def R.fabRqcfg : RegD := ⟨0x300908, 1, 0x0, 32, 0x10, [F.fabRqcfgUnitlog2, F.fabRqcfgEn, F.fabRqcfgUnits, F.fabRqcfgTotal]⟩
/-- `CTX_LNKCR` (R372). -/
def R.ctxLnkcr : RegD := ⟨0x10C100, 8, 0x10000, 1, 0x0, [F.ctxLnkcrClass]⟩
/-- `CTX_COLLQ0` (R372). -/
def R.ctxCollq0 : RegD := ⟨0x10C108, 8, 0x10000, 1, 0x0, [F.ctxCollq0Va]⟩
/-- `CTX_COLLQ1` (R372). -/
def R.ctxCollq1 : RegD := ⟨0x10C110, 8, 0x10000, 1, 0x0, [F.ctxCollq1Va]⟩
/-- `CTX_COLLSTAT` (R372). -/
def R.ctxCollstat : RegD := ⟨0x10C118, 8, 0x10000, 1, 0x0, [F.ctxCollstatDone0, F.ctxCollstatDone1, F.ctxCollstatFail, F.ctxCollstatFailq, F.ctxCollstatFailidx]⟩
/-- `TC_CFG` (R407). -/
def R.tcCfg : RegD := ⟨0x500000, 1, 0x0, 1, 0x0, [F.tcCfgMaster, F.tcCfgLock]⟩
/-- `TC_CTL` (R407). -/
def R.tcCtl : RegD := ⟨0x500008, 1, 0x0, 1, 0x0, [F.tcCtlReacq]⟩
/-- `TC_STAT` (R407). -/
def R.tcStat : RegD := ⟨0x500010, 1, 0x0, 1, 0x0, [F.tcStatState, F.tcStatStratum, F.tcStatUpport, F.tcStatMasterdev, F.tcStatAlarm, F.tcStatConflict, F.tcStatBehind]⟩
/-- `TC_NOW` (R407). -/
def R.tcNow : RegD := ⟨0x500018, 1, 0x0, 1, 0x0, [F.tcNowCount]⟩
/-- `TC_SET` (R407). -/
def R.tcSet : RegD := ⟨0x500020, 1, 0x0, 1, 0x0, [F.tcSetCount]⟩
/-- `TC_OFFSET` (R407). -/
def R.tcOffset : RegD := ⟨0x500028, 1, 0x0, 1, 0x0, [F.tcOffsetTheta, F.tcOffsetDelay]⟩
/-- `TC_LAUNCH` (R407). -/
def R.tcLaunch : RegD := ⟨0x500030, 1, 0x0, 1, 0x0, [F.tcLaunchLate, F.tcLaunchDup]⟩
/-- `TC_TICKgCFG` (R407). -/
def R.tcTickCfg : RegD := ⟨0x500040, 1, 0x0, 4, 0x10, [F.tcTickCfgPeriod, F.tcTickCfgEn]⟩
/-- `TC_TICKgSTART` (R407). -/
def R.tcTickStart : RegD := ⟨0x500048, 1, 0x0, 4, 0x10, [F.tcTickStartCount]⟩
/-- `TC_TICKgTOT` (R407). -/
def R.tcTickTot : RegD := ⟨0x500080, 1, 0x0, 4, 0x8, [F.tcTickTotTotal]⟩
/-- `CTX_LOG_BASE` (R408). -/
def R.ctxLogBase : RegD := ⟨0x10C200, 8, 0x10000, 1, 0x0, [F.ctxLogBaseAddr]⟩
/-- `CTX_LOG_CFG` (R408). -/
def R.ctxLogCfg : RegD := ⟨0x10C208, 8, 0x10000, 1, 0x0, [F.ctxLogCfgMode, F.ctxLogCfgSizelog2, F.ctxLogCfgPace]⟩
/-- `CTX_LOG_HEAD` (R408). -/
def R.ctxLogHead : RegD := ⟨0x10C210, 8, 0x10000, 1, 0x0, [F.ctxLogHeadCount]⟩
/-- `CTX_LOG_TAIL` (R408). -/
def R.ctxLogTail : RegD := ⟨0x10C218, 8, 0x10000, 1, 0x0, [F.ctxLogTailCount]⟩
/-- `CTX_LOG_NOTE` (R408). -/
def R.ctxLogNote : RegD := ⟨0x10C220, 8, 0x10000, 1, 0x0, [F.ctxLogNoteValue]⟩
/-- `CTX_SLATE_BASE` (R408). -/
def R.ctxSlateBase : RegD := ⟨0x10C228, 8, 0x10000, 1, 0x0, [F.ctxSlateBaseAddr]⟩
/-- `CTX_SLATE_CFG` (R408). -/
def R.ctxSlateCfg : RegD := ⟨0x10C230, 8, 0x10000, 1, 0x0, [F.ctxSlateCfgSlots, F.ctxSlateCfgDetail, F.ctxSlateCfgDpoint]⟩
/-- `CTX_REPLAY` (R408). -/
def R.ctxReplay : RegD := ⟨0x10C238, 8, 0x10000, 1, 0x0, [F.ctxReplayMismatch, F.ctxReplayDiverge, F.ctxReplayDkind]⟩
/-- `CTX_REPLAY_STEP` (R408). -/
def R.ctxReplayStep : RegD := ⟨0x10C240, 8, 0x10000, 1, 0x0, [F.ctxReplayStepStepId]⟩
/-- `CTX_CTL` (R444). -/
def R.ctxCtl : RegD := ⟨0x100000, 8, 0x10000, 1, 0x0, [F.ctxCtlEn, F.ctxCtlRegnum, F.ctxCtlPrio, F.ctxCtlShelve]⟩
/-- `CTX_STAT` (R444). -/
def R.ctxStat : RegD := ⟨0x100008, 8, 0x10000, 1, 0x0, [F.ctxStatState, F.ctxStatBlocked, F.ctxStatRefused, F.ctxStatStep, F.ctxStatReason]⟩
/-- `CTX_IMAGE` (R444). -/
def R.ctxImage : RegD := ⟨0x100010, 8, 0x10000, 1, 0x0, [F.ctxImageAddr]⟩
/-- `CTX_IMAGELEN` (R444). -/
def R.ctxImagelen : RegD := ⟨0x100018, 8, 0x10000, 1, 0x0, [F.ctxImagelenBytes]⟩
/-- `CTX_DIGESTw` (R444). -/
def R.ctxDigest : RegD := ⟨0x100020, 8, 0x10000, 4, 0x8, [F.ctxDigestData]⟩
/-- `CTX_SEED` (R444). -/
def R.ctxSeed : RegD := ⟨0x100040, 8, 0x10000, 1, 0x0, [F.ctxSeedSeed]⟩
/-- `CTX_TRAP_BASE` (R444). -/
def R.ctxTrapBase : RegD := ⟨0x100048, 8, 0x10000, 1, 0x0, [F.ctxTrapBaseAddr]⟩
/-- `CTX_SHELF` (R444). -/
def R.ctxShelf : RegD := ⟨0x100050, 8, 0x10000, 1, 0x0, [F.ctxShelfVa]⟩
/-- `CTX_SHELFSZ` (R444). -/
def R.ctxShelfsz : RegD := ⟨0x100058, 8, 0x10000, 1, 0x0, [F.ctxShelfszPages]⟩
/-- `CTX_DLCFG` (R444). -/
def R.ctxDlcfg : RegD := ⟨0x100060, 8, 0x10000, 1, 0x0, [F.ctxDlcfgEn, F.ctxDlcfgFbidx, F.ctxDlcfgMargin]⟩
/-- `CTX_DLSTAT` (R444). -/
def R.ctxDlstat : RegD := ⟨0x100068, 8, 0x10000, 1, 0x0, [F.ctxDlstatTlast, F.ctxDlstatSwitches]⟩
/-- `CTX_ACCT_WAIT` (R444). -/
def R.ctxAcctWait : RegD := ⟨0x100070, 8, 0x10000, 1, 0x0, [F.ctxAcctWaitNs]⟩
/-- `CTX_ACCT_PREEMPT` (R444). -/
def R.ctxAcctPreempt : RegD := ⟨0x100078, 8, 0x10000, 1, 0x0, [F.ctxAcctPreemptCount]⟩
/-- `CTX_ACCT_ENERGY` (R444). -/
def R.ctxAcctEnergy : RegD := ⟨0x100080, 8, 0x10000, 1, 0x0, [F.ctxAcctEnergyUj]⟩
/-- `CTX_ACCT_STEPS` (R444). -/
def R.ctxAcctSteps : RegD := ⟨0x100088, 8, 0x10000, 1, 0x0, [F.ctxAcctStepsCount]⟩
/-- `CTX_HOMEw` (R444). -/
def R.ctxHome : RegD := ⟨0x100100, 8, 0x10000, 21, 0x8, [F.ctxHomeCores]⟩
/-- `SCHED_CFG` (R445). -/
def R.schedCfg : RegD := ⟨0x10E000, 1, 0x0, 1, 0x0, [F.schedCfgSwapt, F.schedCfgAuto, F.schedCfgFloatto]⟩
/-- `SCHED_STAT` (R445). -/
def R.schedStat : RegD := ⟨0x10E008, 1, 0x0, 1, 0x0, [F.schedStatSwaps, F.schedStatNofit]⟩
/-- `SCHED_DIRSEL` (R445). -/
def R.schedDirsel : RegD := ⟨0x10E010, 1, 0x0, 1, 0x0, [F.schedDirselRegnum]⟩
/-- `SCHED_DIR` (R445). -/
def R.schedDir : RegD := ⟨0x10E018, 1, 0x0, 1, 0x0, [F.schedDirState, F.schedDirSlot, F.schedDirPrio, F.schedDirBlocked, F.schedDirRunnable, F.schedDirShelflost, F.schedDirKeywait, F.schedDirBlockus]⟩
/-- `SCHED_DIRWAIT` (R445). -/
def R.schedDirwait : RegD := ⟨0x10E020, 1, 0x0, 1, 0x0, [F.schedDirwaitValue]⟩
/-- `SCHED_DIRPRE` (R445). -/
def R.schedDirpre : RegD := ⟨0x10E028, 1, 0x0, 1, 0x0, [F.schedDirpreValue]⟩
/-- `SCHED_DIRENERGY` (R445). -/
def R.schedDirenergy : RegD := ⟨0x10E030, 1, 0x0, 1, 0x0, [F.schedDirenergyValue]⟩
/-- `SCHED_DIRCTL` (R445). -/
def R.schedDirctl : RegD := ⟨0x10E038, 1, 0x0, 1, 0x0, [F.schedDirctlReturn, F.schedDirctlDisable]⟩
/-- `CTX_PRINTVA` (R468). -/
def R.ctxPrintva : RegD := ⟨0x10C300, 8, 0x10000, 1, 0x0, [F.ctxPrintvaVa]⟩
/-- `CTX_PRINTCNT` (R468). -/
def R.ctxPrintcnt : RegD := ⟨0x10C308, 8, 0x10000, 1, 0x0, [F.ctxPrintcntPages]⟩
/-- `CTX_PRINTTBL` (R468). -/
def R.ctxPrinttbl : RegD := ⟨0x10C310, 8, 0x10000, 1, 0x0, [F.ctxPrinttblVa]⟩
/-- `CTX_PRINTCTL` (R468). -/
def R.ctxPrintctl : RegD := ⟨0x10C318, 8, 0x10000, 1, 0x0, [F.ctxPrintctlGo, F.ctxPrintctlHash, F.ctxPrintctlIrq, F.ctxPrintctlIrqen]⟩
/-- `CTX_PRINTSTAT` (R468). -/
def R.ctxPrintstat : RegD := ⟨0x10C320, 8, 0x10000, 1, 0x0, [F.ctxPrintstatState, F.ctxPrintstatDone, F.ctxPrintstatFail, F.ctxPrintstatResult, F.ctxPrintstatSent]⟩
/-- `CTX_PRINTDIGw` (R468). -/
def R.ctxPrintdig : RegD := ⟨0x10C328, 8, 0x10000, 4, 0x8, [F.ctxPrintdigData]⟩
/-- `CTX_REELMAN` (R491). -/
def R.ctxReelman : RegD := ⟨0x10C400, 8, 0x10000, 1, 0x0, [F.ctxReelmanAddr]⟩
/-- `CTX_REELMANLEN` (R491). -/
def R.ctxReelmanlen : RegD := ⟨0x10C408, 8, 0x10000, 1, 0x0, [F.ctxReelmanlenBytes]⟩
/-- `CTX_REELSRC` (R491). -/
def R.ctxReelsrc : RegD := ⟨0x10C410, 8, 0x10000, 1, 0x0, [F.ctxReelsrcAddr]⟩
/-- `CTX_REELCFG` (R491). -/
def R.ctxReelcfg : RegD := ⟨0x10C418, 8, 0x10000, 1, 0x0, [F.ctxReelcfgStageoff, F.ctxReelcfgStream, F.ctxReelcfgChunkto, F.ctxReelcfgIrqen]⟩
/-- `CTX_REELCTL` (R491). -/
def R.ctxReelctl : RegD := ⟨0x10C420, 8, 0x10000, 1, 0x0, [F.ctxReelctlGo, F.ctxReelctlCommit, F.ctxReelctlAbort, F.ctxReelctlIrq]⟩
/-- `CTX_REELSTAT` (R491). -/
def R.ctxReelstat : RegD := ⟨0x10C428, 8, 0x10000, 1, 0x0, [F.ctxReelstatState, F.ctxReelstatStaged, F.ctxReelstatFail, F.ctxReelstatResult, F.ctxReelstatStale]⟩
/-- `CTX_REELGEN` (R491). -/
def R.ctxReelgen : RegD := ⟨0x10C430, 8, 0x10000, 1, 0x0, [F.ctxReelgenActgen, F.ctxReelgenStggen]⟩
/-- `CTX_REELFAIL` (R491). -/
def R.ctxReelfail : RegD := ⟨0x10C438, 8, 0x10000, 1, 0x0, [F.ctxReelfailShard, F.ctxReelfailDev, F.ctxReelfailKind]⟩
/-- `CTX_REELDIGw` (R491). -/
def R.ctxReeldig : RegD := ⟨0x10C440, 8, 0x10000, 4, 0x8, [F.ctxReeldigData]⟩
/-- `CTX_REELUNDER` (R491). -/
def R.ctxReelunder : RegD := ⟨0x10C460, 8, 0x10000, 1, 0x0, [F.ctxReelunderCount, F.ctxReelunderNs]⟩
/-- `CTX_REELSTRMn` (R491). -/
def R.ctxReelstrm : RegD := ⟨0x10C468, 8, 0x10000, 4, 0x8, [F.ctxReelstrmLayer, F.ctxReelstrmEn]⟩
/-- `CTX_REELRETRY` (R491). -/
def R.ctxReelretry : RegD := ⟨0x10C488, 8, 0x10000, 1, 0x0, [F.ctxReelretryUpstream, F.ctxReelretryAltroot]⟩
/-- `CTX_RELCFG` (R527). -/
def R.ctxRelcfg : RegD := ⟨0x10C500, 8, 0x10000, 1, 0x0, [F.ctxRelcfgRetake, F.ctxRelcfgChkFrac, F.ctxRelcfgPair]⟩
/-- `CTX_RELSTAT` (R527). -/
def R.ctxRelstat : RegD := ⟨0x10C508, 8, 0x10000, 1, 0x0, [F.ctxRelstatProt, F.ctxRelstatLost, F.ctxRelstatPreason, F.ctxRelstatRetakes, F.ctxRelstatChecks, F.ctxRelstatChkmiss]⟩
/-- `CTX_RELMIR` (R527). -/
def R.ctxRelmir : RegD := ⟨0x10C510, 8, 0x10000, 1, 0x0, [F.ctxRelmirStepId]⟩
/-- `CTX_RELCTL` (R527). -/
def R.ctxRelctl : RegD := ⟨0x10C518, 8, 0x10000, 1, 0x0, [F.ctxRelctlPromote]⟩
/-- `REL_CFG` (R528). -/
def R.relCfg : RegD := ⟨0x10E100, 1, 0x0, 1, 0x0, [F.relCfgCethresh, F.relCfgAutotest]⟩
/-- `REL_STAT` (R528). -/
def R.relStat : RegD := ⟨0x10E108, 1, 0x0, 1, 0x0, [F.relStatDevfault, F.relStatRsfull, F.relStatDldrop, F.relStatBoot]⟩
/-- `REL_OTEST` (R528). -/
def R.relOtest : RegD := ⟨0x10E110, 1, 0x0, 1, 0x0, [F.relOtestKind, F.relOtestIndex, F.relOtestLane, F.relOtestGo, F.relOtestResult, F.relOtestDone]⟩
/-- `REL_WRAP` (R528). -/
def R.relWrap : RegD := ⟨0x10E118, 1, 0x0, 1, 0x0, [F.relWrapGo, F.relWrapState, F.relWrapFails]⟩
/-- `REL_DLBASE` (R528). -/
def R.relDlbase : RegD := ⟨0x10E120, 1, 0x0, 1, 0x0, [F.relDlbaseAddr]⟩
/-- `REL_DLCFG` (R528). -/
def R.relDlcfg : RegD := ⟨0x10E128, 1, 0x0, 1, 0x0, [F.relDlcfgSizelog2, F.relDlcfgEn, F.relDlcfgPeriod]⟩
/-- `REL_DLHEAD` (R528). -/
def R.relDlhead : RegD := ⟨0x10E130, 1, 0x0, 1, 0x0, [F.relDlheadCount]⟩
/-- `REL_DLTAIL` (R528). -/
def R.relDltail : RegD := ⟨0x10E138, 1, 0x0, 1, 0x0, [F.relDltailCount]⟩
/-- `PAIR_CFG` (R528). -/
def R.pairCfg : RegD := ⟨0x10E140, 1, 0x0, 1, 0x0, [F.pairCfgPartner, F.pairCfgFwmix]⟩
/-- `PAIR_CTL` (R528). -/
def R.pairCtl : RegD := ⟨0x10E148, 1, 0x0, 1, 0x0, [F.pairCtlEn, F.pairCtlHandover]⟩
/-- `PAIR_STAT` (R528). -/
def R.pairStat : RegD := ⟨0x10E150, 1, 0x0, 1, 0x0, [F.pairStatState, F.pairStatActive, F.pairStatReason, F.pairStatLostevt, F.pairStatTakeover, F.pairStatSlatemiss, F.pairStatLosses]⟩
/-- `PAIR_ALIASk` (R528). -/
def R.pairAlias : RegD := ⟨0x10E180, 1, 0x0, 16, 0x8, [F.pairAliasAlias, F.pairAliasDeva, F.pairAliasDevb, F.pairAliasActb, F.pairAliasValid, F.pairAliasEpoch]⟩
/-- `PWR_CFG` (R549). -/
def R.pwrCfg : RegD := ⟨0x400000, 1, 0x0, 1, 0x0, [F.pwrCfgOrder, F.pwrCfgFmin, F.pwrCfgDroopmv]⟩
/-- `PWR_CAP` (R549). -/
def R.pwrCap : RegD := ⟨0x400008, 1, 0x0, 1, 0x0, [F.pwrCapWatts]⟩
/-- `PWR_STAT` (R549). -/
def R.pwrStat : RegD := ⟨0x400010, 1, 0x0, 1, 0x0, [F.pwrStatState, F.pwrStatCapped, F.pwrStatThermal, F.pwrStatConvoy, F.pwrStatSeqfail, F.pwrStatCapref, F.pwrStatReqref, F.pwrStatFloors]⟩
/-- `PWR_CTL` (R549). -/
def R.pwrCtl : RegD := ⟨0x400018, 1, 0x0, 1, 0x0, [F.pwrCtlReq]⟩
/-- `PWR_MEAS` (R549). -/
def R.pwrMeas : RegD := ⟨0x400020, 1, 0x0, 1, 0x0, [F.pwrMeasVin, F.pwrMeasIin, F.pwrMeasWatts]⟩
/-- `PWR_EST` (R549). -/
def R.pwrEst : RegD := ⟨0x400028, 1, 0x0, 1, 0x0, [F.pwrEstTotal, F.pwrEstLinks, F.pwrEstCompute, F.pwrEstGain]⟩
/-- `PWR_FILL` (R549). -/
def R.pwrFill : RegD := ⟨0x400030, 1, 0x0, 1, 0x0, [F.pwrFillLevel, F.pwrFillMaxus]⟩
/-- `PWR_CONVOY` (R549). -/
def R.pwrConvoy : RegD := ⟨0x400038, 1, 0x0, 1, 0x0, [F.pwrConvoyEn, F.pwrConvoyAnnounce, F.pwrConvoyGroup]⟩
/-- `PWR_CONVSTAT` (R549). -/
def R.pwrConvstat : RegD := ⟨0x400040, 1, 0x0, 1, 0x0, [F.pwrConvstatSlowdev, F.pwrConvstatRate, F.pwrConvstatFollowus]⟩
/-- `PWR_ENERGY` (R549). -/
def R.pwrEnergy : RegD := ⟨0x400048, 1, 0x0, 1, 0x0, [F.pwrEnergyUj]⟩
/-- `PWR_UNATTR` (R549). -/
def R.pwrUnattr : RegD := ⟨0x400050, 1, 0x0, 1, 0x0, [F.pwrUnattrUj]⟩
/-- `PWR_THROT` (R549). -/
def R.pwrThrot : RegD := ⟨0x400058, 1, 0x0, 1, 0x0, [F.pwrThrotCapus, F.pwrThrotDroops, F.pwrThrotAnnounces]⟩
/-- `PWR_TILEn` (R549). -/
def R.pwrTile : RegD := ⟨0x400080, 1, 0x0, 4, 0x8, [F.pwrTileFreqreq, F.pwrTileFreq, F.pwrTileDuty, F.pwrTileTemp]⟩
/-- `SEC_STAT` (R570). -/
def R.secStat : RegD := ⟨0x600000, 1, 0x0, 1, 0x0, [F.secStatBoot, F.secStatBooterr, F.secStatLife, F.secStatDebug, F.secStatDbgmax, F.secStatD2cnt, F.secStatSvn]⟩
/-- `SEC_ARB` (R570). -/
def R.secArb : RegD := ⟨0x600008, 1, 0x0, 1, 0x0, [F.secArbArbRs, F.secArbArbF]⟩
/-- `SEC_MBREQ` (R570). -/
def R.secMbreq : RegD := ⟨0x600010, 1, 0x0, 1, 0x0, [F.secMbreqAddr]⟩
/-- `SEC_MBCTL` (R570). -/
def R.secMbctl : RegD := ⟨0x600018, 1, 0x0, 1, 0x0, [F.secMbctlLen, F.secMbctlGo, F.secMbctlIrq, F.secMbctlIrqen]⟩
/-- `SEC_MBSTAT` (R570). -/
def R.secMbstat : RegD := ⟨0x600020, 1, 0x0, 1, 0x0, [F.secMbstatDone, F.secMbstatResult, F.secMbstatResplen]⟩
/-- `SEC_MBRESP` (R570). -/
def R.secMbresp : RegD := ⟨0x600028, 1, 0x0, 1, 0x0, [F.secMbrespAddr]⟩
/-- `SEC_CFG` (R570). -/
def R.secCfg : RegD := ⟨0x600030, 1, 0x0, 1, 0x0, [F.secCfgLinkdbg, F.secCfgLock]⟩
/-- `SEC_KEYSEL` (R570). -/
def R.secKeysel : RegD := ⟨0x600038, 1, 0x0, 1, 0x0, [F.secKeyselRegnum]⟩
/-- `SEC_KEYMAP` (R570). -/
def R.secKeymap : RegD := ⟨0x600040, 1, 0x0, 1, 0x0, [F.secKeymapSlots, F.secKeymapTransport]⟩
/-- `SEC_DEVIDw` (R570). -/
def R.secDevid : RegD := ⟨0x600048, 1, 0x0, 4, 0x8, [F.secDevidData]⟩
/-- `MG_ID` (R592). -/
def R.mgId : RegD := ⟨0x40000000, 1, 0x0, 1, 0x0, [F.mgIdPart, F.mgIdStep]⟩
/-- `MG_STATE` (R592). -/
def R.mgState : RegD := ⟨0x40000008, 1, 0x0, 1, 0x0, [F.mgStatePower, F.mgStateBoot, F.mgStateReady, F.mgStateLife]⟩
/-- `MG_ALERT` (R592). -/
def R.mgAlert : RegD := ⟨0x40000010, 1, 0x0, 1, 0x0, [F.mgAlertDevfault, F.mgAlertSeqfail, F.mgAlertBootrej, F.mgAlertThermal, F.mgAlertMask]⟩
/-- `MG_POWER` (R592). -/
def R.mgPower : RegD := ⟨0x40000018, 1, 0x0, 1, 0x0, [F.mgPowerMeas]⟩
/-- `MG_TEMP` (R592). -/
def R.mgTemp : RegD := ⟨0x40000020, 1, 0x0, 1, 0x0, [F.mgTempTemp]⟩
/-- `MG_CAP` (R592). -/
def R.mgCap : RegD := ⟨0x40000028, 1, 0x0, 1, 0x0, [F.mgCapWatts]⟩
/-- `MG_MBCTL` (R592). -/
def R.mgMbctl : RegD := ⟨0x40001000, 1, 0x0, 1, 0x0, [F.mgMbctlLen, F.mgMbctlGo, F.mgMbctlDone, F.mgMbctlResult, F.mgMbctlResplen]⟩
/-- `HOST_STAT` (R594). -/
def R.hostStat : RegD := ⟨0x10E200, 1, 0x0, 1, 0x0, [F.hostStatRate, F.hostStatWidth, F.hostStatUnsuplink, F.hostStatFwwant, F.hostStatReady, F.hostStatB2refused, F.hostStatPollerr]⟩
/-- `HOST_FWADDR` (R594). -/
def R.hostFwaddr : RegD := ⟨0x10E208, 1, 0x0, 1, 0x0, [F.hostFwaddrAddr]⟩
/-- `HOST_FWCTL` (R594). -/
def R.hostFwctl : RegD := ⟨0x10E210, 1, 0x0, 1, 0x0, [F.hostFwctlBytes, F.hostFwctlGo]⟩
/-- `HOST_TAILPG` (R594). -/
def R.hostTailpg : RegD := ⟨0x10E218, 1, 0x0, 1, 0x0, [F.hostTailpgAddr]⟩
/-- `HOST_CSCFG` (R594). -/
def R.hostCscfg : RegD := ⟨0x10E220, 1, 0x0, 1, 0x0, [F.hostCscfgPollns]⟩
/-- `HOST_B2MAPs` (R594). -/
def R.hostB2map : RegD := ⟨0x10E240, 1, 0x0, 8, 0x8, [F.hostB2mapMode, F.hostB2mapRegnum, F.hostB2mapBase]⟩
/-- `HOST_INGDSTi` (R594). -/
def R.hostIngdst : RegD := ⟨0x10E280, 1, 0x0, 8, 0x8, [F.hostIngdstVa]⟩
/-- `HOST_INGCFGi` (R594). -/
def R.hostIngcfg : RegD := ⟨0x10E2C0, 1, 0x0, 8, 0x8, [F.hostIngcfgB2off, F.hostIngcfgEn, F.hostIngcfgOwner, F.hostIngcfgUnitlog2, F.hostIngcfgUnits]⟩
/-- `HOST_INGTOTi` (R594). -/
def R.hostIngtot : RegD := ⟨0x10E300, 1, 0x0, 8, 0x8, [F.hostIngtotTotal]⟩
/-- `CTX_CS_BASE` (R595). -/
def R.ctxCsBase : RegD := ⟨0x10C600, 8, 0x10000, 1, 0x0, [F.ctxCsBaseAddr]⟩
/-- `CTX_CS_CFG` (R595). -/
def R.ctxCsCfg : RegD := ⟨0x10C608, 8, 0x10000, 1, 0x0, [F.ctxCsCfgSizelog2]⟩
/-- `CTX_CS_HEAD` (R595). -/
def R.ctxCsHead : RegD := ⟨0x10C610, 8, 0x10000, 1, 0x0, [F.ctxCsHeadCount]⟩
/-- `CTX_CS_STAT` (R595). -/
def R.ctxCsStat : RegD := ⟨0x10C618, 8, 0x10000, 1, 0x0, [F.ctxCsStatBad, F.ctxCsStatBadcode, F.ctxCsStatQueued]⟩
/-- `CTX_CS_CTL` (R595). -/
def R.ctxCsCtl : RegD := ⟨0x10C620, 8, 0x10000, 1, 0x0, [F.ctxCsCtlResume, F.ctxCsCtlSkip]⟩
/-- `CTX_CQ_BASE` (R595). -/
def R.ctxCqBase : RegD := ⟨0x10C628, 8, 0x10000, 1, 0x0, [F.ctxCqBaseAddr]⟩
/-- `CTX_CQ_CFG` (R595). -/
def R.ctxCqCfg : RegD := ⟨0x10C630, 8, 0x10000, 1, 0x0, [F.ctxCqCfgSizelog2, F.ctxCqCfgIrq, F.ctxCqCfgIrqen, F.ctxCqCfgCoalus]⟩
/-- `CTX_CQ_HEAD` (R595). -/
def R.ctxCqHead : RegD := ⟨0x10C638, 8, 0x10000, 1, 0x0, [F.ctxCqHeadCount]⟩
/-- `CTX_CQ_TAIL` (R595). -/
def R.ctxCqTail : RegD := ⟨0x10C640, 8, 0x10000, 1, 0x0, [F.ctxCqTailCount]⟩
/-- `GLB_ID` (R613). -/
def R.glbId : RegD := ⟨0x0, 1, 0x0, 1, 0x0, [F.glbIdPart, F.glbIdStep, F.glbIdUsable, F.glbIdMaxw, F.glbIdMaxh, F.glbIdProfiles]⟩
/-- `GLB_DET` (R613). -/
def R.glbDet : RegD := ⟨0x8, 1, 0x0, 1, 0x0, [F.glbDetEnf, F.glbDetNrseen]⟩
/-- `GLB_CTL` (R613). -/
def R.glbCtl : RegD := ⟨0x10, 1, 0x0, 1, 0x0, [F.glbCtlRst]⟩
/-- `GLB_STAT` (R613). -/
def R.glbStat : RegD := ⟨0x18, 1, 0x0, 1, 0x0, [F.glbStatReady, F.glbStatDevfault, F.glbStatWarmcnt, F.glbStatBoot]⟩
/-- `GLB_REFUSE` (R613). -/
def R.glbRefuse : RegD := ⟨0x20, 1, 0x0, 1, 0x0, [F.glbRefuseCode, F.glbRefuseSource, F.glbRefuseIndex, F.glbRefuseCount]⟩
/-- `GLB_ERR` (R613). -/
def R.glbErr : RegD := ⟨0x28, 1, 0x0, 1, 0x0, [F.glbErrBadacc, F.glbErrLocked, F.glbErrRange]⟩
/-- `GLB_IRQCFG` (R613). -/
def R.glbIrqcfg : RegD := ⟨0x30, 1, 0x0, 1, 0x0, [F.glbIrqcfgIrq, F.glbIrqcfgIrqen, F.glbIrqcfgMask]⟩
/-- `GLB_IRQSTAT` (R613). -/
def R.glbIrqstat : RegD := ⟨0x38, 1, 0x0, 1, 0x0, [F.glbIrqstatDevfault, F.glbIrqstatPort, F.glbIrqstatPower, F.glbIrqstatTime, F.glbIrqstatPair, F.glbIrqstatRefuse]⟩

/-- Registers of the `CORE_` group. -/
def regsCore : List RegD :=
  [R.coreState, R.coreHoldcyc, R.coreWaitcyc, R.coreTakecyc, R.coreVmap]

/-- Registers of the `CMV_` group. -/
def regsCmv : List RegD :=
  [R.cmvCtl, R.cmvStat, R.cmvSrc, R.cmvDst, R.cmvRem]

/-- Registers of the `BMV_` group. -/
def regsBmv : List RegD :=
  [R.bmvDesc, R.bmvCtl, R.bmvStat]

/-- Registers of the `DDR_` group. -/
def regsDdr : List RegD :=
  [R.ddrStat, R.ddrCe, R.ddrUe, R.ddrElog, R.ddrDeverr]

/-- Registers of the `MEM_` group. -/
def regsMem : List RegD :=
  [R.memCfg, R.memStat, R.memScrub, R.memMig, R.memLend, R.memPeer, R.memHpoolBase, R.memHpoolCnt, R.memMigcnt]

/-- Registers of the `CTX_` group. -/
def regsCtx0 : List RegD :=
  [R.ctxPgquota, R.ctxPgused, R.ctxPgva, R.ctxPgcnt, R.ctxPgcmd, R.ctxPgstat, R.ctxLnkcr, R.ctxCollq0, R.ctxCollq1, R.ctxCollstat, R.ctxLogBase, R.ctxLogCfg, R.ctxLogHead, R.ctxLogTail, R.ctxLogNote, R.ctxSlateBase, R.ctxSlateCfg, R.ctxReplay, R.ctxReplayStep, R.ctxCtl, R.ctxStat, R.ctxImage, R.ctxImagelen, R.ctxDigest, R.ctxSeed, R.ctxTrapBase, R.ctxShelf, R.ctxShelfsz, R.ctxDlcfg, R.ctxDlstat]

/-- Registers of the `CTX_` group. -/
def regsCtx1 : List RegD :=
  [R.ctxAcctWait, R.ctxAcctPreempt, R.ctxAcctEnergy, R.ctxAcctSteps, R.ctxHome, R.ctxPrintva, R.ctxPrintcnt, R.ctxPrinttbl, R.ctxPrintctl, R.ctxPrintstat, R.ctxPrintdig, R.ctxReelman, R.ctxReelmanlen, R.ctxReelsrc, R.ctxReelcfg, R.ctxReelctl, R.ctxReelstat, R.ctxReelgen, R.ctxReelfail, R.ctxReeldig, R.ctxReelunder, R.ctxReelstrm, R.ctxReelretry, R.ctxRelcfg, R.ctxRelstat, R.ctxRelmir, R.ctxRelctl, R.ctxCsBase, R.ctxCsCfg, R.ctxCsHead]

/-- Registers of the `CTX_` group. -/
def regsCtx2 : List RegD :=
  [R.ctxCsStat, R.ctxCsCtl, R.ctxCqBase, R.ctxCqCfg, R.ctxCqHead, R.ctxCqTail]

/-- Registers of the `LNK_` group. -/
def regsLnk : List RegD :=
  [R.lnkCtl, R.lnkStat, R.lnkPartner, R.lnkFec, R.lnkRetry, R.lnkTxbytes, R.lnkRxbytes]

/-- Registers of the `FAB_` group. -/
def regsFab : List RegD :=
  [R.fabCfg, R.fabStat, R.fabTimers, R.fabRtidx, R.fabRtdata, R.fabCrfloor, R.fabDrop, R.fabRqbase, R.fabRqcfg]

/-- Registers of the `TC_` group. -/
def regsTc : List RegD :=
  [R.tcCfg, R.tcCtl, R.tcStat, R.tcNow, R.tcSet, R.tcOffset, R.tcLaunch, R.tcTickCfg, R.tcTickStart, R.tcTickTot]

/-- Registers of the `SCHED_` group. -/
def regsSched : List RegD :=
  [R.schedCfg, R.schedStat, R.schedDirsel, R.schedDir, R.schedDirwait, R.schedDirpre, R.schedDirenergy, R.schedDirctl]

/-- Registers of the `REL_` group. -/
def regsRel : List RegD :=
  [R.relCfg, R.relStat, R.relOtest, R.relWrap, R.relDlbase, R.relDlcfg, R.relDlhead, R.relDltail]

/-- Registers of the `PAIR_` group. -/
def regsPair : List RegD :=
  [R.pairCfg, R.pairCtl, R.pairStat, R.pairAlias]

/-- Registers of the `PWR_` group. -/
def regsPwr : List RegD :=
  [R.pwrCfg, R.pwrCap, R.pwrStat, R.pwrCtl, R.pwrMeas, R.pwrEst, R.pwrFill, R.pwrConvoy, R.pwrConvstat, R.pwrEnergy, R.pwrUnattr, R.pwrThrot, R.pwrTile]

/-- Registers of the `SEC_` group. -/
def regsSec : List RegD :=
  [R.secStat, R.secArb, R.secMbreq, R.secMbctl, R.secMbstat, R.secMbresp, R.secCfg, R.secKeysel, R.secKeymap, R.secDevid]

/-- Registers of the `MG_` group. -/
def regsMg : List RegD :=
  [R.mgId, R.mgState, R.mgAlert, R.mgPower, R.mgTemp, R.mgCap, R.mgMbctl]

/-- Registers of the `HOST_` group. -/
def regsHost : List RegD :=
  [R.hostStat, R.hostFwaddr, R.hostFwctl, R.hostTailpg, R.hostCscfg, R.hostB2map, R.hostIngdst, R.hostIngcfg, R.hostIngtot]

/-- Registers of the `GLB_` group. -/
def regsGlb : List RegD :=
  [R.glbId, R.glbDet, R.glbCtl, R.glbStat, R.glbRefuse, R.glbErr, R.glbIrqcfg, R.glbIrqstat]

/-- Every BAR0 register. -/
def allRegs : List RegD :=
  regsCore ++
  regsCmv ++
  regsBmv ++
  regsDdr ++
  regsMem ++
  regsCtx0 ++
  regsCtx1 ++
  regsCtx2 ++
  regsLnk ++
  regsFab ++
  regsTc ++
  regsSched ++
  regsRel ++
  regsPair ++
  regsPwr ++
  regsSec ++
  regsHost ++
  regsGlb

/-- The register and instance at a BAR0 offset, where the map assigns one (R596 to R599). -/
def findIn (off : Nat) : List RegD → Option (RegD × Nat × Nat)
  | [] => none
  | r :: rs =>
    let i := if r.s1 = 0 then 0 else (off - r.off) / r.s1
    let i := if i < r.c1 then i else r.c1 - 1
    let o := r.off + r.s1 * i
    let j := if r.s2 = 0 then 0 else (off - o) / r.s2
    let j := if j < r.c2 then j else r.c2 - 1
    if r.off ≤ off ∧ o + r.s2 * j = off then some (r, i, j) else findIn off rs

/-- The register at a BAR0 offset. -/
def findReg (off : Nat) : Option (RegD × Nat × Nat) := findIn off allRegs

/-- The key under which an instance of a field is kept. -/
def Fld.key (f : Fld) (i j : Nat) : Nat := (f.off + f.s1 * i + f.s2 * j) * 64 + f.lo

end Sys2Proof.Machine
end

