-- ==== Sys2Proof/Machine/State.lean ====
section
/-! DEFINITION. Everything the manual gives the DZ6 that a command reads or changes, as plain data, with the queue of
waiting commands, the reasons a command stops, and the state after reset: a module without power whose registers hold
their cold values (R16, R531). -/

namespace Sys2Proof.Machine

/-- A table by natural key, keys rising; an absent key has the default its reader names. -/
abbrev Tbl (α : Type) := List (Nat × α)

/-- A memory of bytes in canonical form: addresses rising, no entry equal to 0, what an unlisted address reads as. -/
abbrev Mem := List Host.Cell

/-! ### A core -/

/-- How a splice accumulator holds its value (Table 3.6); a WIDE value lies in the wide-form area (R94). -/
inductive AccSt where
  | empty
  | window (w : Int)
  | wide
  deriving DecidableEq, Repr

/-- A splice accumulator (R90). `pos` and `neg` are the lowest logical K-blocks whose local partials, since it was
last emptied, carried class bit 0 and class bit 1 (R73). -/
structure SpAcc where
  st : AccSt
  s : Int
  cls : BitVec 2
  poison : Bool
  int : Bool
  tag : BitVec 8
  pos : Option Nat
  neg : Option Nat
  deriving DecidableEq, Repr

/-- A block partial (R119): the accumulator it goes to, the anchor α it was formed under (54 in the integer domain, R85),
`Q` in two halves, of which the high one is the cells' extension register in FP32 (R84) and the sign of the low one
elsewhere, whether its frame is that of FP32, the class bits, `POISON`, `INT`, the tag and the logical K-block. While it
is under way, the partial of an `MMUL` stands in the latch of its cell for the parity of its block. -/
structure Part where
  acc : Nat
  alpha : Int
  lo : BitVec 64
  hi : BitVec 64
  wide : Bool
  cls : BitVec 2
  poison : Bool
  int : Bool
  tag : BitVec 8
  blk : Nat
  deriving DecidableEq, Repr

/-- The inputs of stochastic rounding an instruction took at its issue (Table 2.8, R219). -/
structure SrIn where
  seed : Nat
  step : Nat
  tid : Nat
  origin : Nat
  len : Nat
  deriving DecidableEq, Repr

/-- What an instruction that writes its outputs later keeps from its issue: an `MMUL` with the finish flag (R131), or
a `VRED` with it (R160), whose row r is accumulator `first` + r. -/
structure Finish where
  iaddr : Nat
  seq : Nat
  slot : Nat
  desc : BitVec 256
  fmt : BitVec 4
  rm : BitVec 3
  status : Nat
  sr : SrIn
  trap : Bool
  fast : Bool
  tag : BitVec 8
  rows : Nat
  cols : Nat
  first : Nat
  deriving DecidableEq, Repr

/-- One row of A, or column of B, in a block image (R121): its element codes along K with the scale codes of their
blocks, the exponent of the prescan, and whether a word of it is poisoned (R123). -/
structure ImageRow where
  elems : List (Nat × Nat)
  exp : Int
  poison : Bool
  deriving DecidableEq, Repr

/-- A block image of an operand's image buffer (R121): the K-block within its tile, and the rows present. -/
structure BlockImage where
  blk : Nat
  rows : List ImageRow
  deriving DecidableEq, Repr

/-- An entry of a staging queue (R120): the tile's descriptor, its K origin and K extent, the number of rows of A or
columns of B present, the blocks copied so far, the images that hold a block of it, and the `MMUL` that has claimed
it. -/
structure Staged where
  desc : BitVec 256
  korg : Nat
  kext : Nat
  rows : Nat
  next : Nat
  imgs : List BlockImage
  claim : Option Nat
  deriving DecidableEq, Repr

/-- An `MMUL` that still has K-blocks to feed (R133): its place in program order, the formats and mode it issued with,
its tag, the next block and the number of blocks, and whether an earlier one was still feeding when it issued (R134). -/
structure MmulJob where
  seq : Nat
  fa : Fmt
  fb : Fmt
  fast : Bool
  tag : BitVec 8
  next : Nat
  blocks : Nat
  chained : Bool
  deriving DecidableEq, Repr

/-- What the array and the vector engine still have to deliver, oldest first: a partial (of an `MMUL` or not, to the
FAST running values or not), the blocks an `MMUL` has not fed, the finish of an `MMUL`, the finish of a `VRED`. -/
inductive Flight where
  | part (mm fast : Bool) (p : Part)
  | mjob (j : MmulJob)
  | mfin (f : Finish)
  | vfin (f : Finish)
  deriving DecidableEq, Repr

/-- What `MCFG` sets (R235). -/
structure Mcfg where
  fa : BitVec 4
  fb : BitVec 4
  fo : BitVec 4
  rm : BitVec 3
  fast : Bool
  deriving DecidableEq, Repr

/-- An active loop body: its counter, its first and last bundle and the iterations left, the current one included
(R224). -/
structure LoopSt where
  n : BitVec 2
  start : Nat
  stop : Nat
  left : Nat
  deriving DecidableEq, Repr

/-- A context frame (Table 6.1), with the trap enable of R234. `loops` holds the active bodies, innermost first.
`fresh` is 1 until the first bundle since the take's launch or cut has issued (R422); `occ` counts the ANY forms of the
take (Table 11.4); `rowsTot` is the vector stream total (Table 8.6). -/
structure Frame where
  pc : Nat
  s : Tbl (BitVec 32)
  t : Tbl (BitVec 256)
  p : BitVec 8
  vl : BitVec 17
  mcfg : Mcfg
  loops : List LoopSt
  sent : Tbl (BitVec 32)
  cons : Tbl (BitVec 32)
  take : BitVec 32
  takecyc : Nat
  gran : List Nat
  segs : List Nat
  trapNan : Bool
  fresh : Bool
  occ : Nat
  rowsTot : BitVec 32
  deriving DecidableEq, Repr

/-- A burst whose read has issued (R265): its number, its offset and length, the bytes read where they have come, and
the offsets of the 64-byte lines of it that are poisoned; of a compare by global address, `halves` holds the regions that have
come (false: A, true: B), each with its poisoned lines. -/
structure Burst where
  k : Nat
  off : Nat
  len : Nat
  data : Option Bytes
  poison : List Nat
  halves : List (Bool × Bytes × List Nat)
  deriving DecidableEq, Repr

/-- A transfer of a channel: the descriptor's 64 bytes, the instruction that started it, the bursts issued and landed,
the bursts under way, and what `HASH` and `CMPM` have gathered (R265 to R286). `logged` tells whether the transfer's
`INPUT` entry has been made (R395), `chain` the descriptors a bulk chain has completed before (R279), `starved` whether
its next read waits for a chunk of a streaming reel (R487), `failed` that it has met a fault and only its issued bursts
still land (R275, R631), `counted` that it has completed and its chain goes on to `NEXT` (R278). -/
structure Xfer where
  desc : Bytes
  iaddr : Nat
  key : Nat
  step : BitVec 64
  issued : Nat
  landed : List Nat
  flight : List Burst
  got : List Burst
  poison : Bool
  logged : Bool
  chain : List Bytes
  starved : Bool
  failed : Bool
  counted : Bool
  deriving DecidableEq, Repr

/-- A core mover channel (Table 8.7): `PAUSE`, the internal request of R273, the latest fault, the transfer. -/
structure CoreChan where
  pause : Bool
  intPause : Bool
  paused : Bool
  cls : BitVec 2
  fault : Bool
  reason : BitVec 8
  src : BitVec 64
  dst : BitVec 64
  rem : BitVec 32
  xfer : Option Xfer
  deriving DecidableEq, Repr

/-- A take waiting for its core, in the order in which takes became ready (R421). `key` is the slot, plus 8 for a
floating step; `rest` marks a take at rest (R422); `since` is the cycle of the core in which it became ready. -/
structure TakeEnt where
  key : Nat
  rest : Bool
  since : Nat
  deriving DecidableEq, Repr

/-- Why a core is stopping (R631): the fields of its trap record, and the place of the cause in program order. -/
structure StopRec where
  type : Nat
  b2 : Nat
  b3 : Nat
  iaddr : Nat
  kblock : Nat
  row : Nat
  col : Nat
  outFmt : Nat
  seq : Nat
  deriving DecidableEq, Repr

/-- A token delivery held for a virtual core's channel, for a step that has not launched or for the next launch
(R202). -/
structure HeldTok where
  vx : Nat
  vy : Nat
  ch : Nat
  step : Option (BitVec 64)
  val : BitVec 32
  deriving DecidableEq, Repr

/-- A contribution of a virtual core to a slate point (R400): the value, and the value committed at the latest cut. -/
structure Contrib where
  vx : Nat
  vy : Nat
  point : Nat
  cur : Option (BitVec 256)
  base : Option (BitVec 256)
  deriving DecidableEq, Repr

/-- What is kept of a virtual core at a cut (R498, R507): the frame image, with the receive counts and the committed
contributions, and the bytes of the carried granules by view address. The poison mark of 32-byte word i stands as a byte 1 at
address 2^20 + i. -/
structure CutImage where
  frame : Frame
  bytes : Mem
  recv : Tbl (BitVec 32)
  contribs : List Contrib
  deriving DecidableEq, Repr

/-- The mirror a buddy keeps for one virtual core of a protected context (R498 to R500): the commit that has been applied, and
one on its way. -/
structure Mirror where
  buddy : Option CoreId
  image : Option CutImage
  coming : Option CutImage
  deriving DecidableEq, Repr

/-- A physical core. `vmap` gives the virtual place of each slot; `replaces` the failed core that a retaken slot's core
was (R502), until the retake's closing cut; `shadow` the page behind each print-shadowed physical line (R465);
`throttled` a hold of the power controller to come, `unlit` the wait in which fill-light has timed out, by the take that runs and the cycles issued (R541), `edgeA`
and `edgeB` the anchor latches at the array's west and north edges, 32 for each parity (R127), `blank` the slots whose
`CORE_VMAP.VALID` a warm reset has cleared (Table 6.9); `entries` the program places of each key that wait for a cut of
its part, with their loops (R386), `cycle` the cycles of the sequencer, `prios` the priorities of the slots as of the
core's latest cut (R421), `fencedAt` when the core was fenced (R430). -/
structure Core where
  use : BitVec 2
  running : Option Nat
  hold : BitVec 4
  wait : Bool
  holdCyc : Nat
  waitCyc : Nat
  vmap : Tbl (Nat × Nat)
  frames : Tbl Frame
  recv : Tbl (BitVec 32)
  scratch : Mem
  poison : Tbl Bool
  istore : Tbl (BitVec 128)
  granOwner : Tbl Nat
  segOwner : Tbl Nat
  acc : Tbl SpAcc
  qa : List Staged
  qb : List Staged
  edgeA : Tbl Int
  edgeB : Tbl Int
  flight : List Flight
  fast : Tbl (BitVec 32)
  chans : Tbl CoreChan
  takes : List TakeEnt
  seq : Nat
  shadow : Tbl Nat
  stop : Option StopRec
  mirrors : Tbl Mirror
  replaces : Tbl Nat
  entries : Tbl (List (Nat × List LoopSt))
  cycle : Nat
  prios : Tbl Nat
  fenced : Bool
  fencedAt : Nat
  dbgHalt : Bool
  throttled : Bool
  unlit : Option (Option Nat × Nat)
  blank : List Nat
  deriving DecidableEq, Repr

/-! ### Logs, steps and contexts -/

/-- A log entry (Table 11.3), waiting for room or bound to a step. -/
structure LogEnt where
  type : Nat
  ctx : Nat
  seq : Nat
  timecode : Nat
  step : BitVec 64
  key : Nat
  data : Nat
  payload : Bytes
  deriving DecidableEq, Repr

/-- How a virtual core's part of a step stands. -/
inductive PartSt where
  | running
  | finished
  | stopped
  deriving DecidableEq, Repr

/-- A virtual core of a step: its place, the physical core that runs it, how it stands. -/
structure StepCore where
  vx : Nat
  vy : Nat
  core : CoreId
  st : PartSt
  deriving DecidableEq, Repr

/-- A step: its submission (Table 18.2), and once launched what has become of it; `begun` tells that a core has begun it
(R442). -/
structure Step where
  id : BitVec 64
  num : BitVec 32
  entry : Nat
  gen : BitVec 32
  floating : Bool
  args : List (BitVec 32)
  reqid : BitVec 64
  remain : Nat
  deadline : BitVec 64
  launchAt : Option (BitVec 64)
  count : Nat
  acceptTc : Nat
  launched : Bool
  begun : Bool
  launchTc : Nat
  seed : BitVec 64
  nonrepro : Bool
  fallback : Option Nat
  reelGen : BitVec 32
  reelDig : BitVec 256
  cores : List StepCore
  outcomes : List Nat
  diverged : Bool
  trapped : Nat
  poisoned : Nat
  retakes : Nat
  contribs : List Contrib
  logged : List LogEnt
  slate : BitVec 256
  result : BitVec 256
  status : Nat
  endTc : Nat
  pairWait : Bool
  deriving DecidableEq, Repr

/-- Where a page's data is (Table 9.3). -/
inductive PageLoc where
  | none
  | local_
  | lent
  | host
  deriving DecidableEq, Repr

/-- A migration in progress (Table 9.4): the place it copies to, and whether the accesses to the old frame have drained. -/
structure PageMove where
  loc : PageLoc
  frame : Nat
  dev : BitVec 12
  drained : Bool
  deriving DecidableEq, Repr

/-- A page table entry (Table 9.3), with the migration that `MIG` stands for, the access count (R305 to R311), and
whether its data went with its frame or its key (R308, R328). -/
structure Page where
  loc : PageLoc
  frame : Nat
  dev : BitVec 12
  mirror : Bool
  pin : Bool
  prot : Bool
  poisoned : Bool
  printing : Bool
  keyslot : BitVec 4
  move : Option PageMove
  accesses : Nat
  lost : Bool
  deriving DecidableEq, Repr

/-- A collective on its way through a reduce engine (R360 to R368): its entry, the descriptor, the devices of its group,
the parts received (segment, pass, offset), the XPs or blocks at hand by segment, pass and place, the segments this rank
is through with, and when it last made progress. -/
structure CollRun where
  idx : Nat
  desc : Bytes
  group : List Nat
  parts : List (Nat × Nat × Nat)
  data : Tbl Bytes
  fin : List Nat
  since : Nat
  deriving DecidableEq, Repr

/-- A queue of collectives of one edge tile for a context (R360, R366, R368): the token total, the next entry to start,
the collectives running or not yet reported, the identifiers and parts of the reported ones, and the `NOTIFY` of the one
that has failed. -/
structure CollQ where
  start : BitVec 32
  head : Nat
  running : List CollRun
  past : List (Nat × List (Nat × Nat × Nat))
  dead : Option Nat
  deriving DecidableEq, Repr

/-- A shard of this device (R471, R472), with its place in the manifest, which is that of its address in the source table
(R474), and the devices before and after this one in its chain, absent for the host and at the end. -/
structure Shard where
  id : Nat
  place : Nat
  layer : Nat
  key : BitVec 4
  keyid : Nat
  va : Nat
  bytes : Nat
  up : Option (BitVec 12)
  down : Option (BitVec 12)
  digest : BitVec 256
  deriving DecidableEq, Repr

/-- A reel load (R476 to R483): its shards in the order in which they are taken, the chunks written with the leaf of each,
the failures by chunk, the shards whose root has matched; when each tile's next chunk came to be expected, and when chunks
were requested again (R481). A chunk is named by its shard and its index. -/
structure ReelLoad where
  gen : BitVec 32
  digest : BitVec 256
  shards : List Shard
  got : List (Nat × Nat × Bytes)
  failed : List (Nat × Nat)
  verified : List Nat
  since : Tbl Nat
  asked : List (Nat × Nat × Nat)
  deriving DecidableEq, Repr

/-- A snapshot in progress (R462 to R467): its pages with the destination of each, whether it ships, the pages that have
left, the digest of what it ships. -/
structure Snap where
  started : Bool
  pages : List Nat
  dests : List Nat
  sent : List Nat
  digest : BitVec 256
  deriving DecidableEq, Repr

/-- A check slot (R507 to R509): the checked take, its original core, the image at its opening cut, the final content of the
lines that transfers and inbound writes have placed in the view, by view address with marks as in `CutImage`, whether it has
reached its closing cut, the contributions that it made (R400), since when its check or arbiter waits (R430), and the core and
the two runs of a check take that disagreed. -/
structure CheckRun where
  step : BitVec 64
  vx : Nat
  vy : Nat
  take : BitVec 32
  core : CoreId
  opening : CutImage
  inbound : Mem
  closed : Bool
  made : Tbl Digest
  since : Nat
  differ : Option (CoreId × TakeRun × TakeRun)
  deriving DecidableEq, Repr

/-- The states of a registered context (Table 12.1); CHECKING is a state of the slot alone, in `CTX_STAT.STATE`. -/
inductive CtxSt where
  | unreg | resident | shelving | shelved | returning | disabling
  deriving DecidableEq, Repr

/-- What a shelf holds of one core (R434): its number, the frame, the receive counts, the granule bytes by view
address with the poisoned words, the code by program address, whether its take is at rest, its mirror,
the program places that wait for a cut of the part. -/
structure ShelfCore where
  core : Nat
  frame : Frame
  recv : Tbl (BitVec 32)
  bytes : Mem
  bad : List Nat
  code : Tbl (BitVec 128)
  rest : Bool
  mirror : Option Mirror
  entries : List (Nat × List LoopSt)
  deriving DecidableEq, Repr

/-- Where a context stands with the scheduler and its shelf (R410, R431 to R437): the saved block fields, the shelf,
the loss of the shelf, whether its image has failed a return (R436), the waiting requests, whether a shelving is decided (R434),
and the times since which it has been blocked, runnable and returned. -/
structure Resid where
  saved : Tbl Nat
  shelf : List ShelfCore
  shelfLost : Bool
  imageBad : Bool
  shelveReq : Bool
  decided : Bool
  returnReq : Bool
  disableReq : Bool
  blockedAt : Option Nat
  runnableAt : Option Nat
  returnedAt : Option Nat
  deriving DecidableEq, Repr

/-- A context's rushes log (R389 to R399): entries waiting for room, the entries read for a replay and when it began,
the entries bound to the next step, where the `SUBMIT` entries of replayed steps begin in the ring, those that are read and
not accepted, and the steps that the replay has completed. -/
structure LogSt where
  q : List LogEnt
  replay : List LogRec
  t0 : Option (Nat × Nat)
  unbound : List LogEnt
  subs : List (BitVec 64 × Nat)
  due : List LogRec
  done : List (BitVec 64)
  deriving DecidableEq, Repr

/-- Who waits for a page that has found no place (R306): a channel, a collective by its engine and its entry, an access
of the host through BAR2 (its bytes, and whether it writes), a chunk of a reel, or an access that names no one. -/
inductive Waiter where
  | access
  | chan (ch : ChanRef)
  | coll (e : EdgeId) (idx : Nat)
  | host (n : Nat) (write : Bool)
  | reel
  deriving DecidableEq, Repr

/-- A context's virtual space (R301 to R323): its page table, the plaintext of its pages by virtual address, the
poisoned lines, the 256-byte lines of `MIRROR` pages written since the latest commit and, by step, those being shipped
(R511), and the accesses that wait for a
frame (R306), each with the one that it faults. -/
structure VSpace where
  pages : Tbl Page
  mem : Mem
  poison : Tbl Bool
  wrote : List Nat
  shipping : List (Nat × Nat)
  waits : List (Nat × Waiter)
  deriving DecidableEq, Repr

/-- A registered context. `actDigest` is the digest of the reel in force (R473), `served` the load that it came by, whose
chunks the device still serves (R481), `held` the deliveries of R202 that wait
for a launch. `badSlot` is the call-sheet slot that was refused (R584); `coalesce` tells that a completion
record is unsignalled (R587); `fbReqs` gives the fallback of the requests that run the B-roll (R440). -/
structure Ctx where
  st : CtxSt
  slot : Option SlotId
  img : Option Image
  map : List (CoreId × Nat × Nat)
  res : Resid
  queue : List Step
  step : Option Step
  floats : List Step
  ended : List Step
  doneIds : List (BitVec 64)
  vs : VSpace
  log : LogSt
  colls : Tbl CollQ
  reel : Option ReelLoad
  served : Option ReelLoad
  prevGen : BitVec 32
  snap : Option Snap
  checks : List CheckRun
  fbReqs : Tbl Nat
  held : List HeldTok
  actDigest : BitVec 256
  badSlot : Option Nat
  coalesce : Bool
  deriving DecidableEq, Repr

/-! ### Outside the cores -/

/-- A token delivery under way (R198, R202): the receiving context, virtual core and channel, the total, and the step
of the sender, none on a channel between two contexts. -/
structure TokenMove where
  ctx : CtxId
  vx : Nat
  vy : Nat
  ch : Nat
  val : BitVec 32
  step : Option (BitVec 64)
  deriving DecidableEq, Repr

/-- What a launch starts: a group of the image, the next home-set step, or a floating step under its identifier. -/
inductive LaunchOf where
  | group (g : BitVec 8)
  | home
  | float (id : BitVec 64)
  deriving DecidableEq, Repr

/-- A launch pending in the timecode unit (R383 to R385). -/
structure PendLaunch where
  ctx : CtxId
  what : LaunchOf
  target : Nat
  deriving DecidableEq, Repr

/-- What the block has sent (R335, R587, R591, R614): messages to the host, packets and control messages on the
fabric, answers on the I3C bus, the data of register reads, the writes to host memory that are flagged as poisoned (R323), and
the reads of a chunk at an offset from the bus address that the source table holds at an address (R474). The flits of a port
stand as the bytes that each lane in use carries (R335); a control message shows as it is handed to its port. -/
inductive Out where
  | msix (vector : BitVec 8)
  | packet (pkt : Packet)
  | flit (port : PortId) (lanes : List (Nat × Bytes))
  | onPort (port : PortId) (msg : Nat) (data : List Nat)
  | i3c (bytes : Bytes)
  | read (off value : Nat)
  | busRead (data : Bytes)
  | poisonedWrite (addr len : Nat)
  | sourceRead (table offset len : Nat)
  deriving DecidableEq, Repr

/-- The latest marker a port has received (R376): the master and stratum it carries, its send and arrival stamps. -/
structure Heard where
  master : BitVec 12
  stratum : BitVec 8
  sent : Int
  came : Int
  deriving DecidableEq, Repr

/-- Time (R373 to R382): whether ACQUIRE still owes its step, the run of good markers, the slew wanted and when the
latest was made, the delay of each port and what it has heard, the launches pending, and the count at which each tick
generator was enabled (R387). -/
structure TimeSt where
  first : Bool
  good : Nat
  slew : Int
  slewAt : Nat
  delay : Tbl Int
  heard : Tbl Heard
  launches : List PendLaunch
  ticks : Tbl Nat
  deriving DecidableEq, Repr

/-- A flit as it stands in the replay buffer (R335, R337): its `SEQ`, whether it carries a control message, the credits it
returns and their pool, its 224 bytes of payload. -/
structure SentFlit where
  seq : BitVec 12
  ctrl : Bool
  pool : Nat
  count : Nat
  payload : Bytes
  deriving DecidableEq, Repr

/-- The keys of a link (R341, R342): whether this end is the initiator, the keys of the two directions, and the timecode
of the exchange. -/
structure LinkKeys where
  first : Bool
  ir : BitVec 256
  ri : BitVec 256
  at_ : Nat
  deriving DecidableEq, Repr

/-- A link port beside its registers (R335 to R346): the next `SEQ`, the last one acknowledged, the next one expected,
how often in succession the first flit not acknowledged has been replayed, whether a `NAK` or an acknowledgement is owed,
trainings failed in succession, the packet counters of the two directions, the credits taken by pool and those to return,
the lanes retired in service, whether an online test has the port, and whether it was enabled before `READY` and has not
left DETECT since (R579). `buf` is the replay buffer, `queue` the packets that wait for credits or room, each with the port
whose receive buffer it still stands in, `msgs` the control messages that wait, `out` the bytes of packets that fill no flit
yet, `stream` the received bytes that make no whole packet yet, `keys` and `rxKeys` the session keys by which packets go out
and come in, `agreed` those of a new exchange that the partner has not announced yet (R342), `nonce` the random value sent in
IDENT, `made` the number of the own KEYX message and `script` the IDENT and KEYX messages so far (R341, R556), `marks` the
corrections of the last millisecond, as time and lane (R343), `again` the lanes that a second RELANE is to retire (R346). -/
structure Port where
  seq : BitVec 12
  ackseq : BitVec 12
  expect : BitVec 12
  replays : Nat
  nakOwed : Bool
  ackOwed : Bool
  fails : Nat
  txCount : Nat
  rxCount : Nat
  credits : Tbl Nat
  owed : Tbl Nat
  bad : BitVec 8
  testing : Bool
  holdDetect : Bool
  buf : List SentFlit
  queue : List (Packet × Option Nat)
  msgs : List (Nat × List Nat)
  out : Bytes
  stream : Bytes
  keys : Option LinkKeys
  rxKeys : Option LinkKeys
  agreed : Option LinkKeys
  nonce : Bytes
  made : Nat
  script : Bytes
  marks : List (Nat × Nat)
  again : BitVec 8
  deriving DecidableEq, Repr

/-- An outstanding request (R351, R352): the packet as last sent, the time from which `RTO` counts, when it was first
answered not yet, whether it waits to be sent again after such an answer, and what it was sent for: a burst of a channel,
a collective, a page of a snapshot. -/
structure Req where
  id : Nat
  pkt : Packet
  first : Nat
  notYet : Option Nat
  held : Bool
  chan : Option (ChanRef × Nat)
  coll : Option (EdgeId × Nat)
  ctx : Option CtxId
  snap : Option Nat
  deriving DecidableEq, Repr

/-- A frame of the frame table (R305, R307). -/
inductive FrameUse where
  | free
  | page (r : CtxId) (va : Nat)
  | lentTo (dev : BitVec 12)
  | system
  deriving DecidableEq, Repr

/-- The key store (R558, R559): page keys, transport keys, the number of the ephemeral pair with the digest of its quote's
body, and the nonce of the last `DBG_CHAL`. -/
structure Keys where
  page : Tbl (BitVec 512)
  transport : Tbl (BitVec 256)
  ephemeral : Option (Nat × Bytes)
  nonce : Option (BitVec 256)
  deriving DecidableEq, Repr

/-- A repair record (Table 15.10), 16 bytes. -/
abbrev RepairRec := Bytes

/-- A copy of the lifecycle state in the repair store (R561): which write made it, the state, and whether its CRC is valid. -/
structure LifeCopy where
  seq : Nat
  life : BitVec 2
  crcOk : Bool
  deriving DecidableEq, Repr

/-- What survives power loss (R523, R551, R552, R561, R562, R608): the repair store and the fuses; `arbRsOk` tells whether the
CRC of the area with `arbRs` is valid, `revoked` marks the revoked key sets. -/
structure Nv where
  records : List RepairRec
  starts : Nat
  lifeA : LifeCopy
  lifeB : LifeCopy
  ownerSet : Bool
  owner : BitVec 256
  arbRs : Nat
  arbRsOk : Bool
  arbF : Nat
  d2cnt : Nat
  fuseDeployed : Bool
  fuseRetired : Bool
  revoked : BitVec 2
  deriving DecidableEq, Repr

/-- The security processor beside its registers (R550 to R566): bytes [63:0] of the image last accepted, the debug
level, and of two mailboxes with a request the one whose request came first (R557). -/
structure Sec where
  running : Option Bytes
  dbg : BitVec 2
  first : Option MbSrc
  deriving DecidableEq, Repr

/-- Power and thermal control beside its registers (R531 to R547): whether the rails are up, the estimates of this
millisecond in units of 10^-7 W, the throttles of R536 and of R545, the tiles whose clock stretches, since when compute
is throttled and when that was last announced, what each device of a convoy announced and when, and the parts of a µJ
not yet counted, by context. -/
structure Power where
  railsUp : Bool
  ms : List Nat
  limits : Tbl Nat
  thermal : Tbl Nat
  stretch : Tbl Bool
  capSince : Option Nat
  announced : Option Nat
  heard : Tbl (BitVec 16 × Nat × Nat)
  frac : Tbl Nat
  deriving DecidableEq, Repr

/-- Pins (Tables 20.2 and 20.3). -/
structure Pins where
  vaux : Bool
  pwrEn : Bool
  perstN : Bool
  pwrOk : Bool
  alertN : Bool
  thermN : Bool
  tcRef : Bool
  slot : BitVec 2
  rcls : BitVec 2
  deriving DecidableEq, Repr

/-- The I3C target (R590 to R592). -/
structure I3c where
  addr : Option (BitVec 7)
  ibi : Bool
  mwl : BitVec 16
  mrl : BitVec 16
  off : BitVec 16
  mbdata : Mem
  deriving DecidableEq, Repr

/-- The PCIe side (R571, R572, R588, R589). -/
structure Pcie where
  training : Bool
  link : Bool
  d3 : Bool
  resetting : Bool
  deriving DecidableEq, Repr

/-- The online test under way and the suspects that wait for theirs (R520, R521). -/
structure Test where
  online : Option (Nat × Nat × Nat)
  queue : List Nat
  deriving DecidableEq, Repr

/-- The number of the next daily record (key 4), and the counts that a health record reports since the one before it
(R525, Table 15.11): corrected DDR lines by channel, corrected symbols by port, retakes, check takes and their
mismatches, partner losses, twin slate mismatches. -/
structure Dailies where
  seq : Nat
  ddrce : Tbl Nat
  fec : Tbl Nat
  retakes : Nat
  checks : Nat
  misses : Nat
  losses : Nat
  slates : Nat
  deriving DecidableEq, Repr

/-- Debug by JTAG (R564, R568). -/
structure Jtag where
  held : Bool
  scanned : List ScanDomain
  deriving DecidableEq, Repr

/-- The stand-in pair beside its registers (R510 to R518): the packets a passive twin holds, by request, the contexts
whose pages a resync has shipped, whether this twin served alone when it began to pair, and whether a warm reset has ended
its pairing for a renewal, until it pairs again. -/
structure Pair where
  held : List (Nat × Packet)
  synced : List CtxId
  solo : Bool
  renewed : Bool
  deriving DecidableEq, Repr

/-- The grade and stepping fused at manufacture (R4, R6, R613). -/
structure Chip where
  part : BitVec 8
  step : BitVec 8
  deriving DecidableEq, Repr

/-! ### The machine -/

/-- The fabric beside its registers: ports, routes, outstanding requests and the number of the next one, landed units
of the receive thresholds and the ingest windows, the weight-stream totals, and the packets that wait for a fenced core
to be remapped, with the port whose receive buffer they stand in (R335 to R372, R488, R494). -/
structure Fabric where
  ports : Tbl Port
  routes : Tbl (BitVec 64)
  reqs : List Req
  nextReq : Nat
  rqUnits : Tbl Nat
  ingUnits : Tbl Nat
  lineTot : Tbl (BitVec 32)
  stalled : List (Nat × Packet)
  deriving DecidableEq, Repr

/-- The state of the DZ6. `regs` holds every register field that has no other home, `tcount` the timecode (R373),
`promote` the pages of each tile that wait in this epoch for a local frame to be freed, with the moves that remain
(R309), `tables` the place of each level-2 page table in use (R301), `poolGen` the number of the contents of the host pool's
array (R313), `ddr` the bytes of frames lent to other devices by physical address (R307), `faulted` that a device fault has stopped the
device, until a reset (R495), `freeCtr` counts the open values the model has drawn. -/
structure State where
  pending : List Instr
  regs : Tbl Nat
  tcount : Nat
  time : TimeSt
  cores : Tbl Core
  ctxs : Tbl Ctx
  tokens : List TokenMove
  frames : Tbl FrameUse
  promote : Tbl (Nat × List (CtxId × Nat))
  tables : Tbl Nat
  poolGen : Nat
  fab : Fabric
  bulk : Tbl Xfer
  keys : Keys
  nv : Nv
  sec : Sec
  power : Power
  pins : Pins
  i3c : I3c
  pcie : Pcie
  pair : Pair
  test : Test
  dailies : Dailies
  jtag : Jtag
  chip : Chip
  ddr : Mem
  ddrPoison : Tbl Bool
  hostMem : Mem
  out : List Out
  faulted : Bool
  freeCtr : Nat
  deriving DecidableEq, Repr

/-- The reasons a command stops with a fault. -/
inductive Fault where
  /-- Raised where a command's operands are not of the form its row gives them (a malformed byte sequence); safe: the
  device never sees such a command. -/
  | badOperand (what : String)
  deriving DecidableEq, Repr

/-- The reasons the model gives a command no meaning. -/
inductive Refusal where
  /-- Raised by an arm of `exec` for a command the model has no meaning for; safe. -/
  | notModelled (mnemonic : String)
  deriving DecidableEq, Repr

/-- The machine right after reset: VAUX absent, every rail off, every register at its cold value, memories and queues
empty. The values that the manual does not give are those of the assumption log, entries 2 to 10. -/
def State.reset : State where
  pending := []
  regs := []
  tcount := 0
  time := ⟨false, 0, 0, 0, [], [], [], []⟩
  cores := []
  ctxs := []
  tokens := []
  frames := []
  promote := []
  tables := []
  poolGen := 0
  fab := ⟨[], [], [], 0, [], [], [], []⟩
  bulk := []
  keys := ⟨[], [], none, none⟩
  nv := ⟨[], 0, ⟨0, 1, true⟩, ⟨0, 1, true⟩, false, 0, 0, true, 0, 0, true, false, 0⟩
  sec := ⟨none, 0, none⟩
  power := ⟨false, [], [], [], [], none, none, [], []⟩
  pins := ⟨false, false, false, false, true, true, true, 0, 0⟩
  i3c := ⟨none, false, 8194, 8192, 0, []⟩
  pcie := ⟨false, false, false, false⟩
  pair := ⟨[], [], false, false⟩
  test := ⟨none, []⟩
  dailies := ⟨0, [], [], 0, 0, 0, 0, 0⟩
  jtag := ⟨false, []⟩
  chip := ⟨1, 0xB0⟩
  ddr := []
  ddrPoison := []
  hostMem := []
  out := []
  faulted := false
  freeCtr := 0

end Sys2Proof.Machine
end

