-- ==== Sys2Proof/Machine/Ops.lean ====
section
/-! DEFINITION. The named operations over tables, memories and registers, and the device-wide operations that many
commands share: refusals and their record, interrupts, host writes, the log, reading a context's registers. -/

namespace Sys2Proof.Machine

/-! ### Tables -/

/-- The entry of a table, if it has one. -/
def tfind {α : Type} : Tbl α → Nat → Option α
  | [], _ => none
  | (j, a) :: t, k => if j = k then some a else tfind t k

/-- The entry of a table, or a default. -/
def tget {α : Type} (t : Tbl α) (k : Nat) (d : α) : α := (tfind t k).getD d

/-- A table with one entry set, keys rising. -/
def tset {α : Type} : Tbl α → Nat → α → Tbl α
  | [], k, v => [(k, v)]
  | (j, a) :: t, k, v =>
    if k < j then (k, v) :: (j, a) :: t
    else if k = j then (k, v) :: t
    else (j, a) :: tset t k v

/-- A table without an entry. -/
def tdel {α : Type} (t : Tbl α) (k : Nat) : Tbl α := t.filter (fun e => e.1 != k)

/-- Whether the keys of a table rise. -/
def tsorted {α : Type} : Tbl α → Bool
  | [] => true
  | [_] => true
  | (j, _) :: (k, b) :: t => decide (j < k) && tsorted ((k, b) :: t)

/-! ### Memories -/

/-- The byte at an address; an unlisted address reads 0. -/
def mget (m : Mem) (a : Nat) : Byte := tget m a 0

/-- The memory with one byte written, in canonical form. -/
def mset : Mem → Nat → Byte → Mem
  | [], k, v => if v = 0 then [] else [(k, v)]
  | (j, b) :: t, k, v =>
    if k < j then (if v = 0 then (j, b) :: t else (k, v) :: (j, b) :: t)
    else if k = j then (if v = 0 then t else (k, v) :: t)
    else (j, b) :: mset t k v

/-- `n` bytes from an address. -/
def mread (m : Mem) (a n : Nat) : Bytes := (List.range n).map fun i => mget m (a + i)

/-- Bytes written from an address on. -/
def mwrite (m : Mem) (a : Nat) : Bytes → Mem
  | [] => m
  | b :: bs => mwrite (mset m a b) (a + 1) bs

/-- The canonical form: addresses rise and no listed byte is 0. -/
def memWf (m : Mem) : Bool := tsorted m && m.all (fun c => c.2 != 0)

/-- A little-endian number of `n` bytes. -/
def mnum (m : Mem) (a n : Nat) : Nat := leNat (mread m a n)

/-! ### Register fields -/

/-- The value of a field instance. -/
def fget (s : State) (f : Fld) (i j : Nat) : Nat := tget s.regs (f.key i j) f.cold

/-- The state with a field instance set. -/
def fset (s : State) (f : Fld) (i j v : Nat) : State := { s with regs := tset s.regs (f.key i j) (v % 2 ^ f.w) }

/-- Whether a one-bit field is set. -/
def fbit (s : State) (f : Fld) (i j : Nat) : Bool := fget s f i j != 0

/-- A counter field raised by `n`, stopping at its largest value. -/
def fcount (s : State) (f : Fld) (i j n : Nat) : State := fset s f i j (min (2 ^ f.w - 1) (fget s f i j + n))

/-- Every field of a list of registers back at its cold value, for one instance pair. -/
def clearFields (s : State) (fs : List Fld) (i j : Nat) : State :=
  { s with regs := s.regs.filter (fun e => !fs.any (fun f => f.key i j == e.1)) }

/-! ### Outputs, interrupts, refusals -/

/-- A message sent. -/
def emit (s : State) (o : Out) : State := { s with out := s.out ++ [o] }

/-- Bytes written to host memory. -/
def hostWrite (s : State) (a : Nat) (bs : Bytes) : State := { s with hostMem := mwrite s.hostMem a bs }

/-- Bytes written to host memory by a transfer, which is flagged as poisoned where they are (R323). -/
def hostPut (s : State) (a : Nat) (bs : Bytes) (bad : Bool) : State :=
  if bad then emit (hostWrite s a bs) (.poisonedWrite a bs.length) else hostWrite s a bs

/-- An MSI-X message, where the signalling bit is set. -/
def signal (s : State) (on : Bool) (vector : Nat) : State :=
  if on then emit s (.msix (BitVec.ofNat 8 vector)) else s

/-- A bit of `GLB_IRQSTAT` set by an event (R614): a message where the bit was 0, its mask bit is 1 and `IRQEN` is
1. -/
def glbIrq (s : State) (f : Fld) : State :=
  let was := fbit s f 0 0
  let s' := fset s f 0 0 1
  signal s' (!was && fbit s F.glbIrqcfgIrqen 0 0 && (fget s F.glbIrqcfgMask 0 0).testBit f.lo)
    (fget s F.glbIrqcfgIrq 0 0)

/-- A refusal of Table 19.4 recorded in `GLB_REFUSE`. -/
def refuse (s : State) (source index code : Nat) : State :=
  let s := fset s F.glbRefuseCode 0 0 code
  let s := fset s F.glbRefuseSource 0 0 source
  let s := fset s F.glbRefuseIndex 0 0 index
  glbIrq (fcount s F.glbRefuseCount 0 0 1) F.glbIrqstatRefuse

/-- A field write ignored for its range (R606). -/
def rangeErr (s : State) : State := fcount s F.glbErrRange 0 0 1

/-- The alert output follows `MG_ALERT` and its mask (R593). -/
def alertPin (s : State) : State :=
  let m := fget s F.mgAlertMask 0 0
  let on := (fbit s F.mgAlertDevfault 0 0 && m.testBit 0) || (fbit s F.mgAlertSeqfail 0 0 && m.testBit 1) ||
    (fbit s F.mgAlertBootrej 0 0 && m.testBit 2) || (fbit s F.mgAlertThermal 0 0 && m.testBit 3)
  { s with pins := { s.pins with alertN := !on } }

/-- Bytes brought to a length. -/
def fixLen (n : Nat) (bs : Bytes) : Bytes := (bs ++ List.replicate n 0).take n

/-- The ASCII bytes of a label. -/
def labelBytes (l : String) : Bytes := l.toList.map fun c => BitVec.ofNat 8 c.toNat

/-- The identity keys, derived from the fused secret (R554): the Ed25519 private key and the ML-DSA-65 seed. -/
def idEd : Bytes := sha3 (labelBytes "DZ6-ID-ED" ++ fixLen 32 Config.fusedSecret)
def idMldsa : Bytes := sha3 (labelBytes "DZ6-ID-MLDSA" ++ fixLen 32 Config.fusedSecret)

/-- `DEVID` (R554). -/
def devId : BitVec 256 := digestNat (sha3 (fixLen 32 (Config.edPublic idEd) ++ fixLen 1952 (Config.mldsaPublic idMldsa)))

/-- Both signatures of the identity keys over a message (R341, R555). -/
def idSign (msg : Bytes) : Bytes := fixLen 64 (Config.edSign idEd msg) ++ fixLen 3309 (Config.mldsaSign idMldsa msg)

/-- The lifecycle state that the repair store holds: of the copies whose CRC is valid, the newer one (R561). -/
def lifeStored (nv : Nv) : Option (BitVec 2) :=
  match nv.lifeA.crcOk, nv.lifeB.crcOk with
  | true, true => some (if nv.lifeB.seq ≤ nv.lifeA.seq then nv.lifeA.life else nv.lifeB.life)
  | true, false => some nv.lifeA.life
  | false, true => some nv.lifeB.life
  | false, false => none

/-- The lifecycle state (R561): the store's, bounded by the two fuses. PRESUMED (log 151): an unreadable store without a fuse
blown is MFG. -/
def lifeNow (s : State) : BitVec 2 :=
  if s.nv.fuseRetired then 3
  else
    match lifeStored s.nv with
    | some v => if s.nv.fuseDeployed && v == 0 then 2 else v
    | none => if s.nv.fuseDeployed then 2 else 0

/-- The anti-rollback value of the repair store; an area whose CRC fails reads as 0 (R552). -/
def arbStored (s : State) : Nat := if s.nv.arbRsOk then s.nv.arbRs else 0

/-- The next open value. -/
def drawFree (s : State) : Nat × State := (Config.free s.freeCtr, { s with freeCtr := s.freeCtr + 1 })

/-! ### Cores -/

/-- The tile of a core (R20). -/
def tileOf (n : Nat) : Nat := n / 336

/-- Whether a core is a spare of the module as made: the last cores of its tile in serpentine order, 16 on a DZ6-1280
and 80 on a DZ6-1024 (Table 0.1; the repair store gives the rest). -/
def defaultSpare (c : Chip) (n : Nat) : Bool :=
  let r := n % 336 / 12
  let x := n % 12
  let pos := r * 12 + (if r % 2 = 0 then x else 11 - x)
  decide (336 - (if c.part = 2 then 80 else 16) ≤ pos)

/-- An empty accumulator (R90, R99). -/
def accEmpty : SpAcc := ⟨.empty, 0, 0, false, false, 0, none, none⟩

/-- The configuration at step launch (Table 6.1). -/
def mcfgInit : Mcfg := ⟨0, 0, 0, 0, false⟩

/-- A frame before any launch. -/
def frameInit : Frame := ⟨0, [], [], 0, 0, mcfgInit, [], [], [], 0, 0, [], [], false, true, 0, 0⟩

/-- An idle core mover channel. -/
def chanInit : CoreChan := ⟨false, false, false, 0, false, 0, 0, 0, 0, none⟩

/-- A core before anything has happened on it. -/
def coreInit (c : Chip) (n : Nat) : Core where
  use := if defaultSpare c n then 1 else 0
  running := none
  hold := 0
  wait := false
  holdCyc := 0
  waitCyc := 0
  vmap := []
  frames := []
  recv := []
  scratch := []
  poison := []
  istore := []
  granOwner := []
  segOwner := []
  acc := []
  qa := []
  qb := []
  edgeA := []
  edgeB := []
  flight := []
  fast := []
  chans := []
  takes := []
  seq := 0
  shadow := []
  stop := none
  mirrors := []
  replaces := []
  entries := []
  cycle := 0
  prios := []
  fenced := false
  fencedAt := 0
  dbgHalt := false
  throttled := false
  unlit := none
  blank := []

/-- A core of the state. -/
def core (s : State) (n : Nat) : Core := tget s.cores n (coreInit s.chip n)

/-- The state with a core replaced. -/
def setCore (s : State) (n : Nat) (c : Core) : State := { s with cores := tset s.cores n c }

/-- The state with a core updated. -/
def modCore (s : State) (n : Nat) (f : Core → Core) : State := setCore s n (f (core s n))

/-- A frame of a core; keys 8 to 15 are the frames that floating steps of slots 0 to 7 run in. -/
def frameOf (c : Core) (k : Nat) : Frame := tget c.frames k frameInit

/-- The state with a frame of a core updated. -/
def modFrame (s : State) (n k : Nat) (f : Frame → Frame) : State :=
  modCore s n fun c => { c with frames := tset c.frames k (f (frameOf c k)) }

/-- A mover channel of a core. -/
def chanOf (c : Core) (i : Nat) : CoreChan := tget c.chans i chanInit

/-- The state with a mover channel of a core updated. -/
def modChan (s : State) (n i : Nat) (f : CoreChan → CoreChan) : State :=
  modCore s n fun c => { c with chans := tset c.chans i (f (chanOf c i)) }

/-- An accumulator of a core. -/
def accOf (c : Core) (a : Nat) : SpAcc := tget c.acc a accEmpty

/-! ### Contexts -/

/-- A context that has never been registered. -/
def ctxInit : Ctx where
  st := .unreg
  slot := none
  img := none
  map := []
  res := ⟨[], [], false, false, false, false, false, false, none, none, none⟩
  queue := []
  step := none
  floats := []
  ended := []
  doneIds := []
  vs := ⟨[], [], [], [], [], []⟩
  log := ⟨[], [], none, [], [], [], []⟩
  colls := []
  reel := none
  served := none
  prevGen := 0
  snap := none
  checks := []
  fbReqs := []
  held := []
  actDigest := 0
  badSlot := none
  coalesce := false

/-- A registered context of the state. -/
def ctx (s : State) (r : Nat) : Ctx := tget s.ctxs r ctxInit

/-- The state with a context replaced. -/
def setCtx (s : State) (r : Nat) (c : Ctx) : State := { s with ctxs := tset s.ctxs r c }

/-- The state with a context updated. -/
def modCtx (s : State) (r : Nat) (f : Ctx → Ctx) : State := setCtx s r (f (ctx s r))

/-- The registered context that holds a slot (R410), where one does. -/
def slotCtx (s : State) (sl : Nat) : Option Nat :=
  (s.ctxs.find? (fun e => decide (e.2.slot.map (·.val) = some sl) && e.2.st != .unreg)).map (·.1)

/-- A field of a context's block, in its slot, or saved while it holds none (R410). -/
def cget (s : State) (r : Nat) (f : Fld) (j : Nat) : Nat :=
  match (ctx s r).slot with
  | some sl => fget s f sl j
  | none => tget (ctx s r).res.saved (f.key 0 j) f.cold

/-- A field of a context's block set, in its slot or among the saved fields. -/
def cset (s : State) (r : Nat) (f : Fld) (j v : Nat) : State :=
  match (ctx s r).slot with
  | some sl => fset s f sl j v
  | none =>
    modCtx s r fun c => { c with res := { c.res with saved := tset c.res.saved (f.key 0 j) (v % 2 ^ f.w) } }

/-- A counter field of a context's block raised. -/
def ccount (s : State) (r : Nat) (f : Fld) (j n : Nat) : State :=
  cset s r f j (min (2 ^ f.w - 1) (cget s r f j + n))

/-- The registered context behind a take's key on a core: the context of the slot, or of the slot whose floating step
it is. -/
def keyCtx (s : State) (k : Nat) : Option Nat := slotCtx s (k % 8)

/-- The step that a take's key runs on a core: the home-set step, or the floating step that has a virtual core
there. -/
def keyStep (s : State) (n k : Nat) : Option Step :=
  match keyCtx s k with
  | none => none
  | some r =>
    if k < 8 then (ctx s r).step
    else (ctx s r).floats.find? (fun st => st.launched && st.cores.any (fun c => c.core.val == n))

/-- The step of a take's key replaced. -/
def modKeyStep (s : State) (n k : Nat) (f : Step → Step) : State :=
  match keyCtx s k with
  | none => s
  | some r =>
    if k < 8 then modCtx s r fun c => { c with step := c.step.map f }
    else
      let g (st : Step) : Step := if st.launched && st.cores.any (fun x => x.core.val == n) then f st else st
      modCtx s r fun c => { c with floats := c.floats.map g }

/-- The virtual place of a take's key on a core. -/
def keyPlace (s : State) (n k : Nat) : Option (Nat × Nat) :=
  (keyStep s n k).bind fun st => (st.cores.find? (fun c => c.core.val == n)).map (fun c => (c.vx, c.vy))

/-- What the image declares for a virtual core. -/
def imgCore (img : Image) (vx vy : Nat) : Option CoreImage := img.cores.find? (fun c => c.vx == vx && c.vy == vy)

/-- What a context's image declares for the virtual core of a key on a core: of the home-set grid, or of the
program of the floating step. -/
def keyImage (s : State) (n k : Nat) : Option CoreImage :=
  match keyCtx s k, keyPlace s n k with
  | some r, some (vx, vy) =>
    (ctx s r).img.bind fun img =>
      match keyStep s n k with
      | some st =>
        if st.floating then
          ((img.floats.find? (fun p => p.1 == st.entry)).map (·.2)).bind
            (fun cs => cs.find? (fun c => c.vx == vx && c.vy == vy))
        else imgCore img vx vy
      | none => imgCore img vx vy
  | _, _ => none

/-- Whether the host bus can be used (R572). -/
def hostUp (s : State) : Bool := s.pcie.link && !s.pcie.d3 && !s.pcie.resetting

/-! ### The rushes log (R388 to R395) -/

/-- The number of the next entry, and the count of notes, kept beside the ring's registers at offsets that no register
has (Table 11.3, Table 11.4). -/
def F.logSeq : Fld := ⟨0x10C248, 0x10000, 0x0, 0, 64, 0, .ro⟩
def F.logNotes : Fld := ⟨0x10C250, 0x10000, 0x0, 0, 64, 0, .ro⟩

/-- The 64-byte header of an entry (Table 11.3). -/
def logHeader (e : LogEnt) : Bytes :=
  leBytes 1 e.type ++ leBytes 1 e.ctx ++ leBytes 2 e.payload.length ++ leBytes 4 0 ++ leBytes 8 e.seq ++
    leBytes 8 e.timecode ++ leBytes 8 e.step.toNat ++ leBytes 16 e.key ++ leBytes 16 e.data

/-- The size of the ring in bytes (R389). -/
def ringSize (s : State) (r : Nat) : Nat := 2 ^ cget s r F.ctxLogCfgSizelog2 0

/-- The free space of the ring (R389). -/
def ringFree (s : State) (r : Nat) : Nat :=
  ringSize s r - (cget s r F.ctxLogHeadCount 0 + 2 ^ 64 - cget s r F.ctxLogTailCount 0) % 2 ^ 64

/-- What an entry takes of the ring: its bytes, and before it the filler to the end of the ring where it would straddle
it (R390). -/
def entNeed (s : State) (r : Nat) (e : LogEnt) : Nat × Nat :=
  let len := 64 + e.payload.length
  let left := ringSize s r - cget s r F.ctxLogHeadCount 0 % ringSize s r
  if left < len then (left, len) else (0, len)

/-- Whether an entry fits in the free space of the ring. -/
def logRoom (s : State) (r : Nat) (e : LogEnt) : Bool :=
  let p := entNeed s r e
  decide (p.1 + p.2 ≤ ringFree s r)

/-- Bytes at the head of the ring, and the head past them. -/
def ringPut (s : State) (r : Nat) (bs : Bytes) (len : Nat) : State :=
  let h := cget s r F.ctxLogHeadCount 0
  cset (hostWrite s (cget s r F.ctxLogBaseAddr 0 + h % ringSize s r) bs) r F.ctxLogHeadCount 0 ((h + len) % 2 ^ 64)

/-- An entry written to the ring, after the filler it needs (R390). -/
def logWrite (s : State) (r : Nat) (e : LogEnt) : State :=
  let p := entNeed s r e
  let s :=
    if p.1 = 0 then s
    else
      let q := cget s r F.logSeq 0
      let pad : LogEnt :=
        ⟨0, r, q, s.tcount, BitVec.allOnes 64, 0, 0, List.replicate (p.1 - 64) 0⟩
      ringPut (cset s r F.logSeq 0 (q + 1)) r (logHeader pad) p.1
  let q := cget s r F.logSeq 0
  let s := cset s r F.logSeq 0 (q + 1)
  ringPut s r (logHeader { e with seq := q } ++ e.payload) p.2

/-- Whether the context writes a log: `MODE` is LIVE (Table 11.8: 0b01). -/
def logLive (s : State) (r : Nat) : Bool := cget s r F.ctxLogCfgMode 0 == 1

/-- Whether the context is in REPLAY (`MODE` 0b10). -/
def logReplay (s : State) (r : Nat) : Bool := cget s r F.ctxLogCfgMode 0 == 2

/-- An entry made: written at once where the ring has room and nothing waits before it, and otherwise waiting
(R395). -/
def logPut (s : State) (r : Nat) (e : LogEnt) : State :=
  if !logLive s r then s
  else if (ctx s r).log.q.isEmpty && logRoom s r e && hostUp s then logWrite s r e
  else modCtx s r fun c => { c with log := { c.log with q := c.log.q ++ [e] } }

/-! ### Clocks and power (R40, R533, R564) -/

/-- `PWR_STAT.STATE`: 0 ACTIVE, 1 IDLE, 2 RETAIN, 3 OFF. -/
def powerState (s : State) : Nat := fget s F.pwrStatState 0 0

/-- A core that issues: it shows neither a hold nor an issue wait, and the cycle counts. Under a hold duty of `duty` eighths a
hold follows when it has issued in as many cycles as a window of 64 leaves it (R537). -/
def countCycle (duty : Nat) (c : Core) : Core :=
  { c with hold := 0, wait := false, unlit := none, cycle := c.cycle + 1,
           throttled := c.throttled || (duty != 0 && (c.cycle + 1) % (64 - 8 * duty) == 0) }

/-- The exit from IDLE when an activity starts, which the cores that start wait out as a hold with cause 0x7. -/
def wake (s : State) (ns : List Nat) : State :=
  if powerState s ≠ 1 then s
  else ns.foldl (fun s n => modCore s n fun c => { c with throttled := true }) (fset s F.pwrStatState 0 0 0)

/-- Whether the clock of a domain runs: the A, E0F, E1F, M and L domains stop in RETAIN, and a scan stops those it
reaches. -/
def clockRuns (s : State) (d : ScanDomain) : Bool :=
  !s.jtag.scanned.contains d && powerState s != 3 && (d == .p || powerState s != 2)

/-- What steps in a domain: nothing while its clock stands. -/
def onClock (s : State) (d : ScanDomain) (f : State → Host.Outcome State Fault Refusal) :
    Host.Outcome State Fault Refusal := if clockRuns s d then f s else .next s

/-- The domain of a core, a port, a DDR channel, an edge tile and a mover channel (Table 1.4). -/
def coreClock (n : Nat) : ScanDomain := .a (Fin.ofNat 4 (tileOf n))
def portClock (p : Nat) : ScanDomain := .l (Fin.ofNat 8 (p / 6))
def ddrClock (ch : Nat) : ScanDomain := .m (Fin.ofNat 8 (ch / 2))
def edgeClock (e : Nat) : ScanDomain := if e = 0 then .e0f else .e1f
def chanClock (ch : ChanRef) : ScanDomain :=
  match ch with
  | .core n _ => coreClock n.val
  | .bulk b => edgeClock (b.val / 32)

/-! ### Accesses of the host (R522, R572, R589, R604) -/

/-- Whether BAR0 and BAR2 are served: the link is up in D0 and its clock runs, and no warm reset is under way. -/
def barOpen (s : State) : Bool := hostUp s && clockRuns s .p

/-- Whether a register write is taken: in RETAIN only by the power, timecode and security blocks, and after a wrap test
by none. -/
def writeOpen (s : State) (aon : Bool) : Bool :=
  barOpen s && (aon || powerState s != 2) && fget s F.relWrapState 0 0 != 2

/-- A register write that is discarded where it is not taken. -/
def onBar (aon : Bool) (s : State) (f : State → Host.Outcome State Fault Refusal) : Host.Outcome State Fault Refusal :=
  if writeOpen s aon then f s else .next s

end Sys2Proof.Machine
end

