-- ==== Sys2Proof/Machine/Regs.lean ====
section
/-! DEFINITION. What a register write does to one field (R600 to R611): the part an access covers, the range a field may
hold, the fields of one register written together. -/

namespace Sys2Proof.Machine

/-- Whether a field lies wholly within the part of its register that a write covers (R602). -/
def covered (h : Half) (f : Fld) : Bool :=
  match h with
  | .both => true
  | .low => decide (f.lo + f.w ≤ 32)
  | .high => decide (32 ≤ f.lo)

/-- The value a write gives a field. -/
def wval (w : RegWrite) (f : Fld) : Nat := bitsOf w.data.toNat f.lo f.w

/-- Whether a write covers a one-bit field and gives it 1. -/
def wbit (w : RegWrite) (f : Fld) : Bool := covered w.half f && wval w f == 1

/-- The fields whose tables or rules state a range: the least and greatest value, and what a value must be a multiple of
(R606). -/
def ranges : List (Fld × Nat × Nat × Nat) :=
  [(F.ctxLogBaseAddr, 0, 2 ^ 64, 4096), (F.ctxLogCfgMode, 0, 2, 1), (F.ctxLogCfgSizelog2, 16, 40, 1),
   (F.ctxSlateBaseAddr, 0, 2 ^ 64, 65536), (F.ctxSlateCfgSlots, 0, 256, 1), (F.ctxImageAddr, 0, 2 ^ 64, 64),
   (F.ctxTrapBaseAddr, 0, 2 ^ 64, 64), (F.ctxShelfVa, 0, 2 ^ 48, 2 ^ 21), (F.schedCfgSwapt, 100, 1000000, 1),
   (F.tcTickCfgPeriod, 100, 2 ^ 32, 1), (F.hostFwaddrAddr, 0, 2 ^ 64, 4096), (F.hostTailpgAddr, 0, 2 ^ 64, 4096),
   (F.hostCscfgPollns, 100, 65535, 1), (F.hostB2mapMode, 0, 2, 1), (F.hostIngdstVa, 0, 2 ^ 48, 64),
   (F.hostIngcfgB2off, 0, 2 ^ 34, 64), (F.hostIngcfgUnitlog2, 0, 6, 1), (F.hostIngcfgUnits, 1, 2 ^ 20, 1)] ++
  [(F.ctxCsBaseAddr, 0, 2 ^ 64, 4096), (F.ctxCsCfgSizelog2, 6, 16, 1), (F.ctxCqBaseAddr, 0, 2 ^ 64, 4096),
   (F.ctxCqCfgSizelog2, 6, 16, 1), (F.ctxReelmanAddr, 0, 2 ^ 64, 64), (F.ctxReelmanlenBytes, 0, 2 ^ 32, 64),
   (F.ctxReelsrcAddr, 0, 2 ^ 64, 8), (F.ctxReelcfgStageoff, 0, 2 ^ 48, 2 ^ 21), (F.ctxReelcfgChunkto, 1, 255, 1),
   (F.memCfgMaxmode, 0, 2, 1), (F.memCfgRclass, 0, 2, 1), (F.memScrubPeriod, 1, 8760, 1),
   (F.memHpoolBaseAddr, 0, 2 ^ 64, 8), (F.ctxPgvaVa, 0, 2 ^ 48, 2 ^ 21), (F.ctxPgcntPages, 1, 2 ^ 32, 1)] ++
  [(F.fabRqcfgUnitlog2, 0, 6, 1), (F.fabTimersLifetime, 50, 1000, 1), (F.fabTimersHops, 1, 255, 1),
   (F.fabRqbaseAddr, 0, 2 ^ 45, 64), (F.ctxCollq0Va, 0, 2 ^ 48, 2 ^ 14), (F.ctxCollq1Va, 0, 2 ^ 48, 2 ^ 14),
   (F.ctxPrintvaVa, 0, 2 ^ 48, 2 ^ 21), (F.ctxPrintcntPages, 1, 2 ^ 32, 1), (F.ctxPrinttblVa, 0, 2 ^ 48, 64),
   (F.relOtestKind, 0, 2, 1), (F.relDlbaseAddr, 0, 2 ^ 64, 4096), (F.relDlcfgSizelog2, 12, 30, 1),
   (F.pwrCfgFmin, 40, 100, 1), (F.pwrCfgDroopmv, 10, 100, 1), (F.pwrTileFreqreq, 40, 100, 1),
   (F.secMbreqAddr, 0, 2 ^ 64, 64), (F.secMbrespAddr, 0, 2 ^ 64, 64)]

/-- Whether a value lies in the range stated for its field. -/
def rangeOk (f : Fld) (v : Nat) : Bool :=
  match ranges.find? (fun r => r.1 == f) with
  | some (_, lo, hi, m) => decide (lo ≤ v ∧ v ≤ hi ∧ v % m = 0)
  | none => true

/-- One field written: unchanged where the access does not cover it, and where the value is out of range, which
`GLB_ERR.RANGE` counts (R602, R606). -/
def writeField (w : RegWrite) (i j : Nat) (s : State) (f : Fld) : State :=
  if !covered w.half f then s
  else if rangeOk f (wval w f) then fset s f i j (wval w f)
  else rangeErr s

/-- Some fields of one register written, the others left. -/
def writeFields (s : State) (w : RegWrite) (fs : List Fld) (i j : Nat) : State := fs.foldl (writeField w i j) s

/-- A one-bit flag cleared by a write of 1 (R17). -/
def clearBit (w : RegWrite) (i j : Nat) (s : State) (f : Fld) : State :=
  if covered w.half f then fset s f i j (fget s f i j - wval w f * fget s f i j) else s

/-- A field cleared by a write of 1. -/
def clearBits (s : State) (w : RegWrite) (fs : List Fld) (i j : Nat) : State := fs.foldl (clearBit w i j) s

/-- The mailbox whose request came first: the other one's, where it waits already (R557). -/
def noteRequest (s : State) (src : MbSrc) : State :=
  let first : MbSrc :=
    match src with
    | .pcie => if fbit s F.mgMbctlGo 0 0 then .i3c else .pcie
    | .i3c => if fbit s F.secMbctlGo 0 0 then .pcie else .i3c
  { s with sec := { s.sec with first := some first } }

/-! ### Slots (R409, R411, R416) -/

/-- Whether a slot's enable is being checked. -/
def slotChecking (s : State) (sl : Nat) : Bool := fget s F.ctxStatState sl 0 == 1

/-- Whether a slot is not FREE. -/
def slotBusy (s : State) (sl : Nat) : Bool := slotChecking s sl || (slotCtx s sl).isSome

/-- Whether no context is enabled (R411): no slot is being checked, and nothing is registered. -/
def noneEnabled (s : State) : Bool :=
  s.ctxs.all (fun e => e.2.st == .unreg) && (List.range 8).all (fun sl => !slotChecking s sl)

end Sys2Proof.Machine
end

