-- ==== Sys2Proof/Machine/Num.lean ====
section
/-! DEFINITION. Number formats and rounding (R45 to R69): decoding an element's code, exact arithmetic on values, the
one rounding every result takes, and the random word of stochastic rounding (R62, R167). -/

namespace Sys2Proof.Machine

/-! ### Exact values -/

/-- The exact sum of two values. -/
def dyAdd (a b : Dy) : Dy :=
  let e := min a.e b.e
  ⟨a.m * 2 ^ (a.e - e).toNat + b.m * 2 ^ (b.e - e).toNat, e⟩

/-- The integer multiple of `2^u` that an exact value is, rounded RNE, a tie to the even multiple (R82). -/
def dyRoundRne (v : Dy) (u : Int) : Int :=
  if u ≤ v.e then v.m * 2 ^ (v.e - u).toNat
  else
    let sh := (u - v.e).toNat
    let q := v.m / 2 ^ sh
    let r := v.m % 2 ^ sh
    if 2 * r > 2 ^ sh ∨ (2 * r = 2 ^ sh ∧ q % 2 = 1) then q + 1 else q

/-- Number of trailing zero bits of `m`, at most `fuel` (0 for 0). -/
def ctz : Nat → Nat → Nat
  | 0, _ => 0
  | fuel + 1, m => if m % 2 = 1 ∨ m = 0 then 0 else ctz fuel (m / 2) + 1

/-- The lowest set bit position of a non-zero exact value. -/
def dyLowBit (v : Dy) : Int := v.e + ctz (v.m.natAbs.log2 + 1) v.m.natAbs

/-- The exact value of a finite element. -/
def numDy : Num → Dy
  | .fin neg m e => ⟨if neg then -(m : Int) else m, e⟩
  | _ => ⟨0, 0⟩

/-- The element whose exact value is `v`, with the sign `zneg` where it is zero. -/
def dyNum (v : Dy) (zneg : Bool) : Num :=
  if v.m = 0 then .fin zneg 0 0 else .fin (v.m < 0) v.m.natAbs v.e

/-- The class bits of a value: 0b00 finite, 0b01 posInf, 0b10 negInf, 0b11 NaN (Table 2.9). -/
def numCls : Num → BitVec 2
  | .nan => 3
  | .inf false => 1
  | .inf true => 2
  | .fin _ _ _ => 0

/-- A value of class `c` beside the finite part `v` (R88, R107): the class governs. -/
def clsNum (c : BitVec 2) (v : Num) : Num :=
  if c = 3 then .nan else if c = 1 then .inf false else if c = 2 then .inf true else v

/-! ### Formats -/

/-- The format of a 4-bit code; reserved codes give none (R45). -/
def fmtOf (code : Nat) : Option Fmt :=
  match code with
  | 0 => some .fp32 | 1 => some .bf16 | 2 => some .fp16 | 3 => some .e4m3 | 4 => some .e5m2
  | 5 => some .mxfp4 | 6 => some .int8 | 7 => some .int4 | 8 => some .int32 | _ => none

/-- The 4-bit code of a format (Table 2.1). -/
def fmtCode : Fmt → Nat
  | .fp32 => 0 | .bf16 => 1 | .fp16 => 2 | .e4m3 => 3 | .e5m2 => 4 | .mxfp4 => 5 | .int8 => 6 | .int4 => 7 | .int32 => 8

/-- Element size in bits (Table 2.1). -/
def fmtBits : Fmt → Nat
  | .fp32 => 32 | .bf16 => 16 | .fp16 => 16 | .e4m3 => 8 | .e5m2 => 8 | .mxfp4 => 4 | .int8 => 8 | .int4 => 4 | .int32 => 32

/-- Whether a format is an integer format (R54). -/
def fmtInt : Fmt → Bool
  | .int8 => true | .int4 => true | .int32 => true | _ => false

/-- The rounding mode of a 3-bit code; reserved codes give none (R58). -/
def rmOf (code : Nat) : Option RMode :=
  match code with
  | 0 => some .rne | 1 => some .rtz | 2 => some .rup | 3 => some .rdn | 4 => some .sr | _ => none

/-- The fields of Tables 2.2 and 2.3; for MXFP4 those of its E2M1 elements. -/
def floatOf : Fmt → FloatF
  | .fp32 => ⟨8, 23, 127, 0x7F7FFFFF, true, 0x7FC00000⟩
  | .bf16 => ⟨8, 7, 127, 0x7F7F, true, 0x7FC0⟩
  | .fp16 => ⟨5, 10, 15, 0x7BFF, true, 0x7E00⟩
  | .e4m3 => ⟨4, 3, 7, 0x7E, false, 0x7F⟩
  | .e5m2 => ⟨5, 2, 15, 0x7B, true, 0x7E⟩
  | _ => ⟨2, 1, 1, 0x7, false, 0⟩

/-- The value of a floating-point code (R46, R47): a magnitude above the largest finite one is an infinity where the
format has infinities and the fraction is 0, and otherwise the NaN class (R48). -/
def decodeFloat (f : FloatF) (code : Nat) : Num :=
  let neg := bitsOf code (f.ebits + f.fbits) 1 == 1
  let mag := code % 2 ^ (f.ebits + f.fbits)
  let ex := mag / 2 ^ f.fbits
  let fr := mag % 2 ^ f.fbits
  if mag > f.maxCode then
    if f.hasInf && fr == 0 then .inf neg else .nan
  else if ex = 0 then .fin neg fr (1 - (f.bias : Int) - f.fbits)
  else .fin neg (2 ^ f.fbits + fr) ((ex : Int) - f.bias - f.fbits)

/-- The value of a two's complement integer of `w` bits (R54). -/
def decodeInt (w code : Nat) : Num :=
  let c := code % 2 ^ w
  if c ≥ 2 ^ (w - 1) then .fin true (2 ^ w - c) 0 else .fin false c 0

/-- The value of an element code; `scale` is the E8M0 code of an MXFP4 element's block (R49). -/
def decodeElem (f : Fmt) (code scale : Nat) : Num :=
  match f with
  | .int8 => decodeInt 8 code
  | .int4 => decodeInt 4 code
  | .int32 => decodeInt 32 code
  | .mxfp4 =>
    if scale = 255 then .nan
    else
      match decodeFloat (floatOf .mxfp4) (code % 16) with
      | .fin neg m e => .fin neg m (e + (scale : Int) - 127)
      | x => x
  | f => decodeFloat (floatOf f) code

/-- The element exponent of the anchor (Table 3.1); none for NaN and ±Inf, and none for integers, which have no
anchor. -/
def elemExp (f : Fmt) (code scale : Nat) : Option Int :=
  if fmtInt f then none
  else
    match decodeElem f code scale with
    | .fin _ _ _ =>
      let g := floatOf f
      let ex := code / 2 ^ g.fbits % 2 ^ g.ebits
      let base : Int := (max ex 1 : Nat) - (g.bias : Int)
      some (if f = .mxfp4 then base + (scale : Int) - 127 else base)
    | _ => none

/-- The minimum normal exponent of a format, and for MXFP4 the smallest element exponent (Table 3.1). -/
def minExp : Fmt → Int
  | .mxfp4 => -127
  | f => 1 - ((floatOf f).bias : Int)

/-! ### Rounding -/

/-- Whether a magnitude truncated to `q` units with remainder `r` of `2^sh` goes up by one unit (R58, R62). -/
def roundUp (mode : RMode) (neg : Bool) (q r sh u : Nat) : Bool :=
  match mode with
  | .rne => decide (2 * r > 2 ^ sh) || (decide (2 * r = 2 ^ sh) && decide (q % 2 = 1))
  | .rtz => false
  | .rup => decide (r ≠ 0) && !neg
  | .rdn => decide (r ≠ 0) && neg
  | .sr => decide (r * 2 ^ 32 / 2 ^ sh + u ≥ 2 ^ 32)

/-- The magnitude `m × 2^e` as a rounded whole number of units `2^q`. -/
def roundUnits (mode : RMode) (neg : Bool) (m : Nat) (e q : Int) (u : Nat) : Nat :=
  if q ≤ e then m * 2 ^ (e - q).toNat
  else
    let sh := (q - e).toNat
    let n := m / 2 ^ sh
    if roundUp mode neg n (m % 2 ^ sh) sh u then n + 1 else n

/-- Whether Table 2.7 gives an infinity for an overflow of this sign. -/
def overflowInf (mode : RMode) (neg : Bool) : Bool :=
  match mode with
  | .rne => true
  | .sr => true
  | .rtz => false
  | .rup => !neg
  | .rdn => neg

/-- One rounding of a value into a floating-point format (R59 to R62); `u` is the random word of SR. -/
def roundFloat (f : FloatF) (mode : RMode) (u : Nat) (x : Num) : Rounded :=
  let sgn (neg : Bool) : Nat := if neg then 2 ^ (f.ebits + f.fbits) else 0
  match x with
  | .nan => ⟨f.nan, false⟩
  | .inf neg => if f.hasInf then ⟨sgn neg + (2 ^ f.ebits - 1) * 2 ^ f.fbits, false⟩ else ⟨f.nan, false⟩
  | .fin neg m e =>
    if m = 0 then ⟨sgn neg, false⟩
    else
      let p := max (e + m.log2) (1 - (f.bias : Int))
      let q := p - f.fbits
      let n := roundUnits mode neg m e q u
      let code := (p + f.bias - 1).toNat * 2 ^ f.fbits + n
      if code > f.maxCode then
        if f.hasInf && overflowInf mode neg then ⟨sgn neg + (2 ^ f.ebits - 1) * 2 ^ f.fbits, false⟩
        else ⟨sgn neg + f.maxCode, true⟩
      else ⟨sgn neg + code, false⟩

/-- One rounding of a value to a two's complement integer of `w` bits (R55, R60, R61). -/
def roundInt (w : Nat) (mode : RMode) (u : Nat) (x : Num) : Rounded :=
  let hi : Nat := 2 ^ (w - 1) - 1
  let lo : Nat := 2 ^ (w - 1)
  match x with
  | .nan => ⟨0, false⟩
  | .inf neg => ⟨if neg then lo else hi, true⟩
  | .fin neg m e =>
    let n := roundUnits mode neg m e 0 u
    if neg then (if n > lo then ⟨lo, true⟩ else ⟨(2 ^ w - n) % 2 ^ w, false⟩)
    else (if n > hi then ⟨hi, true⟩ else ⟨n, false⟩)

/-- One rounding of a value into a format; an MXFP4 element is rounded to E2M1 (R52 chooses its scale first). -/
def roundTo (f : Fmt) (mode : RMode) (u : Nat) (x : Num) : Rounded :=
  match f with
  | .int8 => roundInt 8 mode u x
  | .int4 => roundInt 4 mode u x
  | .int32 => roundInt 32 mode u x
  | f => roundFloat (floatOf f) mode u x

/-! ### MXFP4 blocks (R52, R53) -/

/-- floor(log2 m) of a non-zero magnitude. -/
def numLog2 : Num → Option Int
  | .fin _ m e => if m = 0 then none else some (e + m.log2)
  | _ => none

/-- The scale code of a block, from its written elements (R52 steps 1 to 3). -/
def mxScale (xs : List Num) : Nat :=
  if xs.any (fun x => numCls x != 0) then 255
  else
    match xs.filterMap numLog2 with
    | [] => 127
    | l :: ls =>
      let m := ls.foldl max l
      ((max (-127) (min 127 (m - 2))) + 127).toNat

/-- One element of a block with the given scale code (R52 steps 1, 2 and 4). -/
def mxElem (zeroBlock : Bool) (scale : Nat) (mode : RMode) (u : Nat) (x : Num) : Rounded :=
  if scale = 255 then ⟨0, false⟩
  else if zeroBlock then ⟨0, false⟩
  else
    match x with
    | .fin neg m e => roundTo .mxfp4 mode u (.fin neg m (e - ((scale : Int) - 127)))
    | _ => ⟨0, false⟩

/-- Whether every value of a block is zero (R52 step 2). -/
def mxZero (xs : List Num) : Bool := xs.all (fun x => match x with | .fin _ m _ => decide (m = 0) | _ => false)

/-! ### Exact arithmetic on values (R154) -/

/-- The sign-flipped value. -/
def numNeg : Num → Num
  | .nan => .nan
  | .inf n => .inf (!n)
  | .fin n m e => .fin (!n) m e

/-- The exact product (Table 3.3 gives its class). DESIGN CHOICE (log 125): a zero product of integers takes the sign
of its factors. -/
def numMul (a b : Num) : Num :=
  match a, b with
  | .nan, _ => .nan
  | _, .nan => .nan
  | .inf n, .inf k => .inf (n != k)
  | .inf n, .fin k m _ => if m = 0 then .nan else .inf (n != k)
  | .fin k m _, .inf n => if m = 0 then .nan else .inf (n != k)
  | .fin n m e, .fin k l f => .fin (n != k) (m * l) (e + f)

/-- The exact sum; an exact zero takes its sign from the addends where both are zeros of one sign, and otherwise from
the mode (R154). -/
def numAdd (mode : RMode) (a b : Num) : Num :=
  match a, b with
  | .nan, _ => .nan
  | _, .nan => .nan
  | .inf n, .inf k => if n = k then .inf n else .nan
  | .inf n, .fin _ _ _ => .inf n
  | .fin _ _ _, .inf n => .inf n
  | .fin n m e, .fin k l f =>
    if m = 0 ∧ l = 0 ∧ n = k then .fin n 0 0
    else dyNum (dyAdd (numDy (.fin n m e)) (numDy (.fin k l f))) (mode == .rdn)

/-- Order of two finite or infinite values, by exact value: `a < b`. -/
def numLt (a b : Num) : Bool :=
  match a, b with
  | .nan, _ => false
  | _, .nan => false
  | .inf n, .inf k => n && !k
  | .inf n, .fin _ _ _ => n
  | .fin _ _ _, .inf n => !n
  | a, b => let d := dyAdd (numDy a) (numDy (numNeg b)); decide (d.m < 0)

/-- Equality of two values by exact value; zeros of either sign are equal. -/
def numEq (a b : Num) : Bool :=
  match a, b with
  | .nan, _ => false
  | _, .nan => false
  | a, b => !numLt a b && !numLt b a

/-- Whether a value is zero. -/
def numZero : Num → Bool
  | .fin _ m _ => decide (m = 0)
  | _ => false

/-- Whether a value has the minus sign. -/
def numSign : Num → Bool
  | .fin n _ _ => n
  | .inf n => n
  | .nan => false

/-- The maximum of two values (Table 5.1): NaN if either is NaN, and +0 for zeros of opposite sign. -/
def numMax (a b : Num) : Num :=
  match a, b with
  | .nan, _ => .nan
  | _, .nan => .nan
  | a, b =>
    if numZero a && numZero b then .fin (numSign a && numSign b) 0 0
    else if numLt a b then b else a

/-- The minimum of two values (Table 5.1): NaN if either is NaN, and -0 for zeros of opposite sign. -/
def numMin (a b : Num) : Num :=
  match a, b with
  | .nan, _ => .nan
  | _, .nan => .nan
  | a, b =>
    if numZero a && numZero b then .fin (numSign a || numSign b) 0 0
    else if numLt b a then b else a

/-! ### FP32 operations on codes, rounding once in RNE (R163) -/

/-- The value of an FP32 code. -/
def f32 (c : Nat) : Num := decodeFloat (floatOf .fp32) c

/-- The FP32 code nearest to a value, RNE. -/
def toF32 (x : Num) : Nat := (roundFloat (floatOf .fp32) .rne 0 x).code

/-- `mul` of R163. -/
def f32Mul (a b : Nat) : Nat := toF32 (numMul (f32 a) (f32 b))

/-- `add` of R163. -/
def f32Add (a b : Nat) : Nat := toF32 (numAdd .rne (f32 a) (f32 b))

/-- `fma` of R163. -/
def f32Fma (a b c : Nat) : Nat := toF32 (numAdd .rne (numMul (f32 a) (f32 b)) (f32 c))

/-- An FP32 value with its sign flipped; a NaN stays the canonical NaN. -/
def f32Neg (a : Nat) : Nat := toF32 (numNeg (f32 a))

/-! ### Philox4x32-10 (R167) -/

/-- One round of Philox4x32. -/
def philoxRound (k : Nat × Nat) (c : Nat × Nat × Nat × Nat) : Nat × Nat × Nat × Nat :=
  let p0 := 0xD2511F53 * c.1
  let p1 := 0xCD9E8D57 * c.2.2.1
  (((p1 / 2 ^ 32) ^^^ c.2.1) ^^^ k.1, p1 % 2 ^ 32, ((p0 / 2 ^ 32) ^^^ c.2.2.2) ^^^ k.2, p0 % 2 ^ 32)

/-- The rounds of Philox4x32, the key advancing after each. -/
def philoxRounds : Nat → Nat × Nat → Nat × Nat × Nat × Nat → Nat × Nat × Nat × Nat
  | 0, _, c => c
  | n + 1, k, c =>
    philoxRounds n ((k.1 + 0x9E3779B9) % 2 ^ 32, (k.2 + 0xBB67AE85) % 2 ^ 32) (philoxRound k c)

/-- Word 0 of Philox4x32-10 with the inputs of Table 2.8: the random word `U` of an element. -/
def philoxU (seed idx tid step : Nat) : Nat :=
  (philoxRounds 10 (seed % 2 ^ 32, seed / 2 ^ 32 % 2 ^ 32)
    (idx % 2 ^ 32, idx / 2 ^ 32 % 2 ^ 32, tid % 2 ^ 32, step % 2 ^ 32)).1

end Sys2Proof.Machine
end

