-- ==== Sys2Proof/Machine/Operands.lean ====
section
/-! DEFINITION. Operand forms of the core's instructions: tensor descriptors (R181 to R183), elements of a view and
their poison marks, masks (R150), accumulator range words (R216), the writes of an instruction, and the scoreboard
(R189 to R192). -/

namespace Sys2Proof.Machine

/-! ### Views (R184, R185) -/

/-- Bytes of a frame's view. -/
def viewLen (fr : Frame) : Nat := fr.gran.length * 32768

/-- The scratchpad byte behind a view address: the granule map gives the physical granule. -/
def vphys (fr : Frame) (a : Nat) : Nat := fr.gran.getD (a / 32768) 0 * 32768 + a % 32768

/-- Bytes of a view. -/
def vread (c : Core) (fr : Frame) (a n : Nat) : Bytes := (List.range n).map fun i => mget c.scratch (vphys fr (a + i))

/-- A view with bytes written. -/
def vwrite (c : Core) (fr : Frame) (a : Nat) : Bytes → Core
  | [] => c
  | b :: bs => vwrite { c with scratch := mset c.scratch (vphys fr a) b } fr (a + 1) bs

/-- Whether the 32-byte word of a view address is marked poisoned (R322). -/
def vpoison (c : Core) (fr : Frame) (a : Nat) : Bool := tget c.poison (vphys fr a / 32) false

/-- Whether any word of a byte range is marked poisoned. -/
def vpoisonRange (c : Core) (fr : Frame) (a n : Nat) : Bool :=
  (List.range (n / 32 + 2)).any fun i => decide (i * 32 ≤ (a % 32 + n - 1)) && n != 0 && vpoison c fr (a / 32 * 32 + i * 32)

/-- The mark of a view word set or cleared. -/
def setPoison (c : Core) (fr : Frame) (a : Nat) (p : Bool) : Core :=
  let w := vphys fr a / 32
  if p then { c with poison := tset c.poison w true } else { c with poison := tdel c.poison w }

/-! ### Descriptors -/

/-- The fields of a tensor descriptor (Table 6.2); `resv` tells that every reserved bit is 0. -/
structure Desc where
  base : Nat
  fmt : Nat
  trans : Bool
  masken : Bool
  rows : Nat
  cols : Nat
  stride : Nat
  maskptr : Nat
  korg : Nat
  resv : Bool
  deriving DecidableEq, Repr

/-- The fields of a descriptor register. -/
def descOf (x : BitVec 256) : Desc :=
  let d := x.toNat
  { base := bitsOf d 0 20, fmt := bitsOf d 20 4, trans := bitsOf d 24 1 == 1, masken := bitsOf d 25 1 == 1,
    rows := bitsOf d 32 16, cols := bitsOf d 48 16 + 1, stride := bitsOf d 64 20, maskptr := bitsOf d 96 20,
    korg := bitsOf d 128 32,
    resv := bitsOf d 26 6 == 0 && bitsOf d 84 12 == 0 && bitsOf d 116 12 == 0 && bitsOf d 160 96 == 0 }

/-- The descriptor in `tn`. -/
def tdesc (fr : Frame) (n : Nat) : Desc := descOf (tget fr.t n 0)

/-- A scalar register. -/
def sreg (fr : Frame) (n : Nat) : BitVec 32 := tget fr.s n 0

/-- The format of a descriptor; a reserved code reads as FP32 and is illegal wherever it is used. -/
def Desc.f (d : Desc) : Fmt := (fmtOf d.fmt).getD .fp32

/-- Elements of one stored row (R182). -/
def Desc.per (d : Desc) : Nat := if d.trans then d.rows else d.cols

/-- Stored rows. -/
def Desc.srows (d : Desc) : Nat := if d.trans then d.cols else d.rows

/-- Bytes of a stored row of `n` elements (R51, R54, R182). -/
def rowBytes (f : Fmt) (n : Nat) : Nat :=
  if f = .mxfp4 then (n + 31) / 32 * 17 else (n * fmtBits f + 7) / 8

/-- The byte ranges of a descriptor's tile. -/
def Desc.region (d : Desc) : List (Nat × Nat) :=
  (List.range d.srows).map fun i => (d.base + i * d.stride, rowBytes d.f d.per)

/-- Bytes between mask rows (R150). -/
def Desc.maskPitch (d : Desc) : Nat := 32 * ((d.cols + 255) / 256)

/-- The byte ranges of a descriptor's mask, for `n` columns. -/
def Desc.maskRegion (d : Desc) (rows n : Nat) : List (Nat × Nat) :=
  (List.range rows).map fun r => (d.maskptr + r * d.maskPitch, (n + 7) / 8)

/-- Whether byte ranges lie within a view. -/
def inView (fr : Frame) (rs : List (Nat × Nat)) : Bool := rs.all fun r => decide (r.1 + r.2 ≤ viewLen fr)

/-- The causes for which a descriptor is illegal as an operand whose formats are `ok` (R183, Table 7.3). -/
def descCauses (fr : Frame) (ok : Fmt → Bool) (d : Desc) : List Nat :=
  (if d.resv && d.rows != 0 then [] else [3]) ++
  (match fmtOf d.fmt with
   | none => [3]
   | some f =>
     (if ok f then [] else [5]) ++
     (if rowBytes f d.per ≤ d.stride then [] else [3]) ++
     (if inView fr d.region && (!d.masken || inView fr (d.maskRegion d.rows d.cols)) then [] else [3]))

/-- The place of logical element (i, j): its byte, and its nibble where elements are of 4 bits (R182). -/
def Desc.place (d : Desc) (i j : Nat) : Nat × Nat :=
  let r := if d.trans then j else i
  let x := if d.trans then i else j
  (d.base + r * d.stride + x * fmtBits d.f / 8, x % 2)

/-- The byte of the scale of an MXFP4 element (R51). -/
def Desc.scaleAt (d : Desc) (i j : Nat) : Nat :=
  let r := if d.trans then j else i
  let x := if d.trans then i else j
  d.base + r * d.stride + (d.per + 31) / 32 * 16 + x / 32

/-- An element read: its code, the scale code of its block, and whether a word it lies in is poisoned. -/
structure Elem where
  code : Nat
  scale : Nat
  poison : Bool
  deriving DecidableEq, Repr

/-- The element (i, j) of a descriptor's tile. -/
def readElem (c : Core) (fr : Frame) (d : Desc) (i j : Nat) : Elem :=
  let p := d.place i j
  let bits := fmtBits d.f
  if bits = 4 then
    let b := (mget c.scratch (vphys fr p.1)).toNat
    let mx := d.f = .mxfp4
    { code := if p.2 = 0 then b % 16 else b / 16,
      scale := if mx then (mget c.scratch (vphys fr (d.scaleAt i j))).toNat else 0,
      poison := vpoison c fr p.1 || (mx && vpoison c fr (d.scaleAt i j)) }
  else
    { code := leNat (vread c fr p.1 (bits / 8)), scale := 0,
      poison := vpoison c fr p.1 || vpoison c fr (p.1 + bits / 8 - 1) }

/-- The value of an element. -/
def elemNum (f : Fmt) (e : Elem) : Num := decodeElem f e.code e.scale

/-- Mask bit j of row r at a mask pointer with a pitch (R150). -/
def maskBit (c : Core) (fr : Frame) (ptr pitch r j : Nat) : Bool :=
  (mget c.scratch (vphys fr (ptr + r * pitch + j / 8))).getLsbD (j % 8)

/-- Whether element (r, j) is active under the mask a descriptor names (R151). -/
def Desc.active (c : Core) (fr : Frame) (d : Desc) (r j : Nat) : Bool :=
  !d.masken || maskBit c fr d.maskptr d.maskPitch r j

/-! ### Writes -/

/-- Bits written at a view address: `v` within `mask`, over `n` bytes, and whether they carry poison. -/
structure EW where
  a : Nat
  n : Nat
  v : Nat
  mask : Nat
  poison : Bool
  deriving DecidableEq, Repr

/-- The write of a code to element (i, j). -/
def elemWrite (d : Desc) (i j code : Nat) (poison : Bool) : EW :=
  let p := d.place i j
  let bits := fmtBits d.f
  if bits = 4 then
    (if p.2 = 0 then ⟨p.1, 1, code % 16, 0x0F, poison⟩ else ⟨p.1, 1, code % 16 * 16, 0xF0, poison⟩)
  else ⟨p.1, bits / 8, code % 2 ^ bits, 2 ^ bits - 1, poison⟩

/-- Plain bytes as one write. -/
def bytesWrite (a : Nat) (bs : Bytes) (poison : Bool) : EW :=
  ⟨a, bs.length, leNat bs, 2 ^ (8 * bs.length) - 1, poison⟩

/-- One write applied to the bytes of a view. -/
def applyEw (c : Core) (fr : Frame) (w : EW) : Core :=
  let old := leNat (vread c fr w.a w.n)
  vwrite c fr w.a (leBytes w.n (old - (old &&& w.mask) + w.v))

/-- The bits of a word that a write covers, byte by byte: (word, bits, poison). -/
def ewWords (w : EW) : List (Nat × Nat × Bool) :=
  (List.range w.n).map fun i =>
    ((w.a + i) / 32, if bitsOf w.mask (8 * i) 8 = 255 then 8 else 4, w.poison)

/-- The words a list of writes touches, with the bits covered and whether any write carries poison. -/
def touched (ws : List EW) : Tbl (Nat × Bool) :=
  (ws.map ewWords).flatten.foldl
    (fun t x => let o := tget t x.1 (0, false); tset t x.1 (o.1 + x.2.1, o.2 || x.2.2)) []

/-- Writes applied to a view: a word takes the mark where a poisoned element contributes to it, and loses it where it
is written whole without poison (R157, R323). -/
def applyEws (c : Core) (fr : Frame) (ws : List EW) : Core :=
  let c := ws.foldl (fun c w => applyEw c fr w) c
  (touched ws).foldl
    (fun c x => if x.2.2 then setPoison c fr (x.1 * 32) true
                else if x.2.1 ≥ 256 then setPoison c fr (x.1 * 32) false else c) c

/-- The number of 64-byte lines that a list of writes marks poisoned. -/
def poisonLines (ws : List EW) : Nat :=
  (((touched ws).filter (fun x => x.2.2)).map (fun x => x.1 / 2)).dedup.length

/-! ### Accumulator range words (Table 7.2) -/

/-- An accumulator range. -/
structure Ars where
  first : Nat
  count : Nat
  tag : BitVec 8
  deriving DecidableEq, Repr

/-- The range a scalar names. -/
def arsOf (x : BitVec 32) : Ars := ⟨bitsOf x.toNat 0 10, bitsOf x.toNat 10 11, x.extractLsb' 21 8⟩

/-- The causes for which a range word is illegal (R216, Table 7.3). -/
def arsCauses (x : BitVec 32) : List Nat :=
  let a := arsOf x
  if bitsOf x.toNat 29 3 = 0 ∧ a.count ≤ 1024 ∧ a.first + a.count ≤ 1024 then [] else [7]

/-- The accumulators of a range. -/
def Ars.accs (a : Ars) : List Nat := (List.range a.count).map (a.first + ·)

/-! ### Overlap (R149, R218) -/

/-- Whether two byte ranges share a byte. -/
def rangesMeet (x y : Nat × Nat) : Bool :=
  decide (x.1 < y.1 + y.2) && decide (y.1 < x.1 + x.2) && x.2 != 0 && y.2 != 0

/-- Whether two lists of byte ranges share a byte. -/
def regionsMeet (xs ys : List (Nat × Nat)) : Bool := xs.any fun x => ys.any fun y => rangesMeet x y

/-- Whether two byte ranges share a 256-byte line (R189, R190). -/
def linesMeet (x y : Nat × Nat) : Bool :=
  x.2 != 0 && y.2 != 0 && decide (x.1 / 256 ≤ (y.1 + y.2 - 1) / 256) && decide (y.1 / 256 ≤ (x.1 + x.2 - 1) / 256)

/-- Whether two lists of byte ranges share a line. -/
def regionLines (xs ys : List (Nat × Nat)) : Bool := xs.any fun x => ys.any fun y => linesMeet x y

/-- Whether a destination breaks R149 against a source: it overlaps it without coinciding with it. -/
def overlapBad (d s : Desc) : Bool :=
  regionsMeet d.region s.region &&
    !(d.base == s.base && d.stride == s.stride && fmtBits d.f == fmtBits s.f)

/-! ### The scoreboard (R189 to R192) -/

/-- Why a bundle does not issue (R192): an issue wait, or a hold with its cause (Table 6.3). -/
inductive Wait where
  | ok
  | issue
  | hold (cause : Nat)
  deriving DecidableEq, Repr

/-- Two reasons together: the lowest hold cause, else an issue wait (R195). -/
def Wait.and : Wait → Wait → Wait
  | .hold a, .hold b => .hold (min a b)
  | .hold a, _ => .hold a
  | _, .hold b => .hold b
  | .issue, _ => .issue
  | _, .issue => .issue
  | .ok, .ok => .ok

/-- A condition that depends on the core's own instructions only. -/
def waitUnless (b : Bool) : Wait := if b then .ok else .issue

/-- A condition that depends on something outside the core. -/
def holdUnless (b : Bool) (cause : Nat) : Wait := if b then .ok else .hold cause

/-- Fields of a mover descriptor (Table 8.3). -/
def xf (d : Bytes) (a n : Nat) : Nat := leNat ((d.drop a).take n)

/-- Burst size of a descriptor in bytes (R265). -/
def xfBurst (d : Bytes) : Nat := 64 * 2 ^ (xf d 3 1 % 8)

/-- Number of bursts of a descriptor (R265). -/
def xfBursts (d : Bytes) : Nat := (xf d 4 4 + xfBurst d - 1) / xfBurst d

/-- The byte range of burst `k` of a region that starts at `a`. -/
def burstRange (d : Bytes) (a k : Nat) : Nat × Nat :=
  (a + k * xfBurst d, min (xfBurst d) (xf d 4 4 - k * xfBurst d))

/-- Where a transfer writes in its core's own view (R255): bursts not landed, a digest, or a compare record. -/
def xferWrites (x : Xfer) : List (Nat × Nat) :=
  let d := x.desc
  let kind := xf d 0 1
  if xf d 1 1 / 8 % 8 ≠ 0 then []
  else if kind = 3 then
    [(xf d 16 8, if xf d 3 1 / 8 % 4 = 1 then 32 * ((xf d 4 4 + 65535) / 65536) else 32)]
  else if kind = 5 then [(xf d 48 8, 32)]
  else ((List.range (xfBursts d)).filter (fun k => !x.landed.contains k)).map (burstRange d (xf d 16 8))

/-- Where a transfer has still to read in its core's own view (R269). -/
def xferReads (x : Xfer) : List (Nat × Nat) :=
  let d := x.desc
  let ks := (List.range (xfBursts d)).filter (fun k => decide (x.issued ≤ k))
  if xf d 1 1 % 8 ≠ 0 ∨ xf d 0 1 = 4 then []
  else ks.map (burstRange d (xf d 8 8)) ++ (if xf d 0 1 = 5 then ks.map (burstRange d (xf d 24 8)) else [])

/-- The hold cause of an operand awaited from a transfer: 0x3 from a weight stream or a chunk of a streaming reel
(R487), else 0x2 (Table 6.3). -/
def xferCause (x : Xfer) : Nat :=
  if x.starved || decide (0x3C ≤ xf x.desc 2 1 % 64) && (xf x.desc 2 1 / 64 % 2 == 1) then 3 else 2

/-- The transfers under way on a core for a take's key. -/
def xfersOf (c : Core) (k : Nat) : List Xfer :=
  (c.chans.filterMap (fun e => e.2.xfer)).filter (fun x => x.key == k)

/-- Where finish jobs on their way write (R131, R160). -/
def flightWrites (c : Core) : List (Nat × Nat) :=
  (c.flight.map fun x =>
    match x with
    | .part _ _ _ => []
    | .mjob _ => []
    | .mfin f => (descOf f.desc).region ++ [(f.status, 16)]
    | .vfin f => (descOf f.desc).region ++ [(f.status, 16)]).flatten

/-- K-blocks of a K extent (R77). -/
def kblocks (kext : Nat) : Nat := (kext + 127) / 128

/-- Where the staging path has still to read for a staged tile: the blocks that no image has taken (R121, R189); `b` for
B, whose K indices run along the stored rows where the descriptor is transposed (R124). -/
def Staged.reads (b : Bool) (t : Staged) : List (Nat × Nat) :=
  let d := descOf t.desc
  if kblocks t.kext ≤ t.next then []
  else if b == d.trans then
    let o := 128 * t.next * fmtBits d.f / 8
    d.region.map fun r => (r.1 + o, r.2 - o)
  else d.region.drop (128 * t.next)

/-- The lines that staging still makes read-pending (R189). -/
def stagedReads (c : Core) : List (Nat × Nat) :=
  (c.qa.map (Staged.reads false)).flatten ++ (c.qb.map (Staged.reads true)).flatten

/-- Accumulators with an addition on its way (R189), and those a finish job is still to read. -/
def addPending (c : Core) (a : Nat) : Bool :=
  c.flight.any fun x =>
    match x with
    | .part _ fast p => !fast && p.acc == a
    | .mjob j => !j.fast
    | .mfin f => !f.fast
    | .vfin f => decide (f.first ≤ a ∧ a < f.first + f.rows)

/-- Sources present (R190). -/
def srcWait (c : Core) (k : Nat) (rs : List (Nat × Nat)) : Wait :=
  (xfersOf c k).foldl (fun w x => w.and (holdUnless (!regionLines rs (xferWrites x)) (xferCause x)))
    (waitUnless (!regionLines rs (flightWrites c)))

/-- Whether a line of a region is print-shadowed (R465): `shadow` lists physical lines by number. -/
def shadowed (c : Core) (fr : Frame) (rs : List (Nat × Nat)) : Bool :=
  c.shadow.any fun e => rs.any fun r =>
    (List.range (r.2 / 256 + 2)).any fun i =>
      decide (r.1 / 256 * 256 + 256 * i < r.1 + r.2) && vphys fr (r.1 / 256 * 256 + 256 * i) / 256 == e.1

/-- Destinations free (R190), and no line of them print-shadowed (R465). -/
def dstWait (c : Core) (fr : Frame) (k : Nat) (rs : List (Nat × Nat)) : Wait :=
  ((xfersOf c k).foldl
    (fun w x => w.and (holdUnless (!regionLines rs (xferWrites x) && !regionLines rs (xferReads x)) (xferCause x)))
    (waitUnless (!regionLines rs (flightWrites c ++ stagedReads c)))).and
  (holdUnless (!shadowed c fr rs) 0xC)

/-- Accumulators an instruction reads have no addition on its way (R98, R190). -/
def accWait (c : Core) (as : List Nat) : Wait := waitUnless (!as.any (addPending c))

end Sys2Proof.Machine
end

