-- ==== Sys2Proof/Machine/Flags.lean ====
section
/-! DEFINITION. What an instruction that writes elements records beside them: the status word (R68, R69), the first-NaN
trap (R70, R73), the poison of a step (R324), and the cause for which a core stops (R631, R497). -/

namespace Sys2Proof.Machine

/-! ### Status codes (Table 18.6) and their ranks (Table 15.3) -/

def stOk : Nat := 0
def stRetaken : Nat := 1
def stPoison : Nat := 2
def stCore : Nat := 3
def stLink : Nat := 4
def stTimeout : Nat := 5
def stDigest : Nat := 6
def stNan : Nat := 7
def stCancelled : Nat := 8

/-- The rank of a status, 1 highest (Table 15.3). -/
def stRank (c : Nat) : Nat :=
  match c with
  | 8 => 1 | 6 => 2 | 3 => 3 | 4 => 4 | 5 => 5 | 2 => 6 | 7 => 7 | 1 => 8 | _ => 9

/-- The status of a step that met some outcomes: the highest ranked, `OK` for none (R497). -/
def stepStatus (os : List Nat) : Nat := os.foldl (fun b o => if stRank o < stRank b then o else b) stOk

/-- An outcome noted in a step. -/
def noteOutcome (o : Nat) (st : Step) : Step :=
  if st.outcomes.contains o then st else { st with outcomes := st.outcomes ++ [o] }

/-- A step whose inputs differ from those of the log it replays (R398). -/
def noteDiverged (st : Step) : Step := { noteOutcome stDigest st with diverged := true }

/-! ### Status words -/

/-- An element written: its place in the output tile, the class of its exact value, whether a limit replaced it. -/
structure ElemOut where
  row : Nat
  col : Nat
  cls : BitVec 2
  sat : Bool
  deriving DecidableEq, Repr

/-- The status word of the elements an instruction wrote, in row-major order (Table 2.9). -/
def statusWord (os : List ElemOut) (poison : Bool) : Bytes :=
  let bad := os.filter (fun o => o.cls != 0)
  let sats := (os.filter (fun o => o.sat)).length
  let first := bad.head?
  let flag (b : Bool) (v : Nat) : Nat := if b then v else 0
  let flags := flag (os.any (fun o => o.cls == 1 || o.cls == 2)) 1 + flag (os.any (fun o => o.cls == 3)) 2 +
    flag (sats != 0) 4 + flag poison 8
  leBytes 2 ((first.map (·.row)).getD 0xFFFF) ++ leBytes 2 ((first.map (·.col)).getD 0xFFFF) ++
    leBytes 4 (min bad.length 0xFFFFFFFF) ++ leBytes 4 (min sats 0xFFFFFFFF) ++
    leBytes 1 flags ++ leBytes 1 ((first.map (fun o => o.cls.toNat)).getD 0) ++ leBytes 2 0

/-! ### Stopping (R631) -/

/-- The order of stop causes: the record written is that of the cause R497 ranks highest, a mover fault before an
illegal bundle. -/
def stopScore (r : StopRec) : Nat :=
  match r.type with
  | 3 => if r.b3 = 0x1B then 40 else 30
  | 2 => 31
  | 4 => 50
  | _ => 70

/-- Two stop causes of one core: the higher ranked, and of two NaN traps the first in program order (R70, R631). -/
def mergeStop (old : Option StopRec) (r : StopRec) : Option StopRec :=
  match old with
  | none => some r
  | some o =>
    if stopScore r < stopScore o then some r
    else if stopScore r = stopScore o ∧ r.type = 1 ∧ r.seq < o.seq then some r
    else some o

/-- A stop cause met by a core. -/
def stopCore (s : State) (n : Nat) (r : StopRec) : State := modCore s n fun c => { c with stop := mergeStop c.stop r }

/-! ### The issue of an instruction -/

/-- Where an instruction issues: the core, the take's key, the slot (0 C, 1 M, 2 V, 3 D), the frame as it stood before
the bundle (R217), and the core whose scratchpad its sources are read from: the one before the bundle too, since every
slot of a bundle issues in the same cycle (R191). -/
structure Cx where
  n : Nat
  k : Nat
  slot : Nat
  fr : Frame
  seq : Nat
  mem : Core
  deriving DecidableEq, Repr

/-- A NaN among the elements written while the trap is enabled (R70): the core begins to stop. -/
def nanTrap (s : State) (x : Cx) (fmt kblock : Nat) (os : List ElemOut) : State :=
  match x.fr.trapNan, os.find? (fun o => o.cls == 3) with
  | true, some o => stopCore s x.n ⟨1, 0, 0, x.fr.pc, kblock, o.row, o.col, fmt, x.seq⟩
  | _, _ => s

/-- Poison written by a step (R324). -/
def notePoison (s : State) (n k : Nat) (lines : Nat) : State :=
  modKeyStep s n k fun st => noteOutcome stPoison { st with poisoned := st.poisoned + lines }

/-- The outputs of an instruction: the writes and the status word, the poison of the step, the trap. -/
def writeOut (s : State) (x : Cx) (ws : List EW) (status : Option Nat) (os : List ElemOut) (poison : Bool)
    (fmt kblock : Nat) : State :=
  let sw := match status with
    | some a => [bytesWrite a (statusWord os poison) false]
    | none => []
  let s := modCore s x.n fun c => applyEws c x.fr (ws ++ sw)
  let lines := poisonLines ws
  let s := if lines != 0 || (poison && status.isSome) then notePoison s x.n x.k lines else s
  nanTrap s x fmt kblock os

/-- The inputs of stochastic rounding from a scalar block W0 to W3 that starts at scalar `b` (R219). -/
def srFrom (s : State) (x : Cx) (b : Nat) : SrIn :=
  let w (i : Nat) : Nat := (sreg x.fr (b + i)).toNat
  let st := keyStep s x.n x.k
  ⟨(st.map (·.seed.toNat)).getD 0, (st.map (·.num.toNat)).getD 0, w 0, w 1 + 2 ^ 32 * w 2, w 3⟩

/-- The random word of element (r, c) (R62, R63, R219). -/
def srU (i : SrIn) (r c : Nat) : Nat := philoxU i.seed (i.origin + r * i.len + c) i.tid i.step

/-- The random word where the mode is SR; other modes take none. -/
def modeU (m : RMode) (i : SrIn) (r c : Nat) : Nat := if m = .sr then srU i r c else 0

end Sys2Proof.Machine
end

