-- ==== Sys2Proof/Machine/Packets.lean ====
section
/-! DEFINITION. Packets and the requests a device has outstanding (R347 to R353): routing, sending, resending, answers;
the entries of the rushes log and their binding (R391); and the element operations of R264. -/

namespace Sys2Proof.Machine

/-- The own device number. -/
def ownDev (s : State) : Nat := fget s F.fabCfgDevnum 0 0

/-- Whether a context is registered. -/
def registered (c : Ctx) : Bool := c.st != .unreg

/-! ### Routing (R348) -/

/-- Whether a port is UP with role FABRIC. -/
def fabricUp (s : State) (p : Nat) : Bool := fget s F.lnkStatState p 0 == 6 && fget s F.lnkCtlRole p 0 == 0

/-- Whether a port is UP with role PAIR. -/
def pairUp (s : State) (p : Nat) : Bool := fget s F.lnkStatState p 0 == 6 && fget s F.lnkCtlRole p 0 == 1

/-- The device that a device number stands for: the active twin of a valid alias, or itself (R513). -/
def aliasOf (s : State) (dst : Nat) : Nat :=
  match (List.range 16).find? (fun k => fbit s F.pairAliasValid 0 k && fget s F.pairAliasAlias 0 k == dst) with
  | some k => if fbit s F.pairAliasActb 0 k then fget s F.pairAliasDevb 0 k else fget s F.pairAliasDeva 0 k
  | none => dst

/-- The usable ports of the route to a device: of its entry, where that is valid (bit 63), those UP with role FABRIC. -/
def routePorts (s : State) (dst : Nat) : List Nat :=
  let e := (tget s.fab.routes (aliasOf s dst) 0).toNat
  (List.range 48).filter (fun p => e.testBit 63 && e.testBit p && fabricUp s p)

/-- The port a packet goes out on, picked by the hash of R348. -/
def routePort (s : State) (pk : Packet) : Option Nat :=
  let ps := routePorts s pk.dst
  ps[Config.portHash pk.src pk.dst pk.reqid % ps.length]?

/-! ### Packets as bytes (R347) -/

/-- The header of a packet (Table 10.5). Of a READ_REQ, `LEN` is the number of bytes asked for, and no data follow. -/
def pktHeader (pk : Packet) : Bytes :=
  let asks := decide (pk.type = 2)
  leBytes 1 pk.type ++ [pk.pool] ++ leBytes 1 pk.hops ++ leBytes 1 pk.status ++ leBytes 2 pk.src ++ leBytes 2 pk.dst ++
    leBytes 8 pk.addr ++ leBytes 2 (if asks then pk.ext else pk.data.length) ++ leBytes 1 pk.atom ++ [0] ++
    leBytes 4 pk.reqid ++ leBytes 4 pk.birth ++ leBytes 4 (if asks then 0 else pk.ext) ++ leBytes 8 pk.poison.toNat

/-- The bytes that a packet with `n` data bytes takes of the stream: header, data, tag, padding. -/
def streamBytes (n : Nat) : Nat := (40 + n + 16 + 7) / 8 * 8

/-- The bytes a packet takes of a flit stream (R347). -/
def pktBytes (pk : Packet) : Nat := streamBytes pk.data.length

/-- The flits a packet takes, the first of which it begins. -/
def pktFlits (pk : Packet) : Nat := (pktBytes pk + 223) / 224

/-- The IV of packet `n` of a direction (R342). -/
def linkIv (fromFirst : Bool) (n : Nat) : Bytes := leBytes 8 n ++ leBytes 4 (if fromFirst then 0 else 1)

/-- The key of a direction, as 32 bytes. -/
def linkKey (k : LinkKeys) (fromFirst : Bool) : Bytes := leBytes 32 (if fromFirst then k.ir else k.ri).toNat

/-- A packet as it goes out, the n-th under the keys: sealed with its header as additional data, and padded. -/
def pktSealed (k : LinkKeys) (n : Nat) (pk : Packet) : Bytes :=
  let h := pktHeader pk
  let bs := h ++ gcmSeal (linkKey k k.first) (linkIv k.first n) h pk.data
  bs ++ List.replicate (pktBytes pk - bs.length) 0

/-! ### Ports (R335 to R338, R353) -/

/-- A port before it has carried anything. -/
def portInit : Port where
  seq := 0
  ackseq := 4095
  expect := 0
  replays := 0
  nakOwed := false
  ackOwed := false
  fails := 0
  txCount := 0
  rxCount := 0
  credits := []
  owed := []
  bad := 0
  testing := false
  holdDetect := false
  buf := []
  queue := []
  msgs := []
  out := []
  stream := []
  keys := none
  rxKeys := none
  agreed := none
  nonce := []
  made := 0
  script := []
  marks := []
  again := 0

/-- A port beside its registers. -/
def port (s : State) (p : Nat) : Port := tget s.fab.ports p portInit

/-- A port updated. -/
def modPort (s : State) (p : Nat) (f : Port → Port) : State :=
  { s with fab := { s.fab with ports := tset s.fab.ports p (f (port s p)) } }

/-- Flits sent and not acknowledged. -/
def flitsOut (q : Port) : Nat := (q.seq - q.ackseq - 1).toNat

/-- The pool of a packet by its header (R335): a class, the firmware, responses, the pair. -/
def poolOf (pk : Packet) : Nat :=
  let b := pk.pool.toNat
  if b.testBit 5 then 10 else if b.testBit 4 then 9 else if b.testBit 3 then 8 else b % 8

/-- The pool a packet takes its credits from at a port: on a PAIR port, all of them are the pair's (R353). -/
def portPool (s : State) (p : Nat) (pk : Packet) : Nat := if fget s F.lnkCtlRole p 0 = 1 then 10 else poolOf pk

/-- Whether a pool gives `n` more credits at a port (R353): a class from its floor, and beyond it from the shared credits
while it holds fewer than its floor and half of them. -/
def creditsFor (s : State) (p pool n : Nat) : Bool :=
  let taken (k : Nat) : Nat := tget (port s p).credits k 0
  let floor (k : Nat) : Nat := fget s F.fabCrfloorFloor 0 k
  if pool = 10 then decide (taken 10 + n ≤ 2048)
  else if pool = 9 then decide (taken 9 + n ≤ 128)
  else if pool = 8 then decide (taken 8 + n ≤ 64)
  else
    let shared := 1856 - ((List.range 8).map floor).sum
    let used := ((List.range 8).map fun k => (if k = pool then taken k + n else taken k) - floor k).sum
    decide (taken pool + n ≤ floor pool) || (decide (taken pool < floor pool + shared / 2) && decide (used ≤ shared))

/-- Whether the keys of a port let another packet out: a new KEYX is due before packet 2^40, and after 24 hours (R342). -/
def keysGood (s : State) (q : Port) : Bool :=
  decide (q.txCount < 2 ^ 40) && q.keys.all fun k => decide (s.tcount < k.at_ + 86400 * 10 ^ 9)

/-- Whether a port can take a packet at once: it is UP, the replay buffer has room (R337), the pool has credits and the keys
are good. -/
def portTakes (s : State) (p : Nat) (pk : Packet) : Bool :=
  let q := port s p
  fget s F.lnkStatState p 0 == 6 && decide (flitsOut q + (q.out.length + pktBytes pk + 223) / 224 ≤ 2048) && creditsFor s p (portPool s p pk) (pktFlits pk) &&
    keysGood s q

/-- The lanes of a port in use, in ascending order. -/
def activeLanes (s : State) (p : Nat) : List Nat := (List.range 8).filter fun l => (fget s F.lnkStatLanes p 0).testBit l

/-- The bytes of a flit as the lanes in use carry them, in turn from byte 0 on (R335). -/
def laneBytes (ls : List Nat) (raw : Bytes) : List (Nat × Bytes) :=
  ls.zipIdx.map fun l => (l.1, ((List.range raw.length).filter (fun i => i % ls.length == l.2)).map fun i => raw.getD i 0)

/-- A flit of the replay buffer out on a port as it goes now, with the acknowledgement and the `NAK` it carries; the `NAK` is
owed no more (R337). -/
def putFlit (s : State) (p : Nat) (f : SentFlit) : State :=
  let q := port s p
  let raw := flitEncode (flitHeader f.seq (q.expect - 1) q.nakOwed f.ctrl f.pool f.count) f.payload
  emit (modPort s p fun q => { q with nakOwed := false, ackOwed := false }) (.flit (Fin.ofNat 48 p) (laneBytes (activeLanes s p) raw))

/-- A new flit out on a port: it returns credits of one pool, and stands in the replay buffer. -/
def sendFlit (s : State) (p : Nat) (ctrl : Bool) (payload : Bytes) : State :=
  let q := port s p
  let c := (q.owed.find? (fun e => e.2 != 0)).getD (0, 0)
  let f : SentFlit := ⟨q.seq, ctrl, c.1, min 2047 c.2, payload⟩
  let s := modPort s p fun q =>
    { q with seq := q.seq + 1, buf := q.buf ++ [f]
             owed := (tset q.owed c.1 (c.2 - min 2047 c.2)).filter (fun e => e.2 != 0) }
  putFlit s p f

/-- The replay buffer sent again from the first flit not acknowledged; a `NAK` that is owed goes with the first (R337). -/
def replayFlits (s : State) (p : Nat) : State :=
  (port s p).buf.foldl (fun s f => putFlit s p f) (fcount s F.lnkRetryReplays p 0 (flitsOut (port s p)))

/-- Credits owed to the partner of a port for what has left its receive buffer (R353). -/
def owe (s : State) (p pool n : Nat) : State := modPort s p fun q => { q with owed := tset q.owed pool (tget q.owed pool 0 + n) }

/-- The credits of a packet that has left the receive buffer of a port. -/
def freed (s : State) (p : Nat) (pk : Packet) : State := owe s p (portPool s p pk) (pktFlits pk)

/-- The whole flits that the bytes of a port's stream fill sent (R347). -/
def sendStream (s : State) (p : Nat) : State :=
  let bs := (port s p).out
  let n := bs.length / 224
  (List.range n).foldl (fun s i => sendFlit s p false ((bs.drop (224 * i)).take 224))
    (modPort s p fun q => { q with out := bs.drop (224 * n) })

/-- The rest of the stream sent in a flit filled up with zeros, where there is room. -/
def flushPort (s : State) (p : Nat) : State :=
  let bs := (port s p).out
  if bs.isEmpty ∨ 2048 ≤ flitsOut (port s p) then s else sendFlit (modPort s p fun q => { q with out := [] }) p false bs

/-- A packet out on a port: its credits taken, its bytes counted, and put behind those of the packets before it. -/
def transmit (s : State) (p : Nat) (pk : Packet) : State :=
  let q := port s p
  let pool := portPool s p pk
  let bs := pktSealed (q.keys.getD ⟨true, 0, 0, 0⟩) q.txCount pk
  let s := emit (fcount s F.lnkTxbytesCount p 0 (pktBytes pk)) (.packet pk)
  let s := modPort s p fun q =>
    { q with txCount := q.txCount + 1, credits := tset q.credits pool (tget q.credits pool 0 + pktFlits pk), out := q.out ++ bs }
  sendStream s p

/-- A packet for a port: out at once where the port takes it and none of its pool waits, or behind those that wait. `came` is
the port whose receive buffer a packet in transit leaves as it goes out (R353). -/
def outPort (s : State) (p : Nat) (came : Option Nat) (pk : Packet) : State :=
  if portTakes s p pk && !(port s p).queue.any (fun w => portPool s p w.1 == portPool s p pk) then
    let s := transmit s p pk
    match came with
    | some i => freed s i pk
    | none => s
  else modPort s p fun q => { q with queue := q.queue ++ [(pk, came)] }

/-! ### Control messages (R335, R353) -/

/-- The control messages of the link, by the codes of this model (the manual gives none): marker, resign, heartbeat,
alias announcement, convoy announcement and release, mirror commit, step slate, resync page, lane mask, test request,
forwarded packet, handover, answered report, IDENT, KEYX, training burst, the acknowledgement of a commit, and the switch
to new session keys. -/
def msgMarker : Nat := 0
def msgResign : Nat := 1
def msgHeartbeat : Nat := 2
def msgAlias : Nat := 3
def msgConvoy : Nat := 4
def msgRelease : Nat := 5
def msgCommit : Nat := 6
def msgSlate : Nat := 7
def msgResync : Nat := 8
def msgLanes : Nat := 9
def msgTest : Nat := 10
def msgForward : Nat := 11
def msgHandover : Nat := 12
def msgAnswered : Nat := 13
def msgIdent : Nat := 14
def msgKeyx : Nat := 15
def msgBurst : Nat := 16
def msgCommitted : Nat := 19
def msgSwitch : Nat := 20

/-- A message as the control flits that carry it hold it: at most 27 numbers in each (log entry 39). -/
def ctrlParts : Nat → List Nat → List (List Nat)
  | 0, ns => [ns]
  | k + 1, ns => if ns.length ≤ 27 then [ns] else ns.take 27 :: ctrlParts k (ns.drop 27)

/-- The payload of a control flit: a byte that tells the message from an empty one, and the message. -/
def ctrlPayload (msg : Nat) (data : List Nat) : Bytes := leBytes 1 (msg + 1) ++ (List.range 223).map (Config.ctrlByte msg data)

/-- The pool of control messages at a port: the firmware's, or the pair's (R353). -/
def ctrlPool (s : State) (p : Nat) : Nat := if fget s F.lnkCtlRole p 0 = 1 then 10 else 8

/-- Whether a control message can leave now: the port is UP, or in RELANE where it is the lane mask (R343); two flits have
room, and a credit is there. -/
def ctrlTakes (s : State) (p msg : Nat) : Bool :=
  (fget s F.lnkStatState p 0 == 6 || (fget s F.lnkStatState p 0 == 7 && msg == msgLanes)) &&
    decide (flitsOut (port s p) + 2 ≤ 2048) && creditsFor s p (ctrlPool s p) 1

/-- A control message out in a flit of its own. The one that announces new keys goes after every byte under the old ones,
and the packets after it use the new ones from counter 0 on (R342). -/
def sendCtrl (s : State) (p : Nat) (m : Nat × List Nat) : State :=
  let pool := ctrlPool s p
  let s := if m.1 = msgSwitch then flushPort s p else s
  let s := modPort s p fun q => { q with credits := tset q.credits pool (tget q.credits pool 0 + 1) }
  let s := sendFlit s p true (ctrlPayload m.1 m.2)
  if m.1 = msgSwitch then modPort s p fun q => { q with keys := q.agreed, txCount := 0 } else s

/-- The control messages that wait at a port sent as far as they can be. -/
def drainCtrl (s : State) (p : Nat) : State :=
  (port s p).msgs.foldl
    (fun s m => if ctrlTakes s p m.1 then sendCtrl s p m else modPort s p fun q => { q with msgs := q.msgs ++ [m] })
    (modPort s p fun q => { q with msgs := [] })

/-- A message on a port: as it is before the port is UP, in control flits from then on. -/
def portMsg (s : State) (p msg : Nat) (data : List Nat) : State :=
  let s := emit s (.onPort (Fin.ofNat 48 p) msg data)
  if fget s F.lnkStatState p 0 = 6 ∨ fget s F.lnkStatState p 0 = 7 then
    drainCtrl (modPort s p fun q => { q with msgs := q.msgs ++ (ctrlParts data.length data).map fun d => (msg, d) }) p
  else s

/-- A message on each port that passes a test. -/
def onPorts (s : State) (ok : State → Nat → Bool) (msg : Nat) (data : List Nat) : State :=
  (List.range 48).foldl (fun s' p => if ok s p then portMsg s' p msg data else s') s

/-! ### What waits at a port -/

/-- Whether a packet has outlived `LIFETIME`; one whose `BIRTH` lies ahead of the own timecode has not (R349). -/
def tooOld (s : State) (pk : Packet) : Bool :=
  let age := (s.tcount % 2 ^ 32 + 2 ^ 32 - pk.birth) % 2 ^ 32
  decide (1000 * fget s F.fabTimersLifetime 0 0 < age ∧ age < 2 ^ 31)

/-- The packets that wait at a port sent as far as they can be, those that have outlived `LIFETIME` dropped (R349). -/
def drainPackets (s : State) (p : Nat) : State :=
  (port s p).queue.foldl
    (fun s w =>
      if tooOld s w.1 then
        let s := fcount s F.fabDropLife 0 0 1
        match w.2 with
        | some i => freed s i w.1
        | none => s
      else outPort s p w.2 w.1)
    (modPort s p fun q => { q with queue := [] })

/-- What waits at a port sent as far as it can be; in RELANE no packet leaves. -/
def drainPort (s : State) (p : Nat) : State :=
  let s := drainCtrl s p
  if fget s F.lnkStatState p 0 = 6 then drainPackets s p else s

/-- The ports with nothing more to send: the rest of the packet stream leaves, and one that owes an acknowledgement, a `NAK`
or credits sends a control flit with an empty message (R337). -/
def idlePorts (s : State) : State :=
  (s.fab.ports.map (·.1)).foldl
    (fun s p =>
      if fget s F.lnkStatState p 0 ≠ 6 then s
      else
        let s := flushPort s p
        let q := port s p
        if (q.nakOwed ∨ q.ackOwed ∨ !q.owed.isEmpty) ∧ flitsOut q < 2048 then sendFlit s p true [] else s) s

/-- A packet sent toward its destination, from a port's receive buffer where it is in transit; none where no port is
usable. -/
def sendFrom (s : State) (came : Option Nat) (pk : Packet) : Option State := (routePort s pk).map fun p => outPort s p came pk

/-- A packet of this device sent toward its destination. -/
def sendPkt (s : State) (pk : Packet) : Option State := sendFrom s none pk

/-! ### Twins (R513, R514, R518) -/

/-- Whether a context is a twin context. -/
def twinCtx (s : State) (r : Nat) : Bool := registered (ctx s r) && cget s r F.ctxRelcfgPair 0 == 3

/-- Whether this device is the passive, or the active, twin of a pairing in effect. -/
def passiveTwin (s : State) : Bool := fget s F.pairStatState 0 0 == 2 && !fbit s F.pairStatActive 0 0
def activeTwin (s : State) : Bool := fget s F.pairStatState 0 0 == 2 && fbit s F.pairStatActive 0 0

/-- Whether a context is through with the resync of a renewal (Table 15.8, step 5). -/
def resynced (s : State) (r : Nat) : Bool := s.pair.synced.any (fun d => d.val == r)

/-- Whether a twin context runs here on the passive, or on the active, twin: of a pairing in effect, or of a resync that the
context has behind it (R514, R518). -/
def passiveFor (s : State) (r : Nat) : Bool :=
  twinCtx s r && (passiveTwin s || (fget s F.pairStatState 0 0 == 5 && resynced s r))
def activeFor (s : State) (r : Nat) : Bool :=
  twinCtx s r && (activeTwin s || (fget s F.pairStatState 0 0 == 3 && s.pair.solo && resynced s r))

/-- The twin context of a packet: named by the token or the on-chip address, known by its class otherwise. -/
def twinOf (s : State) (pk : Packet) : Option Nat :=
  let byClass := (s.ctxs.map (·.1)).find? fun r => twinCtx s r && cget s r F.ctxLnkcrClass 0 == pk.pool.toNat % 8
  let named (r : Nat) : Option Nat := if twinCtx s r then some r else none
  match pk.type with
  | 5 => named (bitsOf pk.addr 14 6)
  | 1 | 2 | 6 => if bitsOf pk.addr 44 1 = 1 then named (bitsOf pk.addr 32 6) else byClass
  | 7 => byClass
  | _ => ((s.fab.reqs.find? (fun q => q.pkt.reqid == pk.reqid)).bind (·.ctx)).bind fun r => named r.val

/-! ### Requests (R351) -/

/-- The credit class of a context's packets, or the firmware's pool. -/
def poolFor (s : State) (r : Option Nat) : BitVec 8 :=
  match r with
  | some r => BitVec.ofNat 8 (cget s r F.ctxLnkcrClass 0)
  | none => 8

/-- The poison map of a packet from the offsets of its poisoned lines. -/
def poisonMap (bad : List Nat) : BitVec 64 := BitVec.ofNat 64 ((bad.map (fun o => 2 ^ (o / 64))).sum)

/-- The offsets of the poisoned lines of a packet. -/
def mapBad (pk : Packet) : List Nat := ((List.range 64).filter (fun i => pk.poison.getLsbD i)).map (64 * ·)

/-- The `REQID` of a burst of a twin context: its source virtual core, channel and burst number, the same on both twins
(R514; log entry 69). -/
def burstName (s : State) (r : Nat) (b : ChanRef × Nat) : Option Nat :=
  let name (vx vy q : Nat) : Nat := 2 ^ 31 + r * 2 ^ 25 + vy * 2 ^ 20 + vx * 2 ^ 14 + q * 2 ^ 11 + b.2 / 2 ^ 33 % 2 * 2 ^ 10 + b.2 % 2 ^ 10
  if !twinCtx s r then none
  else
    match b.1 with
    | .bulk i => some (name i.val 0 7)
    | .core n q =>
      ((tget (core s n.val).chans q.val chanInit).xfer.bind fun x => keyPlace s n.val x.key).map fun v => name v.1 v.2 q.val

/-- The `REQID` of a new request: what its type makes of it (Table 10.5), the name of a twin's burst, or its number. -/
def newReqid (s : State) (reqid : Option Nat) (chan : Option (ChanRef × Nat)) (r : Option Nat) : Nat :=
  match reqid, chan, r with
  | some v, _, _ => v % 2 ^ 32
  | none, some b, some r => (burstName s r b).getD (s.fab.nextReq % 2 ^ 31)
  | none, _, _ => s.fab.nextReq % 2 ^ 31

/-- A request made and sent; where it cannot leave, none. A passive twin holds the packets of a twin context, an atomic
excepted, which it neither holds nor sends (R514). -/
def request (s : State) (pk : Packet) (reqid : Option Nat) (chan : Option (ChanRef × Nat)) (coll : Option (EdgeId × Nat))
    (r : Option Nat) : Option State :=
  let id := s.fab.nextReq
  let pk := { pk with src := ownDev s, hops := fget s F.fabTimersHops 0 0, reqid := newReqid s reqid chan r,
                      birth := s.tcount % 2 ^ 32, pool := poolFor s r }
  let sent :=
    if !r.any (passiveFor s) then sendPkt s pk
    else if pk.type = 6 then some s
    else some { s with pair := { s.pair with held := s.pair.held ++ [(id, pk)] } }
  sent.map fun s =>
    let q : Req := ⟨id, pk, s.tcount, none, false, chan, coll, r.map (Fin.ofNat 64), none⟩
    { s with fab := { s.fab with nextReq := id + 1, reqs := s.fab.reqs ++ [q] } }

/-- What names a packet of a twin context on both twins. -/
def pktName (pk : Packet) : Nat := pk.type + pk.reqid * 2 ^ 8 + pk.addr * 2 ^ 40 + pk.ext * 2 ^ 104

/-- A packet with empty fields. -/
def pktInit : Packet := ⟨0, 0, 0, 0, 0, 0, 0, [], 0, 0, 0, 0, 0⟩

/-- The outstanding request that an answer belongs to: the `REQID` and the `BIRTH` of the latest copy (R351). -/
def answered (s : State) (pk : Packet) (types : List Nat) : Option Req :=
  s.fab.reqs.find? fun q =>
    types.contains q.pkt.type && q.pkt.reqid == pk.reqid && q.pkt.birth == pk.birth && (q.pkt.dst == pk.src || aliasOf s q.pkt.dst == pk.src)

/-- A request ended. -/
def dropReq (s : State) (id : Nat) : State :=
  { s with fab := { s.fab with reqs := s.fab.reqs.filter (fun q => q.id != id) } }

/-- A request changed. -/
def modReq (s : State) (id : Nat) (f : Req → Req) : State :=
  { s with fab := { s.fab with reqs := s.fab.reqs.map fun q => if q.id = id then f q else q } }

/-- The answer to a request, in the response pool, echoing its identifier and `BIRTH`. -/
def answer (s : State) (pk : Packet) (type status : Nat) (data : Bytes) (bad : List Nat) : State :=
  let a : Packet :=
    { pktInit with type := type, pool := 16, hops := fget s F.fabTimersHops 0 0, status := status, src := ownDev s,
                   dst := pk.src, data := data, reqid := pk.reqid, birth := pk.birth, poison := poisonMap bad }
  if (twinOf s pk).any (passiveFor s) then s else (sendPkt s a).getD s

/-! ### Element operations (R264) -/

/-- One element of an atomic: INT32 addition, FP32 addition, BF16 addition. -/
def atomOp (atom old x : Nat) : Nat :=
  match atom with
  | 1 => (old + x) % 2 ^ 32
  | 2 => f32Add old x
  | _ => (roundTo .bf16 .rne 0 (numAdd .rne (decodeElem .bf16 old 0) (decodeElem .bf16 x 0))).code

/-- Bytes of an element of an atomic. -/
def atomSize (atom : Nat) : Nat := if atom = 3 then 2 else 4

/-- The elements of a byte sequence combined with those at the destination. -/
def atomBytes (atom : Nat) (old new : Bytes) : Bytes :=
  let w := atomSize atom
  ((List.range (new.length / w)).map fun i =>
    leBytes w (atomOp atom (leNat ((old.drop (w * i)).take w)) (leNat ((new.drop (w * i)).take w)))).flatten

/-! ### Log entries and their steps (R391 to R393) -/

/-- The step a divergence or mismatch is recorded for (R398). -/
def diverge (s : State) (r kind : Nat) (id : BitVec 64) : State :=
  if cget s r F.ctxReplayDiverge 0 = 1 then s
  else cset (cset (cset s r F.ctxReplayDiverge 0 1) r F.ctxReplayDkind 0 kind) r F.ctxReplayStepStepId 0 id.toNat

/-- The step to which an entry made now is bound, if one runs: that of the take `sel`, or the home-set step (R391). -/
def boundStep (s : State) (r : Nat) (sel : Option (Nat × Nat)) : Option Step :=
  match sel with
  | some (n, k) => keyStep s n k
  | none => (ctx s r).step

/-- An entry of a step or, where no step of the context runs, of the next one (R391), written in LIVE and only kept with
its step in REPLAY. -/
def logFor (s : State) (r : Nat) (sel : Option (Nat × Nat)) (type key data : Nat) (payload : Bytes) : State :=
  if !logLive s r && !logReplay s r then s
  else
    let st := boundStep s r sel
    let id := (st.map (·.id)).getD (BitVec.allOnes 64)
    let e : LogEnt := ⟨type, r, 0, s.tcount, id, key, data, payload⟩
    let s := match st, sel with
      | some _, some (n, k) => modKeyStep s n k fun t => { t with logged := t.logged ++ [e] }
      | some _, none => modCtx s r fun c => { c with step := c.step.map fun t => { t with logged := t.logged ++ [e] } }
      | none, _ => modCtx s r fun c => { c with log := { c.log with unbound := c.log.unbound ++ [e] } }
    logPut s r e

/-- The entry a replay finds under a step, type and key. -/
def replayFind (s : State) (r type : Nat) (id : BitVec 64) (key : Nat) : Option LogRec :=
  (ctx s r).log.replay.find? fun e => e.type == type && e.stepId == id && leNat e.key == key

/-- How an input entry bound to a step differs from the log of a replay (R398): its root, or no entry at all. -/
def inputDiffers (s : State) (r : Nat) (id : BitVec 64) (e : LogEnt) : Option Nat :=
  if !logReplay s r then none
  else
    match replayFind s r 2 id e.key with
    | some l => if l.payload.take 32 = e.payload.take 32 then none else some 1
    | none => some 2

end Sys2Proof.Machine
end

