-- ==== Sys2Proof/Machine/Memory.lean ====
section
/-! DEFINITION. Context virtual spaces (R301 to R329): frames and their placement, the page manager's answer to an
access, the bytes and poison marks of pages, and the accesses by global address (R298 to R300, R425). -/

namespace Sys2Proof.Machine

/-! ### Frames (R295, R296, R305, R306) -/

/-- The page number of a virtual address. -/
def pageOf (va : Nat) : Nat := va / 2 ^ 21

/-- Frames of the usable capacity (R296). -/
def allFrames (s : State) : Nat := fget s F.memStatCapgib 0 0 * 512

/-- Frames that contexts may have, in each tile: all but the system area's (R296). -/
def tileFrames (s : State) : Nat := (allFrames s - 8192) / 2

/-- Frames of a tile in use. -/
def usedFrames (s : State) (par : Nat) : Nat := (s.frames.filter (fun e => e.1 % 2 == par && e.2 != .free)).length

/-- Pages of a context in local frames of a tile. -/
def localPages (c : Ctx) (par : Nat) : Nat :=
  (c.vs.pages.filter (fun e => e.1 % 2 == par && e.2.loc == .local_)).length

/-- A context's share of its floor in a tile: the larger half in E0 (R305). -/
def floorShare (s : State) (r par : Nat) : Nat := (cget s r F.ctxPgquotaFloor 0 + 1 - par) / 2

/-- Frames of a tile that other contexts' floors still reserve. -/
def reservedFor (s : State) (r par : Nat) : Nat :=
  (s.ctxs.map fun e =>
    if e.1 = r ∨ !registered e.2 then 0 else floorShare s e.1 par - localPages e.2 par).sum

/-- The lowest number of a parity, from `cand` on, that rising keys leave out. -/
def lowestFree : Tbl FrameUse → Nat → Nat
  | [], cand => cand
  | (f, u) :: t, cand =>
    if f = cand ∧ u ≠ .free then lowestFree t (cand + 2) else lowestFree t cand

/-- Whether a local frame of a tile may be given to a context: within its floor always, and beyond it where a frame is
free that no other floor reserves. -/
def localFree (s : State) (r par : Nat) : Bool :=
  let used := usedFrames s par
  if localPages (ctx s r) par < floorShare s r par then decide (used < tileFrames s)
  else decide (used + reservedFor s r par < tileFrames s)

/-- A page entry fresh from its allocation (R303). -/
def pageNew (loc : PageLoc) (frame : Nat) (dev : BitVec 12) (prot : Bool) (key : BitVec 4) : Page :=
  ⟨loc, frame, dev, false, false, prot, false, false, key, none, 0, false⟩

/-- The copy of a field of `MEM_MIG`, `MEM_LEND` or `MEM_PEERk` that the page manager of a tile works with: changes take
effect at its next epoch (R330). The copies stand at offsets that no register has. -/
def inForce (par : Nat) (f : Fld) : Fld := { f with off := f.off + 0x80000 + 0x1000 * par }

/-- Frames of a lender that this device holds, the ones that migrations copy to among them. -/
def heldOf (s : State) (d : Nat) : Nat :=
  let one (p : Page) : Nat :=
    (if p.loc = .lent ∧ p.dev.toNat = d then 1 else 0) +
      match p.move with
      | some m => if m.loc = .lent ∧ m.dev.toNat = d then 1 else 0
      | none => 0
  (s.ctxs.map fun e => (e.2.vs.pages.map (fun p => one p.2)).sum).sum

/-- The first valid lender that a route leads to and that has a frame left (R306). -/
def firstPeer (s : State) (par : Nat) : Option Nat :=
  (((List.range 8).filter (fun k => fbit s (inForce par F.memPeerValid) 0 k)).map
    fun k => fget s (inForce par F.memPeerDev) 0 k).find?
      fun d => !(routePorts s d).isEmpty && Config.lenderHas d (heldOf s d)

/-- Host pool pages in use, over all contexts, the ones that migrations copy to among them. -/
def hostUsed (s : State) : List Nat :=
  let one (p : Page) : List Nat :=
    (if p.loc = .host then [p.frame] else []) ++
      match p.move with
      | some m => if m.loc = .host then [m.frame] else []
      | none => []
  (s.ctxs.map fun e => (e.2.vs.pages.map (fun p => one p.2)).flatten).flatten

/-- The first host pool page not in use. -/
def hostFree (s : State) : Option Nat :=
  let used := hostUsed s
  (List.range (used.length + 1)).find? (fun i => !used.contains i && decide (i < fget s F.memHpoolCntCount 0 0))

/-- The pool's array as it may stand now (R313): it may have been changed only while migration is off and no page lies in
the pool. -/
def poolFresh (s : State) : State :=
  if (hostUsed s).isEmpty && !fbit s F.memMigEn 0 0 then
    let p := drawFree s
    { p.2 with poolGen := p.1 }
  else s

/-- A place outside local DDR (R306): a frame lent by a peer, or a page of the host pool. -/
def farPlace (s : State) (par : Nat) : Option (State × PageLoc × Nat × BitVec 12) :=
  match firstPeer s par with
  | some d =>
    let p := drawFree s
    some (p.2, .lent, p.1 % 2 ^ 31, BitVec.ofNat 12 d)
  | none => (hostFree s).map fun i => (poolFresh s, .host, i, BitVec.ofNat 12 (ownDev s))

/-- The local frame a page takes: the lowest free one of its parity. -/
def localPlace (s : State) (r pg : Nat) : State × Nat :=
  let f := lowestFree s.frames (pg % 2)
  ({ s with frames := tset s.frames f (.page (Fin.ofNat 64 r) pg) }, f)

/-- The place a page takes (R305, R306): a local frame; beyond the floor a lent one or a host page; or none yet. -/
def placePage (s : State) (r pg : Nat) (prot : Bool) (key : BitVec 4) : Option (State × Page) :=
  if localFree s r (pg % 2) then
    let p := localPlace s r pg
    some (p.1, pageNew .local_ p.2 (BitVec.ofNat 12 (ownDev s)) prot key)
  else if localPages (ctx s r) (pg % 2) < floorShare s r (pg % 2) then none
  else (farPlace s (pg % 2)).map fun p => (p.1, pageNew p.2.1 p.2.2.1 p.2.2.2 prot key)

/-- A page entry set. -/
def setPage (s : State) (r pg : Nat) (p : Page) : State :=
  modCtx s r fun c => { c with vs := { c.vs with pages := tset c.vs.pages pg p } }

/-- A page entry changed, where there is one. -/
def modPage (s : State) (r pg : Nat) (f : Page → Page) : State :=
  match tfind (ctx s r).vs.pages pg with
  | some p => setPage s r pg (f p)
  | none => s

/-- The frame of a page back on the free list, or back with its lender. -/
def releaseFrame (s : State) (p : Page) : State :=
  let drop (s : State) (loc : PageLoc) (f : Nat) : State :=
    if loc = .local_ then { s with frames := tdel s.frames f } else s
  let s := drop s p.loc p.frame
  match p.move with
  | some m => drop s m.loc m.frame
  | none => s

/-- Bytes and marks of a page dropped. -/
def dropPageData (vs : VSpace) (pg : Nat) : VSpace :=
  { vs with mem := vs.mem.filter (fun c => pageOf c.1 != pg), poison := vs.poison.filter (fun l => l.1 / 32768 != pg) }

/-- A page unmapped, its frame freed (R315). -/
def unmapPage (s : State) (r pg : Nat) : State :=
  match tfind (ctx s r).vs.pages pg with
  | none => s
  | some p =>
    modCtx (releaseFrame s p) r fun c =>
      { c with vs := { dropPageData c.vs pg with pages := tdel c.vs.pages pg } }

/-! ### The page manager's answer (R303 to R311, R328) -/

/-- How an access ends. -/
inductive Acc where
  | ok
  | wait
  | fault (code : Nat)
  deriving DecidableEq, Repr

/-- Whether a context's key slot is empty (R328). -/
def keyEmpty (s : State) (r : Nat) (slot : BitVec 4) : Bool := (tfind s.keys.page (16 * r + slot.toNat)).isNone

/-- Whether an access to a page that is there may go on. -/
def pageAllows (s : State) (r : Nat) (p : Page) (write : Bool) : Acc :=
  if p.prot && keyEmpty s r p.keyslot then .fault 0x1A
  else if p.loc = .none then .fault 0x1B
  else if p.move.isSome || (write && p.printing) || (p.loc = .host && !hostUp s) then .wait
  else .ok

/-- The page numbers of a range of `n` bytes. -/
def pagesOf (va n : Nat) : List Nat := (List.range (pageOf (va + n - 1) + 1 - pageOf va)).map (pageOf va + ·)

/-- The byte that a lost page's data is hidden behind (R328): an open value. -/
def lostMask (vs : VSpace) (va : Nat) : Byte :=
  match tfind vs.pages (pageOf va) with
  | some p => if p.lost then Config.lostByte va else 0
  | none => 0

/-- A byte of a virtual space: zero until it is written (R303). -/
def vsGet (vs : VSpace) (va : Nat) : Byte := mget vs.mem va ^^^ lostMask vs va

/-- A byte of a virtual space written. -/
def vsSet (vs : VSpace) (va : Nat) (b : Byte) : VSpace := { vs with mem := mset vs.mem va (b ^^^ lostMask vs va) }

/-- Bytes of a virtual space. -/
def vsRead (vs : VSpace) (va n : Nat) : Bytes := (List.range n).map fun i => vsGet vs (va + i)

/-- Bytes of a virtual space written. -/
def vsWrite (vs : VSpace) (va : Nat) : Bytes → VSpace
  | [] => vs
  | b :: bs => vsWrite (vsSet vs va b) (va + 1) bs

/-- Offsets of the poisoned 64-byte lines within `n` bytes from an address. -/
def vsPoison (vs : VSpace) (va n : Nat) : List Nat :=
  ((List.range ((n + 63) / 64)).map (64 * ·)).filter (fun o => tget vs.poison ((va + o) / 64) false)

/-- Marks of the lines of a write: set where `bad` names the line's offset, and cleared where it does not and the write
covers the line (R323). -/
def vsMark (vs : VSpace) (va n : Nat) (bad : List Nat) : VSpace :=
  ((List.range ((va % 64 + n + 63) / 64)).map (64 * ·)).foldl
    (fun v o =>
      let l := va / 64 + o / 64
      let whole := decide (va ≤ 64 * l ∧ 64 * l + 64 ≤ va + n)
      { v with poison := if bad.contains o then tset v.poison l true else if whole then tdel v.poison l else v.poison }) vs

/-- The lines of `MIRROR` pages that a write changes (R511). -/
def vsNote (vs : VSpace) (va n : Nat) : VSpace :=
  let note (w : List Nat) (l : Nat) : List Nat :=
    match tfind vs.pages (l / 8192) with
    | some p => if p.mirror && !w.contains l then w ++ [l] else w
    | none => w
  { vs with wrote := ((List.range ((n + 255) / 256 + 1)).filterMap fun i => if va / 256 * 256 + 256 * i < va + n then some (va / 256 + i) else none).foldl note vs.wrote }

/-- A page marked `POISONED` where a poisoned line was written into it. -/
def notePagePoison (s : State) (r va : Nat) (bad : List Nat) : State :=
  bad.foldl (fun s o => modPage s r (pageOf (va + o)) fun p => { p with poisoned := true }) s

/-! ### Pages outside this device's DDR (R307, R313, R327) -/

/-- A line of a page as it is stored: the ciphertext of a protected page whose key is there (R326). -/
def storedLine (s : State) (r : Nat) (p : Page) (va : Nat) : Bytes :=
  let text := vsRead (ctx s r).vs va 64
  match p.prot, tfind s.keys.page (16 * r + p.keyslot.toNat) with
  | true, some k => xtsEnc (leBytes 64 k.toNat) (lineTweak va) text
  | _, _ => text

/-- The lines from `va` to `va` + `n` of one page put at a place outside local DDR: a WRITE to the lender, or a write to
the host page, with their poison marks. -/
def farPut (s : State) (r : Nat) (p : Page) (loc : PageLoc) (frame : Nat) (dev : BitVec 12) (va n : Nat) : State :=
  let a := va / 64 * 64
  let k := (va + n + 63) / 64 - va / 64
  let bs := ((List.range k).map fun i => storedLine s r p (a + 64 * i)).flatten
  let bad := vsPoison (ctx s r).vs a (64 * k)
  match loc with
  | .lent =>
    (request s { pktInit with type := 1, dst := dev.toNat, addr := dev.toNat * 2 ^ 45 + frame * 2 ^ 21 + a % 2 ^ 21,
                              data := bs, poison := poisonMap bad } none none none (some r)).getD s
  | .host =>
    hostPut s (Config.poolAddr s.poolGen (fget s F.memHpoolBaseAddr 0 0) frame * 2 ^ 21 + a % 2 ^ 21) bs (!bad.isEmpty)
  | _ => s

/-- A whole page put at a place outside local DDR. -/
def farPage (s : State) (r pg : Nat) (p : Page) (loc : PageLoc) (frame : Nat) (dev : BitVec 12) : State :=
  match loc with
  | .lent | .host => (List.range 512).foldl (fun s i => farPut s r p loc frame dev (pg * 2 ^ 21 + 4096 * i) 4096) s
  | _ => s

/-- The number of a context's level-2 table among the tables placed; the first 64 are the level-1 tables. -/
def leafKey (r i : Nat) : Nat := r * 8192 + i

/-- The lowest number, from `k` on, that `n` tables leave out. -/
def freeTable (t : Tbl Nat) : Nat → Nat → Nat
  | 0, k => k
  | n + 1, k => if t.any (fun e => e.2 == k) then freeTable t n (k + 1) else k

/-- The level-2 table that a page's entry lies in placed, where it has no place yet (R301). -/
def addTable (s : State) (r pg : Nat) : State :=
  let key := leafKey r (pg / 2 ^ 14)
  if (tfind s.tables key).isSome then s
  else { s with tables := tset s.tables key (freeTable s.tables s.tables.length 64) }

/-- The tables of a context that is disabled given up. -/
def dropTables (s : State) (r : Nat) : State := { s with tables := s.tables.filter (fun e => e.1 / 8192 != r) }

/-- A page mapped at the place it has taken, which reads as zeros there too (R303); what waited for one goes on. -/
def mapPage (s : State) (r pg : Nat) (p : Page) : State :=
  let s := modCtx (addTable s r pg) r fun c =>
    { c with vs := { c.vs with pages := tset c.vs.pages pg p, waits := c.vs.waits.filter (fun w => w.1 != pg) } }
  farPage s r pg p p.loc p.frame p.dev

/-! ### Touches (R303, R306) -/

/-- An access that waits for a frame noted, once. -/
def noteWait (s : State) (r pg : Nat) (who : Waiter) : State :=
  if (ctx s r).vs.waits.contains (pg, who) then s
  else modCtx s r fun c => { c with vs := { c.vs with waits := c.vs.waits ++ [(pg, who)] } }

/-- One page of an access: mapped on first touch within the quota, counted, refused or made to wait; a page that would lie
in the host's memory waits while the host takes no transfers (R572). -/
def touchPage (s : State) (r pg : Nat) (write : Bool) (who : Waiter) : State × Acc :=
  match tfind (ctx s r).vs.pages pg with
  | none =>
    if cget s r F.ctxPgquotaQuota 0 ≤ (ctx s r).vs.pages.length then (s, .fault 0x1A)
    else
      match placePage s r pg false 0 with
      | some (s', p) =>
        if p.loc = .host ∧ !hostUp s then (s, .wait) else (mapPage s' r pg { p with accesses := 1 }, .ok)
      | none => (noteWait s r pg who, .wait)
  | some p =>
    match pageAllows s r p write with
    | .ok => (setPage s r pg { p with accesses := p.accesses + 1 }, .ok)
    | a => (s, a)

/-- The pages of an access in ascending order, up to the first that does not let it on (R303). -/
def touchPages : List Nat → State → Nat → Bool → Waiter → State × Acc
  | [], s, _, _, _ => (s, .ok)
  | pg :: t, s, r, w, who =>
    match touchPage s r pg w who with
    | (s', .ok) => touchPages t s' r w who
    | x => x

/-- What a write left in the pages it touched, put where those pages lie outside this device. -/
def farStore (s : State) (r va n : Nat) : State :=
  (pagesOf va n).foldl
    (fun s pg =>
      match tfind (ctx s r).vs.pages pg with
      | some p =>
        let lo := max va (pg * 2 ^ 21)
        farPut s r p p.loc p.frame p.dev lo (min (va + n) ((pg + 1) * 2 ^ 21) - lo)
      | none => s) s

/-- Bytes written to a virtual space with the marks of their lines; what stands on `MIRROR` pages is noted. -/
def putText (s : State) (r va : Nat) (bs : Bytes) (bad : List Nat) : State :=
  let n := bs.length
  farStore
    (notePagePoison
      (modCtx s r fun c => { c with vs := vsNote (vsMark (vsWrite c.vs va bs) va n bad) va n }) r va bad) r va n

/-! ### The reel that streams (R487) -/

/-- Whether a load has switched while it streams. -/
def streaming (s : State) (r : Nat) : Bool :=
  match (ctx s r).reel with
  | some l => cget s r F.ctxReelstatState 0 == 1 && cget s r F.ctxReelgenActgen 0 == l.gen.toNat
  | none => false

/-- Pages of a shard. -/
def shardPages (h : Shard) : List Nat := (List.range ((h.bytes + 2 ^ 21 - 1) / 2 ^ 21)).map (h.va / 2 ^ 21 + ·)

/-- Chunks of a shard (R474). -/
def shardChunks (h : Shard) : Nat := (h.bytes + 65535) / 65536

/-- Whether a chunk of a load has been written. -/
def chunkThere (l : ReelLoad) (id i : Nat) : Bool := l.got.any (fun g => g.1 == id && g.2.1 == i)

/-- Whether a read touches a chunk of a streaming reel that has not been written; what follows a shard's last chunk in
its last page goes with that chunk. -/
def reelHole (s : State) (r va n : Nat) : Bool :=
  match (ctx s r).reel with
  | none => false
  | some l =>
    streaming s r && l.shards.any fun h =>
      decide (va < h.va + (shardPages h).length * 2 ^ 21 ∧ h.va < va + n) &&
      (List.range (shardChunks h)).any fun i =>
        let stop := if i + 1 = shardChunks h then (shardPages h).length * 2 ^ 21 else 65536 * (i + 1)
        decide (va < h.va + stop ∧ h.va + 65536 * i < va + n) && !chunkThere l h.id i

/-- How a page of a context is named in a core's print shadow. -/
def shadowName (r pg : Nat) : Nat := r * 2 ^ 32 + pg

/-- Whether a write meets a line of a commit that is being shipped (R511). -/
def lineShips (s : State) (r va n : Nat) : Bool :=
  (ctx s r).vs.shipping.any fun l => decide (256 * l.2 < va + n ∧ va < 256 * (l.2 + 1))

/-- A read of a context virtual address: the state after its touches, its end, the bytes and the poisoned lines. -/
def cvRead (s : State) (r va n : Nat) (who : Waiter) : State × Acc × Bytes × List Nat :=
  if reelHole s r va n then (s, .wait, [], []) else
  let t := touchPages (pagesOf va n) s r false who
  match t.2 with
  | .ok => (t.1, .ok, vsRead (ctx t.1 r).vs va n, vsPoison (ctx t.1 r).vs va n)
  | a => (t.1, a, [], [])

/-- A write of whole lines to a context virtual address. -/
def cvWrite (s : State) (r va : Nat) (bs : Bytes) (bad : List Nat) (who : Waiter) : State × Acc :=
  let n := bs.length
  if lineShips s r va n then (s, .wait) else
  let t := touchPages (pagesOf va n) s r true who
  match t.2 with
  | .ok => (putText t.1 r va bs bad, .ok)
  | a => (t.1, a)

/-- The poisoned lines of a page set to zero, and its mark cleared (`CLEARPOISON`, R315). -/
def clearPage (s : State) (r pg : Nat) : State :=
  let ls := ((ctx s r).vs.poison.map (·.1)).filter (fun l => l / 32768 == pg)
  let s := modCtx s r fun c =>
    let vs := ls.foldl (fun v l => vsWrite v (64 * l) (List.replicate 64 0)) c.vs
    { c with vs := { vs with poison := vs.poison.filter (fun l => l.1 / 32768 != pg) } }
  ls.foldl (fun s l => farStore s r (64 * l) 64) (modPage s r pg fun p => { p with poisoned := false })

/-- `CLEARPOISON` over a range of pages. -/
def clearPages (s : State) (r pg n : Nat) : State := (List.range n).foldl (fun s i => clearPage s r (pg + i)) s

/-! ### Views from outside an instruction -/

/-- Offsets of the poisoned lines within `n` bytes of a view. -/
def viewPoison (c : Core) (fr : Frame) (a n : Nat) : List Nat :=
  ((List.range ((n + 63) / 64)).map (64 * ·)).filter (fun o => vpoison c fr (a + o) || vpoison c fr (a + o + 32))

/-- Lines written to a view, with their marks: a line that `bad` names is marked whole, and a word that is written
without a mark loses its own. -/
def viewPut (c : Core) (fr : Frame) (a : Nat) (bs : Bytes) (bad : List Nat) : Core :=
  let n := bs.length
  ((List.range ((n + 63) / 64 * 2)).map (32 * ·)).foldl
    (fun c o =>
      if bad.contains (o / 64 * 64) then setPoison c fr (a + o) true
      else if o < n then setPoison c fr (a + o) false else c) (vwrite c fr a bs)

/-- Whether a core has lines of a frame write-pending or read-pending (R189, R193). -/
def linesPending (c : Core) (k : Nat) (rs : List (Nat × Nat)) : Bool :=
  ((xfersOf c k).any fun x => regionLines rs (xferWrites x) || regionLines rs (xferReads x)) ||
    (c.running == some k && regionLines rs (flightWrites c ++ stagedReads c))

/-- The core and frame of virtual core (vx, vy) as a take's key sees its grid: the home set, or the cores of the
floating step. -/
def placeOf (s : State) (n k vx vy : Nat) : Option (Nat × Nat) :=
  ((keyStep s n k).bind fun st => st.cores.find? (fun c => c.vx == vx && c.vy == vy)).map (fun c => (c.core.val, k))

/-- The home-set core of virtual core (vx, vy) of a context. -/
def homeCore (c : Ctx) (vx vy : Nat) : Option Nat :=
  (c.map.find? (fun m => m.2.1 == vx && m.2.2 == vy)).map (fun m => m.1.val)

/-! ### Global addresses (R298 to R300, R425) -/

/-- Device number of a global address. -/
def gDev (a : Nat) : Nat := bitsOf a 45 12

/-- Who makes an access by global address: a context of this device, a device with the credit class its packet
carries, or the host through BAR2. -/
inductive Asker where
  | ctx (r : Nat)
  | dev (d : Nat) (cls : Nat)
  | host
  deriving DecidableEq, Repr

/-- Whether an asker must keep to the target's mailboxes (R425): another context, known on a packet by its class
(R355). -/
def outsider (s : State) (q : Asker) (r : Nat) : Bool :=
  match q with
  | .ctx r' => r' != r
  | .dev _ cls => cls != cget s r F.ctxLnkcrClass 0
  | .host => false

/-- Where an on-chip offset leads: the context, the virtual core and the view address (Table 9.2), where R299 and R425
accept the `n` bytes. -/
def onChipAt (s : State) (q : Asker) (off n : Nat) : Option (Nat × Nat × Nat × Nat) :=
  let r := bitsOf off 32 6
  let vx := bitsOf off 20 6
  let vy := bitsOf off 26 5
  let a := bitsOf off 0 20
  if bitsOf off 31 1 ≠ 0 ∨ bitsOf off 38 6 ≠ 0 ∨ !registered (ctx s r) then none
  else
    match (ctx s r).img.bind (fun i => imgCore i vx vy) with
    | none => none
    | some ic =>
      let inside := decide (a + n ≤ ic.granules * 32768)
      let mail := ic.mailboxes.any (fun m => decide (m.1 ≤ a ∧ a + n ≤ m.1 + m.2))
      if inside && (!outsider s q r || mail) then some (r, vx, vy, a) else none

/-- Whether a context's share lies in its shelf. -/
def onShelf (c : Ctx) : Bool := c.st == .shelved || c.st == .returning

/-- Whether an on-chip access waits: it leads to a context whose share is being copied (R438), to a fenced core, until the
core's virtual cores are remapped (R494), or it writes a line that is write-pending or read-pending there, until the line
is free (R193), or a print-shadowed one (R465). -/
def chipStalled (s : State) (q : Asker) (a n : Nat) (write : Bool) : Bool :=
    match onChipAt s q (a % 2 ^ 44) n with
    | some (r, vx, vy, v) =>
      match (ctx s r).st, homeCore (ctx s r) vx vy with
      | .shelving, _ | .returning, _ => true
      | .shelved, _ => false
      | _, some k =>
        let c := core s k
        let key := ((ctx s r).slot.map (·.val)).getD 0
        c.fenced || (write && (linesPending c key [(v, n)] || shadowed c (frameOf c key) [(v, n)]))
      | _, _ => false
    | none => false

/-- The word marks of `n` bytes of a shelf from a view address, as offsets of poisoned lines. -/
def shelfPoison (e : ShelfCore) (a n : Nat) : List Nat :=
  ((List.range ((n + 63) / 64)).map (64 * ·)).filter
    fun o => e.bad.contains ((a + o) / 32) || e.bad.contains ((a + o) / 32 + 1)

/-- Lines written to a shelf, with their marks. -/
def shelfPut (e : ShelfCore) (a : Nat) (bs : Bytes) (bad : List Nat) : ShelfCore :=
  let n := bs.length
  let ws := (List.range ((n + 63) / 64 * 2)).filter fun i => bad.contains (i / 2 * 64) || decide (32 * i < n)
  let marked := (ws.filter fun i => bad.contains (i / 2 * 64)).map (a / 32 + ·)
  { e with bytes := mwrite e.bytes a bs
           bad := ((e.bad.filter fun w => !(ws.map (a / 32 + ·)).contains w) ++ marked).mergeSort }

/-- Bytes and poisoned lines read of a context's view, on its core or in its shelf. -/
def onChipRead (s : State) (r vx vy a n : Nat) : Bytes × List Nat :=
  let x := ctx s r
  match homeCore x vx vy with
  | none => (List.replicate n 0, [])
  | some k =>
    if onShelf x then
      match x.res.shelf.find? (fun e => e.core == k) with
      | some e => (mread e.bytes a n, shelfPoison e a n)
      | none => (List.replicate n 0, [])
    else
      let c := core s k
      let fr := frameOf c ((x.slot.map (·.val)).getD 0)
      (vread c fr a n, viewPoison c fr a n)

/-- Lines written to a memory of a cut image's form, where `ok` takes their granule. -/
def imageWrite (ok : Nat → Bool) (a : Nat) (bs : Bytes) (bad : List Nat) (t : Mem) : Mem :=
  bs.zipIdx.foldl
    (fun t p =>
      if ok ((a + p.2) / 32768) then
        mset (mset t (a + p.2) p.1) (2 ^ 20 + (a + p.2) / 32) (if bad.contains (p.2 / 64 * 64) then 1 else 0)
      else t) t

/-- A line that a transfer or an inbound write places in a view, recorded in the open check slots of its virtual core
(R507). -/
def noteInbound (s : State) (r vx vy a : Nat) (bs : Bytes) (bad : List Nat) : State :=
  if (ctx s r).checks.isEmpty then s
  else modCtx s r fun x => { x with checks := x.checks.map fun k =>
    if k.vx = vx ∧ k.vy = vy ∧ !k.closed then { k with inbound := imageWrite (fun _ => true) a bs bad k.inbound } else k }

/-- Lines written to a mirror: to the commit applied and to the one on its way. -/
def mirrorPut (ic : CoreImage) (a : Nat) (bs : Bytes) (bad : List Nat) (m : Mirror) : Mirror :=
  let put (i : CutImage) : CutImage := { i with bytes := imageWrite ic.carried.contains a bs bad i.bytes }
  { m with image := m.image.map put, coming := m.coming.map put }

/-- An inbound write to the view of a home-set core: to carried granules of a protected one it is made to the mirror as well
(R500), and the check slots record it (R507). -/
def mirrorWrite (s : State) (r n k vx vy a : Nat) (bs : Bytes) (bad : List Nat) : State :=
  let s := noteInbound s r vx vy a bs bad
  match cget s r F.ctxRelstatProt 0, tfind (core s n).mirrors k, (ctx s r).img.bind (fun i => imgCore i vx vy) with
  | 1, some m, some ic => modCore s n fun c => { c with mirrors := tset c.mirrors k (mirrorPut ic a bs bad m) }
  | _, _, _ => s

/-- Whole lines written to a context's view, on its core or in its shelf, and to the mirror that either has (R500). -/
def onChipWrite (s : State) (r vx vy a : Nat) (bs : Bytes) (bad : List Nat) : State :=
  let x := ctx s r
  match homeCore x vx vy with
  | none => s
  | some k =>
    if onShelf x then
      let ic := x.img.bind fun i => imgCore i vx vy
      let both (e : ShelfCore) : ShelfCore :=
        { shelfPut e a bs bad with mirror := ic.elim e.mirror fun ic => e.mirror.map (mirrorPut ic a bs bad) }
      let put (e : ShelfCore) : ShelfCore := if e.core = k then both e else e
      modCtx s r fun c => { c with res := { c.res with shelf := c.res.shelf.map put } }
    else
      let key := (x.slot.map (·.val)).getD 0
      mirrorWrite (modCore s k fun c => viewPut c (frameOf c key) a bs bad) r k key vx vy a bs bad

/-- What a physical address of this device leads to for an asker (R300, R329). -/
inductive Phys where
  | page (r va : Nat)
  | lent
  deriving DecidableEq, Repr

/-- The place of a physical address: a pinned page without protection, or a frame lent to the asker; BAR2 accesses are
treated as those of the own device (R575). -/
def physAt (s : State) (q : Asker) (p : Nat) : Option Phys :=
  if (allFrames s - 8192) ≤ pageOf p then none
  else
    match tfind s.frames (pageOf p) with
    | some (.page r pg) =>
      match tfind (ctx s r.val).vs.pages pg with
      | some e => if e.pin && !e.prot then some (.page r.val (pg * 2 ^ 21 + p % 2 ^ 21)) else none
      | none => none
    | some (.lentTo d) =>
      match q with
      | .dev d' _ => if d.toNat = d' then some .lent else none
      | _ => none
    | _ => none

/-- Offsets of the poisoned lines of lent frames. -/
def ddrBad (s : State) (p n : Nat) : List Nat :=
  ((List.range ((n + 63) / 64)).map (64 * ·)).filter (fun o => tget s.ddrPoison ((p + o) / 64) false)

/-- A range of physical addresses cut at the bounds of frames: offset and length of each piece. -/
def framePieces (p n : Nat) : List (Nat × Nat) :=
  (pagesOf p n).map fun f =>
    let lo := max p (f * 2 ^ 21)
    (lo - p, min (p + n) ((f + 1) * 2 ^ 21) - lo)

/-- Whether a write by physical address meets a page that is being printed, or a line of a commit that is being shipped, and
waits for it (R465, R511). -/
def physStalled (s : State) (q : Asker) (p n : Nat) : Bool :=
  (framePieces p n).any fun c =>
    match physAt s q (p + c.1) with
    | some (.page r va) =>
      ((tfind (ctx s r).vs.pages (pageOf va)).map (·.printing)).getD false || lineShips s r va c.2
    | _ => false

/-- Whether an access by an address of this device waits; of those to DDR only a write does. -/
def stalledAt (s : State) (q : Asker) (a n : Nat) (write : Bool) : Bool :=
  if bitsOf a 44 1 = 1 then chipStalled s q a n write else write && physStalled s q (a % 2 ^ 44) n

/-- One piece of a read by physical address. -/
def physRead (s : State) (q : Asker) (p n : Nat) : Option (Bytes × List Nat) :=
  (physAt s q p).map fun
    | .page r va => (vsRead (ctx s r).vs va n, vsPoison (ctx s r).vs va n)
    | .lent => (mread s.ddr p n, ddrBad s p n)

/-- One piece of a write by physical address. -/
def physWrite (s : State) (q : Asker) (p : Nat) (bs : Bytes) (bad : List Nat) : Option State :=
  (physAt s q p).map fun
    | .page r va => putText s r va bs bad
    | .lent =>
      let mark (t : Tbl Bool) (o : Nat) : Tbl Bool :=
        if bad.contains o then tset t ((p + o) / 64) true else tdel t ((p + o) / 64)
      { s with ddr := mwrite s.ddr p bs,
               ddrPoison := ((List.range ((bs.length + 63) / 64)).map (64 * ·)).foldl mark s.ddrPoison }

/-- A read by an address of this device, the space in bit 44: none where it is refused. Every frame it touches must let it
through (R300). -/
def globalRead (s : State) (q : Asker) (a n : Nat) : Option (Bytes × List Nat) :=
  let off := a % 2 ^ 44
  if bitsOf a 44 1 = 1 then
    (onChipAt s q off n).map fun x => onChipRead s x.1 x.2.1 x.2.2.1 x.2.2.2 n
  else
    ((framePieces off n).mapM fun c => (physRead s q (off + c.1) c.2).map fun r => (r.1, r.2.map (c.1 + ·))).map
      fun rs => ((rs.map (·.1)).flatten, (rs.map (·.2)).flatten)

/-- A write of whole lines by an address of this device: none where it is refused. -/
def globalWrite (s : State) (q : Asker) (a : Nat) (bs : Bytes) (bad : List Nat) : Option State :=
  let off := a % 2 ^ 44
  let n := bs.length
  if bitsOf a 44 1 = 1 then
    (onChipAt s q off n).map fun x => onChipWrite s x.1 x.2.1 x.2.2.1 x.2.2.2 bs bad
  else if !(framePieces off n).all (fun c => (physAt s q (off + c.1)).isSome) then none
  else
    (framePieces off n).foldlM
      (fun s c => physWrite s q (off + c.1) ((bs.drop c.1).take c.2)
        ((bad.filter fun o => decide (c.1 ≤ o ∧ o < c.1 + c.2)).map (· - c.1))) s

/-! ### The system area (R296, R297, R301, R302) -/

/-- A page entry (Table 9.3); a page whose lender is lost still names it. -/
def pageEntry (p : Page) : Nat :=
  let b (x : Bool) (i : Nat) : Nat := if x then 2 ^ i else 0
  let loc := match p.loc with | .local_ => 0 | .lent => 1 | .none => 1 | .host => 2
  1 + 2 * loc + b p.prot 3 + b p.mirror 4 + b p.printing 5 + b p.poisoned 6 + b p.pin 7 + b p.move.isSome 8 +
    p.keyslot.toNat * 2 ^ 9 + p.dev.toNat * 2 ^ 16 + p.frame % 2 ^ 31 * 2 ^ 28

/-- The physical address, in E0's copy, of an offset in the system area. -/
def systemPhys (s : State) (o : Nat) : Nat := (allFrames s - 8192) * 2 ^ 21 + o / 2 ^ 21 * 2 ^ 22 + o % 2 ^ 21

/-- The level-1 indices under which a context has pages. -/
def leafIndices (c : Ctx) : List Nat := (c.vs.pages.map (fun p => p.1 / 2 ^ 14)).dedup

/-- The 128 KiB unit of the system area where the table of a number lies. -/
def tableAt (k : Nat) : Nat := (Config.tableUnit (Fin.ofNat 65536 k)).val

/-- A level-1 entry of a context (R301). -/
def rootEntry (s : State) (r i : Nat) : Nat :=
  match (leafIndices (ctx s r)).contains i, tfind s.tables (leafKey r i) with
  | true, some k => 1 + systemPhys s (tableAt k * 2 ^ 17)
  | _, _ => 0

/-- A level-2 entry of a context. -/
def leafEntry (s : State) (r pg : Nat) : Nat := ((tfind (ctx s r).vs.pages pg).map pageEntry).getD 0

/-- The frame table as numbers: frame, owner or borrower, page, access count (R305). -/
def frameTable (s : State) : List (List Nat) :=
  s.frames.map fun e =>
    match e.2 with
    | .page r pg => [e.1, 0, r.val, pg, ((tfind (ctx s r.val).vs.pages pg).map (·.accesses)).getD 0]
    | .lentTo d => [e.1, 1, d.toNat]
    | .free => [e.1, 2]
    | .system => [e.1, 3]

/-- A byte of the system area at an offset of its copies: of a page table, or of what else the area holds. -/
def systemByte (s : State) (o : Nat) : Byte :=
  let at_ (e : Nat) : Byte := BitVec.ofNat 8 (e / 256 ^ (o % 8))
  let k := (Config.tableUnit.symm (Fin.ofNat 65536 (o / 2 ^ 17))).val
  if k < 64 then
    if registered (ctx s k) && decide (o % 2 ^ 17 < 2 ^ 16) then at_ (rootEntry s k (o % 2 ^ 17 / 8))
    else Config.systemByte (frameTable s) o
  else
    match s.tables.find? (fun e => e.2 == k) with
    | some e => at_ (leafEntry s (e.1 / 8192) (e.1 % 8192 * 2 ^ 14 + o % 2 ^ 17 / 8))
    | none => Config.systemByte (frameTable s) o

/-- A byte of the system area by physical address: both copies hold it (R297). -/
def systemRead (s : State) (p : Nat) : Byte :=
  let f := pageOf p - (allFrames s - 8192)
  systemByte s (f / 2 * 2 ^ 21 + p % 2 ^ 21)

/-- An atomic applied at an address of this device, poison joining that of the line (R323, R357). -/
def globalAtomic (s : State) (q : Asker) (a atom : Nat) (bs : Bytes) (bad : List Nat) : Option State :=
  match globalRead s q a bs.length with
  | some old => globalWrite s q a (atomBytes atom old.1 bs) (bad ++ old.2)
  | none => none

end Sys2Proof.Machine
end

