-- ==== Sys2Proof/Machine/Mover.lean ====
section
/-! DEFINITION. Data movers (R258 to R288): the descriptor check, bursts and their landing, digests and compare records,
pause and resume, bulk channels and their chains. -/

namespace Sys2Proof.Machine

/-! ### Channels -/

/-- The transfer of a channel, where one runs. -/
def chXfer (s : State) (ch : ChanRef) : Option Xfer :=
  match ch with
  | .core n c => (chanOf (core s n.val) c.val).xfer
  | .bulk b => tfind s.bulk b.val

/-- A channel's transfer set or ended. -/
def chPut (s : State) (ch : ChanRef) (x : Option Xfer) : State :=
  match ch with
  | .core n c => modChan s n.val c.val fun h => { h with xfer := x }
  | .bulk b =>
    match x with
    | some x => { s with bulk := tset s.bulk b.val x }
    | none => { s with bulk := tdel s.bulk b.val }

/-- A channel's transfer changed. -/
def chMod (s : State) (ch : ChanRef) (f : Xfer → Xfer) : State :=
  match chXfer s ch with
  | some x => chPut s ch (some (f x))
  | none => s

/-- The context a channel moves for: that of the take, or the owner in `BMV_CTL`; none for the firmware (R276). -/
def chOwner (s : State) (ch : ChanRef) (x : Xfer) : Option Nat :=
  match ch with
  | .core _ _ => keyCtx s x.key
  | .bulk b => if fbit s F.bmvCtlFwown b.val 0 then none else some (fget s F.bmvCtlOwner b.val 0)

/-- Who a channel asks as, for an address of this device. -/
def chAsker (s : State) (ch : ChanRef) (x : Xfer) : Asker :=
  match chOwner s ch x with
  | some r => .ctx r
  | none => .host

/-- The take a channel's transfer belongs to. -/
def chTake (ch : ChanRef) (x : Xfer) : Option (Nat × Nat) :=
  match ch with
  | .core n _ => some (n.val, x.key)
  | .bulk _ => none

/-- The class that the image of a take declares for a channel of its virtual core (R256). -/
def declClass (s : State) (n k c : Nat) : Nat :=
  (((keyImage s n k).map (fun (i : CoreImage) => i.classes.getD c 0)).getD 0).toNat

/-! ### The descriptor (R260 to R264) -/

/-- Source and destination spaces. -/
def xfSsp (d : Bytes) : Nat := xf d 1 1 % 8
def xfDsp (d : Bytes) : Nat := xf d 1 1 / 8 % 8

/-- Kind, hash mode, atomic code, swap mode, request line. -/
def xfKind (d : Bytes) : Nat := xf d 0 1
def xfHmode (d : Bytes) : Nat := xf d 3 1 / 8 % 4
def xfAtom (d : Bytes) : Nat := xf d 36 1 / 4 % 8
def xfSwp (d : Bytes) : Nat := xf d 36 1 % 4
def xfLine (d : Bytes) : Nat := xf d 2 1 % 64
def xfReqen (d : Bytes) : Bool := xf d 2 1 / 64 % 2 == 1

/-- Length, addresses, constants. -/
def xfLen (d : Bytes) : Nat := xf d 4 4
def xfSrc (d : Bytes) : Nat := xf d 8 8
def xfDst (d : Bytes) : Nat := xf d 16 8
def xfAux (d : Bytes) : Nat := xf d 24 8
def xfNext (d : Bytes) : Nat := xf d 40 8
def xfRec (d : Bytes) : Nat := xf d 48 8

/-- Where a transfer writes its result: the record of `CMPM`, `DST` otherwise. -/
def xfOut (d : Bytes) : Nat := if xfKind d = 5 then xfRec d else xfDst d

/-- Bytes a transfer writes there: a digest, a leaf list, a record, or what it moves. -/
def xfOutLen (d : Bytes) : Nat :=
  if xfKind d = 3 then (if xfHmode d = 1 then 32 * ((xfLen d + 65535) / 65536) else 32)
  else if xfKind d = 5 then 32 else xfLen d

/-- Whether a class allows a kind (Table 8.2); none allows a reserved kind. -/
def classAllows (cls kind : Nat) : Bool :=
  match cls with
  | 0 => [1, 2, 3].contains kind
  | 1 => [1, 2, 3, 6].contains kind
  | 2 => [1, 2, 3, 4, 5].contains kind
  | _ => false

/-- Whether a transfer hashes or compares: it moves no bytes, and writes its result at its end. -/
def xfGathers (d : Bytes) : Bool := xfKind d == 3 || xfKind d == 5

/-- Whether a descriptor asks for a floating-point atomic (R264). -/
def xfFpAtom (d : Bytes) : Bool := xfAtom d == 2 || xfAtom d == 3

/-- Reserved codes and fields (0x11). -/
def xfReserved (d : Bytes) (op : Nat) : Bool :=
  let k := xfKind d
  k == 0 || 6 < k || k != op || xf d 1 1 / 64 != 0 || 4 < xfSsp d || 4 < xfDsp d || xf d 2 1 / 128 != 0 ||
    xf d 3 1 / 32 != 0 || (k != 3 && xfHmode d != 0) || xf d 36 1 / 32 != 0 || 3 < xfAtom d ||
    (k != 2 && xfAtom d != 0) || xf d 37 3 != 0 || xf d 56 8 != 0 || ((k == 1 || k == 2 || k == 6) && xfAux d != 0)

/-- Alignment (R262). -/
def xfMisaligned (d : Bytes) : Bool :=
  let k := xfKind d
  6 < xf d 3 1 % 8 ||
    (if k = 3 ∧ xfHmode d = 2 then xfLen d % 32 != 0 || xfLen d == 0 else xfLen d % 64 != 0 || xfLen d == 0) ||
    [xfSrc d, xfDst d, xfRec d, xfNext d, if k = 5 then xfAux d else 0].any (fun a => a % 64 != 0)

/-- Spaces (R261, Table 8.4; R255 for the other side of `XFER`). The one side of a `FILL` is `DSP`. -/
def xfBadSpace (d : Bytes) (bulk : Bool) (cls : Nat) : Bool :=
  let k := xfKind d
  let ss := xfSsp d
  let ds := xfDsp d
  ((ss == 4 || ds == 4) && cls != 1) ||
    (if bulk then
      (ss ≤ 1 && k != 4) || ds ≤ 1 ||
        (match k with
         | 2 => ss != 3 && ds != 3
         | 4 => ss != 0 || ds == 3
         | 3 => ss == 3 || ds != 2
         | _ => ss == 3 || ds == 3)
     else
      match k with
      | 2 => !((ss == 0 && ds == 3) || (ss == 3 && ds == 0))
      | 3 => !(ds == 0 || ds == 2)
      | 4 => ss != 0 || ds != 0
      | 1 => (ss != 0 && ds != 0) || ss == 3 || ds == 3
      | _ => ss != 0 && ds != 0)

/-- Whether `n` bytes at an address lie in a space, for a take (own view, other views) or a bulk channel. -/
def inSpace (s : State) (take : Option (Nat × Nat)) (sp a n : Nat) : Bool :=
  match sp, take with
  | 0, some (m, k) => decide (a + n ≤ viewLen (frameOf (core s m) k))
  | 1, some (m, k) =>
    match placeOf s m k (bitsOf a 20 6) (bitsOf a 26 5) with
    | some (m', k') => decide (a < 2 ^ 31) && decide (a % 2 ^ 20 + n ≤ viewLen (frameOf (core s m') k'))
    | none => false
  | 2, _ => decide (a + n ≤ 2 ^ 48)
  | 3, _ => decide (a + n ≤ 2 ^ 57) && decide (a / 2 ^ 45 = (a + n - 1) / 2 ^ 45)
  | 4, _ => decide (a + n ≤ 2 ^ 64)
  | _, _ => false

/-- The codes of Table 8.11 that a descriptor meets at its check (R275, R277). -/
def descCodes (s : State) (take : Option (Nat × Nat)) (bulk : Option Nat) (cls op : Nat) (d : Bytes) : List Nat :=
  let k := xfKind d
  let fw := match bulk with
    | some b => fbit s F.bmvCtlFwown b 0
    | none => false
  let noOwner := match bulk with
    | some b => !fw && !registered (ctx s (fget s F.bmvCtlOwner b 0))
    | none => false
  let line := xfLine d
  (if classAllows cls k then [] else [0x10]) ++
  (if xfReserved d op then [0x11] else []) ++
  (if xfMisaligned d then [0x12] else []) ++
  (if xfBadSpace d bulk.isSome cls then [0x13] else []) ++
  (if (0x0A ≤ line ∧ line ≤ 0x0F) ∨ (bulk.isSome ∧ 1 ≤ line ∧ line ≤ 0x0F) ∨ (xfReqen d ∧ line = 0) then [0x14] else []) ++
  (if noOwner || (fw && (xfSsp d == 2 || xfDsp d == 2)) then [0x15] else []) ++
  (if (k == 4 || inSpace s take (xfSsp d) (xfSrc d) (xfLen d)) && inSpace s take (xfDsp d) (xfOut d) (xfOutLen d) &&
      (k != 5 || inSpace s take (xfSsp d) (xfAux d) (xfLen d)) then [] else [0x16]) ++
  (if xfFpAtom d ∧ fbit s F.glbDetEnf 0 0 then [0x17] else []) ++
  (if k = 3 ∧ (xfHmode d = 3 ∨ (xfHmode d = 0 ∧ xfAux d ≠ 0)) then [0x18] else []) ++
  (if (bulk.isNone ∧ xfNext d ≠ 0) ∨ (k ≠ 5 ∧ xfRec d ≠ 0) then [0x19] else [])

/-- The lowest of some codes. -/
def lowest : List Nat → Option Nat
  | [] => none
  | a :: t => some (t.foldl min a)

/-- A transfer fresh from its descriptor. -/
def xferNew (d : Bytes) (iaddr key : Nat) (step : BitVec 64) : Xfer :=
  ⟨d, iaddr, key, step, 0, [], [], [], false, false, [], false, false, false⟩

/-! ### Where a transfer stands (R270) -/

/-- Bytes of a transfer that have landed. -/
def landedBytes (x : Xfer) : Nat := min (xfLen x.desc) (x.landed.length * xfBurst x.desc)

/-- The next source address. -/
def srcAt (x : Xfer) : Nat := xfSrc x.desc + min (xfLen x.desc) (x.issued * xfBurst x.desc)

/-- The next destination address: of a digest or a record, which is written last, its own. -/
def dstAt (x : Xfer) : Nat := if xfGathers x.desc then xfOut x.desc else xfDst x.desc + landedBytes x

/-- A core channel that its transfer leaves idle, its registers as the transfer leaves them. -/
def chanIdle (h : CoreChan) (src dst rem : Nat) : CoreChan :=
  { h with xfer := none, paused := false, src := BitVec.ofNat 64 src, dst := BitVec.ofNat 64 dst, rem := BitVec.ofNat 32 rem }

/-- A core channel's failed transfer ends once no burst of it is under way (R631). -/
def settleChan (h : CoreChan) : CoreChan :=
  match h.xfer with
  | some x => if x.failed && x.flight.isEmpty then chanIdle h (srcAt x) (dstAt x) (xfLen x.desc - landedBytes x) else h
  | none => h

/-! ### Faults (R275, R278) -/

/-- `DONE` or `FAIL` of a bulk channel signalled. -/
def bulkSignal (s : State) (b : Nat) : State :=
  signal s (fbit s F.bmvCtlIrqen b 0) (fget s F.bmvCtlIrq b 0)

/-- The requests of a channel that are outstanding dropped. -/
def dropChan (s : State) (ch : ChanRef) : State :=
  { s with fab := { s.fab with reqs := s.fab.reqs.filter (fun q => (q.chan.map (·.1)) != some ch) } }

/-- What number added to a burst's stands for the read of region B of a compare among a channel's requests. -/
def halfBurst : Nat := 2 ^ 33

/-- The requests for one burst of a channel that are outstanding dropped. -/
def dropBurst (s : State) (ch : ChanRef) (k : Nat) : State :=
  let mine (q : Req) : Bool := q.chan == some (ch, k) || q.chan == some (ch, k + halfBurst)
  { s with fab := { s.fab with reqs := s.fab.reqs.filter fun q => !mine q } }

/-- What an agent waits for given up: it has ended. -/
def endWaits (s : State) (w : Waiter) : State :=
  { s with ctxs := s.ctxs.map fun e =>
      (e.1, { e.2 with vs := { e.2.vs with waits := e.2.vs.waits.filter (fun x => x.2 != w) } }) }

/-- A fault that burst `k` of a channel meets. A core channel records it and its core stops: the burst is lost, no further
one issues, and those that have issued complete (R631). A bulk channel ends its chain, with what was under way. -/
def moverFault (s : State) (ch : ChanRef) (k code : Nat) : State :=
  match ch with
  | .core n c =>
    let ia := ((chXfer s ch).map (·.iaddr)).getD 0
    let sq := 4 * (core s n.val).seq
    let s := modChan (endWaits (dropBurst s ch k) (.chan ch)) n.val c.val fun h =>
      settleChan { h with
        fault := true, reason := BitVec.ofNat 8 code
        xfer := h.xfer.map fun x => { x with failed := true, flight := x.flight.filter (fun b => b.k != k) } }
    stopCore s n.val ⟨3, c.val, code, ia, 0xFFFFFFFF, 0xFFFF, 0xFFFF, 0xFF, sq⟩
  | .bulk b =>
    let s := endWaits (dropChan (chPut s ch none) ch) (.chan ch)
    let s := fset (fset (fset (fset s F.bmvStatState b.val 0 3) F.bmvStatFail b.val 0 1) F.bmvStatFailcode b.val 0 code)
      F.bmvCtlEn b.val 0 0
    bulkSignal s b.val

/-! ### Reads and writes of a space -/

/-- How a read of a burst ends: with its bytes and the offsets of its poisoned lines, with the data still to come, with
a wait, or with a fault. -/
inductive Rd where
  | data (bs : Bytes) (bad : List Nat)
  | later
  | wait
  | fault (code : Nat)
  deriving DecidableEq, Repr

/-- A read request for a channel; the fault where nothing leads there (R348). -/
def readRemote (s : State) (ch : ChanRef) (x : Xfer) (k a n : Nat) : State × Rd :=
  match request s { pktInit with type := 2, dst := gDev a, addr := a, ext := n } none (some (ch, k)) none (chOwner s ch x) with
  | some s => (s, .later)
  | none => (s, .fault 0x1B)

/-- A read of `n` bytes of a space for burst `k` of a channel. -/
def spaceRead (s : State) (ch : ChanRef) (x : Xfer) (k sp a n : Nat) : State × Rd :=
  match sp, chTake ch x with
  | 0, some (m, key) =>
    let c := core s m
    let fr := frameOf c key
    (s, .data (vread c fr a n) (viewPoison c fr a n))
  | 1, some (m, key) =>
    match placeOf s m key (bitsOf a 20 6) (bitsOf a 26 5) with
    | some (m', k') =>
      let c := core s m'
      let fr := frameOf c k'
      if c.fenced then (s, .wait) else (s, .data (vread c fr (a % 2 ^ 20) n) (viewPoison c fr (a % 2 ^ 20) n))
    | none => (s, .fault 0x16)
  | 2, _ =>
    match chOwner s ch x with
    | some r =>
      match cvRead s r a n (.chan ch) with
      | (s, .ok, bs, bad) => (s, .data bs bad)
      | (s, .wait, _, _) => (s, .wait)
      | (s, .fault c, _, _) => (s, .fault c)
    | none => (s, .fault 0x15)
  | 3, _ =>
    if aliasOf s (gDev a) = ownDev s then
      if stalledAt s (chAsker s ch x) a n false then (s, .wait)
      else
      match globalRead s (chAsker s ch x) a n with
      | some r => (s, .data r.1 r.2)
      | none => (s, .fault 0x16)
    else readRemote s ch x k a n
  | _, _ => if hostUp s then (s, .later) else (s, .wait)

/-- How a write ends: in place, with the number of poisoned lines that it wrote, on its way as a request, waiting, or with
a fault. -/
inductive Wr where
  | done (lines : Nat)
  | sent
  | wait
  | fault (code : Nat)
  deriving DecidableEq, Repr

/-- What a write leaves at its destination: its bytes, or the elements there combined with them, with the marks of
both (R264, R323). -/
def mixAtom (atom : Nat) (old : Bytes × List Nat) (bs : Bytes) (bad : List Nat) : Bytes × List Nat :=
  if atom = 0 then (bs, bad) else (atomBytes atom old.1 bs, bad ++ old.2.filter (fun o => !bad.contains o))

/-- A write of whole lines of a space for burst `k` of a channel; `atom` is the operation of a `MOVG` (R264). -/
def spaceWrite (s : State) (ch : ChanRef) (x : Xfer) (k sp a atom : Nat) (bs : Bytes) (bad : List Nat) : State × Wr :=
  let n := bs.length
  match sp, chTake ch x with
  | 0, some (m, key) =>
    let c := core s m
    let fr := frameOf c key
    let w := mixAtom atom (vread c fr a n, viewPoison c fr a n) bs bad
    let s := modCore s m fun c => viewPut c fr a w.1 w.2
    (match keyCtx s key, keyPlace s m key with
      | some r, some (vx, vy) => if key < 8 then noteInbound s r vx vy a w.1 w.2 else s
      | _, _ => s, .done w.2.length)
  | 1, some (m, key) =>
    match placeOf s m key (bitsOf a 20 6) (bitsOf a 26 5) with
    | some (m', k') =>
      let c := core s m'
      if c.fenced || linesPending c k' [(a % 2 ^ 20, n)] then (s, .wait)
      else
        let s := modCore s m' fun c => viewPut c (frameOf c k') (a % 2 ^ 20) bs bad
        let s := match keyCtx s k' with
          | some r => if k' < 8 then mirrorWrite s r m' k' (bitsOf a 20 6) (bitsOf a 26 5) (a % 2 ^ 20) bs bad else s
          | none => s
        (s, .done bad.length)
    | none => (s, .fault 0x16)
  | 2, _ =>
    match chOwner s ch x with
    | some r =>
      let vs := (ctx s r).vs
      let w := mixAtom atom (vsRead vs a n, vsPoison vs a n) bs bad
      match cvWrite s r a w.1 w.2 (.chan ch) with
      | (s, .ok) => (s, .done w.2.length)
      | (s, .wait) => (s, .wait)
      | (s, .fault c) => (s, .fault c)
    | none => (s, .fault 0x15)
  | 3, _ =>
    if aliasOf s (gDev a) = ownDev s then
      if stalledAt s (chAsker s ch x) a n true then (s, .wait)
      else
      match globalRead s (chAsker s ch x) a n with
      | none => (s, .fault 0x16)
      | some old =>
        let w := mixAtom atom old bs bad
        match globalWrite s (chAsker s ch x) a w.1 w.2 with
        | some s => (s, .done w.2.length)
        | none => (s, .fault 0x16)
    else
      match request s { pktInit with type := if atom = 0 then 1 else 6, dst := gDev a, addr := a, data := bs,
                                      atom := atom, poison := poisonMap bad }
          none (some (ch, k)) none (chOwner s ch x) with
      | some s => (s, .sent)
      | none => (s, .fault 0x1B)
  | _, _ =>
    if hostUp s then (hostPut s a (mixAtom atom (mread s.hostMem a n, []) bs bad).1 (!bad.isEmpty), .done 0) else (s, .wait)

/-! ### Request lines (R267, Table 8.6) -/

/-- The running total of a request line as a take or a bulk channel sees it. -/
def lineTotal (s : State) (take : Option (Nat × Nat)) (line : Nat) : Nat :=
  if line = 1 then
    match take with
    | some (n, k) => (frameOf (core s n) k).rowsTot.toNat
    | none => 0
  else if line < 0x10 then
    match take with
    | some (n, k) => (tget (core s n).recv (8 * k + (line - 2)) 0).toNat
    | none => 0
  else if line < 0x30 then fget s F.fabRqcfgTotal 0 (line - 0x10)
  else if line < 0x38 then fget s F.hostIngtotTotal 0 (line - 0x30)
  else if line < 0x3C then fget s F.tcTickTotTotal 0 (line - 0x38)
  else (tget s.fab.lineTot (line - 0x3C) 0).toNat

/-- Whether burst `k` may issue. -/
def released (s : State) (ch : ChanRef) (x : Xfer) (k : Nat) : Bool :=
  if xfReqen x.desc then
    let d := (lineTotal s (chTake ch x) (xfLine x.desc) + 2 ^ 32 - xf x.desc 32 4) % 2 ^ 32
    decide (k + 1 ≤ d ∧ d ≤ 2 ^ 31 - 1)
  else true

/-! ### Bursts (R265) -/

/-- Whether a channel is stopped from issuing bursts (R270, R273). -/
def chHeld (s : State) (ch : ChanRef) : Bool :=
  match ch with
  | .core n c => let h := chanOf (core s n.val) c.val; h.pause || h.intPause
  | .bulk _ => false

/-- The read of a burst: of a compare by global address both regions, the second under a number of its own; nothing is
sent where either waits. -/
def burstRead (s : State) (ch : ChanRef) (x : Xfer) (k off n : Nat) : State × Rd × List (Bool × Bytes × List Nat) :=
  let d := x.desc
  let a := spaceRead s ch x k (xfSsp d) (xfSrc d + off) n
  if xfKind d ≠ 5 ∨ xfSsp d = 4 then (a.1, a.2, [])
  else
    match a.2 with
    | .wait | .fault _ => (a.1, a.2, [])
    | _ =>
      let b := spaceRead a.1 ch x (k + halfBurst) (xfSsp d) (xfAux d + off) n
      let part (w : Bool) (r : Rd) : List (Bool × Bytes × List Nat) :=
        match r with | .data bs bad => [(w, bs, bad)] | _ => []
      match a.2, b.2 with
      | .data bs bad, .data bs' bad' => (b.1, .data (bs ++ bs') (bad ++ bad'.map (n + ·)), [])
      | .later, .wait => (s, .wait, [])
      | _, .wait => (b.1, .wait, [])
      | _, .fault c => (b.1, .fault c, [])
      | _, _ => (b.1, .later, part false a.2 ++ part true b.2)

/-- Whether a burst's read waits for a chunk of the reel that streams, in either region of a compare (R487). -/
def burstHole (s : State) (ch : ChanRef) (x : Xfer) (off n : Nat) : Bool :=
  xfSsp x.desc == 2 && (chOwner s ch x).any fun r =>
    reelHole s r (xfSrc x.desc + off) n || (xfKind x.desc == 5 && reelHole s r (xfAux x.desc + off) n)

/-- A burst issued: its read, and the burst under way. -/
def issueBurst (s : State) (ch : ChanRef) (x : Xfer) : State :=
  let d := x.desc
  let k := x.issued
  let off := k * xfBurst d
  let n := min (xfBurst d) (xfLen d - off)
  let hole := burstHole s ch x off n
  let go (s : State) (bs : Option Bytes) (bad : List Nat) (hs : List (Bool × Bytes × List Nat)) : State :=
    chMod s ch fun x => { x with issued := k + 1, flight := x.flight ++ [⟨k, off, n, bs, bad, hs⟩], starved := false }
  if xfKind d = 4 then go s (some ((List.replicate (n / 8) (leBytes 8 (xfAux d))).flatten)) [] []
  else
    match burstRead s ch x k off n with
    | (s, .later, hs) => go s none [] hs
    | (s, .wait, _) => chMod s ch fun x => { x with starved := hole }
    | (s, .fault c, _) => moverFault s ch k c
    | (s, .data bs bad, _) => go s (some bs) bad []

/-- `BURST_ISSUE` (R267): the next burst issues where its request has come and the channel is not paused. -/
def execBurstIssue (ch : ChanRef) (s : State) : Host.Outcome State Fault Refusal :=
  onClock s (chanClock ch) fun s =>
  match chXfer s ch with
  | some x =>
    if x.issued < xfBursts x.desc ∧ !x.failed ∧ !chHeld s ch ∧ released s ch x x.issued then .next (issueBurst s ch x) else .next s
  | none => .next s

/-- Bytes reordered within groups (R263, Table 8.5). -/
def swapBytes (mode : Nat) (bs : Bytes) : Bytes :=
  let order : List Nat := match mode with
    | 0 => [1, 0]
    | 1 => [3, 2, 1, 0]
    | 2 => [1, 0, 3, 2]
    | _ => [7, 6, 5, 4, 3, 2, 1, 0]
  let g := order.length
  ((List.range (bs.length / g)).map fun i => order.map fun o => bs.getD (i * g + o) 0).flatten

/-- The `KEY` of a transfer's `INPUT` entry, but for its occurrence (Table 11.4). -/
def inputKey (s : State) (ch : ChanRef) (x : Xfer) : Nat :=
  let p := match chTake ch x with
    | some (n, k) => (keyPlace s n k).getD (0xFFFF, 0xFFFF)
    | none => (0xFFFF, 0xFFFF)
  xfOut x.desc + p.1 * 2 ^ 64 + p.2 * 2 ^ 80 + xfDsp x.desc * 2 ^ 96

/-- How many `INPUT` entries of a step have a key, whatever its occurrence. -/
def occurrences (es : List LogEnt) (key : Nat) : Nat :=
  (es.filter (fun e => e.type == 2 && e.key % 2 ^ 104 == key)).length

/-- The entries of the step that an entry made now is bound to, or those bound to the next step (R391). -/
def boundEntries (s : State) (r : Nat) (sel : Option (Nat × Nat)) : List LogEnt :=
  match boundStep s r sel with
  | some t => t.logged
  | none => (ctx s r).log.unbound

/-- The bytes a transfer has gathered, in order; of a compare, region A and then region B. -/
def gathered (x : Xfer) : Bytes :=
  let at_ (k : Nat) : Option Burst := x.got.find? (fun b => b.k == k)
  let bs := (List.range (xfBursts x.desc)).filterMap at_
  let a := (bs.map fun b => (b.data.getD []).take b.len).flatten
  if xfKind x.desc = 5 then a ++ (bs.map fun b => (b.data.getD []).drop b.len).flatten else a

/-- The step of a transfer changed: that of its take, or the owner's home-set step. -/
def modXferStep (s : State) (ch : ChanRef) (x : Xfer) (f : Step → Step) : State :=
  match chTake ch x with
  | some (n, k) => modKeyStep s n k f
  | none =>
    match chOwner s ch x with
    | some r => modCtx s r fun c => { c with step := c.step.map f }
    | none => s

/-- An outcome of a transfer's step. -/
def xferOutcome (s : State) (ch : ChanRef) (x : Xfer) (o : Nat) : State := modXferStep s ch x (noteOutcome o)

/-- The `KEY` of an input with its occurrence in the step (Table 11.4). -/
def occKey (s : State) (r : Nat) (sel : Option (Nat × Nat)) (key : Nat) : Nat :=
  key + occurrences (boundEntries s r sel) key % 2 ^ 24 * 2 ^ 104

/-- An `INPUT` entry: made in LIVE; in REPLAY compared with the log, where a step runs, or else at the next launch (R388,
R391, R398). Also how it diverges. -/
def logInput (s : State) (r : Nat) (sel : Option (Nat × Nat)) (key data : Nat) (bs : Bytes) : State × Option (Nat × BitVec 64) :=
  let full := occKey s r sel key
  let e : LogEnt := ⟨2, r, 0, 0, 0, full, data, rootOf bs ++ List.replicate 32 0⟩
  let t := logFor s r sel 2 full data e.payload
  match boundStep s r sel with
  | some st =>
    match inputDiffers s r st.id e with
    | some kind => (diverge t r kind st.id, some (kind, st.id))
    | none => (t, none)
  | none => (t, none)

/-- The `INPUT` entry of a transfer that has read every byte from the host bus (R395). -/
def inputEntry (s : State) (ch : ChanRef) (x : Xfer) : State :=
  match chOwner s ch x with
  | none => s
  | some r =>
    let p := logInput s r (chTake ch x) (inputKey s ch x) (xfSrc x.desc + xfLen x.desc * 2 ^ 64) (gathered x)
    if p.2.isSome then modXferStep p.1 ch x noteDiverged else p.1

/-- A burst's data kept, where the transfer needs it after its write: a digest, a compare, an input of the host bus. -/
def keepBurst (x : Xfer) (b : Burst) : Xfer :=
  if xfGathers x.desc ∨ xfSsp x.desc = 4 then
    if x.got.any (fun g => g.k == b.k) then x else { x with got := x.got ++ [b] }
  else x

/-- Every burst of a transfer has been read. -/
def allRead (x : Xfer) : Bool :=
  decide (x.issued = xfBursts x.desc) && x.flight.all (fun b => b.data.isSome)

/-- Data arrived for a burst: kept, and the transfer's input entry made once every byte is there. -/
def burstData (s : State) (ch : ChanRef) (k : Nat) (bs : Bytes) (bad : List Nat) : State :=
  let s := chMod s ch fun x =>
    let fl := x.flight.map fun b => if b.k = k ∧ b.data.isNone then { b with data := some bs, poison := bad } else b
    (fl.filter (fun b => b.k == k)).foldl keepBurst { x with flight := fl }
  match chXfer s ch with
  | some x =>
    if xfSsp x.desc = 4 ∧ allRead x ∧ !x.logged then inputEntry (chMod s ch fun x => { x with logged := true }) ch x else s
  | none => s

/-- The answer to a read request of a channel: the data of a burst, or one region of a compare, whose burst has its data
with the other. -/
def readData (s : State) (ch : ChanRef) (k : Nat) (bs : Bytes) (bad : List Nat) : State :=
  let i := k % halfBurst
  match (chXfer s ch).filter (fun x => xfKind x.desc == 5) |>.bind (fun x => x.flight.find? (fun b => b.k == i)) with
  | none => burstData s ch i bs bad
  | some b =>
    let hs := b.halves ++ [(decide (halfBurst ≤ k), bs, bad)]
    match hs.find? (fun h => !h.1), hs.find? (fun h => h.1) with
    | some p, some q => burstData s ch i (p.2.1 ++ q.2.1) (p.2.2 ++ q.2.2.map (b.len + ·))
    | _, _ => chMod s ch fun x => { x with flight := x.flight.map fun c => if c.k = i then { c with halves := hs } else c }

/-- Whether a transfer's input entry is not yet made, or waits for room (R395). -/
def inputHeld (s : State) (ch : ChanRef) (x : Xfer) : Bool :=
  if xfSsp x.desc ≠ 4 then false
  else if !x.logged then true
  else
    match chOwner s ch x with
    | some r => (ctx s r).log.q.any (fun e => e.type == 2 && e.key % 2 ^ 104 == inputKey s ch x)
    | none => false

/-- Whether every byte has been read and burst `k` is the one whose read completed last: its write is the one that waits for
the input entry (R395). -/
def lastRead (x : Xfer) (k : Nat) : Bool := allRead x && x.got.getLast?.any (fun b => b.k == k)

/-- A burst landed: no longer under way, its lines no longer write-pending. -/
def landBurst (s : State) (ch : ChanRef) (k : Nat) : State :=
  let s := chMod s ch fun x => { x with landed := x.landed ++ [k], flight := x.flight.filter (fun b => b.k != k) }
  match ch with
  | .core n c => modChan s n.val c.val settleChan
  | .bulk _ => s

/-- Whether a request for burst `k` of a channel is outstanding. -/
def reqOut (s : State) (ch : ChanRef) (k : Nat) : Bool := s.fab.reqs.any (fun q => q.chan == some (ch, k))

/-- Poison that a transfer writes (R324). -/
def xferPoison (s : State) (ch : ChanRef) (x : Xfer) (lines : Nat) : State :=
  match chTake ch x with
  | some (n, k) => notePoison s n k lines
  | none => s

/-- The core and frame whose scratchpad a transfer writes at one of its destination addresses, with the view address
(R262). -/
def landPlace (s : State) (ch : ChanRef) (x : Xfer) (a : Nat) : Option (Nat × Nat × Nat) :=
  match xfDsp x.desc, chTake ch x with
  | 0, some (m, key) => some (m, key, a)
  | 1, some (m, key) => (placeOf s m key (bitsOf a 20 6) (bitsOf a 26 5)).map fun p => (p.1, p.2, a % 2 ^ 20)
  | _, _ => none

/-- Whether a transfer would write a print-shadowed line with `n` bytes at one of its destination addresses (R465). -/
def landShadowed (s : State) (ch : ChanRef) (x : Xfer) (a n : Nat) : Bool :=
  match landPlace s ch x a with
  | some (m, k, v) => shadowed (core s m) (frameOf (core s m) k) [(v, n)]
  | none => false

/-- The page that a source address of a transfer names: of the owner's space, or by global address a page of this device
(R261). -/
def sourcePage (s : State) (ch : ChanRef) (x : Xfer) (a : Nat) : Option (Nat × Nat) :=
  match xfSsp x.desc with
  | 2 => (chOwner s ch x).map fun r => (r, pageOf a)
  | 3 =>
    if aliasOf s (gDev a) = ownDev s ∧ bitsOf a 44 1 = 0 then
      match physAt s (chAsker s ch x) (a % 2 ^ 44) with
      | some (.page r va) => some (r, pageOf va)
      | _ => none
    else none
  | _ => none

/-- The 256-byte lines that a burst fills from a page being printed are print-shadowed (R465). -/
def shadowFill (s : State) (ch : ChanRef) (x : Xfer) (b : Burst) : State :=
  match landPlace s ch x (xfDst x.desc + b.off) with
  | none => s
  | some (m, k, a) =>
    (List.range ((b.len + 255) / 256 + 1)).foldl
      (fun s i =>
        match sourcePage s ch x (xfSrc x.desc + b.off + min (256 * i) (b.len - 1)) with
        | none => s
        | some (r, pg) =>
          let printing := ((tfind (ctx s r).vs.pages pg).map (·.printing)).getD false
          if printing && decide (a / 256 * 256 + 256 * i < a + b.len) then
            modCore s m fun c =>
              { c with shadow := tset c.shadow (vphys (frameOf c k) (a / 256 * 256 + 256 * i) / 256) (shadowName r pg) }
          else s) s

/-- The write of a burst whose data is there. -/
def landWrite (s : State) (ch : ChanRef) (x : Xfer) (b : Burst) (bs : Bytes) : State :=
  let d := x.desc
  let out := if xfKind d = 6 then swapBytes (xfSwp d) bs else bs
  if landShadowed s ch x (xfDst d + b.off) b.len then s else
  match spaceWrite s ch x b.k (xfDsp d) (xfDst d + b.off) (xfAtom d) out b.poison with
  | (s, .wait) => s
  | (s, .fault c) => moverFault s ch b.k c
  | (s, .sent) => if b.poison.isEmpty then s else xferPoison s ch x b.poison.length
  | (s, .done lines) =>
    let s := if b.poison.isEmpty ∧ lines = 0 then s else xferPoison s ch x lines
    landBurst (shadowFill s ch x b) ch b.k

/-- `BURST_COMPLETE` (R265): the data of a burst lands; a `HASH` or `CMPM` takes it in. -/
def execBurstComplete (ch : ChanRef) (k : Nat) (s : State) : Host.Outcome State Fault Refusal :=
  onClock s (chanClock ch) fun s =>
  match chXfer s ch with
  | none => .next s
  | some x =>
    match x.flight.find? (fun b => b.k == k) with
    | none => .next s
    | some b =>
      match b.data with
      | none => .next s
      | some bs =>
        if xfGathers x.desc then
          let s := chMod s ch fun x =>
            { keepBurst x b with poison := x.poison || !b.poison.isEmpty }
          .next (landBurst s ch k)
        else if reqOut s ch k || (lastRead x k && inputHeld s ch x) then .next s
        else .next (landWrite s ch x b bs)

/-- `HOST_READ_COMPLETION` (R573). -/
def execHostReadCompletion (ch : ChanRef) (k : Nat) (read : HostRead) (s : State) :
    Host.Outcome State Fault Refusal :=
  onClock s (chanClock ch) fun s =>
  match chXfer s ch with
  | none => .next s
  | some x =>
    match x.flight.find? (fun b => b.k == k && b.data.isNone) with
    | none => .next s
    | some b =>
      if xfSsp x.desc ≠ 4 then .next s
      else
        match read with
        | .data bs ep =>
          let want := if xfKind x.desc = 5 then 2 * b.len else b.len
          if bs.length = want then
            .next (burstData s ch k bs (if ep then (List.range ((want + 63) / 64)).map (64 * ·) else []))
          else .fault (.badOperand "length of the data of a host-bus read")
        | _ => .next (moverFault s ch k 0x1B)

/-! ### Digests and compare records (R282 to R286) -/

/-- The output of a `HASH`. -/
def hashOut (x : Xfer) : Bytes :=
  let bs := gathered x
  match xfHmode x.desc with
  | 1 => (leavesOf (xfAux x.desc) bs).flatten
  | 2 => treeRoot (xfAux x.desc) bs
  | _ => rootOf bs

/-- The offsets of the lines that differ between regions A and B, a poisoned line of either among them. -/
def diffLines (x : Xfer) : List Nat :=
  (x.got.map fun b =>
    let d := b.data.getD []
    let a := d.take b.len
    let c := d.drop b.len
    (((List.range (b.len / 64)).map (64 * ·)).filter fun o =>
      (a.drop o).take 64 != (c.drop o).take 64 || b.poison.contains o || b.poison.contains (b.len + o)).map (b.off + ·)).flatten

/-- The first offset at which two byte sequences differ. -/
def firstDiff (a b : Bytes) : Option Nat :=
  ((a.zip b).zipIdx.find? (fun p => p.1.1 != p.1.2)).map (·.2)

/-- The lines of both regions that are poisoned, by offset: region A from 0 on, region B from `LEN` on. -/
def comparePoison (x : Xfer) : List Nat :=
  (x.got.map fun b =>
    b.poison.map fun o => if o < b.len then b.off + o else xfLen x.desc + b.off + (o - b.len)).flatten.mergeSort

/-- The compare record (Table 8.9). Where the lines that differ do so only by poison, no byte differs: the manual gives no
offset, and it is an open value of the two regions. -/
def cmpmOut (x : Xfer) : Bytes :=
  let bs := gathered x
  let n := xfLen x.desc
  let ls := diffLines x
  let fo := match firstDiff (bs.take n) (bs.drop n), ls.isEmpty with
    | some o, _ => o
    | none, true => 2 ^ 64 - 1
    | none, false => Config.compareOffset bs (comparePoison x) % 2 ^ 64
  leBytes 1 (if ls.isEmpty then 1 else 0) ++ leBytes 1 (if x.poison then 1 else 0) ++ leBytes 6 0 ++ leBytes 8 fo ++
    leBytes 8 ls.length ++ leBytes 8 0

/-- The number under which a channel's last write, of a digest or a record, stands beside its bursts. -/
def lastBurst (x : Xfer) : Nat := xfBursts x.desc

/-- The last write of a transfer: the digest or the record, poison marks on the lines of a digest where the source had any
(R282, R286); nothing where it has been acknowledged. -/
def lastWrite (s : State) (ch : ChanRef) (x : Xfer) : State × Wr :=
  if !xfGathers x.desc || x.landed.contains (lastBurst x) then (s, .done 0)
  else if reqOut s ch (lastBurst x) then (s, .sent)
  else if landShadowed s ch x (xfOut x.desc) (xfOutLen x.desc) then (s, .wait)
  else
    let out := if xfKind x.desc = 3 then hashOut x else cmpmOut x
    let bad := if xfKind x.desc = 3 ∧ x.poison then (List.range ((out.length + 63) / 64)).map (64 * ·) else []
    let w := spaceWrite s ch x (lastBurst x) (xfDsp x.desc) (xfOut x.desc) 0 out bad
    match w.2 with
    | .done _ => (if bad.isEmpty then w.1 else xferPoison w.1 ch x bad.length, w.2)
    | _ => w

/-- Whether every burst of a transfer has landed. -/
def allLanded (x : Xfer) : Bool := decide (xfBursts x.desc ≤ x.landed.length)

/-- Whether a channel's transfer may complete: not in PAUSED, and with a last write still to issue, not held (R270,
R274). -/
def mayComplete (h : CoreChan) (x : Xfer) : Bool := !h.paused && !(xfGathers x.desc && (h.pause || h.intPause))

/-- `TRANSFER_COMPLETE` (R269): the last write is acknowledged, and the channel is idle. -/
def execTransferComplete (ch : ChanRef) (s : State) : Host.Outcome State Fault Refusal :=
  onClock s (chanClock ch) fun s =>
  match ch, chXfer s ch with
  | .core n c, some x =>
    if !allLanded x || inputHeld s ch x || !mayComplete (chanOf (core s n.val) c.val) x then .next s
    else
      match lastWrite s ch x with
      | (s, .done _) =>
        .next (modChan s n.val c.val fun h =>
          chanIdle h (xfSrc x.desc + xfLen x.desc) (xfOut x.desc + xfOutLen x.desc) 0)
      | (s, .fault code) => .next (moverFault s ch (lastBurst x) code)
      | (s, _) => .next s
  | _, _ => .next s

/-! ### Pause and resume (R270 to R273) -/

/-- `PAUSE`. -/
def execPause (n : CoreId) (c : Fin 4) (s : State) : Host.Outcome State Fault Refusal :=
  onClock s (coreClock n.val) fun s =>
  .next (modChan s n.val c.val fun h => { h with pause := true })

/-- `CHANNEL_PAUSED`: nothing is under way, and the state becomes PAUSED; a transfer whose last write is acknowledged has
completed instead (R269). -/
def execChannelPaused (n : CoreId) (c : Fin 4) (s : State) : Host.Outcome State Fault Refusal :=
  onClock s (coreClock n.val) fun s =>
  let h := chanOf (core s n.val) c.val
  match h.xfer with
  | some x =>
    if (h.pause || h.intPause) && x.flight.isEmpty && (xfGathers x.desc || !allLanded x) then
      .next (modChan s n.val c.val fun h => { h with paused := true })
    else .next s
  | none => .next s

/-- `RESUME_TRANSFER`: `PAUSE` is cleared, and the transfer goes on unless the internal request holds it. -/
def execResumeTransfer (n : CoreId) (c : Fin 4) (s : State) : Host.Outcome State Fault Refusal :=
  onClock s (coreClock n.val) fun s =>
  .next (modChan s n.val c.val fun h => { h with pause := false, paused := h.paused && h.intPause })

/-- The context virtual ranges of a transfer: address and length. -/
def xferPages (x : Xfer) : List (Nat × Nat) :=
  let d := x.desc
  (if xfSsp d = 2 ∧ xfKind d ≠ 4 then
    (xfSrc d, xfLen d) :: (if xfKind d = 5 then [(xfAux d, xfLen d)] else []) else []) ++
  (if xfDsp d = 2 then [(xfOut d, xfOutLen d)] else [])

/-- Whether a page migration keeps a transfer waiting: its range meets a page that moves (R311). -/
def meetsMove (s : State) (x : Xfer) : Bool :=
  match keyCtx s x.key with
  | some r =>
    (ctx s r).vs.pages.any fun p => p.2.move.isSome &&
      (xferPages x).any fun g => decide (g.1 < (p.1 + 1) * 2 ^ 21 ∧ p.1 * 2 ^ 21 < g.1 + g.2)
  | none => false

/-- The internal pause request of a channel (R273): of the page manager, where its transfer meets a page that migrates, and
of an online test on its core. -/
def askPause (s : State) (tested : Bool) (h : CoreChan) : CoreChan :=
  let on := tested || h.xfer.any (meetsMove s)
  { h with intPause := on, paused := h.paused && (h.pause || on) }

/-- The internal pause requests as the migrations and the online test now ask for them. -/
def intPauseAll (s : State) : State :=
  { s with cores := s.cores.map fun e =>
      (e.1, { e.2 with chans := e.2.chans.map fun h => (h.1, askPause s (e.2.use == 3) h.2) }) }

/-! ### Bulk channels (R276 to R280) -/

/-- The descriptor in `BMV_DESC0` to `BMV_DESC7`. -/
def bulkDesc (s : State) (b : Nat) : Bytes := ((List.range 8).map fun w => leBytes 8 (fget s F.bmvDescData b w)).flatten

/-- A bulk channel's descriptor checked and started, or the code. -/
def bulkCheck (s : State) (b : Nat) (d : Bytes) : Option Nat :=
  lowest (descCodes s none (some b) (fget s F.bmvCtlClass b 0) (xfKind d) d)

/-- The identifier of the step that a bulk transfer's input entries bind to. -/
def bulkStep (s : State) (b : Nat) : BitVec 64 :=
  ((ctx s (fget s F.bmvCtlOwner b 0)).step.map (·.id)).getD (BitVec.allOnes 64)

/-- `BMV_ENABLE` (R277, R611): the other fields of the write, then the check, then the start. DESIGN CHOICE (log 147): on a
device that a fault has stopped, which starts no transfer (R495), a check that passes leaves `EN` at 0. -/
def execBmvEnable (b : BulkId) (w : RegWrite) (s : State) : Host.Outcome State Fault Refusal :=
  onBar false s fun s =>
  if fbit s F.bmvCtlEn b.val 0 ∨ !w.data.getLsbD 0 ∨ w.half = .high then .next s
  else
    let v := w.data.toNat
    let s := fset s F.bmvCtlClass b.val 0 (bitsOf v 1 2)
    let s := fset s F.bmvCtlOwner b.val 0 (bitsOf v 3 6)
    let s := fset s F.bmvCtlFwown b.val 0 (bitsOf v 9 1)
    let s := fset s F.bmvCtlIrq b.val 0 (bitsOf v 10 8)
    let s := fset s F.bmvCtlIrqen b.val 0 (bitsOf v 18 1)
    let d := bulkDesc s b.val
    match bulkCheck s b.val d with
    | some code => .next (refuse (fset s F.bmvStatReason b.val 0 code) 2 b.val code)
    | none =>
      if s.faulted then .next s
      else
        let s := endWaits (wake s []) (.chan (.bulk b))
        let s := fset (fset (fset s F.bmvCtlEn b.val 0 1) F.bmvStatState b.val 0 1) F.bmvStatDesccnt b.val 0 0
        .next (chPut s (.bulk b) (some (xferNew d 0 0 (bulkStep s b.val))))

/-- The destination bytes of one descriptor left undefined where this device or its host holds them; nothing is issued for
them, and no page is mapped. -/
def scrambleDesc (s : State) (b : BulkId) (d : Bytes) : State :=
  let q := drawFree s
  let a := xfOut d
  let bs : Bytes := (List.range (xfOutLen d)).map fun i => BitVec.ofNat 8 (Config.free (q.1 + i))
  match xfDsp d with
  | 2 =>
    if fbit s F.bmvCtlFwown b.val 0 then s
    else
      let r := fget s F.bmvCtlOwner b.val 0
      bs.zipIdx.foldl
        (fun s e =>
          if (tfind (ctx s r).vs.pages (pageOf (a + e.2))).isNone then s
          else modCtx s r fun c => { c with vs := vsSet c.vs (a + e.2) e.1 }) q.2
  | 3 => if aliasOf s (gDev a) = ownDev s then (globalWrite q.2 .host a bs []).getD s else s
  | 4 => hostWrite q.2 a bs
  | _ => s

/-- What a disabled chain leaves undefined (R279): every destination byte of its descriptors, and `DESCCNT`. -/
def bulkScramble (s : State) (b : BulkId) (x : Xfer) : State :=
  let p := drawFree s
  (x.chain ++ [x.desc]).foldl (fun s d => scrambleDesc s b d) (fset p.2 F.bmvStatDesccnt b.val 0 (p.1 % 2 ^ 32))

/-- A bulk channel stopped at once (R279). -/
def bulkStop (s : State) (b : BulkId) : State :=
  match tfind s.bulk b.val with
  | none => s
  | some x =>
    let s := endWaits (dropChan (bulkScramble s b x) (.bulk b)) (.chan (.bulk b))
    fset (fset (chPut s (.bulk b) none) F.bmvCtlEn b.val 0 0) F.bmvStatState b.val 0 0

/-- `BMV_DISABLE` (R279). -/
def execBmvDisable (b : BulkId) (w : RegWrite) (s : State) : Host.Outcome State Fault Refusal :=
  onBar false s fun s =>
  if w.data.getLsbD 0 ∨ w.half = .high then .next s else .next (bulkStop s b)

/-- The next descriptor of a chain loaded, checked and started, or the chain failed (R278). -/
def bulkNext (s : State) (b : BulkId) (x : Xfer) (d : Bytes) : State :=
  match bulkCheck s b.val d with
  | some code => moverFault s (.bulk b) 0 code
  | none =>
    chPut s (.bulk b) (some { xferNew d 0 0 (bulkStep s b.val) with chain := x.chain ++ [x.desc] })

/-- The number that stands for the read of `NEXT` among a channel's requests. -/
def nextBurst : Nat := 2 ^ 32

/-- The chain's next descriptor read: from the owner's virtual space, or from a global address for the firmware. -/
def bulkFetch (s : State) (b : BulkId) (x : Xfer) : State :=
  let a := xfNext x.desc
  let sp := if fbit s F.bmvCtlFwown b.val 0 then 3 else 2
  if reqOut s (.bulk b) nextBurst then s
  else if !inSpace s none sp a 64 then moverFault s (.bulk b) 0 0x16
  else
    match spaceRead s (.bulk b) x nextBurst sp a 64 with
    | (s, .data bs _) => bulkNext s b x bs
    | (s, .fault c) => moverFault s (.bulk b) 0 c
    | (s, _) => s

/-- A descriptor of a chain that has completed: counted once, and the chain done, or going on to its next (R278). -/
def bulkDone (s : State) (b : BulkId) (x : Xfer) : State :=
  let s := if x.counted then s else fcount (chMod s (.bulk b) fun x => { x with counted := true }) F.bmvStatDesccnt b.val 0 1
  if xfNext x.desc = 0 then
    let s := chPut s (.bulk b) none
    bulkSignal (fset (fset (fset s F.bmvStatState b.val 0 2) F.bmvStatDone b.val 0 1) F.bmvCtlEn b.val 0 0) b.val
  else bulkFetch s b x

/-- `BMV_DESC_COMPLETE` (R278). -/
def execBmvDescComplete (b : BulkId) (s : State) : Host.Outcome State Fault Refusal :=
  onClock s (edgeClock (b.val / 32)) fun s =>
  match tfind s.bulk b.val with
  | none => .next s
  | some x =>
    if x.counted then .next (bulkDone s b x)
    else if !allLanded x || inputHeld s (.bulk b) x then .next s
    else
      match lastWrite s (.bulk b) x with
      | (s, .done _) => .next (bulkDone s b x)
      | (s, .fault code) => .next (moverFault s (.bulk b) 0 code)
      | (s, _) => .next s

end Sys2Proof.Machine
end

