-- ==== Sys2Proof/Machine/Sched.lean ====
section
/-! DEFINITION. Takes and cores (R202 to R206, R421 to R424): which take a core runs, cuts and their commits (R204, R400,
R499), the end of a core's part of a step, token counts and their delivery (R197 to R202), launch requests (R383, R385),
the trap record and the stop of a core (R631). -/

namespace Sys2Proof.Machine

/-! ### Code (R178, R213) -/

/-- The code size of a frame in bundles. -/
def codeSize (fr : Frame) : Nat := 256 * fr.segs.length

/-- The bundle at a program address. -/
def fetchBundle (c : Core) (fr : Frame) (a : Nat) : BitVec 128 := tget c.istore (256 * fr.segs.getD (a / 256) 0 + a % 256) 0

/-! ### Tokens (R197 to R202) -/

/-- The declaration of a token channel of the virtual core of a key. -/
def chanDecl (s : State) (n k q : Nat) : ChanDecl :=
  match keyImage s n k with
  | some ic => ic.chans.getD q .none
  | none => .none

/-- The `RECV` count of a channel of a key. -/
def recvOf (c : Core) (k q : Nat) : BitVec 32 := tget c.recv (8 * k + q) 0

/-- Tokens received and not consumed. -/
def tokensReady (c : Core) (k : Nat) (fr : Frame) (q : Nat) : Nat := (recvOf c k q - tget fr.cons q 0).toNat

/-- The later of two totals in 32-bit modular order (R199). -/
def laterTotal (a b : BitVec 32) : BitVec 32 := if (b - a).toNat < 2 ^ 31 then b else a

/-- The token count that a `WAITTOK` or `SENDTOK` names (R228). -/
def tokCount (fr : Frame) (f : TokF) : BitVec 32 :=
  if f.imm then f.k.setWidth 32 else sreg fr (f.k.toNat % 32)

/-- Whether the `WAITTOK` that a slot holds has its tokens; anything else is ready. -/
def tokReady (c : Core) (k : Nat) (fr : Frame) (i : CInstr) : Bool :=
  match i with
  | .waittok f => decide ((tokCount fr f).toNat ≤ tokensReady c k fr f.q.toNat)
  | .recvAny f => (List.range 8).any fun q => f.mask.getLsbD q && decide (1 ≤ tokensReady c k fr q)
  | _ => true

/-- The control slot that a key's frame would issue next. -/
def nextC (c : Core) (fr : Frame) : CInstr :=
  match decodeC ((fetchBundle c fr fr.pc).extractLsb' 96 32) with
  | .ok i => i
  | .error _ => .nop

/-! ### Choosing a take (R421 to R423) -/

/-- The priority of a take's key. -/
def takePrio (s : State) (k : Nat) : Nat :=
  match keyCtx s k with
  | some r => cget s r F.ctxCtlPrio 0
  | none => 0

/-- Whether a take of a key may run: its context is RESIDENT, and the device has not stopped (R409, R495). -/
def takeAllowed (s : State) (k : Nat) : Bool :=
  match keyCtx s k with
  | some r => (ctx s r).st == .resident && !s.faulted
  | none => false

/-- The priority that a core gives the takes of a key: that of its latest cut (R421). -/
def corePrio (s : State) (n k : Nat) : Nat := tget (core s n).prios (k % 8) (takePrio s k)

/-- At a cut, a core takes over the priorities as they stand (R421). -/
def latchPrios (s : State) (n : Nat) : State :=
  modCore s n fun c => { c with prios := c.prios.map fun e => (e.1, takePrio s e.1) }

/-- Whether a take goes before another one (R421): higher priority; the longer ready; the lower slot; the home set's. -/
def takeBefore (s : State) (n : Nat) (a b : TakeEnt) : Bool :=
  let p := corePrio s n a.key
  let q := corePrio s n b.key
  decide (q < p) || (p == q && (decide (a.since < b.since) || (a.since == b.since &&
    (decide (a.key % 8 < b.key % 8) || (a.key % 8 == b.key % 8 && decide (a.key < b.key))))))

/-- The better of two pending takes. -/
def betterTake (s : State) (n : Nat) (best : Option TakeEnt) (e : TakeEnt) : Option TakeEnt :=
  if e.rest || !takeAllowed s e.key then best
  else
    match best with
    | none => some e
    | some b => if takeBefore s n e b then some e else best

/-- The take a core would choose. -/
def pickTake (s : State) (n : Nat) : Option Nat := ((core s n).takes.foldl (betterTake s n) none).map (·.key)

/-- Whether an online test has a core, or waits for it to be free (R520). -/
def coreTested (s : State) (n : Nat) : Bool :=
  match s.test.online with
  | some (kind, i, _) => kind == 0 && i == n
  | none => false

/-- A floating step that a core begins, the first of its cores: its wait counts up to now (R442). -/
def beginFloat (s : State) (n k : Nat) : State :=
  match decide (k < 8), keyCtx s k, keyStep s n k with
  | false, some r, some st =>
    if st.begun then s
    else ccount (modKeyStep s n k fun st => { st with begun := true }) r F.ctxAcctWaitNs 0 (s.tcount - st.acceptTc)
  | _, _, _ => s

/-- The core runs a take, or is idle. -/
def chooseTake (s : State) (n : Nat) : State :=
  let c := core s n
  if c.fenced || coreTested s n then setCore s n { c with running := none, hold := 0, wait := false }
  else
    match pickTake s n with
    | some k =>
      let s := setCore s n { c with running := some k, hold := 0, wait := false, takes := c.takes.filter (fun e => e.key != k) }
      beginFloat s n k
    | none => setCore s n { c with running := none, hold := 0, wait := false }

/-- The `KEY` of a choice of a virtual core (Table 11.4). -/
def choiceKey (p : Nat × Nat) (fr : Frame) : Nat :=
  1 + p.1 * 2 ^ 16 + p.2 * 2 ^ 32 + fr.take.toNat * 2 ^ 48 + fr.occ % 2 ^ 32 * 2 ^ 80

/-- The channel that a step has logged before under a key (R393), or that a replay's log gives (R229). -/
def choiceLogged (s : State) (r : Nat) (st : Step) (key : Nat) : Option Nat :=
  match st.logged.find? (fun e => e.type == 5 && e.key == key) with
  | some e => some (e.data % 256)
  | none => if logReplay s r then (replayFind s r 5 st.id key).map (fun e => (e.data.headD 0).toNat) else none

/-- The logged choice that a core's key has before it. -/
def nextLogged (s : State) (n k : Nat) : Option Nat :=
  match keyCtx s k, keyStep s n k with
  | some r, some st => choiceLogged s r st (choiceKey ((keyPlace s n k).getD (0, 0)) (frameOf (core s n) k))
  | _, _ => none

/-- Whether the `WAITTOK` that a slot holds may issue: `RECV_ANY` with a logged choice waits for that channel (R229). -/
def waitMet (c : Core) (k : Nat) (fr : Frame) (logged : Option Nat) (i : CInstr) : Bool :=
  match i, logged with
  | .recvAny _, some q => decide (1 ≤ tokensReady c k fr q)
  | _, _ => tokReady c k fr i

/-- Whether the `WAITTOK` that a key of a core would issue next may issue. -/
def nextMet (s : State) (n k : Nat) : Bool :=
  let c := core s n
  let fr := frameOf c k
  waitMet c k fr (nextLogged s n k) (nextC c fr)

/-- Whether a core's running take is at rest: held on the `WAITTOK` it begins with, whose tokens have not come (R422). -/
def atRest (s : State) (n : Nat) : Bool :=
  let c := core s n
  match c.running with
  | some k => c.hold == 4 && (frameOf c k).fresh && !nextMet s n k
  | none => false

/-- A core that is idle, or whose take is at rest, turns to a pending take. -/
def kickCore (s : State) (n : Nat) : State :=
  let c := core s n
  if c.stop.isSome || (pickTake s n).isNone then s
  else
    match c.running with
    | none => chooseTake s n
    | some k => if atRest s n then chooseTake (setCore s n { c with takes := c.takes ++ [⟨k, true, 0⟩] }) n else s

/-- A take of a core pending from its present cycle on, behind those that were ready before; a slot that is new to the core
brings its priority. -/
def queueTake (s : State) (n k : Nat) : State :=
  modCore s n fun c =>
    { c with takes := c.takes.filter (fun e => e.key != k) ++ [⟨k, false, c.cycle⟩]
             prios := if (tfind c.prios (k % 8)).isSome then c.prios else tset c.prios (k % 8) (takePrio s k) }

/-- A take becomes pending (R421). -/
def addTake (s : State) (n k : Nat) : State := kickCore (queueTake s n k) n

/-- Where the start of an underrun episode of a core stands, and the remainder below 1,024 ns of a context (R487); no
register has these places. -/
def F.underSince : Fld := ⟨0x1000800, 0x1000, 0x0, 0, 64, 0, .ro⟩
def F.underRest : Fld := ⟨0x10C4F0, 0x10000, 0x0, 0, 64, 0, .ro⟩

/-- The length of a core's underrun episode, which ends now, added to a context's (R487). -/
def addUnder (s : State) (n r : Nat) : State :=
  let ns := cget s r F.underRest 0 + (s.tcount - fget s F.underSince n 0)
  cset (ccount s r F.ctxReelunderNs 0 (ns / 1024)) r F.underRest 0 (ns % 1024)

/-- The underrun episode of a core whose take is taken from it ended (R487). -/
def endUnder (s : State) (n : Nat) : State :=
  match (core s n).hold == 3, (core s n).running.bind (keyCtx s) with
  | true, some r => modCore (addUnder s n r) n fun c => { c with hold := 0 }
  | _, _ => s

/-- A take that leaves the core: running or waiting, it is gone, and the core chooses again. -/
def removeTake (s : State) (n k : Nat) : State :=
  let s := modCore s n fun c => { c with takes := c.takes.filter (fun e => e.key != k) }
  if (core s n).running = some k then chooseTake s n else s

/-! ### Deliveries (R202) -/

/-- A take at rest becomes pending where its `WAITTOK` has its tokens (R422). -/
def wakeRest (s : State) (n k : Nat) : State :=
  if (core s n).takes.any (fun e => e.key == k && e.rest) && nextMet s n k then addTake s n k else s

/-- A delivery applied to a receive channel of a key (R199). -/
def applyToken (s : State) (n k q : Nat) (v : BitVec 32) : State :=
  wakeRest (modCore s n fun c => { c with recv := tset c.recv (8 * k + q) (laterTotal (recvOf c k q) v) }) n k

/-- A delivery held by the token unit, the larger value kept for its channel and step (R202). -/
def holdToken (s : State) (r vx vy q : Nat) (step : Option (BitVec 64)) (v : BitVec 32) : State :=
  modCtx s r fun c =>
    match c.held.find? (fun h => h.vx == vx && h.vy == vy && h.ch == q && h.step == step) with
    | some h =>
      { c with held := c.held.map fun g => if g = h then { g with val := laterTotal g.val v } else g }
    | none => { c with held := c.held ++ [⟨vx, vy, q, step, v⟩] }

/-- How a delivery ends (R202, R358). -/
inductive TokEnd where
  | taken
  | notYet
  | refused
  deriving DecidableEq, Repr

/-- The step of a context under way with an identifier, with the keys' offset: 0 for the home-set step, 8 for a
floating one. -/
def runningStep (x : Ctx) (id : BitVec 64) : Option (Step × Nat) :=
  match x.step with
  | some t => if t.id = id then some (t, 0) else
    (x.floats.find? (fun f => f.launched && f.id == id)).map (fun f => (f, 8))
  | none => (x.floats.find? (fun f => f.launched && f.id == id)).map (fun f => (f, 8))

/-- Whether an accepted step of the context waits for its launch under an identifier. -/
def waitingStep (x : Ctx) (id : BitVec 64) : Bool :=
  x.queue.any (fun t => t.id == id) || x.floats.any (fun t => !t.launched && t.id == id)

/-- A shelved receive count updated (R358, R438). -/
def shelfToken (s : State) (r n q : Nat) (v : BitVec 32) : State :=
  modCtx s r fun c => { c with res := { c.res with shelf := c.res.shelf.map fun e =>
    if e.core = n then { e with recv := tset e.recv q (laterTotal (tget e.recv q 0) v) } else e } }

/-- The virtual cores that a step's deliveries may name: those of the image's grid, or of a sampling step's own. -/
def tokenCores (x : Ctx) (step : Option (BitVec 64)) : List CoreImage :=
  match x.img with
  | none => []
  | some img =>
    match step.bind fun id => x.floats.find? (fun f => f.id == id) with
    | some f => ((img.floats.find? (fun p => p.1 == f.entry)).map (·.2)).getD []
    | none => img.cores

/-- A delivery between two contexts (R202, R425): applied where a step of the context runs on the core, or held for the next
launch. -/
def deliverUnbound (s : State) (r vx vy q : Nat) (v : BitVec 32) : State :=
  let x := ctx s r
  match x.step.bind fun st => st.cores.find? (fun c => c.vx == vx && c.vy == vy && c.st == .running) with
  | some c =>
    if onShelf x then shelfToken s r c.core.val q v else applyToken s c.core.val ((x.slot.map (·.val)).getD 0) q v
  | none => holdToken s r vx vy q none v

/-- A delivery of a step (R202): applied where the step runs on the core, held where it waits for its launch, discarded where it
is among the latest that have completed, and otherwise not yet delivered. -/
def deliverBound (s : State) (r vx vy q : Nat) (id : BitVec 64) (v : BitVec 32) : State × TokEnd :=
  let x := ctx s r
  match runningStep x id with
  | some (t, o) =>
    match t.cores.find? (fun c => c.vx == vx && c.vy == vy) with
    | some c =>
      if onShelf x then (shelfToken s r c.core.val q v, .taken)
      else if (core s c.core.val).fenced then (s, .notYet)
      else (applyToken s c.core.val ((x.slot.map (·.val)).getD 0 + o) q v, .taken)
    | none => (s, .notYet)
  | none =>
    if waitingStep x id then (holdToken s r vx vy q (some id) v, .taken)
    else if x.doneIds.contains id then (s, .taken)
    else (s, .notYet)

/-- A token delivery to a virtual core of a context: refused where the image declares no such receive channel, or one
whose peer is of the other kind, in its context or in another one (R425). -/
def deliverToken (s : State) (r vx vy q : Nat) (step : Option (BitVec 64)) (v : BitVec 32) : State × TokEnd :=
  let x := ctx s r
  let ic := (tokenCores x step).find? (fun c => c.vx == vx && c.vy == vy)
  match registered x, (ic.map (fun c => c.chans.getD q .none)).getD .none, step with
  | true, .recv true, none => (deliverUnbound s r vx vy q v, .taken)
  | true, .recv false, some id => deliverBound s r vx vy q id v
  | _, _, _ => (s, .refused)

/-- A queue of collectives at a launch. -/
def collInit : CollQ := ⟨0, 0, [], [], none⟩

/-- The TOKEN packet of a delivery to another device (Table 10.5). -/
def tokenPacket (st : Step) (rcv dst vx vy ch : Nat) (v : BitVec 32) : Packet :=
  let id := st.id.toNat
  { pktInit with type := 5, dst := dst, addr := vx + vy * 2 ^ 6 + ch * 2 ^ 11 + rcv * 2 ^ 14 + id % 2 ^ 32 * 2 ^ 32,
                 ext := id / 2 ^ 32, reqid := v.toNat }

/-- Whether a token for another device finds its port without room: no credits, a full replay buffer, or packets of its
pool that wait already (R39, R337, R353). -/
def tokenStuck (s : State) (n k : Nat) (peer : ChanPeer) (v : BitVec 32) : Bool :=
  match keyCtx s k, keyStep s n k, peer with
  | some r, some st, .core dev pctx vx vy ch =>
    let dst := dev.getD (ownDev s)
    let pk := { tokenPacket st ((pctx.map (·.val)).getD r) dst vx vy ch v with src := ownDev s, pool := poolFor s (some r) }
    aliasOf s dst != ownDev s && !passiveFor s r &&
      (routePort s pk).any fun p =>
        !portTakes s p pk || (port s p).queue.any (fun w => portPool s p w.1 == portPool s p pk)
  | _, _, _ => false

/-- A token sent to its peer (R198): an on-chip delivery on its way, a count of a reduce engine's queue (R360), or a
TOKEN packet (Table 10.5); one that cannot leave ends the step with `FAILED_LINK`. -/
def sendToken (s : State) (n k : Nat) (peer : ChanPeer) (v : BitVec 32) : State :=
  match keyCtx s k, keyStep s n k with
  | some r, some st =>
    match peer with
    | .engine e =>
      modCtx s r fun c =>
        let q := tget c.colls e.val collInit
        { c with colls := tset c.colls e.val { q with start := v } }
    | .core dev pctx vx vy ch =>
      let dst := dev.getD (ownDev s)
      let rcv := (pctx.map (·.val)).getD r
      let bound := if pctx.isSome then none else some st.id
      if aliasOf s dst = ownDev s then
        { s with tokens := s.tokens ++ [⟨Fin.ofNat 64 rcv, vx, vy, ch, v, bound⟩] }
      else
        match request s (tokenPacket st rcv dst vx vy ch v) (some v.toNat) none none (some r) with
        | some s => s
        | none => modKeyStep s n k (noteOutcome stLink)
  | _, _ => s

/-! ### Launch requests (R383, R385) -/

/-- A launch requested of the timecode unit: ignored where one is pending for the same, its target raised to 200 counts
from now where it is earlier. -/
def askLaunch (s : State) (r : Nat) (w : LaunchOf) (target : Nat) : State :=
  if s.time.launches.any (fun l => l.ctx.val == r && l.what == w) then fcount s F.tcLaunchDup 0 0 1
  else
    let late := decide (target < s.tcount + 200)
    let s := if late then fcount s F.tcLaunchLate 0 0 1 else s
    let t := if late then s.tcount + 200 else target
    { s with time := { s.time with launches := s.time.launches ++ [⟨Fin.ofNat 64 r, w, t⟩] } }

/-- The launch pending for a step that carries a launch timecode, or for a group. -/
def pendingFor (s : State) (r : Nat) (w : LaunchOf) : Option PendLaunch :=
  s.time.launches.find? (fun l => l.ctx.val == r && l.what == w)

/-- A pending launch taken. -/
def takeLaunch (s : State) (r : Nat) (w : LaunchOf) : State :=
  { s with time := { s.time with launches := s.time.launches.filter (fun l => !(l.ctx.val == r && l.what == w)) } }

/-! ### Check slots (R506, R507) -/

/-- The threshold of `CHK_FRAC` over 64. -/
def chkLimit (f : Nat) : Nat :=
  match f with
  | 1 => 1
  | 2 => 2
  | 3 => 4
  | 4 => 8
  | _ => 0

/-- Whether a home-set take of a protected context is checked (R506). -/
def takeChecked (s : State) (r : Nat) (st : Step) (vx vy : Nat) (take : Nat) : Bool :=
  let id := st.id.toNat
  let w := philoxU st.seed.toNat (id % 2 ^ 32 + id / 2 ^ 32 * 2 ^ 32) (vy * 65536 + vx) take
  cget s r F.ctxRelstatProt 0 == 1 && decide (w % 64 < chkLimit (cget s r F.ctxRelcfgChkFrac 0))

/-- Check slots in use on the device. -/
def checkSlots (s : State) : Nat := (s.ctxs.map fun e => e.2.checks.length).sum

/-- The bytes of a core's carried granules, by view address, with their poison marks (R498). -/
def carriedBytes (c : Core) (fr : Frame) (gs : List Nat) : Mem :=
  let marks (m : Mem) (g : Nat) : Mem :=
    (List.range 1024).foldl
      (fun m i => if vpoison c fr (g * 32768 + 32 * i) then mset m (2 ^ 20 + g * 1024 + i) 1 else m) m
  gs.foldl (fun m g => marks (mwrite m (g * 32768) (vread c fr (g * 32768) 32768)) g) []

/-- What is kept of a virtual core of a context at a cut (R498, R507). -/
def cutImage (s : State) (n k r : Nat) : CutImage :=
  let c := core s n
  let fr := frameOf c k
  let place := (keyPlace s n k).getD (0, 0)
  { frame := fr
    bytes := carriedBytes c fr (((keyImage s n k).map (·.carried)).getD [])
    recv := (c.recv.filter (fun e => e.1 / 8 == k)).map fun e => (e.1 % 8, e.2)
    contribs := ((((ctx s r).step).map (·.contribs)).getD []).filter fun c => c.vx == place.1 && c.vy == place.2 }

/-- A check slot opened for a take that is checked. -/
def openCheck (s : State) (r k n vx vy : Nat) (take : BitVec 32) : State :=
  match (ctx s r).step with
  | some st =>
    if takeChecked s r st vx vy take.toNat ∧ checkSlots s < 64 then
      modCtx s r fun c =>
        { c with checks := c.checks ++
            [⟨st.id, vx, vy, take, Fin.ofNat 1344 n, cutImage s n k r, [], false, [], 0, none⟩] }
    else s
  | none => s

/-- The contributions that a virtual core has made since its latest cut (R400). -/
def pendingMade (cs : List Contrib) (vx vy : Nat) : Tbl Digest :=
  cs.foldl (fun t c => if c.vx = vx ∧ c.vy = vy ∧ c.cur ≠ c.base then (c.cur.map (tset t c.point)).getD t else t) []

/-- The check slot of a take that has reached its closing cut. -/
def closeCheck (s : State) (r vx vy : Nat) (take : BitVec 32) (made : Tbl Digest) : State :=
  modCtx s r fun c => { c with checks := c.checks.map fun k =>
    if k.vx = vx ∧ k.vy = vy ∧ k.take = take then { k with closed := true, made := made, since := s.tcount } else k }

/-! ### Cuts (R204) -/

/-- The pending contributions of a virtual core committed, or discarded (R400, R631). -/
def contribsAt (vx vy : Nat) (commit : Bool) (cs : List Contrib) : List Contrib :=
  cs.map fun c => if c.vx = vx ∧ c.vy = vy then (if commit then { c with base := c.cur } else { c with cur := c.base }) else c

/-- The commit of a protected core's take, on its way to the buddy (R499). -/
def commitMirror (s : State) (n k r : Nat) : State :=
  if cget s r F.ctxRelstatProt 0 = 0 ∨ 8 ≤ k then s
  else
    let img := cutImage s n k r
    modCore s n fun c =>
      { c with mirrors := tset c.mirrors k { tget c.mirrors k ⟨none, none, none⟩ with coming := some img } }

/-- The failed core's bit of the home set replaced by the new core's, at the retake's closing cut (R502). -/
def replaceHome (s : State) (n k r : Nat) : State :=
  match tfind (core s n).replaces k with
  | none => s
  | some old =>
    let clr (s : State) (m : Nat) (on : Bool) : State :=
      let v := cget s r F.ctxHomeCores (m / 64)
      let b := 2 ^ (m % 64)
      cset s r F.ctxHomeCores (m / 64) (if v.testBit (m % 64) then (if on then v else v - b) else (if on then v + b else v))
    modCore (clr (clr s old false) n true) n fun c => { c with replaces := tdel c.replaces k }

/-- What a cut does to the take that it closes (R204, R421): accumulators emptied, priorities taken over, the take
committed, `TAKE` advanced. DESIGN CHOICE (log 148): the running values of FAST stay (R238). -/
def closeTake (s : State) (n k : Nat) : State :=
  let s := latchPrios (modCore s n fun c => { c with acc := [] }) n
  match keyCtx s k, keyPlace s n k with
  | some r, some (vx, vy) =>
    let take := (frameOf (core s n) k).take
    let made := pendingMade (((keyStep s n k).map (·.contribs)).getD []) vx vy
    let s := modKeyStep s n k fun st => { st with contribs := contribsAt vx vy true st.contribs }
    let s := modFrame s n k fun fr => { fr with take := fr.take + 1, takecyc := 0, occ := 0, fresh := true }
    let s := replaceHome (commitMirror s n k r) n k r
    if k < 8 then closeCheck s r vx vy take made else s
  | _, _ => modFrame s n k fun fr => { fr with take := fr.take + 1, takecyc := 0, occ := 0, fresh := true }

/-- The check slot of the take that a core's next bundle opens (R507). -/
def openTake (s : State) (n k : Nat) : State :=
  match keyCtx s k, keyPlace s n k with
  | some r, some (vx, vy) => if k < 8 then openCheck s r k n vx vy (frameOf (core s n) k).take else s
  | _, _ => s

/-- Whether a checked take that has not issued yet waits for its check slot (R507). A retake is never checked (R506). -/
def slotOwed (s : State) (n k : Nat) : Bool :=
  let fr := frameOf (core s n) k
  decide (k < 8) && fr.fresh && (tfind (core s n).replaces k).isNone &&
    match keyCtx s k, keyStep s n k, keyPlace s n k with
    | some r, some st, some (vx, vy) =>
      takeChecked s r st vx vy fr.take.toNat &&
        !(ctx s r).checks.any fun c => c.step == st.id && c.vx == vx && c.vy == vy && c.take == fr.take
    | _, _, _ => false

/-- What a `CUT` does before the core yields: one take is closed and the next one opened. -/
def cutCore (s : State) (n k : Nat) : State := openTake (closeTake s n k) n k

/-- The part of a virtual core in its step set. -/
def setPart (s : State) (n k : Nat) (p : PartSt) : State :=
  modKeyStep s n k fun st =>
    { st with cores := st.cores.map fun c => if c.core.val = n then { c with st := p } else c }

/-- The frame that a mirror holds for the current take brought up to a core's own (R499). -/
def markFrame (s : State) (n k : Nat) : State :=
  modCore s n fun c =>
    let put (i : CutImage) : CutImage := { i with frame := frameOf c k }
    let put (m : Mirror) : Mirror :=
      if m.coming.isSome then { m with coming := m.coming.map put } else { m with image := m.image.map put }
    { c with mirrors := (tfind c.mirrors k).elim c.mirrors fun m => tset c.mirrors k (put m) }

/-- The oldest program place that waits for a cut of a part taken up; `keep` has the part's own place wait in turn
(R386, R421). -/
def turnEntry (s : State) (n k : Nat) (keep : Bool) : State :=
  match tget (core s n).entries k [] with
  | [] => s
  | e :: rest =>
    let fr := frameOf (core s n) k
    let own := if keep then [(fr.pc, fr.loops)] else []
    let s := modFrame (modCore s n fun c => { c with entries := tset c.entries k (rest ++ own) }) n k fun fr =>
      { fr with pc := e.1, loops := e.2, fresh := true }
    markFrame s n k

/-- The core's part of the step is over: an entry that waited for it starts (R386), or the core chooses again. -/
def endPart (s : State) (n k : Nat) (p : PartSt) : State :=
  match tget (core s n).entries k [], p with
  | _ :: _, .finished => addTake (modCore (openTake (turnEntry s n k false) n k) n fun c => { c with running := none }) n k
  | _, _ => chooseTake (setPart s n k p) n

/-- The core yields at a cut (R204, R386, R421): a launched entry that waits takes its part's place; the running take is
pending from now, and another take of the same or a higher priority that was ready before goes first; a switch to another
context counts as a pre-emption (R442). A take whose context is being disabled ends here (R418). -/
def yieldCut (s : State) (n k : Nat) : State :=
  match keyCtx s k with
  | none => s
  | some r =>
    if (ctx s r).st = .disabling then
      endPart (modCore (modKeyStep s n k (noteOutcome stCancelled)) n fun c => { c with entries := tdel c.entries k }) n k
        .finished
    else
      let s := queueTake (modCore (turnEntry s n k true) n fun c => { c with running := none }) n k
      let s := chooseTake s n
      if (core s n).running = some k ∨ (core s n).running = none then s
      else if (core s n).running.map (· % 8) = some (k % 8) then s
      else ccount s r F.ctxAcctPreemptCount 0 1

/-! ### The stop of a core (R72, R221, R275, R631) -/

/-- The 64-byte trap record (Table 2.10). -/
def trapRecord (s : State) (r : Nat) (id : BitVec 64) (take : BitVec 32) (vx vy : Nat) (t : StopRec) : Bytes :=
  leBytes 1 t.type ++ leBytes 1 r ++
    (if t.type = 2 ∨ t.type = 3 then leBytes 1 t.b2 ++ leBytes 1 t.b3
     else if t.type = 4 then leBytes 1 0xFF ++ leBytes 1 0 else leBytes 2 0) ++
    leBytes 8 id.toNat ++ leBytes 4 take.toNat ++ leBytes 2 vx ++ leBytes 2 vy ++ leBytes 2 t.iaddr ++ leBytes 2 0 ++
    leBytes 4 t.kblock ++ leBytes 4 0 ++ leBytes 2 t.row ++ leBytes 2 t.col ++ leBytes 4 0 ++ leBytes 8 s.tcount ++
    leBytes 1 t.outFmt ++ leBytes 15 0

/-- The outcome of a step for a stop cause (R71, R275). -/
def stopOutcome (t : StopRec) : Nat :=
  match t.type with
  | 1 => stNan
  | 4 => stTimeout
  | 3 => if t.b3 = 0x1B then stLink else stCore
  | _ => stCore

/-- Whether everything a core's running take has issued has completed. -/
def coreQuiet (c : Core) (k : Nat) : Bool := c.flight.isEmpty && (xfersOf c k).isEmpty

/-- A stopped core's end: the trap record, the units emptied, pending contributions discarded, the core freed (R631).
DESIGN CHOICE (log 122): the record's place counts with the width of the home-set grid for a floating step too. -/
def finishStop (s : State) (n k : Nat) (t : StopRec) : State :=
  match keyCtx s k, keyStep s n k, keyPlace s n k with
  | some r, some st, some (vx, vy) =>
    let base := cget s r F.ctxTrapBaseAddr 0
    let w := ((ctx s r).img.map (·.width)).getD 0
    let take := (frameOf (core s n) k).take
    let s := if base = 0 then s else hostWrite s (base + 64 * (vy * w + vx)) (trapRecord s r st.id take vx vy t)
    let s := modCore s n fun c => { c with acc := [], qa := [], qb := [], stop := none }
    let s := modKeyStep s n k fun st =>
      noteOutcome (stopOutcome t)
        { st with trapped := st.trapped + 1, contribs := contribsAt vx vy false st.contribs }
    endPart s n k .stopped
  | _, _, _ => modCore s n fun c => { c with stop := none, running := none }

/-- `CORE_STOP` (R631): once the last instruction and transfer issued have completed. -/
def execCoreStop (n : CoreId) (s : State) : Host.Outcome State Fault Refusal :=
  onClock s (coreClock n.val) fun s =>
  let c := core s n.val
  match c.stop, c.running with
  | some t, some k => if coreQuiet c k then .next (finishStop s n.val k t) else .next s
  | _, _ => .next s

/-- `TAKE_TIMEOUT` (R206): the running take has reached 500,000 non-hold cycles. -/
def execTakeTimeout (n : CoreId) (s : State) : Host.Outcome State Fault Refusal :=
  onClock s (coreClock n.val) fun s =>
  let c := core s n.val
  match c.running with
  | some k =>
    let fr := frameOf c k
    if 500000 ≤ fr.takecyc then
      .next (stopCore s n.val ⟨4, 0xFF, 0, fr.pc, 0xFFFFFFFF, 0xFFFF, 0xFFFF, 0xFF, 4 * c.seq⟩)
    else .next s
  | none => .next s

/-- The domain of the token unit that a delivery goes to: that of its virtual core, or of the first tile where the
context has none for it. -/
def tokenClock (s : State) (t : TokenMove) : ScanDomain :=
  let x := ctx s t.ctx.val
  let n := match (t.step.bind (runningStep x)).bind fun p => p.1.cores.find? (fun c => c.vx == t.vx && c.vy == t.vy) with
    | some c => some c.core.val
    | none => homeCore x t.vx t.vy
  coreClock (n.getD 0)

/-- `TOKEN_DELIVERY` (R202): the i-th delivery under way arrives; one not yet taken is delivered again later (R352). -/
def execTokenDelivery (i : Nat) (s : State) : Host.Outcome State Fault Refusal :=
  match s.tokens[i]? with
  | none => .next s
  | some t =>
    onClock s (tokenClock s t) fun s =>
    match deliverToken s t.ctx.val t.vx t.vy t.ch t.step t.val with
    | (s', .notYet) => .next s'
    | (s', .taken) => .next { s' with tokens := s'.tokens.eraseIdx i }
    | (s', .refused) => .next { s' with tokens := s'.tokens.eraseIdx i }

end Sys2Proof.Machine
end

