-- ==== Sys2Proof/Machine/Slate.lean ====
section
/-! DEFINITION. What a step leaves behind (R397 to R406, R420, R429, R484): the digests of its slate, its status, its place
among the steps that wait for their record, and the cores it gives back. -/

namespace Sys2Proof.Machine

/-! ### Digests of a step (R400 to R404) -/

/-- Nothing, as a digest. -/
def noDigest : BitVec 256 := 0

/-- The committed contributions to a point, in order of vy, then vx. -/
def pointList (cs : List Contrib) (p : Nat) : Tbl (Nat × Nat × BitVec 256) :=
  cs.foldl
    (fun t c =>
      match c.base with
      | some d => if c.point = p then tset t (c.vy * 65536 + c.vx) (c.vx, c.vy, d) else t
      | none => t) []

/-- The digest of a point: absent, the one contribution, or the fold of all (R401). -/
def pointDigest (cs : List Contrib) (p : Nat) : Option (BitVec 256) :=
  match pointList cs p with
  | [] => none
  | [(_, _, _, d)] => some d
  | l => some (digestNat (sha3 (0x02#8 :: leBytes 2 p ++ leBytes 2 l.length ++
      (l.map fun e => leBytes 2 e.2.1 ++ leBytes 2 e.2.2.1 ++ digestBytes e.2.2.2).flatten)))

/-- An entry as the input digest takes it: `SEQ` and `TIMECODE` zero, `STEP_ID` that of its step (R403). -/
def entryDigest (id : BitVec 64) (e : LogEnt) : Bytes :=
  sha3 (0x04#8 :: logHeader { e with seq := 0, timecode := 0, step := id } ++ e.payload)

/-- The types that enter the input digest. -/
def inputType (t : Nat) : Bool := 1 ≤ t && t ≤ 6

/-- The input digest over a step's entries, sorted by type and key (R403). -/
def inputDigest (id : BitVec 64) (es : List LogEnt) : Bytes :=
  let t := (es.filter (fun e => inputType e.type)).foldl (fun t e => tset t (e.type * 2 ^ 128 + e.key) (entryDigest id e)) []
  sha3 (0x06#8 :: leBytes 4 t.length ++ (t.map (·.2)).flatten)

/-- A replayed entry as the log holds it. -/
def ofRec (e : LogRec) : LogEnt :=
  ⟨e.type, e.ctx, 0, e.timecode.toNat, e.stepId, leNat e.key, leNat e.data, e.payload⟩

/-- The entries bound to a step: those made in LIVE, those of the log in REPLAY, none where the log is off. -/
def boundLog (s : State) (r : Nat) (st : Step) : List LogEnt :=
  if logReplay s r then ((ctx s r).log.replay.filter (fun e => e.stepId == st.id)).map ofRec
  else if logLive s r then st.logged else []

/-- The image digest checked at enable, P (R402). -/
def imageDigest (s : State) (r : Nat) : Bytes := ((List.range 4).map fun w => leBytes 8 (cget s r F.ctxDigestData w)).flatten

/-- The step slate S (R402 to R404). -/
def stepSlate (s : State) (r : Nat) (st : Step) : BitVec 256 :=
  let w := digestBytes ((pointDigest st.contribs 0xFFD).getD st.reelDig)
  let res := digestBytes ((pointDigest st.contribs 0xFFF).getD noDigest)
  digestNat (sha3 (0x05#8 :: leBytes 1 (if st.nonrepro then 1 else 0) ++ imageDigest s r ++ w ++
    inputDigest st.id (boundLog s r st) ++ res))

/-! ### The end of a step (R71, R404, R405, R420) -/

/-- The statuses whose record carries S and R (R405). -/
def slated (status : Nat) : Bool := [stOk, stRetaken, stPoison, stNan].contains status

/-- The status of a step from its outcomes and retakes (R497). -/
def statusOf (st : Step) : Nat := stepStatus (st.outcomes ++ if st.retakes = 0 then [] else [stRetaken])

/-- A step's status, slate and result fixed. -/
def fixStep (s : State) (r : Nat) (st : Step) : Step :=
  let code := statusOf st
  if slated code && st.launched then
    { st with status := code, slate := stepSlate s r st, result := (pointDigest st.contribs 0xFFF).getD noDigest }
  else { st with status := code, slate := noDigest, result := noDigest }

/-- Whether a step's slate differs from the logged one though its inputs matched (R398). -/
def slateDiffers (s : State) (r : Nat) (st : Step) : Bool :=
  logReplay s r && !st.diverged &&
    match (ctx s r).log.replay.find? (fun e => e.type == 8 && e.stepId == st.id) with
    | some e => e.payload.take 32 != digestBytes st.slate
    | none => false

/-- A mismatch counted, and the first one recorded while nothing has diverged (R398). -/
def noteMismatch (s : State) (r : Nat) (st : Step) : State :=
  let first := cget s r F.ctxReplayMismatch 0 == 0 && cget s r F.ctxReplayDiverge 0 == 0
  let s := ccount s r F.ctxReplayMismatch 0 1
  if first then cset s r F.ctxReplayStepStepId 0 st.id.toNat else s

/-- Whether a step's end must be settled with the partner before its record is written: every step of a twin, and the
home-set steps of a mirror primary (R511, R515). -/
def pairSettles (s : State) (r : Nat) (st : Step) : Bool :=
  let p := cget s r F.ctxRelcfgPair 0
  st.launched &&
    ((p == 1 && fget s F.pairStatState 0 0 == 2 && !st.floating) || (p == 3 && (passiveFor s r || activeFor s r)))

/-- The completion record (Table 18.5). -/
def completionBytes (st : Step) (phase : Nat) : Bytes :=
  let fl := phase + (if st.nonrepro then 2 else 0) + (if st.floating then 4 else 0)
  leBytes 1 st.status ++ leBytes 1 fl ++ leBytes 1 st.entry ++ leBytes 1 ((st.fallback.map (· + 1)).getD 0) ++
    leBytes 4 st.count ++ leBytes 8 st.id.toNat ++ leBytes 8 st.reqid.toNat ++ leBytes 4 st.reelGen.toNat ++
    leBytes 2 st.trapped ++ leBytes 2 (min st.retakes 0xFFFF) ++ leBytes 4 st.poisoned ++ leBytes 4 0 ++
    leBytes 8 st.acceptTc ++ leBytes 8 (if st.launched then st.launchTc else 0) ++ leBytes 8 st.endTc ++
    digestBytes st.slate ++ digestBytes st.result

/-- What a settled step sends its partner: a twin its slate, a mirror primary its completion record and the lines of its
commit with their poison marks, which are shipped until the stand-in has acknowledged them (R511, R515). -/
def pairShip (s : State) (r : Nat) (st : Step) : State :=
  if !st.pairWait then s
  else if cget s r F.ctxRelcfgPair 0 = 3 then
    onPorts s pairUp msgSlate ([r, st.id.toNat] ++ (digestBytes st.slate).map (·.toNat))
  else
    let vs := (ctx s r).vs
    let marks (l : Nat) : List Nat := vsPoison vs (256 * l) 256
    let line (l : Nat) : List Nat := (256 * l) :: (marks l).length :: (marks l ++ (vsRead vs (256 * l) 256).map (·.toNat))
    let s := onPorts s pairUp msgCommit ([r, st.id.toNat] ++ (completionBytes st 0).map (·.toNat) ++ (vs.wrote.map line).flatten)
    modCtx s r fun x =>
      { x with vs := { x.vs with wrote := [], shipping := x.vs.shipping ++ vs.wrote.map fun l => (st.id.toNat, l) } }

/-- A step of a context ends: its outcome is fixed, and it waits for its completion record. -/
def closeStep (s : State) (r : Nat) (st : Step) : State :=
  let st := { fixStep s r st with endTc := s.tcount, pairWait := pairSettles s r st }
  let s := if slateDiffers s r st then noteMismatch s r st else s
  let s :=
    if st.launched && !st.floating && st.fallback.isNone then
      cset s r F.ctxDlstatTlast 0 (min (2 ^ 40 - 1) (s.tcount - st.launchTc))
    else s
  modCtx (pairShip s r st) r fun c => { c with ended := c.ended ++ [st] }

/-- A step that never launched ends with an outcome. -/
def dropStep (s : State) (r : Nat) (o : Nat) (st : Step) : State := closeStep s r (noteOutcome o st)

/-! ### Cores given back -/

/-- A core given back by a step: its take is gone, and the units a blocked take held are empty; a retake that ends with it
ends (R502). -/
def freePart (k : Nat) (s : State) (c : StepCore) : State :=
  let n := c.core.val
  let s := (keyCtx s k).elim s (replaceHome s n k)
  if c.st ≠ .running then s
  else
    let s := if (core s n).running = some k then modCore (endUnder s n) n fun x => { x with acc := [], qa := [], qb := [] } else s
    removeTake s n k

/-- The granules and the frame of a floating step on a core given back (R429), and the priority of its slot, where the core has
no part of that slot's context. -/
def freeFloat (r k : Nat) (s : State) (c : StepCore) : State :=
  modCore s c.core.val fun x =>
    { x with granOwner := x.granOwner.filter (fun e => e.2 != 64 + r), frames := tdel x.frames k,
             vmap := tdel x.vmap k, recv := x.recv.filter (fun e => e.1 / 8 != k)
             prios := if (tfind x.vmap (k % 8)).isSome then x.prios else tdel x.prios (k % 8) }

/-! ### The frame and the reel of a launch (Table 6.1, Table 14.3) -/

/-- A table from a list, keys from 0. -/
def tblOf {α : Type} (l : List α) : Tbl α := l.zipIdx.map fun p => (p.2, p.1)

/-- The frame of a virtual core at a launch (Table 6.1). -/
def launchFrame (fr : Frame) (ic : CoreImage) (pc : Nat) (args : List (BitVec 32)) : Frame :=
  { frameInit with pc := pc, s := tblOf args, t := tblOf ic.descs, gran := fr.gran, segs := fr.segs }

/-- The address an image core declares for an entry. -/
def entryOf (ic : CoreImage) (e : Nat) : Option Nat := (ic.entries.find? (fun p => p.1 == e)).map (·.2)

/-- A core made ready for a launch: its frame, its counts at 0 (R201). -/
def readyCore (s : State) (n k : Nat) (ic : CoreImage) (pc : Nat) (args : List (BitVec 32)) : State :=
  modCore s n fun c =>
    { c with frames := tset c.frames k (launchFrame (frameOf c k) ic pc args),
             recv := c.recv.filter (fun e => e.1 / 8 != k), entries := tdel c.entries k, blank := c.blank.filter (· != k) }

/-- What Table 14.3 makes of a launch. -/
inductive ReelGo where
  | go (g : Nat)
  | wait
  | cancel
  deriving DecidableEq, Repr

/-- The reel generation of a home-set step at its launch (R484). -/
def reelGenOf (s : State) (r : Nat) (st : Step) : Nat :=
  if st.gen = 0 then
    (if cget s r F.ctxReelctlCommit 0 = 1 then cget s r F.ctxReelgenStggen 0 else cget s r F.ctxReelgenActgen 0)
  else st.gen.toNat

/-- A step with the generation of its launch, which its completion record carries (R484). -/
def withReelGen (s : State) (r : Nat) (st : Step) : Step := { st with reelGen := BitVec.ofNat 32 (reelGenOf s r st) }

/-- The reel generation of a step and the row of Table 14.3 that meets it (R484, R485). -/
def reelGo (s : State) (r : Nat) (st : Step) : ReelGo :=
  let act := cget s r F.ctxReelgenActgen 0
  let stg := cget s r F.ctxReelgenStggen 0
  let state := cget s r F.ctxReelstatState 0
  let g := reelGenOf s r st
  if g < (ctx s r).prevGen.toNat then .cancel
  else if g = act then .go g
  else if g = stg ∧ stg ≠ 0 ∧ (state = 1 ∨ state = 2) then .wait
  else .cancel

end Sys2Proof.Machine
end

