-- ==== Sys2Proof/Machine/Registry.lean ====
section
/-! DEFINITION. Registration (R207 to R212, R409 to R418): the map of a virtual grid onto a home set, what a context owns on
a core and how it is assigned and released, steps ended from outside, reels and snapshots ended early, the end of a
context. -/

namespace Sys2Proof.Machine

/-! ### The virtual grid (R20, R209 to R211, R427) -/

/-- The cores of a tile in serpentine order. -/
def serpentine (t : Nat) : List Nat :=
  (List.range 336).map fun i =>
    let r := i / 12
    let x := i % 12
    336 * t + 12 * r + (if r % 2 = 0 then x else 11 - x)

/-- The device's cores in placement order (R427). -/
def placementOrder : List Nat := ((List.range 4).map serpentine).flatten

/-- Whether a slot's home set names a core (R413). -/
def homeBit (s : State) (sl n : Nat) : Bool := (fget s F.ctxHomeCores sl (n / 64)).testBit (n % 64)

/-- The virtual cores of a tile in serpentine order over the tile's columns (R210, R211). -/
def tileVirtuals (w h t : Nat) : List (Nat × Nat) :=
  let cols := (List.range w).filter (fun vx => 4 * vx / w == t)
  ((List.range h).map fun vy => (if vy % 2 = 0 then cols else cols.reverse).map fun vx => (vx, vy)).flatten

/-- The usable home-set cores of a tile. -/
def tileCores (s : State) (sl t : Nat) : List Nat :=
  (serpentine t).filter (fun n => homeBit s sl n && (core s n).use == 0)

/-- Whether every tile has a core for each of its virtual cores (R210). -/
def gridFits (s : State) (sl : Nat) (img : Image) : Bool :=
  (List.range 4).all fun t => decide ((tileVirtuals img.width img.height t).length ≤ (tileCores s sl t).length)

/-- The map of a grid onto the home set of a slot (R211). -/
def mapGrid (s : State) (sl : Nat) (img : Image) : List (CoreId × Nat × Nat) :=
  ((List.range 4).map fun t =>
    ((tileCores s sl t).zip (tileVirtuals img.width img.height t)).map
      fun p => (Fin.ofNat 1344 p.1, p.2.1, p.2.2)).flatten

/-! ### Ownership on a core (R414, R498) -/

/-- Granules that nothing owns. -/
def freeGranules (c : Core) : List Nat := (List.range 24).filter (fun g => (tfind c.granOwner g).isNone)

/-- Code segments that nothing owns. -/
def freeSegments (c : Core) : List Nat := (List.range 16).filter (fun g => (tfind c.segOwner g).isNone)

/-- The owner mark of a context's granules, of those of its floating steps, and of the mirrors it keeps for others. -/
def ownHome (r : Nat) : Nat := r
def ownFloat (r : Nat) : Nat := 64 + r
def ownMirror (r : Nat) : Nat := 128 + r

/-- Owner marks set. -/
def ownAll (t : Tbl Nat) (gs : List Nat) (o : Nat) : Tbl Nat := gs.foldl (fun t g => tset t g o) t

/-- The core that mirrors a core of a context: the next of its tile in serpentine order, wrapping (R498). -/
def buddyOf (x : Ctx) (n : Nat) : Nat :=
  let tile := (x.map.map (fun m => m.1.val)).filter (fun m => tileOf m == tileOf n)
  let i := tile.findIdx (· == n)
  tile.getD ((i + 1) % tile.length) n

/-- The buddy of a core as things stand: the next of its tile that is not fenced (R504). -/
def buddyNow (s : State) (r n : Nat) : Nat :=
  let x := ctx s r
  buddyOf { x with map := x.map.filter (fun m => m.1.val == n || !(core s m.1.val).fenced) } n

/-- Granules that a mirror takes: the carried ones and one for the frame image. -/
def mirrorSize (ic : CoreImage) : Nat := ic.carried.length + 1

/-- Bytes, marks and code of granules and segments set to zero. -/
def wipe (c : Core) (gs ss : List Nat) : Core :=
  { c with scratch := c.scratch.filter (fun e => !gs.contains (e.1 / 32768)),
           poison := c.poison.filter (fun e => !gs.contains (e.1 / 1024)),
           istore := c.istore.filter (fun e => !ss.contains (e.1 / 256)) }

/-- Code written from program address 0 on. -/
def loadCode (c : Core) (fr : Frame) (code : List (BitVec 128)) : Core :=
  let put (t : Tbl (BitVec 128)) (p : BitVec 128 × Nat) : Tbl (BitVec 128) :=
    if p.1 = 0 then t else tset t (256 * fr.segs.getD (p.2 / 256) 0 + p.2 % 256) p.1
  { c with istore := code.zipIdx.foldl put c.istore }

/-- A core assigned to a virtual core of a context: granules and segments, wiped, the code and the first data of the
image loaded (R416). -/
def assignCore (r k : Nat) (img : Image) (code data : Bool) (s : State) (m : CoreId × Nat × Nat) : State :=
  match imgCore img m.2.1 m.2.2 with
  | none => s
  | some ic =>
    modCore s m.1.val fun c =>
      let gs := (freeGranules c).take ic.granules
      let ss := (freeSegments c).take ic.segments
      let fr := { frameInit with gran := gs, segs := ss }
      let c := wipe { c with granOwner := ownAll c.granOwner gs (ownHome r), segOwner := ownAll c.segOwner ss (ownHome r),
                             vmap := tset c.vmap k (m.2.1, m.2.2), frames := tset c.frames k fr } gs ss
      let c := if code then loadCode c fr ic.code else c
      if data then ic.data.foldl (fun c d => vwrite c fr d.1 [d.2]) c else c

/-- The mirror granules of a context claimed on its buddies, which begin with what each core begins with (R498). -/
def assignMirrors (s : State) (k r : Nat) : State :=
  let x := ctx s r
  x.map.foldl
    (fun s m =>
      match x.img.bind (fun i => imgCore i m.2.1 m.2.2) with
      | some ic =>
        let b := buddyOf x m.1.val
        let s := modCore s b fun c =>
          { c with granOwner := ownAll c.granOwner ((freeGranules c).take (mirrorSize ic)) (ownMirror r) }
        modCore s m.1.val fun c =>
          let fr := frameOf c k
          let m : Mirror := ⟨some (Fin.ofNat 1344 b), some ⟨fr, carriedBytes c fr ic.carried, [], []⟩, none⟩
          { c with mirrors := tset c.mirrors k m }
      | none => s) s

/-- What a context owns on a core given back (R418, R434). -/
def releaseCore (r k : Nat) (s : State) (m : CoreId × Nat × Nat) : State :=
  modCore s m.1.val fun c =>
    { c with granOwner := c.granOwner.filter (fun e => e.2 != ownHome r && e.2 != ownMirror r),
             segOwner := c.segOwner.filter (fun e => e.2 != ownHome r),
             vmap := tdel c.vmap k, blank := c.blank.filter (· != k), frames := tdel c.frames k, recv := c.recv.filter (fun e => e.1 / 8 != k),
             mirrors := tdel c.mirrors k, replaces := tdel c.replaces k, entries := tdel c.entries k,
             prios := tdel c.prios k, takes := c.takes.filter (fun e => e.key != k) }

/-- Whether the cores of a map have what an image declares unowned, mirrors included where they are wanted. -/
def coresHave (s : State) (img : Image) (x : Ctx) (prot : Bool) : Bool :=
  x.map.all fun m =>
    let c := core s m.1.val
    match imgCore img m.2.1 m.2.2 with
    | none => false
    | some ic =>
      let served := x.map.filter (fun o => prot && buddyOf x o.1.val == m.1.val)
      let mirrors := (served.map fun o => ((imgCore img o.2.1 o.2.2).map mirrorSize).getD 0).sum
      decide (ic.granules + mirrors ≤ (freeGranules c).length) && decide (ic.segments ≤ (freeSegments c).length)

/-! ### The shelf (R415) -/

/-- Pages of a context's shelf. -/
def shelfPages (img : Image) : Nat :=
  ((img.cores.map fun c => c.granules * 32768 + c.segments * 4096 + 4096).sum + 2 ^ 21 - 1) / 2 ^ 21

/-- The shelf's pages mapped at enable, protected where the image declares a key slot. -/
def mapShelf (s : State) (r : Nat) (img : Image) : State :=
  let first := cget s r F.ctxShelfVa 0 / 2 ^ 21
  (List.range (shelfPages img)).foldl
    (fun s i =>
      match placePage s r (first + i) (!img.keySlots.isEmpty) 0 with
      | some p => mapPage p.1 r (first + i) p.2
      | none => s) s

/-! ### Block fields (R410) -/

/-- The first key of a slot's block fields, and the number of keys a block spans. -/
def blockKey (sl : Nat) : Nat := (0x100000 + 0x10000 * sl) * 64
def blockSpan : Nat := 0xD000 * 64

/-- The block fields of a slot taken out of the registers, as keys of slot 0. -/
def saveBlock (s : State) (sl : Nat) : Tbl Nat :=
  (s.regs.filter (fun e => decide (blockKey sl ≤ e.1 ∧ e.1 < blockKey sl + blockSpan))).map
    fun e => (e.1 - blockKey sl + blockKey 0, e.2)

/-- The registers without a slot's block fields. -/
def clearBlock (s : State) (sl : Nat) : State :=
  { s with regs := s.regs.filter (fun e => !decide (blockKey sl ≤ e.1 ∧ e.1 < blockKey sl + blockSpan)) }

/-- Saved block fields written into a slot's block. -/
def restoreBlock (s : State) (sl : Nat) (t : Tbl Nat) : State :=
  t.foldl (fun s e => { s with regs := tset s.regs (e.1 - blockKey 0 + blockKey sl) e.2 }) (clearBlock s sl)

/-! ### Steps ended from outside -/

/-- The transfers of a take dropped. -/
def dropXfers (k : Nat) (s : State) (n : Nat) : State :=
  let stop (h : Nat × CoreChan) : Nat × CoreChan :=
    if h.2.xfer.any (fun x => x.key == k) then (h.1, { h.2 with xfer := none, paused := false }) else h
  let s := ((core s n).chans.filter fun h => h.2.xfer.any fun x => x.key == k).foldl
    (fun s h => endWaits s (.chan (.core (Fin.ofNat 1344 n) (Fin.ofNat 4 h.1)))) s
  modCore s n fun c => { c with chans := c.chans.map stop, flight := if c.running = some k then [] else c.flight }

/-- A core's part of a step ended where it stands. -/
def killPart (k : Nat) (s : State) (c : StepCore) : State :=
  freePart k (modCore (dropXfers k s c.core.val) c.core.val fun x => { x with stop := if x.running = some k then none else x.stop }) c

/-- The home-set step of a context ended with an outcome. -/
def killHome (s : State) (r o : Nat) : State :=
  let x := ctx s r
  match x.step with
  | none => s
  | some st =>
    let s := match x.slot with
      | some sl => st.cores.foldl (killPart sl.val) s
      | none => s
    let s := modCtx s r fun c => { c with step := none, checks := c.checks.filter (fun k => k.step != st.id) }
    closeStep s r (noteOutcome o st)

/-- A floating step of a context ended with an outcome, running or waiting. -/
def killFloat (r o : Nat) (s : State) (st : Step) : State :=
  let k := ((ctx s r).slot.map (·.val)).getD 0 + 8
  let s := st.cores.foldl (killPart k) (takeLaunch s r (.float st.id))
  let s := st.cores.foldl (freeFloat r k) s
  closeStep (modCtx s r fun c => { c with floats := c.floats.filter (· != st) }) r (noteOutcome o st)

/-- Every accepted step of a context that has not launched ended with an outcome. -/
def dropQueue (s : State) (r o : Nat) : State :=
  let x := ctx s r
  let s := modCtx s r fun c => { c with queue := [], floats := c.floats.filter (·.launched) }
  let s := { s with time := { s.time with launches := s.time.launches.filter (fun l => l.ctx.val != r) } }
  (x.queue ++ x.floats.filter (fun f => !f.launched)).foldl (fun s st => dropStep s r o st) s

/-- Every accepted step of a context ended with an outcome. -/
def killAll (s : State) (r o : Nat) : State :=
  let s := killHome s r o
  let s := ((ctx s r).floats.filter (·.launched)).foldl (killFloat r o) s
  dropQueue s r o

/-! ### Reels and snapshots ended early (R467, R483, R487, R490) -/

/-- Whether a twin that is renewed, or has been and is not resynced yet, launches no more steps of a context (R518). -/
def renewing (s : State) (r : Nat) : Bool :=
  let st := fget s F.pairStatState 0 0
  twinCtx s r && (st == 4 || ((st == 0 || st == 1) && s.pair.renewed) || (st == 5 && !resynced s r))

/-- Whether the next home-set step of a context may launch: it is RESIDENT, no step runs, no snapshot waits for the
boundary, the device has not failed and is not in RETAIN (R533), and no renewal of the twin bars it (R518). -/
def mayLaunch (s : State) (r : Nat) : Bool :=
  let x := ctx s r
  x.st == .resident && x.step.isNone && !s.faulted && powerState s != 2 && !renewing s r &&
    (x.snap.map (fun p => p.started)).getD true

/-- In REPLAY, whether every entry bound to a step has been read: its `COMPLETE` entry, which is the last (R394, R397). -/
def logRead (s : State) (r : Nat) (id : BitVec 64) : Bool :=
  !logReplay s r || (ctx s r).log.replay.any (fun e => e.type == 8 && e.stepId == id)

/-- Whether the launch time that a step carries has come; one that carries none launches at once (R383, R420). -/
def launchCome (s : State) (r : Nat) (w : LaunchOf) (st : Step) : Bool :=
  st.launchAt.isNone || ((pendingFor s r w).map (fun l => decide (l.target ≤ s.tcount))).getD false

/-- Whether a context's next home-set step has come to its launch. -/
def launchDue (s : State) (r : Nat) (st : Step) : Bool :=
  mayLaunch s r && logRead s r st.id && launchCome s r .home st

/-- Whether a context's step has come to its launch and waits for its reel there. -/
def waitsForReel (s : State) (r : Nat) : Bool :=
  match (ctx s r).queue.head? with
  | some st => launchDue s r st && reelGo s r st == .wait
  | none => false

/-- `STAGED` or `FAIL` of a reel signalled. -/
def reelSignal (s : State) (r : Nat) : State :=
  signal s (cget s r F.ctxReelcfgIrqen 0 == 1) (cget s r F.ctxReelctlIrq 0)

/-- The staging offset in pages. -/
def stagePages (s : State) (r : Nat) : Nat := cget s r F.ctxReelcfgStageoff 0 / 2 ^ 21

/-- Whether the switch of a load may take place: it is staged, or streams; no step of the context runs, and no page of the load
is on the move (R486). -/
def reelMaySwitch (s : State) (r : Nat) (l : ReelLoad) : Bool :=
  let x := ctx s r
  let state := cget s r F.ctxReelstatState 0
  let pgs := (l.shards.map shardPages).flatten
  x.step.isNone && !x.floats.any (·.launched) &&
  (state == 2 || (state == 1 && cget s r F.ctxReelcfgStream 0 == 1)) &&
  (pgs ++ pgs.map (· + stagePages s r)).all fun pg =>
    match tfind x.vs.pages pg with
    | some p => p.move.isNone
    | none => true

/-- Whether a load has switched, so that it has no staging range any more. -/
def switched (s : State) (r : Nat) (l : ReelLoad) : Bool := cget s r F.ctxReelgenActgen 0 == l.gen.toNat

/-- The staging pages of a load unmapped. -/
def freeStaging (s : State) (r : Nat) (l : ReelLoad) : State :=
  if switched s r l then s
  else (l.shards.map shardPages).flatten.foldl (fun s pg => unmapPage s r (pg + stagePages s r)) s

/-- Whether a step holds on its reel (R487): a core of it shows cause 0x3, or a transfer of it waits for a chunk. -/
def holdsOnReel (s : State) (k : Nat) (st : Step) : Bool :=
  st.cores.any fun c =>
    let x := core s c.core.val
    (x.running == some k && x.hold == 3) || x.chans.any fun h => h.2.xfer.any fun y => y.key == k && y.starved

/-- The steps of a context that hold on its reel ended with `FAILED_DIGEST` (R487). -/
def endHolding (s : State) (r : Nat) : State :=
  let x := ctx s r
  let k := (x.slot.map (·.val)).getD 0
  let s' := if x.step.any (holdsOnReel s k) then killHome s r stDigest else s
  (x.floats.filter fun st => st.launched && holdsOnReel s (k + 8) st).foldl (killFloat r stDigest) s'

/-- A reel load ended early: `FAIL` and the result, the staging pages freed, `STATE` IDLE; a step that waited for it is
cancelled (R485), and a streaming reel is in force no more, the steps that hold on it failing (R487). -/
def reelFail (s : State) (r result : Nat) : State :=
  match (ctx s r).reel with
  | none => s
  | some l =>
    let waits := waitsForReel s r
    let s0 := s
    let stream := streaming s r
    let s := freeStaging s r l
    let s := cset s r F.ctxReelstatState 0 0
    let s := cset s r F.ctxReelstatFail 0 1
    let s := cset s r F.ctxReelstatResult 0 result
    let s := cset s r F.ctxReelgenStggen 0 0
    let done := switched s0 r l && cget s0 r F.ctxReelstatState 0 == 2
    let s := modCtx s r fun c => { c with reel := none, served := if done then some l else c.served }
    let s := if stream then endHolding (cset s r F.ctxReelgenActgen 0 0) r else s
    let s := match waits, (ctx s r).queue with
      | true, st :: q =>
        ccount (dropStep (modCtx s r fun c => { c with queue := q }) r stCancelled (withReelGen s0 r st)) r F.ctxReelstatStale 0 1
      | _, _ => s
    reelSignal s r

/-- `DONE` or `FAIL` of a snapshot signalled. -/
def printSignal (s : State) (r : Nat) : State :=
  signal s (cget s r F.ctxPrintctlIrqen 0 == 1) (cget s r F.ctxPrintctlIrq 0)

/-- The shadow of a page's lines ended on every core (R465). -/
def unshadow (s : State) (ok : Nat → Bool) : State :=
  { s with cores := s.cores.map fun e => (e.1, { e.2 with shadow := e.2.shadow.filter (fun h => ok h.2) }) }

/-- A snapshot ended early (R467): `PRINTING` and every shadow cleared. -/
def printFail (s : State) (r result : Nat) : State :=
  match (ctx s r).snap with
  | none => s
  | some p =>
    let s := (p.pages.filter (fun pg => !p.sent.contains pg)).foldl
      (fun s pg => modPage s r pg fun e => { e with printing := false }) s
    let s := unshadow s (fun v => v / 2 ^ 32 != r)
    let s := { s with fab := { s.fab with reqs := s.fab.reqs.filter (fun q => !(q.snap.isSome && q.ctx.map (·.val) == some r)) } }
    let s := modCtx s r fun c => { c with snap := none }
    let s := cset (cset (cset s r F.ctxPrintstatState 0 0) r F.ctxPrintstatFail 0 1) r F.ctxPrintstatResult 0 result
    printSignal (cset s r F.ctxPrintctlGo 0 0) r

/-- A page command that waits with `GO` at 1 ended where it stands (R496). -/
def endPg (s : State) (r : Nat) : State :=
  if cget s r F.ctxPgcmdGo 0 = 1 then cset (cset s r F.ctxPgcmdGo 0 0) r F.ctxPgstatDone 0 1 else s

/-! ### The end of a context (R418, R560) -/

/-- Whether nothing of a context's steps is left, records and log entries included (R395). -/
def drained (x : Ctx) : Bool :=
  x.step.isNone && x.floats.isEmpty && x.queue.isEmpty && x.ended.isEmpty && x.log.q.isEmpty

/-- A context's resources freed, its keys emptied, its slot FREE. -/
def releaseContext (s : State) (r : Nat) : State :=
  let x := ctx s r
  let s := endPg (printFail s r 5) r
  let s := reelFail s r 7
  let s := (x.vs.pages.map (·.1)).foldl (fun s pg => unmapPage s r pg) s
  let s := match x.slot with
    | some sl =>
      let s := x.map.foldl (releaseCore r sl.val) s
      [F.ctxCtlEn, F.ctxCtlShelve, F.ctxRelstatProt, F.ctxReelgenActgen, F.ctxReelctlCommit].foldl
        (fun s f => fset s f sl.val 0 0) s
    | none => s
  let s := dropTables s r
  { s with ctxs := tdel s.ctxs r, keys := { s.keys with page := s.keys.page.filter (fun e => e.1 / 16 != r) } }

/-- Whether writes of a context's snapshot are still to be acknowledged (Table 13.4). -/
def printFlies (s : State) (r : Nat) : Bool := s.fab.reqs.any fun q => q.snap.isSome && q.ctx.map (·.val) == some r

/-- A context that is being disabled ends once nothing of its steps is left, and what its snapshot has sent is
acknowledged. -/
def settleDisable (s : State) (r : Nat) : State :=
  if (ctx s r).st = .disabling ∧ drained (ctx s r) ∧ !printFlies s r then releaseContext s r else s

/-- The parts of a disabled context's steps that stand at a cut end there: parked takes and takes at rest. -/
def endParked (s : State) (k : Nat) (c : StepCore) : State :=
  let n := c.core.val
  let x := core s n
  if c.st = .running ∧ (x.running ≠ some k ∨ atRest s n) then setPart (removeTake s n k) n k .finished else s

/-- DISABLING begins (R418): what has not launched is cancelled, a load ends (R490), and running parts end at their cuts. -/
def beginDisable (s : State) (r : Nat) : State :=
  let s := modCtx s r fun c => { c with st := .disabling }
  let s := reelFail (dropQueue s r stCancelled) r 7
  let x := ctx s r
  let k := (x.slot.map (·.val)).getD 0
  let note (st : Step) : Step := noteOutcome stCancelled st
  let s := modCtx s r fun c => { c with step := c.step.map note, floats := c.floats.map note }
  let s := if x.slot.isNone then s
    else
      let s := ((x.step.map (·.cores)).getD []).foldl (fun s c => endParked s k c) s
      ((x.floats.map (·.cores)).flatten).foldl (fun s c => endParked s (k + 8) c) s
  settleDisable (if x.slot.isNone then killHome s r stCancelled else s) r

end Sys2Proof.Machine
end

