-- ==== Sys2Proof/Machine/Health.lean ====
section
/-! DEFINITION. Fault records and what they rest on (R492 to R497, R523 to R526): CBOR, the dailies ring, the repair
store, a device fault. -/

namespace Sys2Proof.Machine

/-! ### CBOR in core deterministic encoding (R525) -/

/-- The big-endian bytes of a number, `n` of them. -/
def beBytes (n v : Nat) : Bytes := (leBytes n v).reverse

/-- The head of a data item of a major type. -/
def cborHead (major v : Nat) : Bytes :=
  let b (x : Nat) : Bytes := [BitVec.ofNat 8 (32 * major + x)]
  if v < 24 then b v
  else if v < 2 ^ 8 then b 24 ++ beBytes 1 v
  else if v < 2 ^ 16 then b 25 ++ beBytes 2 v
  else if v < 2 ^ 32 then b 26 ++ beBytes 4 v
  else b 27 ++ beBytes 8 v

/-- An unsigned integer, a signed one, an array of items. -/
def cborUint (v : Nat) : Bytes := cborHead 0 v
def cborInt (v : Int) : Bytes := if 0 ≤ v then cborHead 0 v.toNat else cborHead 1 (-v - 1).toNat
def cborArr (xs : List Bytes) : Bytes := cborHead 4 xs.length ++ xs.flatten

/-- An array of unsigned integers. -/
def cborUints (xs : List Nat) : Bytes := cborArr (xs.map cborUint)

/-- A map with unsigned keys, in the order given. -/
def cborMap (xs : List (Nat × Bytes)) : Bytes := cborHead 5 xs.length ++ (xs.map fun p => cborUint p.1 ++ p.2).flatten

/-! ### The dailies ring (R525, R526) -/

/-- Bytes padded with zeros to a multiple of 64. -/
def pad64 (bs : Bytes) : Bytes := bs ++ List.replicate ((64 - bs.length % 64) % 64) 0

/-- A record of the ring: its length, its data item, padding. -/
def dailyRecord (item : Bytes) : Bytes := pad64 (leBytes 4 item.length ++ item)

/-- Bytes put at the head of the dailies ring. -/
def dailyPut (s : State) (bs : Bytes) : State :=
  let h := fget s F.relDlheadCount 0 0
  fset (hostWrite s (fget s F.relDlbaseAddr 0 0 + h % 2 ^ fget s F.relDlcfgSizelog2 0 0) bs) F.relDlheadCount 0 0 (h + bs.length)

/-- A record written, after the record of length 0 that pads to the end of the ring where it would straddle it; one that
does not fit in the free space, or finds no host, is dropped (R525). -/
def dailyRing (s : State) (rec : Bytes) : State :=
  let size := 2 ^ fget s F.relDlcfgSizelog2 0 0
  let h := fget s F.relDlheadCount 0 0
  let free := size - (h + 2 ^ 64 - fget s F.relDltailCount 0 0) % 2 ^ 64
  let left := size - h % size
  let pad := if left < rec.length then left else 0
  if free < pad + rec.length ∨ !hostUp s then fcount s F.relStatDldrop 0 0 1
  else dailyPut (if pad = 0 then s else dailyPut s (List.replicate pad 0)) rec

/-- A record of a type with its own keys, where dailies are on. -/
def daily (s : State) (type : Nat) (own : List (Nat × Bytes)) : State :=
  if !fbit s F.relDlcfgEn 0 0 then s
  else
    let all := [(0, cborUint type), (1, cborUint (fget s F.fabCfgDevnum 0 0)), (2, cborUint s.tcount),
      (3, cborUint s.nv.starts), (4, cborUint s.dailies.seq)] ++ own
    dailyRing { s with dailies := { s.dailies with seq := s.dailies.seq + 1 } } (dailyRecord (cborMap all))

/-- A fault record: unit, class, action, the context and step of each affected step. -/
def faultRecord (s : State) (unit : Nat × Nat) (cls action : Nat) (steps : List (Nat × Nat)) : State :=
  daily s 1 [(5, cborUints [unit.1, unit.2]), (6, cborUint cls), (7, cborUint action),
    (8, cborArr (steps.map fun p => cborUints [p.1, p.2]))]

/-- A test record, with the failing row and bit where they are known. -/
def testRecord (s : State) (unit : Nat × Nat) (result : Nat) (place : Option (Nat × Nat)) : State :=
  daily s 3 ([(5, cborUints [unit.1, unit.2]), (9, cborUint result)] ++
    match place with
    | some p => [(10, cborUints [p.1, p.2])]
    | none => [])

/-! ### The repair store (R523, Table 15.10) -/

/-- Whether the CRC of a repair record holds. -/
def recordOk (b : RepairRec) : Bool := crc32 (b.take 12) == leNat ((b.drop 12).take 4)

/-- Kind, unit, sub-unit and place of a repair record. -/
def recKind (b : RepairRec) : Nat := xf b 0 1
def recUnit (b : RepairRec) : Nat := xf b 2 2
def recSub (b : RepairRec) : Nat := xf b 4 1
def recPlace (b : RepairRec) : Nat := xf b 6 2

/-- The records that count. -/
def goodRecords (s : State) : List RepairRec := s.nv.records.filter recordOk

/-- The unit of a repair record as the dailies name it. -/
def recName (kind unit sub : Nat) : Nat × Nat :=
  match kind with
  | 0x01 | 0x02 => (2, unit * 32 + sub)
  | 0x05 => (3, unit)
  | 0x06 => (5, unit * 8 + sub)
  | 0x07 => (4, unit)
  | _ => (1, unit)

/-- A record appended to the repair store; a full store drops it. -/
def addRepair (s : State) (kind source unit sub place : Nat) : State :=
  if 4096 ≤ s.nv.records.length then fset s F.relStatRsfull 0 0 1
  else
    let b := leBytes 1 kind ++ leBytes 1 source ++ leBytes 2 unit ++ leBytes 1 sub ++ leBytes 1 0 ++ leBytes 2 place ++
      leBytes 4 s.nv.starts
    let s := { s with nv := { s.nv with records := s.nv.records ++ [b ++ leBytes 4 (crc32 b)] } }
    let n := recName kind unit sub
    daily s 4 ([(5, cborUints [n.1, n.2]), (9, cborUint kind)] ++
      (if kind = 1 then [(10, cborUints [place, 0])] else if kind = 2 then [(10, cborUints [0, place])] else []))

/-- Whether the latest of a unit's records that retire or restore it retires it (R523). DESIGN CHOICE (log 146): a restored record
names a unit and a sub-unit only, and counts for whatever has that number. -/
def unitRetired (s : State) (kinds : List Nat) (unit sub : Nat) : Bool :=
  let rs := (goodRecords s).filter fun b => recUnit b == unit && recSub b == sub && (0x0F :: kinds).contains (recKind b)
  (rs.getLast?.map (fun b => recKind b != 0x0F)).getD false

/-- Whether the repair store retires a core, a channel, a port, a lane of a port. -/
def coreRetired (s : State) (n : Nat) : Bool := unitRetired s [0x03, 0x04] n 0
def channelRetired (s : State) (ch : Nat) : Bool := unitRetired s [0x05] ch 0
def portRetired (s : State) (p : Nat) : Bool := unitRetired s [0x07] p 0
def laneRetired (s : State) (p l : Nat) : Bool := unitRetired s [0x06] p l

/-- Whether a core's banks ask for more than the two spare columns or four spare rows of one of them (R524). -/
def sparesOut (s : State) (n : Nat) : Bool :=
  let rs := (goodRecords s).filter (fun b => recUnit b == n)
  let places (k bank : Nat) : List Nat :=
    ((rs.filter (fun b => recKind b == k && recSub b == bank)).map recPlace).eraseDups
  (List.range 32).any fun bank => decide (4 < (places 1 bank).length) || decide (2 < (places 2 bank).length)

/-! ### The device fault (R495) -/

/-- The steps of a device that are accepted and not ended. -/
def openSteps (s : State) : List (Nat × Nat) :=
  (s.ctxs.map fun e =>
    (e.2.step.toList ++ e.2.floats ++ e.2.queue).map fun st => (e.1, st.id.toNat)).flatten

/-- A bulk chain reported as failed, with a code that the manual does not state. -/
def bulkFail (s : State) (b : BulkId) : State :=
  if (tfind s.bulk b.val).isNone then s
  else let p := drawFree s; moverFault p.2 (.bulk b) 0 (p.1 % 256)

/-- A page command that waits reported as failed, with a result that the manual does not state. -/
def pgFail (s : State) (r : Nat) : State :=
  if cget s r F.ctxPgcmdGo 0 ≠ 1 then s
  else let p := drawFree s; cset (endPg p.2 r) r F.ctxPgstatResult 0 (p.1 % 16)

/-- The steps of a context that have ended and wait for the partner or a check fail with an outcome. -/
def endedFail (s : State) (r o : Nat) : State :=
  modCtx s r fun x =>
    { x with checks := []
             ended := x.ended.map fun st =>
               if st.pairWait || x.checks.any (fun k => k.step == st.id) then
                 { fixStep s r (noteOutcome o st) with pairWait := false }
               else st }

/-- Bits [7:0] of `MG_ALERT`, the mandatory byte of an in-band interrupt (R591). -/
def alertByte (s : State) : Byte :=
  BitVec.ofNat 8 (([F.mgAlertDevfault, F.mgAlertSeqfail, F.mgAlertBootrej, F.mgAlertThermal].map
    fun f => fget s f 0 0 * 2 ^ f.lo).sum)

/-- A bit of `MG_ALERT` set; the pin follows, and a bit that newly asserts it sends an in-band interrupt where these are
enabled (R591, R593). -/
def raiseAlert (s : State) (f : Fld) : State :=
  let new := !fbit s f 0 0 && (fget s F.mgAlertMask 0 0).testBit f.lo
  let s := alertPin (fset s f 0 0 1)
  if new && s.i3c.ibi && s.i3c.addr.isSome then emit s (.i3c [alertByte s]) else s

/-- A collective that runs reported as failed in `CTX_COLLSTAT` (R368, R496). -/
def collDown (r : Nat) (s : State) (e : Nat × CollQ) : State :=
  match e.2.running with
  | [] => s
  | c :: _ =>
    let s := modCtx s r fun x => { x with colls := tset x.colls e.1 { e.2 with running := [] } }
    cset (cset (cset s r F.ctxCollstatFail 0 1) r F.ctxCollstatFailq 0 e.1) r F.ctxCollstatFailidx 0 (c.idx % 256)

/-- The unit of an online test as a test record names it. -/
def testUnit (kind i lane : Nat) : Nat × Nat := if kind = 0 then (1, i) else if kind = 1 then (4, i) else (5, 8 * i + lane)

/-- The tests under way reported as failed: an online test in `REL_OTEST` and with its record, a wrap test in `REL_WRAP`, with a
number of failing blocks that the manual does not state (R496, R525). -/
def testsDown (s : State) : State :=
  let s := match s.test.online with
    | some (kind, i, lane) => testRecord { s with test := { s.test with online := none } } (testUnit kind i lane) 1 none
    | none => s
  let s := if fbit s F.relOtestGo 0 0 then
      fset (fset (fset s F.relOtestGo 0 0 0) F.relOtestResult 0 0 1) F.relOtestDone 0 0 1 else s
  if fget s F.relWrapState 0 0 ≠ 1 then s
  else let p := drawFree s
       fset (fset (fset p.2 F.relWrapFails 0 0 (1 + p.1 % 255)) F.relWrapGo 0 0 0) F.relWrapState 0 0 2

/-- A device fault: nothing issues any more, the partners hear of it, every item is reported as failed. -/
def deviceFault (s : State) : State :=
  if s.faulted then s
  else
    let steps := openSteps s
    let s := fset { s with faulted := true } F.relStatDevfault 0 0 1
    let s := onPorts s pairUp msgResign []
    let s := (s.ctxs.map (·.1)).foldl (fun s r => (ctx s r).colls.foldl (collDown r) s) s
    let s := (s.ctxs.map (·.1)).foldl (fun s r => endedFail (killAll s r stCore) r stCore) s
    let s := (List.finRange 64).foldl bulkFail s
    let s := (s.ctxs.map (·.1)).foldl (fun s r => pgFail (printFail (reelFail s r 7) r 5) r) s
    let s := testsDown s
    let s := faultRecord s (6, 0) 0x06 2 steps
    glbIrq (raiseAlert s F.mgAlertDevfault) F.glbIrqstatDevfault

end Sys2Proof.Machine
end

