-- ==== Sys2Proof/Machine/Paging.lean ====
section
/-! DEFINITION. The page managers and the DDR channels (R289 to R332): first touch, migration, lost lenders, page commands,
line reads and scrub, training. -/

namespace Sys2Proof.Machine

/-! ### First touch (R303, R304, R306) -/

/-- The clock of the page manager that translates a page: of E0 for even pages, of E1 for odd ones (R301). -/
def pageClock (pg : Nat) : ScanDomain := edgeClock (pg % 2)

/-- `PAGE_ACCESS` (R303, R304): an access that reaches the page manager. -/
def execPageAccess (r : CtxId) (va : Nat) (write : Bool) (s : State) : Host.Outcome State Fault Refusal :=
  onClock s (pageClock (pageOf va)) fun s =>
  if registered (ctx s r.val) && decide (va < 2 ^ 48) then .next (touchPage s r.val (pageOf va) write .access).1 else .next s

/-! ### DDR lines (R295, R317 to R321) -/

/-- The usable channels of a tile: those up or in self-refresh. -/
def usableChannels (s : State) (tile : Nat) : List Nat :=
  ((List.range 8).map (8 * tile + ·)).filter fun ch =>
    fget s F.ddrStatState ch 0 == 2 || fget s F.ddrStatState ch 0 == 4

/-- The physical address of a channel address (R295, inverted). -/
def physOf (s : State) (ch addr : Nat) : Nat :=
  let tile := ch / 8
  let us := usableChannels s tile
  let u := addr / 256 * us.length + us.findIdx (· == ch)
  let t := u * 256 + addr % 256
  (2 * (t / 2 ^ 21) + tile) * 2 ^ 21 + t % 2 ^ 21

/-- The channel and the channel address of a physical address (R295). -/
def chanAt (s : State) (p : Nat) : Nat × Nat :=
  let us := usableChannels s (pageOf p % 2)
  let u := (pageOf p / 2 * 2 ^ 21 + p % 2 ^ 21) / 256
  (us.getD (u % us.length) 0, u / us.length * 256 + p % 256)

/-- Whether a physical address lies in the system area (R296). -/
def inSystemArea (s : State) (p : Nat) : Bool := decide (allFrames s - 8192 ≤ pageOf p)

/-- Whether the line at a physical address stands poisoned. -/
def linePoisoned (s : State) (p : Nat) : Bool :=
  match tfind s.frames (pageOf p) with
  | some (.page r pg) => tget (ctx s r.val).vs.poison (pg * 32768 + p % 2 ^ 21 / 64) false
  | some (.lentTo _) => tget s.ddrPoison (p / 64) false
  | _ => false

/-- The line at a physical address poisoned, and its page marked. -/
def poisonLine (s : State) (p : Nat) : State :=
  match tfind s.frames (pageOf p) with
  | some (.page r pg) =>
    let s := modCtx s r.val fun c =>
      { c with vs := { c.vs with poison := tset c.vs.poison (pg * 32768 + p % 2 ^ 21 / 64) true } }
    modPage s r.val pg fun e => { e with poisoned := true }
  | some (.lentTo _) => { s with ddrPoison := tset s.ddrPoison (p / 64) true }
  | _ => s

/-- The mark of the line at a physical address cleared: the stored line no longer carries the poison pattern (R318). -/
def cleanLine (s : State) (p : Nat) : State :=
  match tfind s.frames (pageOf p) with
  | some (.page r pg) =>
    modCtx s r.val fun c => { c with vs := { c.vs with poison := tdel c.vs.poison (pg * 32768 + p % 2 ^ 21 / 64) } }
  | some (.lentTo _) => { s with ddrPoison := tdel s.ddrPoison (p / 64) }
  | _ => s

/-- What a change of the stored bytes of a line makes of its plaintext: the bytes themselves change, or on a protected page
the ciphertext (R326); where the key is gone nothing can be read any more. -/
def changedText (s : State) (r : Nat) (p : Option Page) (va : Nat) (text mask : Bytes) : Bytes :=
  match p with
  | none => text
  | some p =>
    if !p.prot then xorBytes text mask
    else
      match tfind s.keys.page (16 * r + p.keyslot.toNat) with
      | none => text
      | some k =>
        let key := leBytes 64 k.toNat
        xtsDec key (lineTweak va) (xorBytes (xtsEnc key (lineTweak va) text) mask)

/-- The stored bytes of the line at a physical address XORed with a mask. -/
def changeLine (s : State) (p : Nat) (mask : Bytes) : State :=
  if mask.all (· == 0) then s
  else
    match tfind s.frames (pageOf p) with
    | some (.page r pg) =>
      let va := pg * 2 ^ 21 + p % 2 ^ 21 / 64 * 64
      modCtx s r.val fun c => { c with
        vs := vsWrite c.vs va (changedText s r.val (tfind c.vs.pages pg) va (vsRead c.vs va 64) mask) }
    | some (.lentTo _) =>
      { s with ddr := mwrite s.ddr (p / 64 * 64) (xorBytes (mread s.ddr (p / 64 * 64) 64) mask) }
    | _ => s

/-- The latest error of a channel recorded in `DDR_ELOG`. -/
def errorLog (s : State) (ch addr kind : Nat) : State :=
  fset (fset s F.ddrElogAddr ch 0 addr) F.ddrElogKind ch 0 kind

/-- The x4 device that carries a symbol of a line: four symbols each of the ten devices of its subchannel (R317). -/
def symbolDevice (addr : Nat) (i : Fin 40) : Nat := 10 * (Config.subchannel addr).val + (Config.symbolPlace addr i).val / 4

/-- A corrected line counted and recorded, with the devices that hold its wrong symbols (R320). -/
def noteCorrected (s : State) (ch addr : Nat) (es : List (Nat × Nat)) : State :=
  if es.isEmpty then s
  else
    let s := errorLog (fcount s F.ddrCeCount ch 0 1) ch addr 1
    let s := es.foldl (fun s e =>
      let d := symbolDevice addr (Fin.ofNat 40 e.1)
      let seen := fget s F.ddrDeverrSeen ch 0
      fset (fset s F.ddrElogDevice ch 0 d) F.ddrDeverrSeen ch 0 (if seen.testBit d then seen else seen + 2 ^ d)) s
    { s with dailies := { s.dailies with ddrce := tset s.dailies.ddrce ch (tget s.dailies.ddrce ch 0 + 1) } }

/-- An uncorrectable line counted and recorded. -/
def noteUncorrectable (s : State) (ch addr : Nat) : State :=
  faultRecord (errorLog (fcount s F.ddrUeCount ch 0 1) ch addr 2) (3, ch) 0x03 6 []

/-- The other copy of a line of the system area, read because the first is uncorrectable: where it is so too, the device
has failed (R297). -/
def otherCopy (s : State) (p : Nat) (copy : List (BitVec 16)) : State :=
  let c := chanAt s (if pageOf p % 2 = 0 then p + 2 ^ 21 else p - 2 ^ 21)
  match (lineDecode copy false).2 with
  | some es => noteCorrected s c.1 c.2 es
  | none => deviceFault (noteUncorrectable s c.1 c.2)

/-- What a line read finds (R317, R318, R320): a corrected line is counted and recorded, and written back; one that
decodes under the poison pattern is poisoned; an uncorrectable one is counted, recorded and rewritten in poisoned form
with its data as read, or in the system area mended from its other copy. Nothing is written back where `mark` is false. -/
def lineRead (s : State) (ch addr : Nat) (err copy : List (BitVec 16)) (mark : Bool) : State :=
  let p := physOf s ch addr
  let put (s : State) (es : List (Nat × Nat)) (bad : Bool) : State :=
    if !mark ∨ inSystemArea s p then s
    else
      let s := changeLine s p (lineMask err es)
      match bad, linePoisoned s p with
      | true, false => poisonLine s p
      | false, true => cleanLine s p
      | _, _ => s
  match lineDecode err (linePoisoned s p) with
  | (bad, some es) => put (noteCorrected s ch addr es) es bad
  | (_, none) =>
    let s := noteUncorrectable s ch addr
    if inSystemArea s p then otherCopy s p copy else put s [] true

/-- Whether a channel is up. -/
def channelUp (s : State) (ch : Nat) : Bool := fget s F.ddrStatState ch 0 == 2

/-- `DDR_READ` (R320). -/
def execDdrRead (ch : Fin 16) (addr : Nat) (err copy : List (BitVec 16)) (s : State) : Host.Outcome State Fault Refusal :=
  onClock s (ddrClock ch.val) fun s =>
  .next (if channelUp s ch.val then lineRead s ch.val addr err copy true else s)

/-- `PATROL_SCRUB` (R321): a line that another write has reached meanwhile is not written back. -/
def execPatrolScrub (ch : Fin 16) (addr : Nat) (err copy : List (BitVec 16)) (raced : Bool) (s : State) :
    Host.Outcome State Fault Refusal :=
  onClock s (ddrClock ch.val) fun s =>
  .next (if channelUp s ch.val && fbit s F.memScrubEn 0 0 then lineRead s ch.val addr err copy (!raced) else s)

/-- `DDR_REFRESH` (R293): durations only. -/
def execDdrRefresh (_ch : Fin 16) (s : State) : Host.Outcome State Fault Refusal := .next s

/-! ### Training (R289 to R292, R579, R628, R629) -/

/-- The fastest mode that `MEM_CFG` and the strap allow as training begins, kept at an offset that no register has. -/
def F.ddrTrainMode : Fld := ⟨0x200880, 0, 0, 0, 2, 0, .ro⟩

/-- The fastest mode of a routing class, coded as `MEM_CFG.MAXMODE`; a class code of 3 is class C. -/
def classMode (c : Nat) : Nat := 2 - min c 2

/-- Whether DDR training has begun since the cold start. -/
def trainBegun (s : State) : Bool := (List.range 16).any (fun ch => fget s F.ddrStatState ch 0 != 0)

/-- `DDR_TRAINING` (R628, R629): the channels train under the `MEM_CFG` values in force. -/
def execDdrTraining (s : State) : Host.Outcome State Fault Refusal :=
  if trainBegun s ∨ fget s F.memStatInit 0 0 ≠ 0 ∨ fget s F.secStatBoot 0 0 ≠ 2 then .next s
  else
    let cls := max (s.pins.rcls.toNat) (fget s F.memCfgRclass 0 0)
    let s := fset s F.ddrTrainMode 0 0 (min (fget s F.memCfgMaxmode 0 0) (classMode cls))
    .next ((List.range 16).foldl (fun s ch => fset s F.ddrStatState ch 0 1) s)

/-- Capacity of a module in GiB, by its code (R290). -/
def moduleGib (code : Nat) : Nat :=
  match code with
  | 1 => 64
  | 2 => 96
  | 3 => 128
  | 4 => 256
  | _ => 0

/-- Whether 16 modules are alike and of a supported capacity (R290). -/
def populationOk (ms : List DdrModule) : Bool :=
  match ms with
  | [] => false
  | m :: _ =>
    decide (ms.length = 16) && moduleGib m.capCode.toNat != 0 &&
      ms.all (fun x => x.capCode == m.capCode && x.kind == m.kind)

/-- `READY` (R579): the firmware runs, DDR is ready, and no port enabled at start is still in its first DETECT. -/
def settleReady (s : State) : State :=
  if fget s F.secStatBoot 0 0 = 2 ∧ fget s F.memStatInit 0 0 = 1 ∧ s.fab.ports.all (fun p => !p.2.holdDetect) then
    fset s F.hostStatReady 0 0 1
  else s

/-- Memory initialisation failed with a code. -/
def memFail (s : State) (code : Nat) : State := fset (fset s F.memStatInit 0 0 2) F.memStatFailcode 0 0 code

/-- One channel after training: up with its mode and capacity, or retired. -/
def trainChannel (s : State) (mode : Nat) (p : DdrModule × Nat) : State :=
  let ch := p.2
  let s := fset s F.ddrStatCap ch 0 p.1.capCode.toNat
  if channelRetired s ch || !p.1.trains then fset s F.ddrStatState ch 0 3
  else fset (fset s F.ddrStatState ch 0 2) F.ddrStatMode ch 0 (mode + 1)

/-- `DDR_TRAINING_DONE` (R290 to R292, R296): what SPD and training found on the 16 channels. -/
def execDdrTrainingDone (found : List DdrModule) (s : State) : Host.Outcome State Fault Refusal :=
  if found.length ≠ 16 then .fault (.badOperand "one module report for each of 16 channels")
  else if !(List.range 16).all (fun ch => fget s F.ddrStatState ch 0 == 1) then .next s
  else if !populationOk found then
    .next (memFail ((List.range 16).foldl (fun s ch => fset s F.ddrStatState ch 0 5) s) 1)
  else
    let m := found.headD ⟨0, 0, 0, false⟩
    let mode := (found.map (·.mode.toNat)).foldl min (fget s F.ddrTrainMode 0 0)
    let s := found.zipIdx.foldl (fun s p => trainChannel s mode p) s
    let n (t : Nat) : Nat := (usableChannels s t).length
    if n 0 < 6 ∨ n 1 < 6 then .next (memFail s 2)
    else
      let s := fset s F.memStatCapgib 0 0 (2 * (min (n 0) (n 1) * moduleGib m.capCode.toNat))
      .next (settleReady (fset s F.memStatInit 0 0 1))

/-! ### Migration (R309 to R312) -/

/-- Whether a page may move: nothing pins it, ships it or poisons it, and no migration of it runs; nor, on a mirror
primary, while the commit of a step that has ended is still on its way (R310). -/
def mayMove (x : Ctx) (pg : Nat) (p : Page) : Bool :=
  let shipping := p.mirror && x.vs.shipping.any (fun l => l.2 / 8192 == pg)
  !p.pin && !p.printing && !p.poisoned && p.move.isNone && !shipping

/-- A migration begun (MARK): the new place claimed, `MIG` set. -/
def beginMove (s : State) (r pg : Nat) (loc : PageLoc) (frame : Nat) (dev : BitVec 12) : State :=
  modPage s r pg fun p => { p with move := some ⟨loc, frame, dev, false⟩ }

/-- The pages of a tile with their contexts, in ascending order of address, then of context. -/
def tilePages (s : State) (par : Nat) : List (Nat × Nat × Page) :=
  (s.ctxs.map fun e => (e.2.vs.pages.filter (fun p => p.1 % 2 == par)).map fun p => (e.1, p.1, p.2)).flatten.mergeSort
    fun a b => decide (a.2.1 < b.2.1) || (a.2.1 == b.2.1 && decide (a.1 ≤ b.1))

/-- Local pages that a context has beyond its floor in a tile, a migration to come counted. -/
def beyondFloor (s : State) (r par : Nat) : Nat :=
  let out := (((ctx s r).vs.pages.filter fun p =>
    p.1 % 2 == par && p.2.loc == .local_ && p.2.move.isSome)).length
  localPages (ctx s r) par - out - floorShare s r par

/-- One step of demotion: an idle local page beyond its floor moves out, where there is a place and the rate allows. -/
def demoteOne (par : Nat) (a : State × Nat) (e : Nat × Nat × Page) : State × Nat :=
  let s := a.1
  if a.2 = 0 ∨ e.2.2.loc ≠ .local_ ∨ e.2.2.accesses ≠ 0 ∨ !mayMove (ctx s e.1) e.2.1 e.2.2 ∨ beyondFloor s e.1 par = 0 then a
  else
    match farPlace s par with
    | some (s, loc, f, d) => (beginMove s e.1 e.2.1 loc f d, a.2 - 1)
    | none => a

/-- One step of promotion over the moves that remain and the pages passed over: a page outside local DDR moves into a free
local frame, or is left for one that a demotion frees. -/
def promoteOne (par : Nat) (a : State × Nat × List (CtxId × Nat)) (e : CtxId × Nat) : State × Nat × List (CtxId × Nat) :=
  let s := a.1
  match tfind (ctx s e.1.val).vs.pages e.2 with
  | some p =>
    if a.2.1 = 0 ∨ p.loc = .local_ ∨ !mayMove (ctx s e.1.val) e.2 p then a
    else if !localFree s e.1.val par then (s, a.2.1, a.2.2 ++ [e])
    else
      let q := localPlace s e.1.val e.2
      (beginMove q.1 e.1.val e.2 .local_ q.2 (BitVec.ofNat 12 (ownDev s)), a.2.1 - 1, a.2.2)
  | none => a

/-- Pages promoted as far as the moves and the free frames reach; the rest wait in this epoch for a demotion to free a
frame (R309). -/
def promoteAll (s : State) (par left : Nat) (es : List (CtxId × Nat)) : State :=
  let a := es.foldl (promoteOne par) (s, left, [])
  { a.1 with promote := tset a.1.promote par a.2 }

/-- Pages outside local DDR that have been accessed, the most accessed first, ties to the lower address. -/
def hotPages (s : State) (par : Nat) : List (Nat × Nat × Page) :=
  ((tilePages s par).filter fun e => (e.2.2.loc == .lent || e.2.2.loc == .host) && e.2.2.accesses != 0).mergeSort
    fun a b => decide (b.2.2.accesses < a.2.2.accesses) || (a.2.2.accesses == b.2.2.accesses && decide (a.2.1 ≤ b.2.1))

/-- Access counters of a tile's pages back at 0. -/
def clearAccesses (s : State) (par : Nat) : State :=
  { s with ctxs := s.ctxs.map fun e =>
      (e.1, { e.2 with vs := { e.2.vs with pages := e.2.vs.pages.map fun p =>
        if p.1 % 2 = par then (p.1, { p.2 with accesses := 0 }) else p } }) }

/-- The registers whose changes wait for the next epoch, with their second index. -/
def epochFields : List (Fld × Nat) :=
  [(F.memMigRate, 0), (F.memMigEn, 0), (F.memMigDemote, 0), (F.memLendFrames, 0)] ++
    ((List.range 8).map fun k => [(F.memPeerDev, k), (F.memPeerValid, k)]).flatten

/-- Frames of a tile that are lent, with their borrowers. -/
def lentFrames (s : State) (par : Nat) : List (Nat × BitVec 12) :=
  s.frames.filterMap fun e => match e.2 with | .lentTo d => if e.1 % 2 = par then some (e.1, d) else none | _ => none

/-- What a peer may ask of a page manager in an epoch (R307): nothing, a frame lent, or a frame given back. The manual gives
no message for it, so that an open value chooses; a frame is lent only within `FRAMES`, and only where it is free and no
floor reserves it. -/
def lendStep (s : State) (par : Nat) : State :=
  let max := fget s (inForce par F.memLendFrames) 0 0
  let out := lentFrames s par
  if max = 0 ∧ out.isEmpty then s
  else
    let p := drawFree s
    let s := p.2
    let room := decide ((lentFrames s 0).length + (lentFrames s 1).length < max) &&
      decide (usedFrames s par + reservedFor s 64 par < tileFrames s)
    match p.1 % 3 with
    | 1 =>
      if room then { s with frames := tset s.frames (lowestFree s.frames par) (.lentTo (BitVec.ofNat 12 (p.1 / 3))) } else s
    | 2 =>
      match out[p.1 / 3 % out.length]? with
      | some f => { s with frames := tdel s.frames f.1 }
      | none => s
    | _ => s

/-- `MIGRATION_EPOCH` (R309): demotions, promotions, the counters cleared, frames lent; then the registers written since
come into force. -/
def execMigrationEpoch (e : EdgeId) (s : State) : Host.Outcome State Fault Refusal :=
  onClock s (edgeClock e.val) fun s =>
  let par := e.val
  let s :=
    if !fbit s (inForce par F.memMigEn) 0 0 then s
    else
      let a := (s, fget s (inForce par F.memMigRate) 0 0)
      let a := if fbit s (inForce par F.memMigDemote) 0 0 then (tilePages s par).foldl (demoteOne par) a else a
      clearAccesses (promoteAll a.1 par a.2 ((hotPages s par).map fun h => (Fin.ofNat 64 h.1, h.2.1))) par
  .next (intPauseAll (epochFields.foldl (fun s f => fset s (inForce par f.1) 0 f.2 (fget s f.1 0 f.2)) (lendStep s par)))

/-- `MIGRATION_DRAIN` (R311): DRAIN ends. -/
def execMigrationDrain (r : CtxId) (page : Nat) (s : State) : Host.Outcome State Fault Refusal :=
  onClock s (pageClock page) fun s =>
  .next (modPage s r.val page fun p => { p with move := p.move.map fun m => { m with drained := true } })

/-- A frame of this device given back. -/
def dropFrame (s : State) (loc : PageLoc) (f : Nat) : State :=
  if loc = .local_ then { s with frames := tdel s.frames f } else s

/-- SWITCH and RELEASE (R311): the entry names the new place, the old frame is free, and promotions that waited for one go
on (R309). -/
def settleMove (s : State) (r pg : Nat) (p : Page) (m : PageMove) : State :=
  let s := setPage (dropFrame s p.loc p.frame) r pg { p with loc := m.loc, frame := m.frame, dev := m.dev, move := none }
  if m.loc = .local_ then fcount s F.memMigcntIn 0 0 1
  else
    let w := tget s.promote (pg % 2) (0, [])
    promoteAll (fcount s F.memMigcntOut 0 0 1) (pg % 2) w.1 w.2

/-- Every line of a page poisoned. -/
def poisonPage (t : Tbl Bool) (pg : Nat) : Tbl Bool :=
  t.filter (fun e => e.1 / 32768 < pg) ++ (List.range 32768).map (fun i => (pg * 32768 + i, true)) ++
    t.filter (fun e => pg < e.1 / 32768)

/-- A migration given up: the frame it was to take is free again. -/
def stopMove (s : State) (r pg : Nat) : State :=
  match (tfind (ctx s r).vs.pages pg).bind (·.move) with
  | some m => modPage (dropFrame s m.loc m.frame) r pg fun p => { p with move := none }
  | none => s

/-- A page whose frame is lost (R308): poisoned whole, nowhere; a promotion off the frame is given up. -/
def losePage (s : State) (r pg : Nat) : State :=
  let s := stopMove s r pg
  let s := modCtx s r fun c => { c with vs := { c.vs with poison := poisonPage c.vs.poison pg } }
  modPage s r pg fun p => { p with loc := .none, poisoned := true, lost := true }

/-! ### Page commands (R314 to R316, R331) -/

/-- How one page of a command ends: done, or with a result of `CTX_PGSTAT`. -/
abbrev PgEnd := Except Nat State

/-- `ALLOC` of a page. -/
def pgAlloc (s : State) (r pg : Nat) (prot : Bool) (key : BitVec 4) : PgEnd :=
  if prot && keyEmpty s r key then .error 4
  else if (tfind (ctx s r).vs.pages pg).isSome then .ok s
  else if cget s r F.ctxPgquotaQuota 0 ≤ (ctx s r).vs.pages.length then .error 1
  else
    match placePage s r pg prot key with
    | some p => .ok (mapPage p.1 r pg p.2)
    | none => .error 5

/-- `FREE` of a page. -/
def pgFree (s : State) (r pg : Nat) : PgEnd :=
  match tfind (ctx s r).vs.pages pg with
  | some p => if p.printing then .error 6 else .ok (unmapPage s r pg)
  | none => .ok s

/-- `PIN` of a page in local DDR; of one outside whose promotion cannot begin, no frame. -/
def pgPin (s : State) (r pg : Nat) : PgEnd :=
  match tfind (ctx s r).vs.pages pg with
  | none => .ok s
  | some p => if p.loc = .local_ then .ok (modPage s r pg fun p => { p with pin := true }) else .error 5

/-- What a command does to a page before its effect: `PIN` begins the promotion of one outside local DDR (R315), where it
may move and a local frame is free. -/
def pgPrep (s : State) (r op pg : Nat) : State :=
  match op, tfind (ctx s r).vs.pages pg with
  | 5, some p =>
    if p.loc = .local_ ∨ p.loc = .none ∨ !mayMove (ctx s r) pg p ∨ !localFree s r (pg % 2) then s
    else
      let q := localPlace s r pg
      intPauseAll (beginMove q.1 r pg .local_ q.2 (BitVec.ofNat 12 (ownDev s)))
  | _, _ => s

/-- One page of the command `op`. -/
def pgOne (s : State) (r op attr : Nat) (key : BitVec 4) (pg : Nat) : PgEnd :=
  if 2 ^ 27 ≤ pg then .error 2
  else
    let mirror (b : Bool) : State := if attr.testBit 1 then modPage s r pg fun p => { p with mirror := b } else s
    match op with
    | 1 => pgAlloc s r pg (attr.testBit 0) key
    | 2 => pgFree s r pg
    | 3 => .ok (mirror true)
    | 4 => .ok (mirror false)
    | 5 => pgPin s r pg
    | 6 => .ok (modPage s r pg fun p => { p with pin := false })
    | 7 => .ok (clearPage s r pg)
    | _ => .error 2

/-- Whether a command waits at a page: `CLEARPOISON` for one being printed (Table 13.4), `PIN` for one that migrates, or
that lies outside local DDR and is being printed. -/
def pgWaits (s : State) (r op pg : Nat) : Bool :=
  match tfind (ctx s r).vs.pages pg with
  | some p => (op == 7 && p.printing) || (op == 5 && (p.move.isSome || (p.loc != .local_ && p.printing)))
  | none => false

/-- A command over `n` pages from `pg` on, up to the first that fails or that it waits for: the state, the result where the
command has ended, the pages done. -/
def pgRun : Nat → State → Nat → Nat → Nat → BitVec 4 → Nat → Nat → State × Option Nat × Nat
  | 0, s, _, _, _, _, _, k => (s, some 0, k)
  | n + 1, s, r, op, attr, key, pg, k =>
    let s := pgPrep s r op pg
    if pgWaits s r op pg then (s, none, k)
    else
      match pgOne s r op attr key pg with
      | .ok s => pgRun n s r op attr key (pg + 1) (k + 1)
      | .error e => (s, some e, k)

/-- Whether a context has a step running or accepted (R316). -/
def stepsOpen (x : Ctx) : Bool := x.step.isSome || !x.queue.isEmpty || !x.floats.isEmpty

/-- What a `CLEARPOISON` of `k` pages from an address has done is logged (R315); the like of an entry already bound to the
step makes no second one (R392). -/
def logClear (s : State) (r va k : Nat) : State :=
  let key := va + k * 2 ^ 64
  if (boundEntries s r none).any (fun e => e.type == 6 && e.key == key) then s else logFor s r none 6 key 1 []

/-- The command of a slot ended with a result after `k` pages. -/
def pgFinish (s : State) (sl r result k : Nat) : State :=
  let s := if fget s F.ctxPgcmdOp sl 0 = 7 ∧ k ≠ 0 then logClear s r (fget s F.ctxPgvaVa sl 0) k else s
  [(F.ctxPgcmdGo, 0), (F.ctxPgstatResult, result), (F.ctxPgstatDonepages, k), (F.ctxPgstatDone, 1)].foldl
    (fun s p => fset s p.1 sl 0 p.2) s

/-- The command that a context's registers name run from its page `k` on, to its end or to a page that it waits for with `GO`
at 1. -/
def pgFrom (s : State) (sl r k : Nat) : State :=
  let op := fget s F.ctxPgcmdOp sl 0
  let e := pgRun (fget s F.ctxPgcntPages sl 0 - k) s r op (fget s F.ctxPgcmdAttr sl 0)
    (BitVec.ofNat 4 (fget s F.ctxPgcmdKeyslot sl 0)) (pageOf (fget s F.ctxPgvaVa sl 0) + k) k
  match e.2.1 with
  | some result => pgFinish e.1 sl r result e.2.2
  | none => fset (fset e.1 F.ctxPgcmdGo sl 0 1) F.ctxPgstatDonepages sl 0 e.2.2

/-- The command that a context's registers name. -/
def pgCommand (s : State) (sl r : Nat) : State :=
  let op := fget s F.ctxPgcmdOp sl 0
  let quiet := op == 1 || op == 2 || op == 7
  if op = 0 ∨ 7 < op ∨ fget s F.ctxPgcntPages sl 0 = 0 then pgFinish s sl r 2 0
  else if quiet && stepsOpen (ctx s r) then pgFinish s sl r 3 0
  else pgFrom s sl r 0

/-- A page command that waited goes on once its page has left the device, or stands still. -/
def resumePg (s : State) (r : Nat) : State :=
  match (ctx s r).slot with
  | some sl => if fbit s F.ctxPgcmdGo sl.val 0 then pgFrom s sl.val r (fget s F.ctxPgstatDonepages sl.val 0) else s
  | none => s

/-- The page that a waiting `PIN` stands at promoted and pinned without delay. -/
def pinNow (s : State) (r pg : Nat) : State :=
  let s :=
    match tfind (ctx s r).vs.pages pg with
    | some p =>
      match p.move with
      | some m => if m.loc = .local_ then settleMove s r pg p m else stopMove s r pg
      | none => s
    | none => s
  modPage s r pg fun p => if p.loc = .local_ then { p with pin := true } else p

/-- A page command that waits ended by a warm reset, after the page it waits for (R332), in a slot or of a SHELVED
context. -/
def cutPg (s : State) (r : Nat) : State :=
  if cget s r F.ctxPgcmdGo 0 = 0 then s
  else
    let k := cget s r F.ctxPgstatDonepages 0
    let va := cget s r F.ctxPgvaVa 0
    let s := if cget s r F.ctxPgcmdOp 0 = 7 then logClear (clearPage s r (pageOf va + k)) r va (k + 1)
      else pinNow s r (pageOf va + k)
    [(F.ctxPgcmdGo, 0), (F.ctxPgstatResult, 0), (F.ctxPgstatDonepages, k + 1), (F.ctxPgstatDone, 1)].foldl
      (fun s p => cset s r p.1 0 p.2) s

/-- A write of `CTX_PGCMD`: the fields of the command, and with `GO` the command itself where the slot has a context;
ignored while a command waits. -/
def pgWrite (sl : SlotId) (w : RegWrite) (s : State) : State :=
  if fbit s F.ctxPgcmdGo sl.val 0 then s else
  let s := writeFields s w [F.ctxPgcmdOp, F.ctxPgcmdAttr, F.ctxPgcmdKeyslot] sl.val 0
  match wbit w F.ctxPgcmdGo, slotCtx s sl.val with
  | true, some r => pgCommand s sl.val r
  | _, _ => s

/-! ### The ends of migrations (R308, R311, R312) -/

/-- `MIGRATION_COPY` (R311, R312): the page is at its new place, or the migration is abandoned; a copy to or from the host
waits while the host takes no transfers (R572). A `PIN` that waited for the page goes on. -/
def execMigrationCopy (r : CtxId) (page : Nat) (ok : Bool) (s : State) : Host.Outcome State Fault Refusal :=
  onClock s (pageClock page) fun s =>
  match tfind (ctx s r.val).vs.pages page with
  | none => .next s
  | some p =>
    match p.move with
    | none => .next s
    | some m =>
      if !m.drained then .next s
      else if !ok then .next (resumePg (intPauseAll (setPage (dropFrame s m.loc m.frame) r.val page { p with move := none })) r.val)
      else if (m.loc = .host ∨ p.loc = .host) ∧ !hostUp s then .next s
      else .next (resumePg (intPauseAll (settleMove (farPage s r.val page p m.loc m.frame m.dev) r.val page p m)) r.val)

/-- `LENDER_LOST` (R308, R312): every page on the lender's frames is lost, and a migration to one is abandoned. -/
def execLenderLost (dev : BitVec 12) (s : State) : Host.Outcome State Fault Refusal :=
  onClock s (edgeClock 0) fun s =>
  let on (p : PageLoc × BitVec 12) : Bool := p.1 == .lent && p.2 == dev
  let all := tilePages s 0 ++ tilePages s 1
  let s := (all.filter fun e => e.2.2.move.any fun m => on (m.loc, m.dev)).foldl (fun s e => stopMove s e.1 e.2.1) s
  let s := (all.filter fun e => on (e.2.2.loc, e.2.2.dev)).foldl (fun s e => losePage s e.1 e.2.1) s
  .next ((s.ctxs.map (·.1)).foldl resumePg (intPauseAll s))

/-! ### The commands of Table 9.5 -/

/-- `ALLOC` (R315). -/
def execAlloc (sl : SlotId) (w : RegWrite) (s : State) : Host.Outcome State Fault Refusal :=
  onBar false s fun s => .next (pgWrite sl w s)
/-- `FREE` (R315). -/
def execFree (sl : SlotId) (w : RegWrite) (s : State) : Host.Outcome State Fault Refusal :=
  onBar false s fun s => .next (pgWrite sl w s)
/-- `SETATTR` (R315). -/
def execSetattr (sl : SlotId) (w : RegWrite) (s : State) : Host.Outcome State Fault Refusal :=
  onBar false s fun s => .next (pgWrite sl w s)
/-- `CLRATTR` (R315). -/
def execClrattr (sl : SlotId) (w : RegWrite) (s : State) : Host.Outcome State Fault Refusal :=
  onBar false s fun s => .next (pgWrite sl w s)
/-- `PIN` (R315). -/
def execPin (sl : SlotId) (w : RegWrite) (s : State) : Host.Outcome State Fault Refusal :=
  onBar false s fun s => .next (pgWrite sl w s)
/-- `UNPIN` (R315). -/
def execUnpin (sl : SlotId) (w : RegWrite) (s : State) : Host.Outcome State Fault Refusal :=
  onBar false s fun s => .next (pgWrite sl w s)
/-- `CLEARPOISON` (R315): logged as an operator intervention. -/
def execClearPoison (sl : SlotId) (w : RegWrite) (s : State) : Host.Outcome State Fault Refusal :=
  onBar false s fun s => .next (pgWrite sl w s)

end Sys2Proof.Machine
end

