-- ==== Sys2Proof/Machine/Steps.lean ====
section
/-! DEFINITION. Steps from submission to completion (R397 to R406, R420, R439 to R442, R484, R485, R580 to R587): the call
sheet and its replay, the launch, the end with its slate, the completion record, launch groups, and the log's own
commands. -/

namespace Sys2Proof.Machine

/-! ### The end of a step (R71, R420) -/

/-- The virtual cores that send on a receive channel of virtual core (vx, vy), as the image has them. -/
def senders (cs : List CoreImage) (vx vy q : Nat) : List (Nat × Nat) :=
  (cs.filter fun ic => ic.chans.any fun d =>
    match d with
    | .send (.core none none x y c) => x == vx && y == vy && c == q
    | _ => false).map fun ic => (ic.vx, ic.vy)

/-- The channels that a control instruction waits on. -/
def waitChans (i : CInstr) : List Nat :=
  match i with
  | .waittok f => [f.q.toNat]
  | .recvAny f => (List.range 8).filter (fun q => f.mask.getLsbD q)
  | _ => []

/-- The channels that a core's part of a step waits on while it is held with cause 0x4, running or at rest: of the ANY form those
of the mask, whichever of them is logged. -/
def heldOn (s : State) (k : Nat) (c : StepCore) : List Nat :=
  let x := core s c.core.val
  if ((x.running = some k ∧ x.hold = 4) ∨ x.takes.any (fun e => e.key == k && e.rest)) ∧ !nextMet s c.core.val k then
    waitChans (nextC x (frameOf x k))
  else []

/-- Whether a reduce engine has failed a collective of a context (R368). -/
def engineDead (s : State) (r : Nat) : Bool := (ctx s r).colls.any (fun q => q.2.dead.isSome)

/-- Whether the failed collective of an engine was to be reported on a channel, which then receives no more tokens
(R368). -/
def engineMute (s : State) (r vx vy q : Nat) : Bool :=
  (ctx s r).colls.any fun c => c.2.dead.any fun t => bitsOf t 0 6 == vx && bitsOf t 6 5 == vy && bitsOf t 11 3 == q

/-- Whether every sender a core waits for is done or among `bs`; a channel no core of the image sends on leads
elsewhere, or to a reduce engine, which counts as done once it has failed (R368). -/
def waitsWithin (s : State) (k : Nat) (cs : List CoreImage) (st : Step) (bs : List (Nat × Nat)) (c : StepCore) : Bool :=
  let qs := heldOn s k c
  let done (p : Nat × Nat) : Bool :=
    bs.contains p || !(st.cores.any fun d => d.vx == p.1 && d.vy == p.2 && d.st == .running)
  !qs.isEmpty && qs.all fun q =>
    let own := (cs.find? (fun ic => ic.vx == c.vx && ic.vy == c.vy)).map (fun ic => ic.chans.getD q .none)
    let ss := senders cs c.vx c.vy q
    own != some (.recv true) && (!ss.isEmpty || (keyCtx s k).any fun r => engineMute s r c.vx c.vy q) && ss.all done

/-- The blocked cores among some (R71): those that wait only for done cores and for each other. -/
def blockedFix (s : State) (k : Nat) (cs : List CoreImage) (st : Step) : Nat → List (Nat × Nat) → List (Nat × Nat)
  | 0, bs => bs
  | n + 1, bs =>
    blockedFix s k cs st n (bs.filter fun p =>
      st.cores.any fun c => c.vx == p.1 && c.vy == p.2 && waitsWithin s k cs st bs c)

/-- Whether every running core of a step is blocked. -/
def allBlocked (s : State) (k : Nat) (cs : List CoreImage) (st : Step) : Bool :=
  let run := (st.cores.filter (fun c => c.st == .running)).map fun c => (c.vx, c.vy)
  (blockedFix s k cs st run.length run).length == run.length

/-- Whether a token for a step is on its way on the device. -/
def tokensCome (s : State) (r : Nat) (st : Step) : Bool :=
  s.tokens.any (fun t => t.ctx.val == r && (t.step == some st.id || t.step.isNone))

/-- Whether a token that a context has sent to another device is not answered, so that it may still fail the step (R351). -/
def tokensOwed (s : State) (r : Nat) : Bool := s.fab.reqs.any (fun q => q.pkt.type == 5 && q.ctx.map (·.val) == some r)

/-- Whether a transfer of a step runs. -/
def xfersRun (s : State) (k : Nat) (st : Step) : Bool :=
  st.cores.any fun c => !(xfersOf (core s c.core.val) k).isEmpty

/-- Whether a collective of a context is due or runs. -/
def collsRun (x : Ctx) : Bool := x.colls.any fun q => !q.2.running.isEmpty || (q.2.dead.isNone && q.2.head != q.2.start.toNat)

/-- The virtual cores of the program a step runs. -/
def stepImage (x : Ctx) (st : Step) : List CoreImage :=
  match x.img with
  | none => []
  | some img =>
    if st.floating then ((img.floats.find? (fun p => p.1 == st.entry)).map (·.2)).getD [] else img.cores

/-- Whether a launched step is over (R71, R420). -/
def stepOver (s : State) (r k : Nat) (st : Step) : Bool :=
  let x := ctx s r
  let halted := st.cores.any (fun c => c.st == .stopped) || (k < 8 && engineDead s r)
  let quiet := st.cores.all (fun c => c.st != .running) ||
    (halted && allBlocked s k (stepImage x st) st && !tokensCome s r st)
  quiet && !tokensOwed s r && !xfersRun s k st && (8 ≤ k || !collsRun x)

/-- `STEP_END` (R71, R420): the home-set step, or a floating step, that is over. -/
def execStepEnd (r : CtxId) (s : State) : Host.Outcome State Fault Refusal :=
  let x := ctx s r.val
  let k := (x.slot.map (·.val)).getD 0
  match x.step.filter (stepOver s r.val k) with
  | some st =>
    let s := modCtx (st.cores.foldl (freePart k) s) r.val fun c => { c with step := none }
    .next (closeStep s r.val st)
  | none =>
    match x.floats.find? (fun f => f.launched && stepOver s r.val (k + 8) f) with
    | some st =>
      let s := st.cores.foldl (freePart (k + 8)) s
      let s := st.cores.foldl (freeFloat r.val (k + 8)) s
      let s := modCtx s r.val fun c => { c with floats := c.floats.filter (fun f => f.id != st.id || !f.launched) }
      .next (closeStep s r.val st)
    | none => .next s

/-! ### The launch (R179, R201, R420, R439 to R441, R484, R485) -/

/-- The virtual cores of a home-set step: those whose image declares an address for its entry (R420). -/
def homeParts (x : Ctx) (entry : Nat) : List (StepCore × CoreImage × Nat) :=
  match x.img with
  | none => []
  | some img =>
    x.map.filterMap fun m =>
      (imgCore img m.2.1 m.2.2).bind fun ic =>
        (entryOf ic entry).map fun pc => (⟨m.2.1, m.2.2, m.1, .running⟩, ic, pc)

/-- The deliveries held for a launching step applied to its cores (R201, R202). -/
def applyHeld (s : State) (r k : Nat) (st : Step) (unbound : Bool) : State :=
  let mine (h : HeldTok) : Bool := h.step == some st.id || (unbound && h.step.isNone)
  let hs := (ctx s r).held.filter mine
  let s := modCtx s r fun c => { c with held := c.held.filter (fun h => !mine h) }
  hs.foldl
    (fun s h =>
      match st.cores.find? (fun c => c.vx == h.vx && c.vy == h.vy) with
      | some c => modCore s c.core.val fun x =>
          { x with recv := tset x.recv (8 * k + h.ch) (laterTotal (recvOf x k h.ch) h.val) }
      | none => s) s

/-- The key of a request's fallback decision (Table 11.4). -/
def fbKey (st : Step) : Nat := 2 + st.reqid.toNat * 2 ^ 64

/-- Whether the deadline monitor predicts a miss (R439). -/
def missPredicted (s : State) (r : Nat) (st : Step) : Bool :=
  cget s r F.ctxDlcfgEn 0 == 1 && st.remain != 0 && st.deadline != 0 &&
    decide (st.deadline.toNat < s.tcount + st.remain * cget s r F.ctxDlstatTlast 0 + cget s r F.ctxDlcfgMargin 0)

/-- The fallback a step launches with, the state once the monitor has acted, and whether it switched now (R440, R441,
Table 11.5). -/
def fallbackOf (s : State) (r : Nat) (st : Step) : State × Option Nat × Bool :=
  let x := ctx s r
  let switch (s : State) (i : Nat) : State := modCtx s r fun c => { c with fbReqs := tset c.fbReqs st.reqid.toNat i }
  match (if st.remain = 0 then none else tfind x.fbReqs st.reqid.toNat) with
  | some i => (s, some i, false)
  | none =>
    if logReplay s r then
      match replayFind s r 5 st.id (fbKey st) with
      | some e => let i := (e.data.headD 0).toNat; (switch s i, some i, true)
      | none => (s, none, false)
    else
      let i := cget s r F.ctxDlcfgFbidx 0
      let declared := decide (i < ((x.img.map (fun g => g.fallbacks.length)).getD 0))
      let allowed := !fbit s F.glbDetEnf 0 0 || logLive s r
      if missPredicted s r st && declared && allowed then (ccount (switch s i) r F.ctxDlstatSwitches 0 1, some i, true)
      else (s, none, false)

/-- An entry bound to a step at its launch: kept with the step, written in LIVE. -/
def launchEntry (s : State) (r : Nat) (st : Step) (type key data : Nat) (payload : Bytes) : State × Step :=
  if logLive s r || logReplay s r then
    let e : LogEnt := ⟨type, r, 0, s.tcount, st.id, key, data, payload⟩
    (logPut s r e, { st with logged := st.logged ++ [e] })
  else (s, st)

/-- The seed in force at a launch: `CTX_SEED`, or the logged one in REPLAY. -/
def seedOf (s : State) (r : Nat) (st : Step) : BitVec 64 :=
  let own := BitVec.ofNat 64 (cget s r F.ctxSeedSeed 0)
  if logReplay s r then ((replayFind s r 3 st.id 0).map (fun e => BitVec.ofNat 64 (leNat (e.data.take 8)))).getD own
  else own

/-- Whether the reel in force differs from the logged one (R398), or the log has none. -/
def reelDiverges (s : State) (r g : Nat) (st : Step) : Bool :=
  logReplay s r &&
    match replayFind s r 4 st.id 0 with
    | some e => leNat (e.data.take 4) != g || e.payload.take 32 != digestBytes (if g = 0 then noDigest else (ctx s r).actDigest)
    | none => true

/-- The logged interventions of a step performed at its launch (Table 11.5). -/
def intervene (s : State) (r : Nat) (id : BitVec 64) : State :=
  ((ctx s r).log.replay.filter (fun e => e.type == 6 && e.stepId == id)).foldl
    (fun s e => clearPages s r (leNat (e.key.take 8) / 2 ^ 21) (leNat ((e.key.drop 8).take 4))) s

/-- The entries a launch logs, with those bound to the next step, and the divergences a replay finds (R391, R398). -/
def launchLog (s : State) (r : Nat) (st : Step) (fresh : Bool) : State × Step :=
  let g := st.reelGen.toNat
  let early := (ctx s r).log.unbound
  let st := { st with logged := st.logged ++ early }
  let s := modCtx s r fun c => { c with log := { c.log with unbound := [] } }
  let p := launchEntry s r st 3 0 st.seed.toNat []
  let p := launchEntry p.1 r p.2 4 0 g (digestBytes st.reelDig ++ List.replicate 32 0)
  let p := match st.fallback, fresh with
    | some i, true => launchEntry p.1 r p.2 5 (fbKey st) i []
    | _, _ => p
  if reelDiverges s r g st then (diverge p.1 r 3 st.id, noteDiverged p.2)
  else if logReplay s r && (replayFind s r 3 st.id 0).isNone then (diverge p.1 r 2 st.id, noteDiverged p.2)
  else
    match (early.filter (fun e => e.type == 2)).filterMap (inputDiffers s r st.id) with
    | kind :: _ => (diverge p.1 r kind st.id, noteDiverged p.2)
    | [] => p

/-- The mirror of a protected core at the opening of a take that a launch begins (R498, R499). -/
def openMirror (s : State) (n k r : Nat) : State :=
  if cget s r F.ctxRelstatProt 0 = 0 then s
  else
    let img := cutImage s n k r
    let buddy : CoreId := Fin.ofNat 1344 (buddyNow s r n)
    modCore s n fun c => { c with mirrors := tset c.mirrors k ⟨some buddy, some img, none⟩ }

/-- A part of the home-set step that a launch begins on a core: its mirror, its check slot, its take. -/
def openPart (r k : Nat) (s : State) (n : Nat) : State := addTake (openTake (openMirror s n k r) n k) n k

/-- The outcome of a step that starts: its frames, its entries, its place as the home-set step, its takes. -/
def startStep (s : State) (r g : Nat) (st : Step) : State :=
  let k := ((ctx s r).slot.map (·.val)).getD 0
  let s := if logReplay s r then intervene s r st.id else s
  let f := fallbackOf s r st
  let s := f.1
  let entry := match f.2.1 with
    | some i => (((ctx s r).img.map (fun m => m.fallbacks.getD i 0)).getD 0)
    | none => st.entry
  let parts := homeParts (ctx s r) entry
  let nr := !fbit s F.glbDetEnf 0 0
  let st := { st with launched := true, launchTc := s.tcount, seed := seedOf s r st, nonrepro := nr, fallback := f.2.1,
                      reelGen := BitVec.ofNat 32 g, reelDig := if g = 0 then noDigest else (ctx s r).actDigest,
                      cores := parts.map (·.1) }
  let l := launchLog s r st f.2.2
  let s := parts.foldl (fun s p => readyCore s p.1.core.val k p.2.1 p.2.2 st.args) l.1
  let s := if nr then fset s F.glbDetNrseen 0 0 1 else s
  let s := ccount s r F.ctxAcctWaitNs 0 (s.tcount - st.acceptTc)
  let s := modCtx s r fun c =>
    { c with step := some l.2, queue := c.queue.tail, prevGen := BitVec.ofNat 32 g, colls := [],
             fbReqs := if st.remain ≤ 1 then tdel c.fbReqs st.reqid.toNat else c.fbReqs }
  let s := cset (cset s r F.ctxCollstatDone0 0 0) r F.ctxCollstatDone1 0 0
  let s := applyHeld s r k st true
  let s := wake s (parts.map (·.1.core.val))
  let s := (parts.map (·.1.core.val)).foldl (fun s n => openTake (openMirror s n k r) n k) s
  parts.foldl (fun s p => addTake s p.1.core.val k) s

/-- The head of the queue dropped with an outcome. -/
def dropHead (s : State) (r : Nat) (o : Nat) (st : Step) : State :=
  dropStep (modCtx s r fun c => { c with queue := c.queue.tail }) r o st

/-- A launch whose time has come: refused, made to wait, or started (R485, R503). -/
def launchNow (s : State) (r : Nat) (st : Step) : State :=
  if cget s r F.ctxRelstatLost 0 = 1 then dropHead (takeLaunch s r .home) r stCore (withReelGen s r st)
  else
    match reelGo s r st with
    | .go g => startStep (takeLaunch s r .home) r g st
    | .wait => s
    | .cancel => ccount (dropHead (takeLaunch s r .home) r stCancelled (withReelGen s r st)) r F.ctxReelstatStale 0 1

/-- `STEP_LAUNCH` (R420): the next accepted home-set step, at once or at its launch timecode (R383). -/
def execStepLaunch (r : CtxId) (s : State) : Host.Outcome State Fault Refusal :=
  let x := ctx s r.val
  match x.queue.head? with
  | some st =>
    if !mayLaunch s r.val || !logRead s r.val st.id then .next s
    else
      match st.launchAt, pendingFor s r.val .home with
      | none, _ => .next (launchNow s r.val st)
      | some t, none => .next (askLaunch s r.val .home t.toNat)
      | some _, some l => if l.target ≤ s.tcount then .next (launchNow s r.val st) else .next s
  | none => .next s

/-- A launched entry on the running part of a virtual core: it waits for the cut of the part's take, and a take at rest
stands at its cut (R386, R424). -/
def joinEntry (s : State) (n k pc : Nat) : State :=
  let s := modCore s n fun y => { y with entries := tset y.entries k (tget y.entries k [] ++ [(pc, [])]) }
  let c := core s n
  if c.takes.any (fun e => e.key == k && e.rest) then addTake (turnEntry s n k true) n k
  else if c.running = some k ∧ atRest s n then
    addTake (modCore (turnEntry s n k true) n fun c => { c with running := none, hold := 0 }) n k
  else s

/-- A launched entry on one core of a group: it joins the part under way, or starts (R386). -/
def launchEntryAt (s : State) (r : Nat) (st : Step) (e : Nat × Nat × Nat) : State :=
  let x := ctx s r
  let k := (x.slot.map (·.val)).getD 0
  match homeCore x e.1 e.2.1, x.img.bind (fun i => imgCore i e.1 e.2.1) with
  | some n, some ic =>
    match st.cores.find? (fun c => c.vx == e.1 && c.vy == e.2.1) with
    | some c =>
      if c.st = .running then joinEntry s n k e.2.2
      else if c.st = .stopped then s
      else
        let s := modFrame s n k fun fr => { fr with pc := e.2.2, loops := [], fresh := true }
        openPart r k (setPart s n k .running) n
    | none =>
      let s := readyCore s n k ic e.2.2 st.args
      let add (t : Step) : Step := { t with cores := t.cores ++ [⟨e.1, e.2.1, Fin.ofNat 1344 n, .running⟩] }
      openPart r k (modCtx s r fun c => { c with step := c.step.map add }) n
  | _, _ => s

/-- `LAUNCH_GROUP` (R384, R386): the timecode has reached the target of a pending group launch. -/
def execLaunchGroup (r : CtxId) (group : BitVec 8) (s : State) : Host.Outcome State Fault Refusal :=
  let x := ctx s r.val
  match pendingFor s r.val (.group group) with
  | none => .next s
  | some l =>
    if s.tcount < l.target ∨ x.st ≠ .resident then .next s
    else
      let s := takeLaunch s r.val (.group group)
      let g := x.img.bind fun i => i.groups.find? (fun g => g.group == group.toNat)
      match x.step, g with
      | some st, some g => .next (g.cores.foldl (fun s e => launchEntryAt s r.val st e) s)
      | _, _ => .next s

/-! ### Completion (R405, R406, R585 to R587) -/

/-- The identifiers kept of the latest completed steps (R202). -/
def pushDone (ids : List (BitVec 64)) (id : BitVec 64) : List (BitVec 64) := (ids ++ [id]).drop (ids.length + 1 - 64)

/-- The presence map of a slate area (Table 11.6). -/
def presenceMap (ps : List Nat) : Bytes :=
  leBytes 512 (ps.foldl (fun v p => if v.testBit p then v else v + 2 ^ p) 0)

/-- The slate area of a step written (R406). -/
def writeSlate (s : State) (r : Nat) (st : Step) : State :=
  let slots := cget s r F.ctxSlateCfgSlots 0
  if slots = 0 ∨ !slated st.status then s
  else
    let base := cget s r F.ctxSlateBaseAddr 0 + st.id.toNat % slots * 0x30000
    let ps := (st.contribs.map (·.point)).filter (fun p => (pointDigest st.contribs p).isSome)
    let s := hostWrite s base (presenceMap ps)
    let s := ps.foldl
      (fun s p => hostWrite s (base + 0x200 + 32 * p) (digestBytes ((pointDigest st.contribs p).getD noDigest))) s
    if cget s r F.ctxSlateCfgDetail 0 = 0 then s
    else
      let p := cget s r F.ctxSlateCfgDpoint 0
      let w := ((ctx s r).img.map (·.width)).getD 0
      let h := ((ctx s r).img.map (·.height)).getD 0
      (List.range (w * h)).foldl
        (fun s i =>
          let d := (tfind (pointList st.contribs p) (i / w * 65536 + i % w)).map (fun e => e.2.2)
          hostWrite s (base + 0x21000 + 32 * i) (digestBytes (d.getD noDigest))) s

/-- The `COMPLETE` entry of a step. -/
def completeEntry (s : State) (r : Nat) (st : Step) : LogEnt :=
  ⟨8, r, 0, s.tcount, st.id, 0, st.status, digestBytes st.slate ++ digestBytes st.result⟩

/-- Whether a record may be written: what the partner and the checks must settle is settled, the host is there, and both
rings have room (R394, R395, R509). -/
def recordReady (s : State) (r : Nat) (st : Step) : Bool :=
  let x := ctx s r
  let size := 2 ^ cget s r F.ctxCqCfgSizelog2 0
  let used := (cget s r F.ctxCqHeadCount 0 + 2 ^ 64 - cget s r F.ctxCqTailCount 0) % 2 ^ 64
  !st.pairWait && (st.launched || !renewing s r) && !x.checks.any (fun k => k.step == st.id) && hostUp s && decide (used < size) &&
    (!logLive s r || (x.log.q.isEmpty && logRoom s r (completeEntry s r st)))

/-- The record written at the head of the completion ring, and the step forgotten. -/
def writeRecord (s : State) (r : Nat) (st : Step) : State :=
  let size := 2 ^ cget s r F.ctxCqCfgSizelog2 0
  let j := cget s r F.ctxCqHeadCount 0
  let s := hostWrite s (cget s r F.ctxCqBaseAddr 0 + 128 * (j % size)) (completionBytes st ((j / size + 1) % 2))
  let s := cset s r F.ctxCqHeadCount 0 ((j + 1) % 2 ^ 64)
  let s := ccount s r F.ctxAcctStepsCount 0 1
  modCtx s r fun c =>
    let l := { c.log with replay := c.log.replay.filter (fun e => e.stepId != st.id)
                          subs := c.log.subs.filter (fun e => e.1 != st.id)
                          done := if logReplay s r then c.log.done ++ [st.id] else c.log.done }
    { c with ended := c.ended.tail, doneIds := pushDone c.doneIds st.id, log := l }

/-- The signal of a record: at once, or left to the coalescing time (R587). -/
def signalRecord (s : State) (r : Nat) : State :=
  if cget s r F.ctxCqCfgIrqen 0 = 0 then s
  else if cget s r F.ctxCqCfgCoalus 0 = 0 then signal s true (cget s r F.ctxCqCfgIrq 0)
  else modCtx s r fun c => { c with coalesce := true }

/-- `COMPLETION_RECORD` (R587): slate area, log entries, record, message. -/
def execCompletionRecord (r : CtxId) (s : State) : Host.Outcome State Fault Refusal :=
  match (ctx s r.val).ended.head? with
  | some st =>
    if recordReady s r.val st then
      let s := logPut (writeSlate s r.val st) r.val (completeEntry s r.val st)
      .next (settleDisable (signalRecord (writeRecord s r.val st) r.val) r.val)
    else .next s
  | none => .next s

/-- `COMPLETION_COALESCE_TIMEOUT` (R587). -/
def execCompletionCoalesceTimeout (r : CtxId) (s : State) : Host.Outcome State Fault Refusal :=
  if (ctx s r.val).coalesce then
    let s := modCtx s r.val fun c => { c with coalesce := false }
    .next (signal s (cget s r.val F.ctxCqCfgIrqen 0 == 1) (cget s r.val F.ctxCqCfgIrq 0))
  else .next s

/-! ### The call sheet (R580 to R586) -/

/-- Accepted steps whose records are not written (`CTX_CS_STAT.QUEUED`, R420). -/
def queued (x : Ctx) : Nat :=
  x.queue.length + (if x.step.isSome then 1 else 0) +
    x.floats.length + x.ended.length

/-- Usable cores of the device. -/
def usableCores (s : State) : Nat := ((List.range 1344).filter (fun n => (core s n).use == 0)).length

/-- A submission (Table 18.4) as a step waiting for its launch. -/
def submission (s : State) (d args : Bytes) (count : Nat) : Step where
  id := BitVec.ofNat 64 (xf d 8 8)
  num := BitVec.ofNat 32 (xf d 16 4)
  entry := xf d 2 1
  gen := BitVec.ofNat 32 (xf d 4 4)
  floating := xf d 0 1 == 2
  args := if args.isEmpty then [] else (List.range 16).map fun i => BitVec.ofNat 32 (xf args (4 * i) 4)
  reqid := BitVec.ofNat 64 (xf d 40 8)
  remain := xf d 20 4
  deadline := BitVec.ofNat 64 (xf d 32 8)
  launchAt := if xf d 1 1 / 2 % 2 = 1 then some (BitVec.ofNat 64 (xf d 24 8)) else none
  count := count
  acceptTc := s.tcount
  launched := false
  begun := false
  diverged := false
  launchTc := 0
  seed := 0
  nonrepro := false
  fallback := none
  reelGen := 0
  reelDig := 0
  cores := []
  outcomes := []
  trapped := 0
  poisoned := 0
  retakes := 0
  contribs := []
  logged := []
  slate := 0
  result := 0
  status := 0
  endTc := 0
  pairWait := false

/-- The code of R584 for a descriptor, none where it is accepted. -/
def badCode (x : Ctx) (d : Bytes) : Option Nat :=
  let kind := xf d 0 1
  let img := x.img
  let declared :=
    if kind = 2 then (img.map fun i => i.floats.any (fun p => p.1 == xf d 2 1)).getD false
    else (img.map fun i => i.cores.any (fun c => (entryOf c (xf d 2 1)).isSome)).getD false
  if kind = 0 ∨ 2 < kind ∨ xf d 1 1 / 4 ≠ 0 ∨ xf d 3 1 ≠ 0 ∨ xf d 48 16 ≠ 0 then some 2
  else if !declared then some 3
  else if xf d 8 8 = 2 ^ 64 - 1 then some 4
  else none

/-- A submission refused: `BAD`, the completion vector at once, no more polling (R584). `adv` is what `SKIP` will
advance. -/
def refuseSheet (s : State) (r code adv : Nat) : State :=
  let s := cset (cset s r F.ctxCsStatBad 0 1) r F.ctxCsStatBadcode 0 code
  let s := modCtx s r fun c => { c with badSlot := some adv }
  signal s (cget s r F.ctxCqCfgIrqen 0 == 1) (cget s r F.ctxCqCfgIrq 0)

/-- Whether a floating step could never claim its cores (R430). -/
def neverFits (s : State) (x : Ctx) (st : Step) : Bool :=
  let cs := stepImage x st
  decide (usableCores s < cs.length) || cs.any (fun c => decide (24 < c.granules))

/-- A submission accepted: its entry logged, its place in the queue or among the floating steps (R388, R420, R430). -/
def acceptStep (s : State) (r : Nat) (d args : Bytes) (count : Nat) (log : Bool) : State :=
  let st := submission s d args count
  let e : LogEnt := ⟨1, r, 0, s.tcount, st.id, 0, count, d ++ args⟩
  let p := if log && logLive s r then (logPut s r e, { st with logged := [e] }) else (s, st)
  if !st.floating then modCtx p.1 r fun c => { c with queue := c.queue ++ [p.2] }
  else if neverFits s (ctx s r) st then dropStep p.1 r stCore p.2
  else modCtx p.1 r fun c => { c with floats := c.floats ++ [p.2] }

/-- Whether the call-sheet unit takes another submission of a context (R581, R395). -/
def sheetOpen (s : State) (r : Nat) : Bool :=
  let x := ctx s r
  (x.st == .resident || x.st == .shelved) && x.badSlot.isNone && decide (queued x < 256) &&
    cget s r F.ctxCsBaseAddr 0 != 0 && cget s r F.ctxCqBaseAddr 0 != 0 && !logReplay s r &&
    cget s r F.ctxRelcfgPair 0 != 2 && (!logLive s r || decide (65536 ≤ ringFree s r))

/-- `CTX_CS_HEAD` advanced. -/
def headBy (s : State) (r n : Nat) : State :=
  cset s r F.ctxCsHeadCount 0 ((cget s r F.ctxCsHeadCount 0 + n) % 2 ^ 64)

/-- Whether a descriptor has an argument slot. -/
def hasArgs (d : Bytes) : Bool := xf d 1 1 % 2 == 1

/-- The slots read for a context, in order: each submission accepted, or the first refused (R581, R582, R584). -/
def takeSlots : Nat → List (Option Bytes) → State → Nat → Nat → State
  | 0, _, s, _, _ => s
  | fuel + 1, slots, s, r, tail =>
    let avail := (tail + 2 ^ 64 - cget s r F.ctxCsHeadCount 0) % 2 ^ 64
    if avail = 0 ∨ !sheetOpen s r then s
    else if 2 ^ cget s r F.ctxCsCfgSizelog2 0 < avail then refuseSheet s r 1 1
    else
      let count := cget s r F.ctxCsHeadCount 0
      match slots with
      | [] => s
      | none :: _ => refuseSheet s r 5 1
      | some d :: rest =>
        if hasArgs d && avail == 1 then s
        else
          match badCode (ctx s r) d with
          | some code => refuseSheet s r code (if hasArgs d then 2 else 1)
          | none =>
            if hasArgs d then
              match rest with
              | [] => s
              | none :: _ => refuseSheet s r 5 2
              | some a :: rest => takeSlots fuel rest (headBy (acceptStep s r d a count true) r 2) r tail
            else takeSlots fuel rest (headBy (acceptStep s r d [] count true) r 1) r tail

/-- What a poll reads for one context. -/
def pollOne (s : State) (rd : SheetRead) : State :=
  if !sheetOpen s rd.ctx.val then s
  else
    match rd.tail with
    | none => fcount s F.hostStatPollerr 0 0 1
    | some t => takeSlots 64 (rd.slots.take 64) s rd.ctx.val t.toNat

/-- `CALL_SHEET_POLL` (R581). -/
def execCallSheetPoll (reads : List SheetRead) (s : State) : Host.Outcome State Fault Refusal :=
  if reads.any (fun rd => rd.slots.any (fun b => (b.map (fun b => b.length != 64)).getD false)) then
    .fault (.badOperand "length of a call-sheet slot")
  else if !fbit s F.hostStatReady 0 0 || !hostUp s || fget s F.pwrStatState 0 0 == 2 || s.faulted then
    .next s
  else .next (reads.foldl pollOne s)

/-- `RESUME` (R584): the refused slot is read again. -/
def execResume (sl : SlotId) (w : RegWrite) (slot : Option Bytes) (s : State) : Host.Outcome State Fault Refusal :=
  onBar false s fun s =>
  match slotCtx s sl.val with
  | none => .next s
  | some r =>
    if !wbit w F.ctxCsCtlResume || (ctx s r).badSlot.isNone then .next s
    else
      let s' := modCtx s r fun c => { c with badSlot := none }
      if cget s r F.ctxCsStatBadcode 0 = 1 then .next s'
      else
        match slot with
        | none => .next (refuseSheet s' r 5 1)
        | some b =>
          if b.length ≠ 64 ∧ b.length ≠ 128 then .fault (.badOperand "length of a call-sheet slot")
          else
            let n := b.length / 64
            .next (takeSlots 1 (if n = 2 then [some (b.take 64), some (b.drop 64)] else [some b]) s' r
              (cget s r F.ctxCsHeadCount 0 + n))

/-- `SKIP` (R584): past the refused submission. -/
def execSkip (sl : SlotId) (w : RegWrite) (s : State) : Host.Outcome State Fault Refusal :=
  onBar false s fun s =>
  match slotCtx s sl.val with
  | none => .next s
  | some r =>
    match wbit w F.ctxCsCtlSkip, (ctx s r).badSlot with
    | true, some n => .next (headBy (modCtx s r fun c => { c with badSlot := none }) r n)
    | _, _ => .next s

/-! ### The log's own commands (R395, R397 to R399, R408) -/

/-- `LOG_ENTRY_WRITE` (R395): the oldest waiting entry, once the ring has room. -/
def execLogEntryWrite (r : CtxId) (s : State) : Host.Outcome State Fault Refusal :=
  match (ctx s r.val).log.q with
  | [] => .next s
  | e :: q =>
    if logRoom s r.val e && hostUp s then
      .next (settleDisable (logWrite (modCtx s r.val fun c => { c with log := { c.log with q := q } }) r.val e) r.val)
    else .next s

/-- `LOG_NOTE` (R408): a `NOTE` entry of an enabled context whose log is LIVE. -/
def execLogNote (sl : SlotId) (w : RegWrite) (s : State) : Host.Outcome State Fault Refusal :=
  onBar false s fun s =>
  match slotCtx s sl.val with
  | none => .next s
  | some r =>
    if !logLive s r || !registered (ctx s r) || w.half ≠ .both then .next s
    else
      let n := cget s r F.logNotes 0
      .next (cset (logFor s r none 7 n w.data.toNat []) r F.logNotes 0 (n + 1))

/-- `LOG_MODE_WRITE` (R408): ignored while the context is enabled; a write of `MODE` restarts the log. -/
def execLogModeWrite (sl : SlotId) (w : RegWrite) (s : State) : Host.Outcome State Fault Refusal :=
  onBar false s fun s =>
  if slotBusy s sl.val then .next s
  else
    let s := writeFields s w [F.ctxLogCfgMode, F.ctxLogCfgSizelog2, F.ctxLogCfgPace] sl.val 0
    if covered w.half F.ctxLogCfgMode && rangeOk F.ctxLogCfgMode (wval w F.ctxLogCfgMode) then
      let zero (s : State) (f : Fld) : State := fset s f sl.val 0 0
      .next ([F.ctxLogHeadCount, F.logSeq, F.logNotes, F.ctxReplayMismatch, F.ctxReplayDiverge, F.ctxReplayStepStepId].foldl zero s)
    else .next s

/-- Bytes a replayed entry takes of the ring. -/
def recLen (e : LogRec) : Nat := 64 + e.payload.length

/-- Whether a logged `SUBMIT` may be accepted now (R399). -/
def paceOk (s : State) (r : Nat) (tc : Nat) : Bool :=
  cget s r F.ctxLogCfgPace 0 == 0 ||
    match (ctx s r).log.t0 with
    | some (first, began) => decide (tc + began ≤ s.tcount + first)
    | none => true

/-- The replay's clock: the first logged timecode and when the replay began (R399). -/
def startClock (s : State) (r tc : Nat) : State :=
  if (ctx s r).log.t0.isSome then s
  else modCtx s r fun c => { c with log := { c.log with t0 := some (tc, s.tcount) } }

/-- Whether a replaying context reads its ring; in RETAIN no submission is accepted (R533). -/
def replayOpen (s : State) (r : Nat) : Bool :=
  let x := ctx s r
  (x.st == .resident || x.st == .shelved) && logReplay s r && hostUp s && !s.faulted && powerState s != 2

/-- Bytes of the ring that the host has made valid and the DZ6 has not read (R397). -/
def ringAhead (s : State) (r : Nat) : Nat := (cget s r F.ctxLogTailCount 0 + 2 ^ 64 - cget s r F.ctxLogHeadCount 0) % 2 ^ 64

/-- An entry read from the ring: fillers and notes are skipped, and what is bound to a step completed before; a `SEED`
entry names the step to which those without a step are bound (R391, R396, Table 11.5). -/
def keepEntry (done : List (BitVec 64)) (start : Nat) (l : LogSt) (e : LogRec) : LogSt :=
  if e.type = 0 ∨ e.type = 7 then l
  else if done.contains e.stepId then
    (if e.type = 3 then { l with replay := l.replay.filter (fun o => o.stepId != BitVec.allOnes 64) } else l)
  else
    let own (o : LogRec) : LogRec := if e.type = 3 ∧ o.stepId = BitVec.allOnes 64 then { o with stepId := e.stepId } else o
    let l := { l with replay := l.replay.map own ++ [e] }
    if e.type = 1 then { l with subs := l.subs ++ [(e.stepId, start)], due := l.due ++ [e] } else l

/-- The entries that follow in the ring read in order, as far as they are valid; the head goes past them. -/
def readRing : List LogRec → State → Nat → State
  | [], s, _ => s
  | e :: es, s, r =>
    if ringAhead s r < recLen e then s
    else
      let head := cget s r F.ctxLogHeadCount 0
      let s := startClock s r e.timecode.toNat
      let s := modCtx s r fun c => { c with log := keepEntry c.log.done head c.log e }
      readRing es (cset s r F.ctxLogHeadCount 0 ((head + recLen e) % 2 ^ 64)) r

/-- The logged submissions that have been read accepted in order, as resources and pace allow (R397, R399). -/
def acceptDue : Nat → State → Nat → State
  | 0, s, _ => s
  | n + 1, s, r =>
    match (ctx s r).log.due with
    | [] => s
    | e :: rest =>
      if decide (queued (ctx s r) < 256) && cget s r F.ctxCqBaseAddr 0 != 0 && paceOk s r e.timecode.toNat then
        let s := modCtx s r fun c => { c with log := { c.log with due := rest } }
        acceptDue n (acceptStep s r (e.payload.take 64) (e.payload.drop 64) (leNat (e.data.take 8)) false) r
      else s

/-- `REPLAY_SUBMIT` (R397, R399): the entries that stand in the ring from the head on are read, and the submissions among
those read are accepted. -/
def execReplaySubmit (r : CtxId) (entries : List LogRec) (s : State) : Host.Outcome State Fault Refusal :=
  if !replayOpen s r.val then .next s
  else if entries.any (fun e => e.type == 1 && e.payload.length != 64 && e.payload.length != 128) then
    .fault (.badOperand "length of a SUBMIT entry")
  else
    let s := readRing entries s r.val
    .next (acceptDue (ctx s r.val).log.due.length s r.val)

end Sys2Proof.Machine
end

