-- ==== Sys2Proof/Machine/Contexts.lean ====
section
/-! DEFINITION. Contexts (R409 to R445): enable and the consistency check, disable, shelving and return, the swap rule,
floating steps. -/

namespace Sys2Proof.Machine

/-! ### `CTX_CTL` (R416, R419, R611) -/

/-- The other fields of a write of `CTX_CTL`: `PRIO` always, `REGNUM` while the slot is FREE. -/
def putCtl (s : State) (sl : Nat) (w : RegWrite) : State :=
  writeFields s w (if slotBusy s sl then [F.ctxCtlPrio] else [F.ctxCtlRegnum, F.ctxCtlPrio]) sl 0

/-- `CONTEXT_ENABLE` (R416): the slot goes to CHECKING. -/
def execContextEnable (sl : SlotId) (w : RegWrite) (s : State) : Host.Outcome State Fault Refusal :=
  onBar false s fun s =>
  let s' := putCtl s sl.val w
  if wbit w F.ctxCtlEn && !slotBusy s sl.val then .next (fset s' F.ctxStatState sl.val 0 1) else .next s'

/-! ### The structure of an image (R417) -/

/-- Whether a virtual core's part of an image is well formed. -/
def coreImageOk (ic : CoreImage) : Bool :=
  decide (ic.classes.length = 4 ∧ ic.descs.length ≤ 16 ∧ ic.chans.length ≤ 8) &&
  decide (ic.code.length ≤ 256 * ic.segments) && ic.entries.all (fun e => decide (e.1 < 256 ∧ e.2 < 256 * ic.segments)) &&
  ic.data.all (fun d => decide (d.1 < 32768 * ic.granules)) && ic.carried.all (fun g => decide (g < ic.granules)) &&
  ic.mailboxes.all (fun m => decide (m.1 + m.2 ≤ 32768 * ic.granules))

/-- Whether a list names each virtual core of a grid once. -/
def gridWhole (w h : Nat) (cs : List CoreImage) : Bool :=
  decide (cs.length = w * h) &&
    (List.range (w * h)).all fun i => (cs.filter (fun c => c.vx == i % w && c.vy == i / w)).length == 1

/-- Whether the program of a sampling step is well formed: its entry number, its grid of 1 to 64 virtual cores, and one
granule count (R426). -/
def floatOk (p : Nat × List CoreImage) : Bool :=
  let w := (p.2.map (·.vx + 1)).foldl max 0
  let h := (p.2.map (·.vy + 1)).foldl max 0
  decide (p.1 < 256 ∧ 1 ≤ p.2.length ∧ p.2.length ≤ 64) && gridWhole w h p.2 && p.2.all coreImageOk &&
  (p.2.map (·.granules)).eraseDups.length == 1

/-- Whether an image's tables, counts and fields lie in their ranges; a context has at most four mailboxes (R425). -/
def imageOk (img : Image) : Bool :=
  gridWhole img.width img.height img.cores && img.cores.all coreImageOk &&
  decide ((img.cores.map (·.mailboxes.length)).sum ≤ 4) &&
  decide (img.groups.length ≤ 256) && decide (img.fallbacks.length ≤ 4) && img.fallbacks.all (fun e => decide (e < 256)) &&
  img.groups.all (fun g => decide (g.group < 256) && g.cores.all fun e => decide (e.1 < img.width ∧ e.2.1 < img.height)) &&
  img.floats.all floatOk

/-! ### The consistency check (R417, Table 12.2) -/

/-- Whether an image's grid is one the grade takes (R5, R209). -/
def gridOk (c : Chip) (img : Image) : Bool :=
  decide (1 ≤ img.width ∧ img.width ≤ (if c.part = 2 then 32 else 40) ∧ 1 ≤ img.height ∧ img.height ≤ 32)

/-- Whether a slot names a free registered number and finds the frames its floor needs (`CC_QUOTA_OVERLAP`). -/
def floorFits (s : State) (sl : Nat) : Bool :=
  let floor := fget s F.ctxPgquotaFloor sl 0
  (List.range 2).all fun par =>
    let reserved := (s.ctxs.map fun e => if registered e.2 then floorShare s e.1 par else 0).sum
    decide ((floor + 1 - par) / 2 + reserved ≤ tileFrames s)

/-- Whether retake protection is asked for and declared (R498). -/
def protects (s : State) (sl : Nat) (img : Image) : Bool :=
  fbit s F.ctxRelcfgRetake sl 0 && img.cores.all (fun c => !c.carried.isEmpty)

/-- Whether a class is held by a slot other than `sl` (R355). -/
def classHeld (s : State) (sl cls : Nat) : Bool :=
  (List.range 8).any fun o => o != sl && slotBusy s o && fget s F.ctxLnkcrClass o 0 == cls

/-- Whether a registered number has a key in a slot. -/
def keyThere (s : State) (r k : Nat) : Bool := (tfind s.keys.page (16 * r + k)).isSome

/-- The pairing's verdict on a context: the code of `PREASON`, none where it may be enabled (R510). -/
def pairVerdict (s : State) (sl : Nat) (partner : Option Counterpart) : Option Nat :=
  let mode := fget s F.ctxRelcfgPair sl 0
  if mode = 0 then none
  else if fget s F.pairStatState 0 0 ≠ 2 then some 0x35
  else
    match partner with
    | none => some 0x35
    | some c =>
      let own := ((List.range 4).map fun w => leBytes 8 (fget s F.ctxDigestData sl w)).flatten
      if digestBytes c.digest ≠ own then some 0x35
      else if (mode = 3 ∧ c.pair ≠ 3) ∨ (mode = 1 ∧ c.pair ≠ 2) ∨ (mode = 2 ∧ c.pair ≠ 1) then some 0x36
      else none

/-- The sum of the power floors of the enabled contexts. -/
def floorSum (s : State) : Nat :=
  (s.ctxs.map fun e => if registered e.2 then (e.2.img.map (·.powerFloor)).getD 0 else 0).sum

/-- The rows of Table 12.2, and of R256, that an image fails. -/
def checkCodes (s : State) (sl : Nat) (img : Image) (partner : Option Counterpart) : List Nat :=
  let r := fget s F.ctxCtlRegnum sl 0
  let x := { ctxInit with img := some img, map := mapGrid s sl img }
  let placed := gridOk s.chip img && gridFits s sl img
  let quota := fget s F.ctxPgquotaQuota sl 0
  let mode := fget s F.ctxLogCfgMode sl 0
  let size := fget s F.ctxLogCfgSizelog2 sl 0
  let cls := fget s F.ctxLnkcrClass sl 0
  let code (b : Bool) (c : Nat) : List Nat := if b then [c] else []
  let det := fbit s F.glbDetEnf 0 0
  let keyed := !img.keySlots.isEmpty
  code (registered (ctx s r) || (placed && !coresHave s img x (protects s sl img)) || !floorFits s sl) 0x01 ++
  code (img.cores.any (fun c => decide (24 < c.granules ∨ 16 < c.segments) ||
      (c.wide.map (fun g => decide (c.granules < g + 3))).getD false) ||
    decide (quota < fget s F.ctxPgquotaFloor sl 0) || decide (quota < shelfPages img)) 0x02 ++
  code ((List.range 1344).any (fun n => homeBit s sl n && (core s n).use != 0) ||
    (gridOk s.chip img && !gridFits s sl img)) 0x03 ++
  code (!gridOk s.chip img) 0x04 ++
  code (!(img.profile == 1 || (img.profile == 2 && s.chip.step == 0xB0))) 0x05 ++
  code (img.splits.any (fun k => k.1 % 128 != 0 && !k.2)) 0x06 ++
  code (det && (img.fast || img.fpAtomics || img.entropy)) 0x07 ++
  code (img.keySlots.any (fun k => !keyThere s r k.toNat) || (keyed && !keyThere s r 0)) 0x08 ++
  code ((mode != 0 && (fget s F.ctxLogBaseAddr sl 0 == 0 || decide (size < 16 ∨ 40 < size))) ||
    (mode == 0 && det && (img.recvAny || img.deadline))) 0x09 ++
  code (fget s F.fabCrfloorFloor 0 cls == 0 || classHeld s sl cls) 0x0A ++
  code ((img.mirror && fget s F.pairStatState 0 0 != 2) || (pairVerdict s sl partner).isSome) 0x0B ++
  code ((s.sec.dbg == 2 && keyed) || lifeNow s == 3) 0x0D ++
  code (decide (fget s F.pwrCapWatts 0 0 < floorSum s + img.powerFloor)) 0x0E ++
  code ((img.cores ++ img.floats.flatMap (·.2)).any (fun c => c.classes.contains 3)) 0x10

/-- The code a check ends with: the digest first, then the structure, then the lowest of the rest (R417). -/
def checkCode (s : State) (sl : Nat) (bytes : Option Bytes) (img : Option Image) (partner : Option Counterpart) :
    Option Nat :=
  match bytes with
  | none => some 0x0C
  | some bs =>
    let own := ((List.range 4).map fun w => leBytes 8 (fget s F.ctxDigestData sl w)).flatten
    if bs.length = 0 ∨ bs.length % 64 ≠ 0 ∨ rootOf bs ≠ own then some 0x0C
    else
      match img with
      | none => some 0x0F
      | some img => if imageOk img then lowest (checkCodes s sl img partner) else some 0x0F

/-- A context refused: the slot is FREE again. -/
def refuseContext (s : State) (sl code : Nat) (partner : Option Counterpart) : State :=
  let s := fset (fset (fset s F.ctxStatState sl 0 0) F.ctxStatRefused sl 0 1) F.ctxStatReason sl 0 code
  let s := match code, pairVerdict s sl partner with
    | 0x0B, some p => fset s F.ctxRelstatPreason sl 0 p
    | _, _ => s
  refuse s 1 sl code

/-- A context that passed its check: registered, its cores and shelf assigned, its counters at 0, RESIDENT (R416). -/
def admitContext (s : State) (sl : SlotId) (img : Image) : State :=
  let r := fget s F.ctxCtlRegnum sl.val 0
  let map := mapGrid s sl.val img
  let prot := protects s sl.val img
  let s := fset s F.ctxStatState sl.val 0 0
  let s := setCtx s r { ctxInit with st := .resident, slot := some sl, img := some img, map := map }
  let s := map.foldl (assignCore r sl.val img true true) s
  let s := if prot then assignMirrors s sl.val r else s
  let s := mapShelf s r img
  let s := [F.ctxAcctWaitNs, F.ctxAcctPreemptCount, F.ctxAcctEnergyUj, F.ctxAcctStepsCount, F.ctxRelstatLost].foldl
    (fun s f => cset s r f 0 0) s
  let s := cset (cset s r F.ctxRelstatProt 0 (if prot then 1 else 0)) r F.ctxShelfszPages 0 (shelfPages img)
  cset s r F.ctxCtlEn 0 1

/-- `CONSISTENCY_CHECK` (R417): the check of a slot in CHECKING ends. `bytes` is the image as read, `img` what its
structure says, `partner` the counterpart. -/
def execConsistencyCheck (sl : SlotId) (bytes : Option Bytes) (img : Option Image) (partner : Option Counterpart)
    (s : State) : Host.Outcome State Fault Refusal :=
  if !slotChecking s sl.val then .next s
  else if (bytes.map (fun b => b.length != fget s F.ctxImagelenBytes sl.val 0)).getD false then
    .fault (.badOperand "length of an image")
  else
    match checkCode s sl.val bytes img partner, img with
    | none, some g => .next (admitContext s sl g)
    | some code, _ => .next (refuseContext s sl.val code partner)
    | none, none => .next s

/-! ### Disable (R418) -/

/-- `CONTEXT_DISABLE`: at once for a RESIDENT context, after the copy in SHELVING and RETURNING, never in CHECKING. -/
def execContextDisable (sl : SlotId) (w : RegWrite) (s : State) : Host.Outcome State Fault Refusal :=
  onBar false s fun s =>
  let s := putCtl s sl.val w
  if !covered w.half F.ctxCtlEn ∨ wbit w F.ctxCtlEn then .next s
  else
    match slotCtx s sl.val with
    | none => .next s
    | some r =>
      match (ctx s r).st with
      | .resident => .next (beginDisable s r)
      | .shelving | .returning => .next (modCtx s r fun c => { c with res := { c.res with disableReq := true } })
      | _ => .next s

/-- The registered context that `SCHED_DIRSEL` selects. -/
def dirSel (s : State) : Nat := fget s F.schedDirselRegnum 0 0

/-- `DISABLE` (R418): of a SHELVED context. -/
def execDisableShelved (w : RegWrite) (s : State) : Host.Outcome State Fault Refusal :=
  onBar false s fun s =>
  let r := dirSel s
  if wbit w F.schedDirctlDisable && (ctx s r).st == .shelved then .next (beginDisable s r) else .next s

/-! ### Where a floating step may run (R427, R428) -/

/-- The granules each core of a floating step needs. -/
def floatGranules (cs : List CoreImage) : Nat := (cs.map (·.granules)).foldl max 0

/-- Whether a core runs a floating step; a retake is one (R426). -/
def runsFloat (c : Core) : Bool := c.frames.any (fun e => decide (8 ≤ e.1)) || !c.replaces.isEmpty

/-- Whether a core that may be used is a candidate for work of `f` granules (R427). -/
def candidate (s : State) (f n : Nat) : Bool :=
  let c := core s n
  !c.fenced && !coreTested s n && decide (f ≤ (freeGranules c).length) && !runsFloat c

/-- Whether a core is idle, its take at rest too (R423), or runs a take of lower priority (R428). -/
def idleFor (s : State) (prio n : Nat) : Bool :=
  match (core s n).running with
  | none => true
  | some k => atRest s n || decide (corePrio s n k < prio)

/-- Whether a core may be claimed by a floating step of a priority: a candidate that is idle or runs a take of lower
priority. -/
def claimable (s : State) (prio f n : Nat) : Bool :=
  let c := core s n
  c.use == 0 && candidate s f n && idleFor s prio n

/-- The cores that a floating step of a context may claim, in placement order. -/
def floatCores (s : State) (r : Nat) (st : Step) : List Nat :=
  placementOrder.filter (claimable s (cget s r F.ctxCtlPrio 0) (floatGranules (stepImage (ctx s r) st)))

/-- Whether a floating step that waits would find its cores now. A context whose shelving is decided starts none (R434), nor does
one that has lost a core (R503), nor any in RETAIN (R533) or of a twin that is renewed (R518). -/
def floatReady (s : State) (r : Nat) (st : Step) : Bool :=
  let x := ctx s r
  !st.launched && x.st == .resident && !x.res.decided && cget s r F.ctxRelstatLost 0 == 0 && !s.faulted && powerState s != 2 &&
  !renewing s r && (x.snap.map (fun p => p.started)).getD true &&
  logRead s r st.id && decide ((stepImage x st).length ≤ (floatCores s r st).length)

/-! ### Blocked and runnable (R431) -/

/-- Whether an accepted step of a context could launch now; the switch of a reel that it waits for is part of its launch. -/
def couldLaunch (s : State) (r : Nat) : Bool :=
  let x := ctx s r
  (x.queue.head?.any fun st => launchDue s r st && (reelGo s r st != .wait || x.reel.any (reelMaySwitch s r))) ||
  x.floats.any fun st => floatReady s r st && launchCome s r (.float st.id) st

/-- Whether a core's part of a step is at rest: running and held, or waiting. -/
def partRests (s : State) (k : Nat) (c : StepCore) : Bool :=
  let x := core s c.core.val
  (x.running == some k && atRest s c.core.val) || x.takes.any (fun e => e.key == k && e.rest)

/-- Whether a resident context is blocked. -/
def blocked (s : State) (r : Nat) : Bool :=
  let x := ctx s r
  x.st == .resident &&
  match x.step, x.slot with
  | none, _ => !couldLaunch s r
  | some st, some sl =>
    let run := st.cores.filter (fun c => c.st == .running)
    !run.isEmpty && run.all (partRests s sl.val)
  | some _, none => false

/-- Whether a shelved take has the tokens it waits for. -/
def shelfReady (s : State) (r : Nat) (e : ShelfCore) : Bool :=
  let i := match decodeC ((tget e.code e.frame.pc 0).extractLsb' 96 32) with
    | .ok i => i
    | .error _ => .nop
  let logged := (ctx s r).step.bind fun st =>
    (st.cores.find? (fun c => c.core.val == e.core)).bind fun c => choiceLogged s r st (choiceKey (c.vx, c.vy) e.frame)
  e.rest && waitMet { coreInit ⟨1, 0⟩ 0 with recv := e.recv } 0 e.frame logged i

/-- Whether a shelved context is runnable. -/
def runnable (s : State) (r : Nat) : Bool :=
  let x := ctx s r
  x.st == .shelved && (!x.queue.isEmpty || x.floats.any (!·.launched) || x.res.shelf.any (shelfReady s r))

/-! ### Shelving (R434 to R438) -/

/-- Whether a shelving or a return runs on the device. -/
def copying (s : State) : Bool := s.ctxs.any (fun e => e.2.st == .shelving || e.2.st == .returning)

/-- Whether a context's shelf may not be written: key slot 0 of a context with key slots is empty (R437). -/
def keyWait (s : State) (r : Nat) : Bool :=
  ((ctx s r).img.map (fun i => !i.keySlots.isEmpty)).getD false && keyEmpty s r 0

/-- Whether a shelving that is asked for is decided: the context is blocked, and its shelf may be written (R435, R437). -/
def decides (s : State) (r : Nat) : Bool := blocked s r && !keyWait s r

/-- Whether a context may be shelved now. -/
def mayShelve (s : State) (r : Nat) : Bool :=
  decides s r && !copying s && (ctx s r).floats.all (fun f => !f.launched)

/-- The times since which contexts have been blocked and runnable, and the shelvings that are decided, brought up to now. -/
def observe (s : State) : State :=
  let mark (b : Bool) (t : Option Nat) : Option Nat := if b then t.or (some s.tcount) else none
  { s with ctxs := s.ctxs.map fun e =>
      (e.1, { e.2 with res := { e.2.res with
        decided := e.2.res.decided || (e.2.res.shelveReq && decides s e.1)
        blockedAt := mark (blocked s e.1) e.2.res.blockedAt
        runnableAt := mark (runnable s e.1) e.2.res.runnableAt } }) }

/-- A take at rest that holds its core leaves it, still at rest. -/
def parkRest (k : Nat) (s : State) (m : CoreId × Nat × Nat) : State :=
  let c := core s m.1.val
  if c.running = some k ∧ atRest s m.1.val then
    chooseTake (setCore s m.1.val { c with takes := c.takes ++ [⟨k, true, 0⟩], running := none }) m.1.val
  else s

/-- Shelving begins. -/
def beginShelve (s : State) (r : Nat) : State :=
  match (ctx s r).slot with
  | none => s
  | some sl =>
    let s := modCtx s r fun c => { c with st := .shelving, res := { c.res with shelveReq := false, decided := false } }
    (ctx s r).map.foldl (parkRest sl.val) (fset s F.ctxCtlShelve sl.val 0 0)

/-- What the shelf keeps of one core; a take at rest whose token has come meanwhile resumes at the return like the others
(R438). -/
def shelfOf (s : State) (k : Nat) (m : CoreId × Nat × Nat) : ShelfCore :=
  let c := core s m.1.val
  let fr := frameOf c k
  let n := viewLen fr
  { core := m.1.val
    frame := fr
    recv := (c.recv.filter (fun e => e.1 / 8 == k)).map fun e => (e.1 % 8, e.2)
    bytes := mwrite [] 0 (vread c fr 0 n)
    bad := ((List.range (n / 32)).filter (fun i => vpoison c fr (32 * i)))
    code := ((List.range (codeSize fr)).map (fun a => (a, fetchBundle c fr a))).filter (fun e => e.2 != 0)
    rest := c.takes.any (fun e => e.key == k)
    mirror := tfind c.mirrors k
    entries := tget c.entries k [] }

/-- Shelving completes: the shelf holds the context's share, and the cores and the slot are free (R434). -/
def completeShelve (s : State) (r : Nat) : State :=
  match (ctx s r).slot with
  | none => s
  | some sl =>
    let x := ctx s r
    let shelf := x.map.map (shelfOf s sl.val)
    let s := x.map.foldl (releaseCore r sl.val) s
    let saved := saveBlock s sl.val
    let s := modCtx (clearBlock s sl.val) r fun c =>
      { c with st := .shelved, slot := none,
               res := { c.res with saved := saved, shelf := shelf, shelfLost := false, imageBad := false, blockedAt := none } }
    if x.res.disableReq then beginDisable s r else s

/-- `SHELVE` (R435): the request, which takes effect when the context is next blocked. -/
def execShelve (sl : SlotId) (w : RegWrite) (s : State) : Host.Outcome State Fault Refusal :=
  onBar false s fun s =>
  let s := putCtl s sl.val w
  match wbit w F.ctxCtlShelve, slotCtx s sl.val with
  | true, some r =>
    let s := modCtx (fset s F.ctxCtlShelve sl.val 0 1) r fun c =>
      { c with res := { c.res with shelveReq := true, decided := c.res.decided || decides s r } }
    .next (if mayShelve s r then beginShelve s r else s)
  | _, _ => .next s

/-- A shelving whose copies are done: its class is free, and it is over, once every request of the context has been
answered (R355). -/
def endShelve (s : State) (r : CtxId) : State :=
  if s.fab.reqs.any (fun q => q.ctx == some r) then s else completeShelve s r.val

/-- `SHELVING_COMPLETE` (R434): the copies of a shelving are done; a request whose time has come is taken up. -/
def execShelvingComplete (r : CtxId) (s : State) : Host.Outcome State Fault Refusal :=
  onClock s (edgeClock 0) fun s =>
  let x := ctx s r.val
  if x.st = .shelving then .next (endShelve s r)
  else if x.res.shelveReq ∧ mayShelve s r.val then .next (endShelve (beginShelve s r.val) r)
  else .next s

/-! ### Return (R432, R434 to R436) -/

/-- The lowest free slot. -/
def freeSlot (s : State) : Option SlotId := (List.finRange 8).find? (fun sl => !slotBusy s sl.val)

/-- The class number of a shelved context. -/
def shelvedClass (s : State) (r : Nat) : Nat := cget s r F.ctxLnkcrClass 0

/-- Whether a shelved context finds a slot, its granules and segments, and its class (R432); one whose image has failed a return
does not return (R436). -/
def canReturn (s : State) (r : Nat) : Bool :=
  let x := ctx s r
  match x.img, freeSlot s with
  | some img, some _ =>
    x.st == .shelved && !x.res.imageBad && coresHave s img x (cget s r F.ctxRelstatProt 0 == 1) && !classHeld s 8 (shelvedClass s r)
  | _, _ => false

/-- A return begins: the slot with the saved block fields, the cores assigned, with the image's code but none of its data
where the shelf is lost (R436). -/
def beginReturn (s : State) (r : Nat) : State :=
  match freeSlot s, (ctx s r).img with
  | some sl, some img =>
    let x := ctx s r
    let s := restoreBlock s sl.val x.res.saved
    let s := modCtx s r fun c =>
      { c with st := .returning, slot := some sl, res := { c.res with saved := [], returnReq := false } }
    let s := x.map.foldl (assignCore r sl.val img x.res.shelfLost false) s
    if cget s r F.ctxRelstatProt 0 = 1 then assignMirrors s sl.val r else s
  | _, _ => s

/-- One core copied back in from the shelf. -/
def unshelveCore (k : Nat) (s : State) (e : ShelfCore) : State :=
  let s := modCore s e.core fun c =>
    let fr := { e.frame with gran := (frameOf c k).gran, segs := (frameOf c k).segs }
    let n := viewLen fr
    let c := loadCode (vwrite c fr 0 (mread e.bytes 0 n)) fr ((List.range (codeSize fr)).map fun a => tget e.code a 0)
    let c := e.bad.foldl (fun c i => setPoison c fr (32 * i) true) c
    { c with frames := tset c.frames k fr,
             recv := e.recv.foldl (fun t q => tset t (8 * k + q.1) q.2) c.recv,
             mirrors := (e.mirror.map (tset c.mirrors k)).getD c.mirrors,
             entries := tset c.entries k e.entries,
             takes := if e.rest then c.takes ++ [⟨k, true, 0⟩] else c.takes }
  wakeRest s e.core k

/-- The context is RESIDENT again; a disable that came meanwhile takes effect (R418), and a page command that waits goes
on. -/
def endReturn (s : State) (r : Nat) : State :=
  let off := (ctx s r).res.disableReq
  let s := modCtx s r fun c => { c with
    st := .resident, res := { c.res with shelf := [], returnedAt := some s.tcount, disableReq := false } }
  if off then beginDisable s r else resumePg s r

/-- A return that cannot take place: the context stays SHELVED (R436). -/
def abandonReturn (s : State) (r : Nat) : State :=
  match (ctx s r).slot with
  | none => s
  | some sl =>
    let s := (ctx s r).map.foldl (releaseCore r sl.val) s
    let saved := saveBlock s sl.val
    modCtx (clearBlock s sl.val) r fun c => { c with st := .shelved, slot := none, res := { c.res with saved := saved } }

/-- A return completes: from the shelf, or from the image where the shelf is lost; one whose root does not match bars every
further return (R434, R436). -/
def completeReturn (s : State) (r : Nat) (bytes : Option Bytes) : State :=
  let x := ctx s r
  match x.slot with
  | none => s
  | some sl =>
    if x.res.shelfLost then
      if (bytes.map rootOf) = some (imageDigest s r) then endReturn (killHome s r stCore) r
      else modCtx (abandonReturn s r) r fun c => { c with res := { c.res with imageBad := true } }
    else
      let s := modCtx s r fun c => { c with st := .resident }
      endReturn (x.res.shelf.foldl (unshelveCore sl.val) s) r

/-- `RETURN` (R435): the request, which needs no accepted step. -/
def execReturnCtx (w : RegWrite) (s : State) : Host.Outcome State Fault Refusal :=
  onBar false s fun s =>
  let r := dirSel s
  if wbit w F.schedDirctlReturn && (ctx s r).st == .shelved then
    let s := modCtx s r fun c => { c with res := { c.res with returnReq := true } }
    .next (if canReturn s r && !copying s then beginReturn s r else s)
  else .next s

/-- `RETURN_COMPLETE` (R434): the copies of a return are done; a return whose time has come is taken up. `bytes` is the
image read again for a lost shelf. -/
def execReturnComplete (r : CtxId) (bytes : Option Bytes) (s : State) : Host.Outcome State Fault Refusal :=
  onClock s (edgeClock 0) fun s =>
  let x := ctx s r.val
  if x.st = .returning then .next (completeReturn s r.val bytes)
  else if x.st = .shelved ∧ (x.res.returnReq ∨ runnable s r.val) ∧ canReturn s r.val ∧ !copying s then
    .next (completeReturn (beginReturn s r.val) r.val bytes)
  else .next s

/-! ### The swap rule (R433) -/

/-- The better of two candidates under a strict order; the earlier one where neither goes before. -/
def better (lt : Nat → Nat → Bool) (b : Option Nat) (r : Nat) : Option Nat :=
  match b with
  | none => some r
  | some c => if lt r c then some r else some c

/-- Whether one runnable context comes in before another: higher priority, runnable longer, lower number. -/
def inBefore (s : State) (a b : Nat) : Bool :=
  let p (r : Nat) : Nat := cget s r F.ctxCtlPrio 0
  let t (r : Nat) : Nat := ((ctx s r).res.runnableAt).getD s.tcount
  decide (p b < p a) || (p a == p b && (decide (t a < t b) || (t a == t b && decide (a < b))))

/-- Whether one victim goes before another: blocked longer, lower priority, higher number. -/
def outBefore (s : State) (a b : Nat) : Bool :=
  let p (r : Nat) : Nat := cget s r F.ctxCtlPrio 0
  let t (r : Nat) : Nat := ((ctx s r).res.blockedAt).getD s.tcount
  decide (t a < t b) || (t a == t b && (decide (p a < p b) || (p a == p b && decide (b < a))))

/-- `SWAPT` in counts of the timecode. -/
def swapNs (s : State) : Nat := 1000 * fget s F.schedCfgSwapt 0 0

/-- Whether a resident context has been blocked for longer than `SWAPT`. -/
def blockedLong (s : State) (r : Nat) : Bool :=
  blocked s r && (((ctx s r).res.blockedAt).map (fun t => decide (t + swapNs s < s.tcount))).getD false

/-- Whether a resident context may be the victim for an incoming one. -/
def victimFor (s : State) (inc r : Nat) : Bool :=
  let x := ctx s r
  let fresh := (x.res.returnedAt.map (fun t => decide (s.tcount ≤ t + swapNs s))).getD false
  x.st == .resident && !fresh && !keyWait s r && canReturn (completeShelve (beginShelve s r) r) inc

/-- `SWAP`: where a runnable shelved context cannot return and every resident context has been blocked long enough, one
is shelved for it, or none makes room; a shelving that is decided comes first. -/
def execSwap (s : State) : Host.Outcome State Fault Refusal :=
  onClock s (edgeClock 0) fun s =>
  let rs := s.ctxs.map (·.1)
  let ins := rs.filter (fun r => runnable s r && !canReturn s r)
  let residents := rs.filter (fun r => (ctx s r).st == .resident)
  if !fbit s F.schedCfgAuto 0 0 || copying s || rs.any (fun r => (ctx s r).res.decided) || !residents.all (blockedLong s) then
    .next s
  else
    match ins.foldl (better (inBefore s)) none with
    | none => .next s
    | some inc =>
      match (residents.filter (victimFor s inc)).foldl (better (outBefore s)) none with
      | none => .next (fcount s F.schedStatNofit 0 0 1)
      | some v =>
        let s := modCtx (fcount s F.schedStatSwaps 0 0 1) inc fun c => { c with res := { c.res with returnReq := true } }
        if (ctx s v).floats.any (·.launched) then
          .next (modCtx s v fun c => { c with res := { c.res with shelveReq := true, decided := true } })
        else .next (beginShelve s v)

/-! ### Floating steps (R426 to R430) -/

/-- A core claimed for a virtual core of a floating step: granules filled with zeros, code, frame (R429). Its code is
kept at segments 16 and up, which no home set uses. -/
def claimCore (r k : Nat) (args : List (BitVec 32)) (entry : Nat) (s : State) (p : Nat × CoreImage) : State :=
  modCore s p.1 fun c =>
    let gs := (freeGranules c).take p.2.granules
    let ss := (List.range p.2.segments).map (16 + ·)
    let fr := { frameInit with gran := gs, segs := ss }
    let c := wipe { c with granOwner := ownAll c.granOwner gs (ownFloat r) } gs ss
    let c := p.2.data.foldl (fun c d => vwrite c fr d.1 [d.2]) (loadCode c fr p.2.code)
    { c with frames := tset c.frames k (launchFrame fr p.2 ((entryOf p.2 entry).getD 0) args),
             recv := c.recv.filter (fun e => e.1 / 8 != k) }

/-- A floating step that has claimed its cores starts. -/
def startFloat (s : State) (r : Nat) (st : Step) (ps : List (Nat × CoreImage)) : State :=
  let k := ((ctx s r).slot.map (·.val)).getD 0 + 8
  let s := if logReplay s r then intervene s r st.id else s
  let g := cget s r F.ctxReelgenActgen 0
  let nr := !fbit s F.glbDetEnf 0 0
  let cores := ps.map fun p => (⟨p.2.vx, p.2.vy, Fin.ofNat 1344 p.1, .running⟩ : StepCore)
  let t := { st with launched := true, launchTc := s.tcount, seed := seedOf s r st, nonrepro := nr,
                     reelGen := BitVec.ofNat 32 g, reelDig := if g = 0 then noDigest else (ctx s r).actDigest,
                     cores := cores }
  let l := launchLog s r t false
  let s := ps.foldl (claimCore r k st.args st.entry) l.1
  let s := if nr then fset s F.glbDetNrseen 0 0 1 else s
  let s := modCtx s r fun c => { c with floats := c.floats.map fun f => if f = st then l.2 else f }
  let s := applyHeld s r k st false
  let s := wake s (ps.map (·.1))
  ps.foldl (fun s p => addTake s p.1 k) s

/-- The virtual cores of a grid in serpentine order (R211, R428). -/
def gridSerpentine (cs : List CoreImage) : List CoreImage :=
  let place (c : CoreImage) : Nat := 64 * c.vy + (if c.vy % 2 = 0 then c.vx else 63 - c.vx)
  cs.mergeSort fun a b => decide (place a ≤ place b)

/-- Whether a floating step that waits is over at once with `FAILED_CORE`: it can never claim its cores, or its context has lost
a core (R430, R503). -/
def floatLost (s : State) (r : Nat) (st : Step) : Bool :=
  !st.launched && (neverFits s (ctx s r) st || cget s r F.ctxRelstatLost 0 == 1)

/-- `FLOATING_CLAIM` (R383, R427, R428, R430): the i-th floating step of a context that waits claims its cores, or none; one
that carries a launch timecode asks for its launch, and claims them once it has come. -/
def execFloatingClaim (r : CtxId) (i : Nat) (s : State) : Host.Outcome State Fault Refusal :=
  let x := ctx s r.val
  match x.floats[i]? with
  | none => .next s
  | some st =>
    let ps := (floatCores s r.val st).zip (gridSerpentine (stepImage x st))
    if floatLost s r.val st then .next (killFloat r.val stCore s st)
    else if !floatReady s r.val st then .next s
    else
      match st.launchAt, pendingFor s r.val (.float st.id) with
      | none, _ => .next (startFloat s r.val st ps)
      | some t, none => .next (askLaunch s r.val (.float st.id) t.toNat)
      | some _, some l =>
        if l.target ≤ s.tcount then .next (startFloat (takeLaunch s r.val (.float st.id)) r.val st ps) else .next s

/-- The part of a step on a core that is lost (R503): the step has met the core fault. -/
def losePart (n : Nat) (s : State) (k : Nat) : State :=
  match (keyStep s n k).bind (fun st => st.cores.find? (fun c => c.core.val == n)) with
  | none => s
  | some c =>
    let s := modKeyStep s n k (noteOutcome stCore)
    if c.st = .running then setPart s n k .stopped else s

/-- A context that has lost a core for good (R503). -/
def loseCore (s : State) (r n : Nat) : State :=
  match (ctx s r).slot with
  | some sl => losePart n (cset s r F.ctxRelstatLost 0 1) sl.val
  | none => cset s r F.ctxRelstatLost 0 1

/-- The cores of a context that wait for a retake (R502). -/
def retakes (s : State) (r : Nat) : List Nat :=
  if cget s r F.ctxRelstatLost 0 = 1 then []
  else ((ctx s r).map.map (·.1.val)).filter fun n => (core s n).fenced

/-- Since when a sampling step waits for its cores. -/
def waitFrom (st : Step) : Nat := max st.acceptTc ((st.launchAt.map (·.toNat)).getD 0)

/-- Whether what has waited for cores since a time has waited too long: `FLOATTO` ms, and 0 is no limit (R430). -/
def waitedOut (s : State) (since : Nat) : Bool :=
  let ms := fget s F.schedCfgFloatto 0 0
  ms != 0 && decide (since + 1000000 * ms ≤ s.tcount)

/-- `FLOAT_TIMEOUT` (R430): a sampling step that has waited too long fails; past the floating steps, `i` counts the check
slots, whose closed take then stays unchecked, and past those the retakes that wait, which fail under R503. -/
def execFloatTimeout (r : CtxId) (i : Nat) (s : State) : Host.Outcome State Fault Refusal :=
  let x := ctx s r.val
  match x.floats[i]? with
  | some st => if st.launched ∨ !waitedOut s (waitFrom st) then .next s else .next (killFloat r.val stTimeout s st)
  | none =>
    match x.checks[i - x.floats.length]? with
    | some k =>
      if k.closed ∧ waitedOut s k.since then
        .next (modCtx s r.val fun c => { c with checks := c.checks.eraseIdx (i - x.floats.length) })
      else .next s
    | none =>
      match (retakes s r.val)[i - x.floats.length - x.checks.length]? with
      | some n => if waitedOut s (core s n).fencedAt then .next (loseCore s r.val n) else .next s
      | none => .next s

end Sys2Proof.Machine
end

