-- ==== Sys2Proof/Machine/Time.lean ====
section
/-! DEFINITION. The timecode unit (R373 to R382, R387): the count and its slew, the master and the upstream port, markers,
the alignment states, the tick generators. -/

namespace Sys2Proof.Machine

/-! ### The count (R373, R380, R381) -/

/-- Whether the count of `TC_REF` runs: power is there, and the count does not stand still. -/
def countRuns (s : State) : Bool := s.power.railsUp && s.pins.tcRef && !fbit s F.tcStatBehind 0 0

/-- One nanosecond: the count advances by one, or by what a slew makes of it; a slew is made at most once in 10,000
counts. -/
def nextCount (s : State) : State :=
  if !countRuns s then s
  else if s.time.slew = 0 ∨ s.tcount < s.time.slewAt + 10000 then { s with tcount := s.tcount + 1 }
  else
    { s with tcount := (if 0 < s.time.slew then s.tcount + 2 else s.tcount),
             time := { s.time with slew := 0, slewAt := s.tcount + 2 } }

/-- `TC_SET` (R375, R381): the master's count set forward while FREE. -/
def execTcSet (w : RegWrite) (s : State) : Host.Outcome State Fault Refusal :=
  onBar true s fun s =>
  if w.half = .both ∧ fbit s F.tcCfgMaster 0 0 ∧ fget s F.tcStatState 0 0 = 0 ∧ s.tcount ≤ w.data.toNat then
    .next { s with tcount := w.data.toNat }
  else .next s

/-- The count no longer stands still (R381). -/
def standNoMore (s : State) : State := fset s F.tcStatBehind 0 0 0

/-- The slew given up: the count goes on from `TC_REF` alone (Table 11.1). -/
def dropSlew (s : State) : State := { s with time := { s.time with slew := 0 } }

/-- ACQUIRE entered: one step is owed, and no marker has been good yet. -/
def enterAcquire (s : State) : State :=
  { fset (standNoMore s) F.tcStatState 0 0 1 with time := { s.time with first := true, good := 0, slew := 0 } }

/-- FREE entered by the device that has become the master (Table 11.1). -/
def enterFree (s : State) : State := dropSlew (fset (fset (standNoMore s) F.tcStatStratum 0 0 0) F.tcStatState 0 0 0)

/-- `REACQ` (R380): with no context enabled, and not on the master, which stays in FREE (Table 11.1). -/
def execReacq (w : RegWrite) (s : State) : Host.Outcome State Fault Refusal :=
  onBar true s fun s =>
  if wbit w F.tcCtlReacq && noneEnabled s && !fbit s F.tcCfgMaster 0 0 then .next (enterAcquire s) else .next s

/-- `STAND_STILL_END` (R381). -/
def execStandStillEnd (s : State) : Host.Outcome State Fault Refusal := .next (standNoMore s)

/-! ### The upstream (R378) -/

/-- What the UP ports hear of a master. -/
def hears (s : State) : List (Nat × Heard) :=
  s.time.heard.filter (fun h => fget s F.lnkStatState h.1 0 == 6 && h.2.stratum != 255)

/-- The lowest master heard. -/
def lowMaster (hs : List (Nat × Heard)) : Option Nat := hs.foldl
  (fun b h => match b with
    | none => some h.2.master.toNat
    | some m => some (min m h.2.master.toNat)) none

/-- The port with the lowest stratum, the lower port on a tie; ports come in rising order. -/
def bestPort (hs : List (Nat × Heard)) : Option (Nat × Heard) := hs.foldl
  (fun b h => match b with
    | none => some h
    | some g => if h.2.stratum.toNat < g.2.stratum.toNat then some h else some g) none

/-- The upstream port: the one in use while it hears the master and no other port has a lower stratum. -/
def pickUp (s : State) : Option (Nat × Heard) :=
  match lowMaster (hears s) with
  | none => none
  | some m =>
    let hs := (hears s).filter (fun h => h.2.master.toNat == m)
    match bestPort hs, hs.find? (fun h => h.1 == fget s F.tcStatUpport 0 0) with
    | some b, some c => if b.2.stratum.toNat < c.2.stratum.toNat then some b else some c
    | b, _ => b

/-- The upstream taken over into `TC_STAT`, and the alignment states that follow (Table 11.1). -/
def follow (s : State) : State :=
  match pickUp s with
  | some (p, h) =>
    let s := fset s F.tcStatUpport 0 0 p
    let s := fset s F.tcStatMasterdev 0 0 h.master.toNat
    let s := fset s F.tcStatStratum 0 0 (min 254 (h.stratum.toNat + 1))
    match fget s F.tcStatState 0 0 with
    | 0 => enterAcquire s
    | 3 => fset s F.tcStatState 0 0 2
    | _ => s
  | none => if fget s F.tcStatState 0 0 = 2 then dropSlew (fset s F.tcStatState 0 0 3) else s

/-- A port that has left UP is heard no more. -/
def unhear (s : State) (p : Nat) : State :=
  let s := { s with time := { s.time with heard := tdel s.time.heard p } }
  if fbit s F.tcCfgMaster 0 0 then s else follow s

/-! ### Markers (R376 to R381) -/

/-- The master device a device follows, and its stratum, as its markers carry them. -/
def ownMaster (s : State) : Nat × Nat :=
  if fbit s F.tcCfgMaster 0 0 then (fget s F.fabCfgDevnum 0 0, 0)
  else (fget s F.tcStatMasterdev 0 0, fget s F.tcStatStratum 0 0)

/-- A stamp of this device (R376): its count, with the four fraction bits of the instant within the nanosecond. -/
def stamp (s : State) (frac : Nat) : Nat := 16 * s.tcount + frac % 16

/-- `MARKER_SEND` (R376): the send stamp, master, stratum, and the stamps of the latest marker received. Where in the
nanosecond the marker leaves is a free value (log entry 128). -/
def execMarkerSend (p : PortId) (s : State) : Host.Outcome State Fault Refusal :=
  onClock s (portClock p.val) fun s =>
  if fget s F.lnkStatState p.val 0 ≠ 6 then .next s
  else
    let m := ownMaster s
    let back := match tfind s.time.heard p.val with
      | some h => [h.sent.toNat, h.came.toNat]
      | none => []
    .next (portMsg (drawFree s).2 p.val msgMarker ([stamp s (drawFree s).1, m.1, m.2] ++ back))

/-- The offset of a marker exchange, in 1/16 ns (R377). -/
def theta (m : Marker) : Int := ((m.t2 - m.t1) - (m.t4 - m.t3)) / 2

/-- The step of ACQUIRE: forward to the upstream's time, or standing still until it comes (R381). -/
def acquireStep (s : State) (target : Nat) : State :=
  let s := { s with time := { s.time with first := false } }
  if s.tcount ≤ target then { standNoMore s with tcount := target } else fset s F.tcStatBehind 0 0 1

/-- The slew an offset asks for: toward zero, from one count on. -/
def wantSlew (th : Int) : Int := if 16 ≤ th then 1 else if th ≤ -16 then -1 else 0

/-- An alarm of the timecode unit. -/
def timeAlarm (s : State) (f : Fld) : State := glbIrq (fset s f 0 0 1) F.glbIrqstatTime

/-- What an upstream marker does in each alignment state. -/
def upMarker (s : State) (d : Int) (m : Marker) : State :=
  let th := theta m
  let s := fset s F.tcOffsetTheta 0 0 (th % 2 ^ 32).toNat
  let s := fset s F.tcOffsetDelay 0 0 (d % 2 ^ 32).toNat
  match fget s F.tcStatState 0 0 with
  | 1 =>
    if s.time.first then acquireStep s ((m.t3 + d) / 16).toNat
    else if fbit s F.tcStatBehind 0 0 then s
    else if th.natAbs ≤ 16 then
      let s := { s with time := { s.time with good := s.time.good + 1, slew := wantSlew th } }
      if 16 ≤ s.time.good then fset s F.tcStatState 0 0 2 else s
    else { s with time := { s.time with good := 0, slew := wantSlew th } }
  | 2 =>
    if 16000 < th.natAbs then
      timeAlarm (fset { s with time := { s.time with slew := 0 } } F.tcStatState 0 0 4) F.tcStatAlarm
    else { s with time := { s.time with slew := wantSlew th } }
  | _ => s

/-- A marker as it has come: this device stamps its arrival (R376). -/
def arrived (s : State) (m : Marker) : Marker := { m with t4 := stamp s (m.t4 % 16).toNat }

/-- `MARKER` (R376, R378, R379). -/
def execMarker (p : PortId) (m : Marker) (s : State) : Host.Outcome State Fault Refusal :=
  onClock s (portClock p.val) fun s =>
  if fget s F.lnkStatState p.val 0 ≠ 6 then .next s
  else
    let m := arrived s m
    let s := { s with time := { s.time with heard := tset s.time.heard p.val ⟨m.master, m.stratum, m.t3, m.t4⟩ } }
    if fbit s F.tcCfgMaster 0 0 then
      if m.stratum ≠ 255 ∧ m.master.toNat < fget s F.fabCfgDevnum 0 0 then .next (timeAlarm s F.tcStatConflict) else .next s
    else
      let s := follow s
      match pickUp s with
      | some (u, _) => if u = p.val then .next (upMarker s (tget s.time.delay p.val 0) m) else .next s
      | none => .next s

/-! ### Tick generators (R387) -/

/-- The tick instants of a generator, one every `PERIOD` counts from `START`, up to a count. -/
def ticksBy (s : State) (g c : Nat) : Nat :=
  if c < fget s F.tcTickStartCount 0 g then 0
  else (c - fget s F.tcTickStartCount 0 g) / fget s F.tcTickCfgPeriod 0 g + 1

/-- A generator enabled: its total is 0, and it counts the instants that the count reaches from now on. -/
def startTicks (s : State) (g : Nat) : State :=
  fset { s with time := { s.time with ticks := tset s.time.ticks g s.tcount } } F.tcTickTotTotal 0 g 0

/-- `TICK`: the total of a generator that runs counts every instant that the count has reached since `EN` became 1. -/
def execTick (g : Fin 4) (s : State) : Host.Outcome State Fault Refusal :=
  if fbit s F.tcTickCfgEn 0 g.val then
    .next (fset s F.tcTickTotTotal 0 g.val
      ((ticksBy s g.val s.tcount - ticksBy s g.val (tget s.time.ticks g.val 0)) % 2 ^ 32))
  else .next s

end Sys2Proof.Machine
end

