-- ==== Sys2Proof/Machine/Links.lean ====
section
/-! DEFINITION. Link ports (R333 to R346): the enable and its check, the states of Table 10.3, flits and their retry, lanes
and ports that vanish; the route table, the class floors, the receive windows (R348, R354, R359). -/

namespace Sys2Proof.Machine

/-! ### States -/

/-- The state of a port (Table 10.3). -/
def portState (s : State) (p : Nat) : Nat := fget s F.lnkStatState p 0

/-- The lanes of a mask. -/
def laneCount (m : Nat) : Nat := ((List.range 8).filter (fun l => m.testBit l)).length

/-- Bits of `m` that are not in `x`. -/
def maskOut (m x : Nat) : Nat := ((List.range 8).filter (fun l => m.testBit l && !x.testBit l)).foldl (fun a l => a + 2 ^ l) 0

/-- The lanes of a port that the repair store retires. -/
def storeLanes (s : State) (p : Nat) : Nat :=
  ((List.range 8).filter (fun l => laneRetired s p l)).foldl (fun a l => a + 2 ^ l) 0

/-- The lanes of a mask that a port may use: retired neither in the store nor in service. -/
def usableLanes (s : State) (p m : Nat) : Nat := maskOut (maskOut m (storeLanes s p)) (port s p).bad.toNat

/-- An event bit of a port set (R614). -/
def portEvent (s : State) (p : Nat) (f : Fld) : State := glbIrq (fset s f p 0 1) F.glbIrqstatPort

/-- The receive buffer of a port lost with its link: what waits in it is dropped, and what is queued for another port returns
no credits to it. -/
def dropBuffer (s : State) (p : Nat) : State :=
  let keep (w : Packet × Option Nat) : Packet × Option Nat := (w.1, if w.2 = some p then none else w.2)
  { s with fab := { s.fab with
    stalled := s.fab.stalled.filter (fun e => e.1 != p)
    ports := s.fab.ports.map fun e => (e.1, { e.2 with queue := e.2.queue.map keep }) } }

/-- What a port keeps when it leaves its link: its failures, its retired lanes, its test. Session keys and partner go
(R342, R558), and it is heard no more. -/
def dropLink (s : State) (p : Nat) : State :=
  let s := modPort (dropBuffer s p) p fun q => { portInit with fails := q.fails, bad := q.bad, testing := q.testing, holdDetect := q.holdDetect }
  unhear (fset (fset s F.lnkPartnerValid p 0 0) F.lnkStatLanes p 0 0) p

/-- A port out of its first DETECT (R579). -/
def leftDetect (s : State) (p : Nat) : State := settleReady (modPort s p fun q => { q with holdDetect := false })

/-- A port that fails (R344). -/
def portFail (s : State) (p code : Nat) : State :=
  let s := fset (dropLink s p) F.lnkStatState p 0 8
  let s := portEvent (fset s F.lnkStatReason p 0 code) p F.lnkStatFailevt
  leftDetect (faultRecord s (4, p) 0x05 2 []) p

/-- A port back in DETECT. -/
def toDetect (s : State) (p : Nat) : State := fset (dropLink s p) F.lnkStatState p 0 1

/-- A port in OFF; lanes retired in service may be used again. -/
def toOff (s : State) (p : Nat) : State :=
  let s := dropLink s p
  let s := modPort s p fun _ => portInit
  settleReady (fset (fset s F.lnkCtlEn p 0 0) F.lnkStatState p 0 0)

/-! ### Lanes (R343) -/

/-- Lanes of a port retired in service (R343): with an event, and out of use; `FAILED` and `RETIRED` have none. In UP and
RELANE the port restripes in RELANE; a port that keeps too few of the lanes in use fails. -/
def retireLanes (s : State) (p m : Nat) : State :=
  let st := portState s p
  let hit := (List.range 8).filter (fun l => m.testBit l && !(port s p).bad.getLsbD l)
  if hit.isEmpty ∨ 8 ≤ st then s
  else
    let active := fget s F.lnkStatLanes p 0
    let left := maskOut active m
    let s := modPort s p fun q => { q with bad := q.bad ||| BitVec.ofNat 8 m }
    let s := portEvent s p F.lnkStatLaneevt
    let s := hit.foldl (fun s l => faultRecord s (5, 8 * p + l) 0x04 3 []) s
    if left = active then s
    else if laneCount left < fget s F.lnkCtlMinlanes p 0 then portFail s p 0x29
    else
      let s := fset s F.lnkStatLanes p 0 left
      if st = 6 ∨ st = 7 then unhear (portMsg (fset s F.lnkStatState p 0 7) p msgLanes [left]) p else s

/-- `LANE_FAULT` (R343): a lane of an enabled port fails. -/
def execLaneFault (p : PortId) (lane : Fin 8) (s : State) : Host.Outcome State Fault Refusal :=
  onClock s (portClock p.val) fun s =>
  .next (if portState s p.val = 0 then s else retireLanes s p.val (2 ^ lane.val))

/-- The delay of a link from the stamps of 64 marker exchanges (R377). -/
def linkDelay (ms : List Marker) : Int := (ms.map fun m => (m.t4 - m.t1) - (m.t3 - m.t2)).sum / 128

/-- The delay of a port kept. -/
def putDelay (s : State) (p : Nat) (d : Int) : State := { s with time := { s.time with delay := tset s.time.delay p d } }

/-- The flits not acknowledged sent again; the eighth replay in succession of one `SEQ` fails the port (R338). -/
def replayPort (s : State) (p : Nat) : State :=
  if flitsOut (port s p) = 0 then s
  else
    let n := (port s p).replays + 1
    let s := modPort (replayFlits s p) p fun q => { q with replays := n }
    if 8 ≤ n then portFail s p 0x28 else s

/-- `RELANE_COMPLETE` (R343, R346, R377): the flits not acknowledged are sent again, and lanes whose retirement was written
during RELANE bring on a second one. -/
def execRelaneComplete (p : PortId) (ok : Bool) (markers : List Marker) (s : State) : Host.Outcome State Fault Refusal :=
  onClock s (portClock p.val) fun s =>
  if portState s p.val ≠ 7 then .next s
  else if !ok then .next (portFail s p.val 0x29)
  else if markers.length ≠ 64 then .fault (.badOperand "64 marker exchanges fix the delay of a link")
  else
    let s := fset (putDelay s p.val (linkDelay markers)) F.lnkStatState p.val 0 6
    let m := (port s p.val).again.toNat
    let s := retireLanes (modPort s p.val fun q => { q with again := 0 }) p.val m
    .next (if portState s p.val = 6 then drainPort (replayPort s p.val) p.val else s)

/-! ### Enable and disable (R340, R346) -/

/-- The code of a refused enable (R340): only the repair store decides how many lanes are usable. -/
def linkCheck (s : State) (p : Nat) : Option Nat :=
  let role := fget s F.lnkCtlRole p 0
  let minl := fget s F.lnkCtlMinlanes p 0
  if portRetired s p ∨ (minl ≤ 8 ∧ laneCount (maskOut 255 (storeLanes s p)) < minl) then some 0x20
  else if 1 < role ∨ minl = 0 ∨ 8 < minl then some 0x21
  else if !fbit s F.fabCfgLock 0 0 then some 0x22
  else none

/-- The fields of a write of `LNK_CTL` other than `EN`: `ROLE` only while `EN` is 0; a lane bit newly set retires the
lane, in RELANE by a second one (R346). -/
def putLink (s : State) (p : Nat) (w : RegWrite) : State :=
  let on := fbit s F.lnkCtlEn p 0
  let s := writeFields s w ([F.lnkCtlMinlanes, F.lnkCtlAuto, F.lnkCtlLaneret] ++ if on then [] else [F.lnkCtlRole]) p 0
  let m := fget s F.lnkCtlLaneret p 0
  if portState s p = 7 then modPort s p fun q => { q with again := BitVec.ofNat 8 (maskOut m q.bad.toNat) }
  else retireLanes s p m

/-- `LINK_ENABLE` (R340, R611). -/
def execLinkEnable (p : PortId) (w : RegWrite) (s : State) : Host.Outcome State Fault Refusal :=
  onBar false s fun s =>
  let on := fbit s F.lnkCtlEn p.val 0
  let s := putLink s p.val w
  if on || !wbit w F.lnkCtlEn then .next s
  else
    match linkCheck s p.val with
    | some code => .next (refuse (fset s F.lnkStatReason p.val 0 code) 3 p.val code)
    | none =>
      let s := modPort s p.val fun q => { q with holdDetect := !fbit s F.hostStatReady 0 0 }
      .next (fset (fset s F.lnkCtlEn p.val 0 1) F.lnkStatState p.val 0 1)

/-- `LINK_DISABLE` (R346): OFF, in any state but RETIRED. -/
def execLinkDisable (p : PortId) (w : RegWrite) (s : State) : Host.Outcome State Fault Refusal :=
  onBar false s fun s =>
  let s := putLink s p.val w
  if !covered w.half F.lnkCtlEn ∨ wbit w F.lnkCtlEn ∨ portState s p.val = 9 then .next s else .next (toOff s p.val)

/-! ### Coming up (R339, R341, R556) -/

/-- The parts of a draw of random bytes: an X25519 private key, and what ML-KEM-768 starts from. -/
def drawn (n : Nat) : Bytes := fixLen 96 (Config.random n)
def dhKey (n : Nat) : Bytes := (drawn n).take 32
def kemSeed (n : Nat) : Bytes := (drawn n).drop 32

/-- The X25519 public key of a draw: of its private key and the base point 9. -/
def dhPublic (n : Nat) : Bytes := fixLen 32 (Config.x25519 (dhKey n) (leBytes 32 9))

/-- A message of bytes on a port. -/
def portBytes (s : State) (p msg : Nat) (bs : Bytes) : State := portMsg s p msg (bs.map (·.toNat))

/-- `DETECT_BURST`: a burst is sent, and with signal on enough lanes the port trains. -/
def execDetectBurst (p : PortId) (lanes : BitVec 8) (s : State) : Host.Outcome State Fault Refusal :=
  onClock s (portClock p.val) fun s =>
  if portState s p.val ≠ 1 ∨ fget s F.pwrStatState 0 0 = 2 ∨ (port s p.val).testing then .next s
  else
    let s := emit s (.onPort p msgBurst [])
    if fget s F.lnkCtlMinlanes p.val 0 ≤ laneCount (usableLanes s p.val lanes.toNat) then
      .next (leftDetect (fset s F.lnkStatState p.val 0 2) p.val)
    else .next s

/-- A training that failed: DETECT again, or the port fails at the third in succession. -/
def trainingFailed (s : State) (p : Nat) : State :=
  let n := (port s p).fails + 1
  let s := modPort s p fun q => { q with fails := n }
  if 3 ≤ n then portFail (modPort s p fun q => { q with fails := 0 }) p 0x23 else toDetect s p

/-- What this end sends first in IDENT: device number, `SPACEID`, role, port, its random value and its certificate chains. -/
def identText (s : State) (p : Nat) : Bytes :=
  leBytes 2 (ownDev s) ++ leBytes 4 (fget s F.fabCfgSpaceid 0 0) ++ leBytes 1 (fget s F.lnkCtlRole p 0) ++ leBytes 1 p ++
    (port s p).nonce ++ Config.certs

/-- `LINK_TRAINING`: the lane mask agreed, or none. -/
def execLinkTraining (p : PortId) (lanes : Option (BitVec 8)) (s : State) : Host.Outcome State Fault Refusal :=
  onClock s (portClock p.val) fun s =>
  if portState s p.val ≠ 2 then .next s
  else
    match lanes with
    | none => .next (trainingFailed s p.val)
    | some m =>
      let m := usableLanes s p.val m.toNat
      if laneCount m < fget s F.lnkCtlMinlanes p.val 0 then .next (trainingFailed s p.val)
      else
        let s := fset (fset s F.lnkStatLanes p.val 0 m) F.lnkStatState p.val 0 3
        let n := s.freeCtr
        let s := modPort (drawFree s).2 p.val fun q => { q with fails := 0, nonce := dhKey n }
        .next (portBytes s p.val msgIdent (identText s p.val))

/-- The code for which a partner is rejected in IDENT (Table 10.3, R556). `LIFE`, `DEBUG` and `NONCE` stand in the partner's
quote (Table 17.2). -/
def identCode (s : State) (p : Nat) (i : IdentInfo) : Option Nat :=
  let life := xf i.quote 5 1
  if i.dev.toNat = ownDev s then some 0x22
  else if i.space.toNat ≠ fget s F.fabCfgSpaceid 0 0 then some 0x24
  else if i.role.toNat ≠ fget s F.lnkCtlRole p 0 then some 0x21
  else if !i.verified ∨ (i.quote.drop 128).take 32 ≠ (port s p).nonce ∨ life ≠ (lifeNow s).toNat ∨ life = 3 ∨
      fget s F.secCfgLinkdbg 0 0 < xf i.quote 6 1 then some 0x25
  else none

/-- Whether this end is the initiator of an exchange: its device number is the lower one (R341). -/
def linkFirst (s : State) (p : Nat) : Bool := decide (ownDev s < fget s F.lnkPartnerDev p 0)

/-- The messages of the two ends of an exchange, the initiator's first. -/
def inOrder (first : Bool) (own partner : Bytes) : Bytes := if first then own ++ partner else partner ++ own

/-- The KEYX message of an end (R341): the initiator's public key and encapsulation key; the responder's public key and its
ciphertext for the partner's encapsulation key. -/
def keyxText (first : Bool) (n : Nat) (partner : Bytes) : Bytes :=
  dhPublic n ++ (if first then fixLen 1184 (Config.mlkemPublic (kemSeed n))
    else fixLen 1088 (Config.mlkemEncaps (partner.drop 32) (kemSeed n)).2)

/-- The secrets ss1 and ss2 of an exchange (R341). -/
def keyxSecrets (first : Bool) (n : Nat) (partner : Bytes) : Bytes :=
  fixLen 32 (Config.x25519 (dhKey n) (partner.take 32)) ++
    fixLen 32 (if first then Config.mlkemDecaps (kemSeed n) (partner.drop 32)
      else (Config.mlkemEncaps (partner.drop 32) (kemSeed n)).1)

/-- An exchange begun: this end has made its keys, and the initiator sends them (R341). -/
def beginKeyx (s : State) (p : Nat) : State :=
  let n := s.freeCtr
  let s := modPort (drawFree s).2 p fun q => { q with made := n }
  if linkFirst s p then portBytes s p msgKeyx (keyxText true n []) else s

/-- The IDENT and KEYX messages of an exchange in the order sent (R341). -/
def keyxScript (s : State) (p : Nat) (partner : Bytes) : Bytes :=
  let q := port s p
  let first := linkFirst s p
  q.script ++ inOrder first (keyxText first q.made partner) partner

/-- The direction keys of an exchange (R341). -/
def linkKeys (s : State) (p : Nat) (partner : Bytes) : LinkKeys :=
  let first := linkFirst s p
  let key (label : String) : BitVec 256 := digestNat (sha3
    (labelBytes label ++ keyxSecrets first (port s p).made partner ++ sha3 (keyxScript s p partner)))
  ⟨first, key "DZ6-LINK-IR", key "DZ6-LINK-RI", s.tcount⟩

/-- An exchange that has succeeded: the responder's message and this end's signatures go out, and the keys are agreed
(R341). -/
def endKeyx (s : State) (p : Nat) (partner : Bytes) : State :=
  let ks := linkKeys s p partner
  let script := keyxScript s p partner
  let s := if ks.first then s else portBytes s p msgKeyx (keyxText false (port s p).made partner)
  let s := portBytes s p msgKeyx (idSign (sha3 script))
  modPort s p fun q => { q with agreed := some ks, script := script }

/-- The agreed keys in force in both directions, with the counters at 0: the link is not UP yet (R342). -/
def firstKeys (s : State) (p : Nat) : State :=
  modPort s p fun q => { q with keys := q.agreed, rxKeys := q.agreed, txCount := 0, rxCount := 0, agreed := none }

/-- `KEYX` (R341): the exchange with the partner's messages, or one that has failed. -/
def execKeyx (p : PortId) (partner : Option Bytes) (s : State) : Host.Outcome State Fault Refusal :=
  onClock s (portClock p.val) fun s =>
  if portState s p.val ≠ 4 then .next s
  else match partner with
    | some m => .next (fset (firstKeys (endKeyx s p.val m) p.val) F.lnkStatState p.val 0 5)
    | none => .next (portFail s p.val 0x26)

/-- `TIMECAL` (R377): the delay is fixed and the port is UP. -/
def execTimecal (p : PortId) (markers : List Marker) (s : State) : Host.Outcome State Fault Refusal :=
  onClock s (portClock p.val) fun s =>
  if portState s p.val ≠ 5 then .next s
  else if markers.length ≠ 64 then .fault (.badOperand "64 marker exchanges fix the delay of a link")
  else .next (portEvent (fset (putDelay s p.val (linkDelay markers)) F.lnkStatState p.val 0 6) p.val F.lnkStatUpevt)

/-- `LINK_STATE_TIMEOUT` (R339): a state from TRAIN to TIMECAL has outlasted its time. -/
def execLinkStateTimeout (p : PortId) (s : State) : Host.Outcome State Fault Refusal :=
  onClock s (portClock p.val) fun s =>
  match portState s p.val with
  | 2 => .next (trainingFailed s p.val)
  | 3 => .next (portFail s p.val 0x25)
  | 4 => .next (portFail s p.val 0x26)
  | 5 => .next (toDetect s p.val)
  | _ => .next s

/-- `REKEY` (R342): new session keys over the live link, or a failed exchange. A control flit announces the switch of this
end's direction; the other direction switches at the partner's. In RELANE no new flit leaves, and the exchange waits
(R343). -/
def execRekey (p : PortId) (partner : Option Bytes) (s : State) : Host.Outcome State Fault Refusal :=
  onClock s (portClock p.val) fun s =>
  if portState s p.val ≠ 6 then .next s
  else match partner with
    | some m => .next (drainPort (portMsg (endKeyx (beginKeyx s p.val) p.val m) p.val msgSwitch []) p.val)
    | none => .next (portFail s p.val 0x26)

/-! ### Flits (R335 to R338, R342, R353) -/

/-- The packets that a port's received bytes make taken out of them: each is counted once its GCM check has passed; none where
a check fails (R342, R347). A word of zeros where a packet would begin is no packet. -/
def rxPackets : Nat → State → Nat → Option State
  | 0, s, _ => some s
  | k + 1, s, p =>
    let q := port s p
    let bs := q.stream
    if 8 ≤ bs.length ∧ bs.getD 0 0 = 0 then rxPackets k (modPort s p fun q => { q with stream := q.stream.drop 8 }) p
    else
      let h := bs.take 40
      let n := if xf h 0 1 = 2 then 0 else xf h 16 2
      if bs.length < 40 ∨ bs.length < streamBytes n then some s
      else
        let ks := q.rxKeys.getD ⟨true, 0, 0, 0⟩
        match gcmOpen (linkKey ks !ks.first) (linkIv (!ks.first) q.rxCount) h ((bs.drop 40).take (n + 16)) with
        | none => none
        | some _ =>
          let s := modPort s p fun q => { q with stream := q.stream.drop (streamBytes n), rxCount := q.rxCount + 1 }
          rxPackets k (fcount s F.lnkRxbytesCount p 0 (streamBytes n)) p

/-- The acknowledgement, the returned credits and the payload of a flit accepted in order. A control message brings its own
command; the partner's announcement of new keys switches the keys by which packets come in (R342). -/
def flitIn (f : Flit) (q : Port) : Port :=
  let turn := f.ctrl && f.payload.head? == some (BitVec.ofNat 8 (msgSwitch + 1)) && q.agreed.isSome
  { q with
    expect := q.expect + 1, ackOwed := true, ackseq := f.ackseq, buf := q.buf.drop (f.ackseq - q.ackseq).toNat
    replays := if f.ackseq = q.ackseq then q.replays else 0
    credits := tset q.credits f.crcls.toNat (tget q.credits f.crcls.toNat 0 - f.crcnt.toNat)
    rxKeys := if turn then q.agreed else q.rxKeys
    rxCount := if turn then 0 else q.rxCount
    stream := if f.ctrl then q.stream else q.stream ++ f.payload }

/-- The credit of a control message, which leaves the receive buffer at once (R353); an empty one has taken none. -/
def ctrlFreed (s : State) (p : Nat) (f : Flit) : State :=
  if f.ctrl && f.payload.any (· != 0) then owe s p (ctrlPool s p) 1 else s

/-- A flit accepted in order; a packet that fails its GCM check fails the port (R342), a `NAK` has the replay buffer sent
again (R337), and what waited for credits or room goes on. -/
def takeFlit (s : State) (p : Nat) (f : Flit) : State :=
  let s := ctrlFreed (modPort s p (flitIn f)) p f
  match rxPackets ((port s p).stream.length / 8 + 1) s p with
  | none => portFail s p 0x27
  | some s =>
    let s := if f.nak then replayPort (fcount s F.lnkRetryNaks p 0 1) p else s
    drainPort s p

/-- The corrections of a flit noted by lane: its bytes go round the lanes in use (R335). A lane with more than 65,536 of them
within a millisecond is retired (R343). -/
def noteFixed (s : State) (p : Nat) (fixed : List Nat) : State :=
  if fixed.isEmpty then s
  else
    let ls := activeLanes s p
    let new := fixed.map fun i => (s.tcount, ls.getD (i % ls.length) 0)
    let s := modPort s p fun q => { q with marks := q.marks.filter (fun m => decide (s.tcount < m.1 + 1000000)) ++ new }
    let worn (l : Nat) : Bool := decide (65536 < ((port s p).marks.filter (fun m => m.2 == l)).length)
    retireLanes s p ((ls.filter worn).foldl (fun a l => a + 2 ^ l) 0)

/-- `FLIT_RECEIVE` (R335 to R337): corrected symbols are counted; a flit with a bad CRC or out of order is discarded, and
a `NAK` is owed. -/
def execFlitReceive (p : PortId) (head : BitVec 64) (payload check : Bytes) (s : State) : Host.Outcome State Fault Refusal :=
  onClock s (portClock p.val) fun s =>
  if portState s p.val ≠ 6 ∧ portState s p.val ≠ 7 then .next s
  else
    let f := flitDecode (leBytes 8 head.toNat ++ payload ++ check)
    let n := f.fixed.length
    let s := fcount (fcount s F.lnkFecCorr p.val 0 n) F.lnkFecUncorr p.val 0 f.uncorr
    let s := { s with dailies := { s.dailies with fec := tset s.dailies.fec p.val (tget s.dailies.fec p.val 0 + n) } }
    let s := noteFixed s p.val f.fixed
    if portState s p.val ≠ 6 ∧ portState s p.val ≠ 7 then .next s
    else if !f.crcOk ∨ f.seq ≠ (port s p.val).expect then .next (modPort s p.val fun q => { q with nakOwed := true })
    else .next (takeFlit s p.val f)

/-- `RETRY_TIMEOUT` (R338). -/
def execRetryTimeout (p : PortId) (s : State) : Host.Outcome State Fault Refusal :=
  onClock s (portClock p.val) fun s =>
  if (portState s p.val = 6 ∨ portState s p.val = 7) ∧ flitsOut (port s p.val) ≠ 0 then .next (portFail s p.val 0x28)
  else .next s

/-- The port is down: every lane has lost signal (R345). -/
def portDown (s : State) (p : Nat) : State :=
  let s := portEvent (fcount s F.lnkStatLoscnt p 0 1) p F.lnkStatDownevt
  if fbit s F.lnkCtlAuto p 0 then toDetect s p else toOff s p

/-- Whether no route is left to the device that a migration copies from or to. -/
def copyCut (s : State) (p : Page) (m : PageMove) : Bool :=
  (m.loc == .lent && (routePorts s m.dev.toNat).isEmpty) || (p.loc == .lent && (routePorts s p.dev.toNat).isEmpty)

/-- The copies that a lost link cuts off are abandoned (R312). -/
def abortCopies (s : State) : State :=
  intPauseAll <| (tilePages s 0 ++ tilePages s 1).foldl (fun s e =>
    match e.2.2.move with
    | some m =>
      if m.drained && copyCut s e.2.2 m then setPage (dropFrame s m.loc m.frame) e.1 e.2.1 { e.2.2 with move := none } else s
    | none => s) s

/-- `LOSS_OF_SIGNAL` (R345, R312): in any state from TRAIN to RELANE. -/
def execLossOfSignal (p : PortId) (s : State) : Host.Outcome State Fault Refusal :=
  onClock s (portClock p.val) fun s =>
  if 2 ≤ portState s p.val ∧ portState s p.val ≤ 7 then .next (abortCopies (portDown s p.val)) else .next s

/-! ### Fabric registers -/

/-- `ROUTE_ENTRY_WRITE` (R371): a write of `FAB_RTDATA` stores the whole entry at `ENTRY`, which then advances; the half that
is not written keeps what the entry has. -/
def execRouteEntryWrite (w : RegWrite) (s : State) : Host.Outcome State Fault Refusal :=
  onBar false s fun s =>
  let e := fget s F.fabRtidxEntry 0 0
  let old := (tget s.fab.routes e 0).toNat
  let part (f : Fld) : Nat := if covered w.half f then wval w f else bitsOf old f.lo f.w
  let low := if w.half = .high then old % 2 ^ 32 else w.data.toNat % 2 ^ 32
  let high := if w.half = .low then old / 2 ^ 32 % 2 ^ 16 else w.data.toNat / 2 ^ 32 % 2 ^ 16
  let v : BitVec 64 := BitVec.ofNat 64 (low + high * 2 ^ 32 + part F.fabRtdataValid * 2 ^ 63)
  .next (fset { s with fab := { s.fab with routes := if v = 0 then tdel s.fab.routes e else tset s.fab.routes e v } }
    F.fabRtidxEntry 0 0 (e + 1))

/-- `CREDIT_FLOOR_WRITE` (R354): refused where the floors would exceed 1,856. -/
def execCreditFloorWrite (c : Fin 8) (w : RegWrite) (s : State) : Host.Outcome State Fault Refusal :=
  onBar false s fun s =>
  if !covered w.half F.fabCrfloorFloor then .next s
  else
    let v := wval w F.fabCrfloorFloor
    let sum := ((List.range 8).map fun k => if k = c.val then v else fget s F.fabCrfloorFloor 0 k).sum
    if 1856 < sum then .next (refuse (fset s F.fabStatReason 0 0 0x2A) 4 c.val 0x2A)
    else .next (fset s F.fabCrfloorFloor 0 c.val v)

/-- The landed units of a receive window forgotten. -/
def clearUnits (t : Tbl Nat) (i : Nat) : Tbl Nat := t.filter (fun e => e.1 / 2 ^ 32 != i)

/-- `RQ_WINDOW_ENABLE` (R359): a write of `FAB_RQCFGi`; setting `EN` zeroes `TOTAL`. -/
def execRqWindowEnable (i : Fin 32) (w : RegWrite) (s : State) : Host.Outcome State Fault Refusal :=
  onBar false s fun s =>
  let on := fbit s F.fabRqcfgEn 0 i.val
  let s := writeFields s w (F.fabRqcfgUnitlog2 :: if on then [] else [F.fabRqcfgUnits]) 0 i.val
  if !covered w.half F.fabRqcfgEn then .next s
  else if !wbit w F.fabRqcfgEn then .next (fset s F.fabRqcfgEn 0 i.val 0)
  else if on then .next s
  else
    let s := { s with fab := { s.fab with rqUnits := clearUnits s.fab.rqUnits i.val } }
    .next (fset (fset s F.fabRqcfgEn 0 i.val 1) F.fabRqcfgTotal 0 i.val 0)

end Sys2Proof.Machine
end

