-- ==== Sys2Proof/Machine/Fabric.lean ====
section
/-! DEFINITION. Packets received and requests outstanding (R347 to R359, R514): delivery, transit, remote accesses and tokens,
answers, resends and the ends of requests. -/

namespace Sys2Proof.Machine

/-! ### Receive windows (R359) -/

/-- Base, unit and extent of receive window `i` in bytes. -/
def rqBase (s : State) (i : Nat) : Nat := fget s F.fabRqbaseAddr 0 i
def rqUnit (s : State) (i : Nat) : Nat := 64 * 2 ^ fget s F.fabRqcfgUnitlog2 0 i
def rqExtent (s : State) (i : Nat) : Nat := rqUnit s i * fget s F.fabRqcfgUnits 0 i

/-- The enabled windows that `n` bytes at an address overlap. -/
def rqHits (s : State) (a n : Nat) : List Nat :=
  (List.range 32).filter fun i =>
    fbit s F.fabRqcfgEn 0 i && decide (a < rqBase s i + rqExtent s i ∧ rqBase s i < a + n)

/-- Whether a window takes a write: whole units from unit `TOTAL` to unit `TOTAL` + 4,095. -/
def rqTakes (s : State) (a n i : Nat) : Bool :=
  let u := rqUnit s i
  let o := a - rqBase s i
  let t := fget s F.fabRqcfgTotal 0 i
  decide (rqBase s i ≤ a ∧ o % u = 0 ∧ n % u = 0 ∧ a + n ≤ rqBase s i + rqExtent s i ∧ t ≤ o / u ∧ o / u + n / u ≤ t + 4096)

/-- The total of a line past the units that have landed in order. -/
def rqAdvance : Nat → Tbl Nat → Nat → Nat → Tbl Nat × Nat
  | 0, t, _, n => (t, n)
  | k + 1, t, i, n =>
    if (tfind t (i * 2 ^ 32 + n)).isSome then rqAdvance k (tdel t (i * 2 ^ 32 + n)) i (n + 1) else (t, n)

/-- The units of a write counted in a window. -/
def rqLand (a n : Nat) (s : State) (i : Nat) : State :=
  let u := rqUnit s i
  let first := (a - rqBase s i) / u
  let t := (List.range (n / u)).foldl (fun t k => tset t (i * 2 ^ 32 + first + k) 1) s.fab.rqUnits
  let r := rqAdvance t.length t i (fget s F.fabRqcfgTotal 0 i)
  fset { s with fab := { s.fab with rqUnits := r.1 } } F.fabRqcfgTotal 0 i r.2

/-! ### Requests taken -/

/-- Who a packet asks as (R355). -/
def pktAsker (pk : Packet) : Asker := .dev pk.src (pk.pool.toNat % 8)

/-- A WRITE taken (R356): none where it is refused. -/
def takeWrite (s : State) (pk : Packet) : Option State :=
  let a := pk.addr % 2 ^ 45
  let n := pk.data.length
  let hits := rqHits s a n
  if n = 0 ∨ n % 64 ≠ 0 ∨ a % 64 ≠ 0 ∨ !hits.all (rqTakes s a n) then none
  else (globalWrite s (pktAsker pk) pk.addr pk.data (mapBad pk)).map fun s => hits.foldl (rqLand a n) s

/-- An ATOMIC taken (R357, R111): the floating-point ones are refused under determinism enforcement. -/
def takeAtomic (s : State) (pk : Packet) : Option State :=
  let n := pk.data.length
  if pk.atom = 0 ∨ 3 < pk.atom ∨ (2 ≤ pk.atom ∧ fbit s F.glbDetEnf 0 0) ∨ n = 0 ∨ n % 64 ≠ 0 ∨ pk.addr % 64 ≠ 0 then none
  else globalAtomic s (pktAsker pk) pk.addr pk.atom pk.data (mapBad pk)

/-- The sending step of a TOKEN (Table 10.5). -/
def tokenStep (pk : Packet) : BitVec 64 := BitVec.ofNat 64 (pk.addr / 2 ^ 32 % 2 ^ 32 + pk.ext * 2 ^ 32)

/-- A TOKEN delivered (R358): a channel between two contexts belongs to no step of the sender. -/
def takeToken (s : State) (pk : Packet) : State × TokEnd :=
  let r := bitsOf pk.addr 14 6
  let vx := bitsOf pk.addr 0 6
  let vy := bitsOf pk.addr 6 5
  let q := bitsOf pk.addr 11 3
  let decl : ChanDecl := (((ctx s r).img.bind fun i => imgCore i vx vy).map (fun c => c.chans.getD q .none)).getD .none
  let step := if decl = .recv true then none else some (tokenStep pk)
  deliverToken s r vx vy q step (BitVec.ofNat 32 pk.reqid)

/-- Whether a remote access waits: for a fenced core (R494), or for a line that is pending (R193). -/
def pktStalled (s : State) (pk : Packet) : Bool :=
  [1, 2, 6].contains pk.type && 
    stalledAt s (pktAsker pk) pk.addr (if pk.type = 2 then pk.ext else pk.data.length) (pk.type != 2)

/-- Whether a space-0 access names an alias (R513). -/
def aliasSpace0 (s : State) (pk : Packet) : Bool :=
  bitsOf pk.addr 44 1 == 0 && (List.range 16).any fun k => fbit s F.pairAliasValid 0 k && fget s F.pairAliasAlias 0 k == pk.dst

/-- A request packet taken at its destination, and answered. -/
def serveNow (s : State) (pk : Packet) : State :=
  let ack (o : Option State) : State :=
    match o with
    | some s => answer s pk 4 0 [] []
    | none => answer s pk 4 1 [] []
  match pk.type with
  | 1 => ack (if aliasSpace0 s pk then none else takeWrite s pk)
  | 2 =>
    match (if aliasSpace0 s pk ∨ pk.ext = 0 ∨ 4096 < pk.ext then none else globalRead s (pktAsker pk) pk.addr pk.ext) with
    | some r => answer s pk 3 0 r.1 r.2
    | none => answer s pk 3 1 [] []
  | 5 =>
    match takeToken s pk with
    | (s, .taken) => answer s pk 4 0 [] []
    | (s, .notYet) => answer s pk 4 2 [] []
    | (s, .refused) => answer s pk 4 1 [] []
  | 6 => ack (if aliasSpace0 s pk then none else takeAtomic s pk)
  | _ => s

/-- A request packet in the receive buffer of a port: it leaves the buffer and is served, or it waits there. -/
def serve (s : State) (p : Nat) (pk : Packet) : State :=
  if pktStalled s pk then { s with fab := { s.fab with stalled := s.fab.stalled ++ [(p, pk)] } }
  else serveNow (freed s p pk) pk

/-! ### Arrival (R348, R349, R514) -/

/-- The packets that waited for a fenced core or a busy line served again, those that have outlived `LIFETIME` discarded
(R349). -/
def serveStalled (s : State) : State :=
  s.fab.stalled.foldl
    (fun s e => if tooOld s e.2 then fcount (freed s e.1 e.2) F.fabDropLife 0 0 1 else serve s e.1 e.2)
    { s with fab := { s.fab with stalled := [] } }

/-- A packet that has left the receive buffer of a port and is dropped and counted. -/
def dropPkt (s : State) (p : Nat) (pk : Packet) (f : Fld) : State := fcount (freed s p pk) f 0 0 1

/-- A packet for another device sent on from the receive buffer of a port, or dropped. -/
def transit (s : State) (p : Nat) (pk : Packet) : State :=
  if pk.hops ≤ 1 then dropPkt s p pk F.fabDropNoroute
  else (sendFrom s (some p) { pk with hops := pk.hops - 1 }).getD (dropPkt s p pk F.fabDropNoroute)

/-- A packet as the numbers of a forwarded message. -/
def packetNats (pk : Packet) : List Nat :=
  [pk.type, pk.status, pk.src, pk.dst, pk.addr, pk.atom, pk.reqid, pk.birth, pk.ext, pk.poison.toNat] ++ pk.data.map (·.toNat)

/-- A packet on a port: whether it is for this device, which takes it out of the receive buffer (R353), and the state once a
packet that is not has left it, and once the active twin has forwarded an inbound packet of a twin context. -/
def inbound (s : State) (p : Nat) (pk : Packet) : State × Bool :=
  if portState s p ≠ 6 then (s, false)
  else if pairUp s p then (if (twinOf s pk).any (passiveFor s) then (s, true) else (freed s p pk, false))
  else if tooOld s pk then (dropPkt s p pk F.fabDropLife, false)
  else if aliasOf s pk.dst ≠ ownDev s then (transit s p pk, false)
  else if (twinOf s pk).any (activeFor s) then (onPorts s pairUp msgForward (packetNats pk), true)
  else (s, true)

/-- A request packet that arrives. -/
def onRequest (type : Nat) (p : PortId) (pk : Packet) (s : State) : Host.Outcome State Fault Refusal :=
  if pk.type ≠ type then .fault (.badOperand "type of a packet")
  else if 4096 < pk.data.length then .fault (.badOperand "length of a packet")
  else
    match inbound s p.val pk with
    | (s, true) => .next (serve s p.val pk)
    | (s, false) => .next s

/-- `WRITE` (R356). -/
def execWritePkt (p : PortId) (pkt : Packet) (s : State) : Host.Outcome State Fault Refusal :=
  onClock s (portClock p.val) fun s => onRequest 1 p pkt s
/-- `READ_REQ` (R356). -/
def execReadReq (p : PortId) (pkt : Packet) (s : State) : Host.Outcome State Fault Refusal :=
  onClock s (portClock p.val) fun s => onRequest 2 p pkt s
/-- `TOKEN_PACKET` (R358). -/
def execTokenPacket (p : PortId) (pkt : Packet) (s : State) : Host.Outcome State Fault Refusal :=
  onClock s (portClock p.val) fun s => onRequest 5 p pkt s
/-- `ATOMIC` (R357). -/
def execAtomic (p : PortId) (pkt : Packet) (s : State) : Host.Outcome State Fault Refusal :=
  onClock s (portClock p.val) fun s => onRequest 6 p pkt s

/-! ### The ends of requests (R351, R352) -/

/-- An outcome of the step that sent a token. -/
def tokenOutcome (s : State) (q : Req) (o : Nat) : State :=
  match q.ctx, q.pkt.type with
  | some r, 5 =>
    let f (t : Step) : Step := if t.id = tokenStep q.pkt then noteOutcome o t else t
    modCtx s r.val fun c => { c with step := c.step.map f, floats := c.floats.map f }
  | _, _ => s

/-- Where a collective's descriptor has its completions delivered (Table 10.6). -/
def cNotify (d : Bytes) : Nat := xf d 44 2

/-- A collective that fails (R367, R368): the step's outcome, `CTX_COLLSTAT`, and the later entries of its queue
discarded. -/
def collFail (s : State) (e r idx outcome : Nat) : State :=
  let q := tget (ctx s r).colls e collInit
  let at' := ((q.running.find? (fun x => x.idx == idx)).map fun x => cNotify x.desc).getD 0
  let s := modCtx s r fun c =>
    { c with step := c.step.map (noteOutcome outcome),
             colls := tset c.colls e { q with running := q.running.filter (fun x => decide (x.idx < idx)), dead := some at' } }
  let s := { s with fab := { s.fab with reqs := s.fab.reqs.filter fun x =>
    !(x.ctx.map (·.val) == some r && x.coll.any (fun y => y.1.val == e && decide (idx ≤ y.2))) } }
  cset (cset (cset s r F.ctxCollstatFail 0 1) r F.ctxCollstatFailq 0 e) r F.ctxCollstatFailidx 0 (idx % 256)

/-- A request that ends without its answer: the transfer's fault, the outcome of the step, the end of the snapshot. -/
def endRequest (s : State) (q : Req) (fault outcome print : Nat) : State :=
  let s := dropReq s q.id
  let s := { s with pair := { s.pair with held := s.pair.held.filter (fun h => h.1 != q.id) } }
  match q.chan, q.coll, q.snap, q.ctx with
  | some (ch, k), _, _, _ => moverFault s ch k fault
  | none, some (e, idx), _, some r => collFail s e.val r.val idx outcome
  | none, none, some _, some r => resumePg (settleDisable (printFail s r.val print) r.val) r.val
  | _, _, _, _ => tokenOutcome s q outcome

/-- A request that cannot be sent, or stays unanswered. -/
def linkEnd (s : State) (q : Req) : State := endRequest s q 0x1B stLink 4

/-- A request sent again, with a new `BIRTH`. -/
def resend (s : State) (q : Req) : State :=
  let pk := { q.pkt with birth := s.tcount % 2 ^ 32 }
  match sendPkt s pk with
  | some s => modReq s q.id fun x => { x with pkt := pk, held := false }
  | none => linkEnd s q

/-- The outstanding request of a number. -/
def reqOf (s : State) (id : Nat) : Option Req := s.fab.reqs.find? (fun q => q.id == id)

/-- Whether a packet is held back by a passive twin. -/
def heldBack (s : State) (id : Nat) : Bool := s.pair.held.any (fun h => h.1 == id)

/-- `REQUEST_RESEND` (R351): a request unanswered for `LIFETIME` after its `BIRTH`; an ATOMIC is never sent again. -/
def execRequestResend (id : Nat) (s : State) : Host.Outcome State Fault Refusal :=
  match reqOf s id with
  | some q =>
    if q.held ∨ q.pkt.type = 6 ∨ heldBack s id ∨ (s.tcount % 2 ^ 32 + 2 ^ 32 - q.pkt.birth) % 2 ^ 32 < 1000 * fget s F.fabTimersLifetime 0 0
    then .next s
    else .next (resend s q)
  | none => .next s

/-- `REQUEST_RTO` (R351): a request silent until `RTO`; an ATOMIC, until `LIFETIME`. -/
def execRequestRto (id : Nat) (s : State) : Host.Outcome State Fault Refusal :=
  match reqOf s id with
  | some q =>
    let limit := if q.pkt.type = 6 then 1000 * fget s F.fabTimersLifetime 0 0 else 10000 * fget s F.fabTimersRto 0 0
    if q.held ∨ heldBack s id ∨ s.tcount < q.first + limit then .next s else .next (linkEnd s q)
  | none => .next s

/-- `NOT_YET_RETRY` (R352). -/
def execNotYetRetry (id : Nat) (s : State) : Host.Outcome State Fault Refusal :=
  match reqOf s id with
  | some q => .next (if q.held then resend s q else s)
  | none => .next s

/-- `NOT_YET_TIMEOUT` (R352): answered not yet for `COLLTO`. -/
def execNotYetTimeout (id : Nat) (s : State) : Host.Outcome State Fault Refusal :=
  match reqOf s id with
  | some q =>
    match q.notYet with
    | some t => if s.tcount < t + 1000000 * fget s F.fabTimersCollto 0 0 then .next s else .next (endRequest s q 0x1B stTimeout 4)
    | none => .next s
  | none => .next s

/-! ### Answers (R351) -/

/-- The request an answer belongs to; a forwarded answer names it by its identifier alone (R514). -/
def answerFor (s : State) (p : Nat) (pk : Packet) (types : List Nat) : Option Req :=
  if pairUp s p then s.fab.reqs.find? (fun q => types.contains q.pkt.type && q.pkt.reqid == pk.reqid)
  else answered s pk types

/-- The active twin reports to its partner that a packet of a twin context has been answered (R514). -/
def reportAnswer (s : State) (q : Req) : State :=
  if q.ctx.any (fun r => activeFor s r.val) then onPorts s pairUp msgAnswered [pktName q.pkt] else s

/-- The data of a read that came back. -/
def readDone (s : State) (q : Req) (pk : Packet) : State :=
  match q.chan with
  | some (.bulk b, k) =>
    if k = nextBurst then
      match tfind s.bulk b.val with
      | some x => if pk.status = 0 then bulkNext s b x pk.data else moverFault s (.bulk b) k 0x16
      | none => s
    else if pk.status = 0 then readData s (.bulk b) k pk.data (mapBad pk) else moverFault s (.bulk b) (k % halfBurst) 0x16
  | some (ch, k) =>
    if pk.status = 0 then readData s ch k pk.data (mapBad pk) else moverFault s ch (k % halfBurst) 0x16
  | none => s

/-- `READ_RESP` (R351): the first answer of the latest copy is used. -/
def execReadResp (p : PortId) (pkt : Packet) (s : State) : Host.Outcome State Fault Refusal :=
  onClock s (portClock p.val) fun s =>
  if pkt.type ≠ 3 then .fault (.badOperand "type of a packet")
  else
    match inbound s p.val pkt with
    | (s, false) => .next s
    | (s, true) =>
      let s := freed s p.val pkt
      match answerFor s p.val pkt [2] with
      | none => .next s
      | some q =>
        if pkt.status = 0 ∧ pkt.data.length ≠ q.pkt.ext then .fault (.badOperand "length of a READ_RESP")
        else .next (readDone (dropReq (reportAnswer s q) q.id) q pkt)

/-- A request answered: done, refused, or not yet, which waits to be sent again. -/
def ackDone (s : State) (q : Req) (pk : Packet) : State :=
  match pk.status with
  | 0 =>
    let s := dropReq (reportAnswer s q) q.id
    match q.chan, q.snap, q.ctx with
    | some (ch, k), _, _ => landBurst s ch k
    | none, some _, some r => settleDisable s r.val
    | _, _, _ => s
  | 2 =>
    if q.pkt.type = 5 ∨ q.pkt.type = 7 then
      modReq s q.id fun x => { x with held := true, first := s.tcount, notYet := some (x.notYet.getD s.tcount) }
    else s
  | _ => endRequest s q 0x16 stLink 3

/-- `ACK` (R351). -/
def execAck (p : PortId) (pkt : Packet) (s : State) : Host.Outcome State Fault Refusal :=
  onClock s (portClock p.val) fun s =>
  if pkt.type ≠ 4 then .fault (.badOperand "type of a packet")
  else
    match inbound s p.val pkt with
    | (s, false) => .next s
    | (s, true) =>
      let s := freed s p.val pkt
      match answerFor s p.val pkt [1, 5, 6, 7] with
      | none => .next s
      | some q => .next (ackDone s q pkt)

end Sys2Proof.Machine
end

