-- ==== Sys2Proof/Machine/Snapshots.lean ====
section
/-! DEFINITION. Evaluation snapshots (R462 to R468): the check at `GO`, the marking of the pages at a step boundary, the
pages shipped as writes of the context's class, and the end of a page. -/

namespace Sys2Proof.Machine

/-- A destination of the table: a global address of space 0 of another device, a multiple of 2 MiB (R462). -/
def destOk (s : State) (a : Nat) : Bool :=
  decide (a < 2 ^ 57 ∧ a % 2 ^ 21 = 0 ∧ gDev a ≠ ownDev s) && !a.testBit 44

/-- The destination table of `n` entries, where it can be read. -/
def destTable (s : State) (r n : Nat) : State × Option (List Nat) :=
  let va := cget s r F.ctxPrinttblVa 0
  if 2 ^ 48 < va + 8 * n then (s, none)
  else
    match cvRead s r va (8 * n) .access with
    | (s, .ok, bs, _) => (s, some ((List.range n).map (fun i => leNat ((bs.drop (8 * i)).take 8))))
    | (s, _, _, _) => (s, none)

/-- The check at `GO`: a snapshot, or the result of Table 13.5. -/
def printCheck (s : State) (r : Nat) : State × Except Nat Snap :=
  let va := cget s r F.ctxPrintvaVa 0
  let n := cget s r F.ctxPrintcntPages 0
  if n = 0 ∨ 2 ^ 48 < va + n * 2 ^ 21 then (s, .error 1)
  else
    let ps := (List.range n).map (pageOf va + ·)
    match destTable s r n with
    | (s, none) => (s, .error 1)
    | (s, some ds) =>
      if !ds.all (destOk s) then (s, .error 1)
      else if !ps.all (fun pg => (tfind (ctx s r).vs.pages pg).isSome) then (s, .error 2)
      else (s, .ok ⟨false, ps, ds, [], 0⟩)

/-- `GO` of a snapshot (R462, R463): armed, or failed at once. -/
def printGo (s : State) (r : Nat) : State :=
  match printCheck s r with
  | (s, .error e) => printSignal (cset (cset s r F.ctxPrintstatFail 0 1) r F.ctxPrintstatResult 0 e) r
  | (s, .ok p) =>
    let s := modCtx s r fun x => { x with snap := some p }
    cset (cset (cset (cset s r F.ctxPrintctlGo 0 1) r F.ctxPrintstatState 0 1) r F.ctxPrintstatResult 0 0)
      r F.ctxPrintstatSent 0 0

/-- `GO` (R462): a write of `CTX_PRINTCTL`. -/
def execGoSnapshot (sl : SlotId) (w : RegWrite) (s : State) : Host.Outcome State Fault Refusal :=
  onBar false s fun s =>
  let busy := fbit s F.ctxPrintctlGo sl.val 0
  let s := writeFields s w [F.ctxPrintctlHash, F.ctxPrintctlIrq, F.ctxPrintctlIrqen] sl.val 0
  match wbit w F.ctxPrintctlGo && !busy, slotCtx s sl.val with
  | true, some r => .next (printGo s r)
  | _, _ => .next s

/-- The bytes of a page as plaintext, and the 64-byte lines of it that are poisoned. -/
def pageText (s : State) (r pg : Nat) : Bytes × List Nat :=
  (vsRead (ctx s r).vs (pg * 2 ^ 21) (2 ^ 21), vsPoison (ctx s r).vs (pg * 2 ^ 21) (2 ^ 21))

/-- A page sent as writes of 4,096 bytes, up to one that cannot be sent (R464). -/
def shipPage (s : State) (r pg dst : Nat) : Option State :=
  let t := pageText s r pg
  (List.range 512).foldl
    (fun a i =>
      a.bind fun s =>
        let bad := (t.2.filter (fun o => decide (4096 * i ≤ o ∧ o < 4096 * (i + 1)))).map (· - 4096 * i)
        let id := s.fab.nextReq
        (request s { pktInit with type := 1, dst := gDev dst, addr := dst + 4096 * i,
                                  data := (t.1.drop (4096 * i)).take 4096, poison := poisonMap bad }
          none none none (some r)).map fun s => modReq s id fun q => { q with snap := some pg }) (some s)

/-- The pages of a snapshot shipped in ascending order; a target that no route reaches ends it (Table 13.4). -/
def shipPages : List (Nat × Nat) → State → Nat → State
  | [], s, _ => s
  | (pg, dst) :: t, s, r =>
    match shipPage s r pg dst with
    | some s => shipPages t s r
    | none => printFail s r 4

/-- `SNAPSHOT_START` (R463): at the first instant without a step, the pages are marked and leave; their digest is that of
the bytes they hold then (R466). -/
def execSnapshotStart (r : CtxId) (s : State) : Host.Outcome State Fault Refusal :=
  onClock s (edgeClock 0) fun s =>
  let x := ctx s r.val
  match x.snap with
  | none => .next s
  | some p =>
    if p.started ∨ x.step.isSome ∨ x.floats.any (·.launched) then .next s
    else
      let s := p.pages.foldl (fun s pg => modPage s r.val pg fun e => { e with printing := true }) (wake s [])
      let root := digestNat (rootOf (p.pages.map (fun pg => (pageText s r.val pg).1)).flatten)
      let s := modCtx s r.val fun x => { x with snap := some { p with started := true, digest := root } }
      .next (shipPages (p.pages.zip p.dests) (cset s r.val F.ctxPrintstatState 0 2) r.val)

/-- A snapshot whose pages have all left: its digest is written where `HASH` is 1 by then (R466). -/
def printDone (s : State) (r : Nat) (p : Snap) : State :=
  let s :=
    if cget s r F.ctxPrintctlHash 0 = 1 then
      (List.range 4).foldl (fun s w => cset s r F.ctxPrintdigData w (bitsOf p.digest.toNat (64 * w) 64)) s
    else s
  let s := modCtx s r fun x => { x with snap := none }
  let s := cset (cset (cset s r F.ctxPrintstatState 0 0) r F.ctxPrintctlGo 0 0) r F.ctxPrintstatDone 0 1
  printSignal s r

/-- Whether a write of a page is still to be acknowledged. -/
def pageFlies (s : State) (r : CtxId) (pg : Nat) : Bool :=
  s.fab.reqs.any (fun q => q.snap == some pg && q.ctx == some r)

/-- `SNAPSHOT_PAGE_SENT` (R464): the last write of a page has been acknowledged. -/
def execSnapshotPageSent (r : CtxId) (s : State) : Host.Outcome State Fault Refusal :=
  onClock s (edgeClock 0) fun s =>
  match (ctx s r.val).snap with
  | none => .next s
  | some p =>
    match if p.started then p.pages.find? (fun pg => !p.sent.contains pg && !pageFlies s r pg) else none with
    | none => .next s
    | some pg =>
      let p := { p with sent := p.sent ++ [pg] }
      let s := modPage s r.val pg fun e => { e with printing := false }
      let s := unshadow s (fun v => v != shadowName r.val pg)
      let s := ccount (modCtx s r.val fun x => { x with snap := some p }) r.val F.ctxPrintstatSent 0 1
      .next (resumePg (if p.sent.length = p.pages.length then printDone s r.val p else s) r.val)

end Sys2Proof.Machine
end

