-- ==== Sys2Proof/Machine/Reels.lean ====
section
/-! DEFINITION. Reels (R471 to R491): the manifest and its check, chunks written to staging, verified and forwarded, bad
and missing chunks, the weight-stream lines, the switch at a launch. A chunk travels as ciphertext with its tag. -/

namespace Sys2Proof.Machine

/-! ### The manifest (R471 to R473) -/

/-- Whether bytes `a` to `b - 1` are zero. -/
def zeroBytes (bs : Bytes) (a b : Nat) : Bool := ((bs.drop a).take (b - a)).all (· == 0)

/-- The chain of a shard entry. -/
def chainOf (table entry : Bytes) : List Nat :=
  (List.range (xf entry 30 2)).map fun i => xf table (2 * (xf entry 28 2 + i)) 2

/-- The 64-byte entries of a sequence. -/
def entries64 (bs : Bytes) (n : Nat) : List Bytes := (List.range n).map fun i => (bs.drop (64 * i)).take 64

/-- Whether a chain names no device twice. -/
def distinct : List Nat → Bool
  | [] => true
  | x :: t => !t.contains x && distinct t

/-- Whether numbers ascend strictly. -/
def ascending : List Nat → Bool
  | a :: b :: t => decide (a < b) && ascending (b :: t)
  | _ => true

/-- Whether a shard entry keeps R471 and R472. -/
def shardOk (layers nchain : Nat) (table e : Bytes) : Bool :=
  decide (xf e 4 2 < layers ∧ xf e 6 1 < 16 ∧ xf e 7 1 = 0 ∧ xf e 8 8 % 2 ^ 21 = 0 ∧ 1 ≤ xf e 16 8 ∧
    xf e 8 8 + xf e 16 8 ≤ 2 ^ 48 ∧ 1 ≤ xf e 30 2 ∧ xf e 30 2 ≤ 4096 ∧ xf e 28 2 + xf e 30 2 ≤ nchain) &&
  distinct (chainOf table e) && (chainOf table e).all (fun d => decide (d < 4096))

/-- The parts of a manifest: its shard entries and its chain table. -/
def manifestParts (bs : Bytes) : List Bytes × Bytes :=
  (entries64 (bs.drop 64) (xf bs 8 4), bs.drop (64 + 64 * xf bs 8 4))

/-- Whether a manifest keeps R471 and R472. -/
def manifestOk (bs : Bytes) : Bool :=
  let n := xf bs 8 4
  let c := xf bs 12 4
  let size := 64 + 64 * n + (2 * c + 63) / 64 * 64
  decide (bs.length = size ∧ size ≤ 2 ^ 26 ∧ xf bs 0 4 = 0x4C454552 ∧ 1 ≤ xf bs 4 4 ∧ 1 ≤ n ∧ 1 ≤ xf bs 16 2) &&
  zeroBytes bs 18 64 && zeroBytes bs (64 + 64 * n + 2 * c) size &&
  ascending ((manifestParts bs).1.map (xf · 0 4)) &&
  (manifestParts bs).1.all (shardOk (xf bs 16 2) c (manifestParts bs).2)

/-- The digest of the reel (R473). -/
def manifestDigest (bs : Bytes) : Bytes :=
  sha3 (0x07#8 :: leBytes 4 (xf bs 8 4) ++
    ((manifestParts bs).1.map fun e => e.take 6 ++ (e.drop 16).take 8 ++ e.drop 32).flatten)

/-- A shard as this device has it, of the manifest's entry at a place. -/
def shardFrom (own : Nat) (table e : Bytes) (place : Nat) : Option Shard :=
  let ch := chainOf table e
  if !ch.contains own then none
  else
    let i := ch.idxOf own
    some ⟨xf e 0 4, place, xf e 4 2, BitVec.ofNat 4 (xf e 6 1), xf e 24 4, xf e 8 8, xf e 16 8,
      if i = 0 then none else (ch[i - 1]?).map (BitVec.ofNat 12), (ch[i + 1]?).map (BitVec.ofNat 12), digestNat (e.drop 32)⟩

/-- The shards of this device (R477), in ascending `LAYER`, then ascending `SHARD` (R478). -/
def ownShards (s : State) (bs : Bytes) : List Shard :=
  ((manifestParts bs).1.zipIdx.filterMap fun e => shardFrom (ownDev s) (manifestParts bs).2 e.1 e.2).mergeSort
    fun a b => decide (a.layer < b.layer) || (a.layer == b.layer && decide (a.id ≤ b.id))

/-- Whether two page ranges meet. -/
def pagesMeet (a b : List Nat) : Bool := a.any b.contains

/-- Whether the ranges of this device's shards keep clear of each other and of their staging ranges (R476). -/
def rangesApart (off : Nat) : List Shard → Bool
  | [] => true
  | h :: t =>
    t.all (fun k => !pagesMeet (shardPages h) (shardPages k)) &&
    !pagesMeet (shardPages h) ((shardPages h).map (· + off)) &&
    (shardPages h).all (fun pg => decide (pg + off < 2 ^ 27)) && rangesApart off t

/-- The expected digest of the reel. -/
def wantedDigest (s : State) (r : Nat) : Bytes := ((List.range 4).map fun w => leBytes 8 (cget s r F.ctxReeldigData w)).flatten

/-- Staging pages of a load that are not mapped yet. -/
def stagingNew (s : State) (r : Nat) (hs : List Shard) : Nat :=
  (((hs.map shardPages).flatten.map (· + stagePages s r)).filter
    (fun pg => (tfind (ctx s r).vs.pages pg).isNone)).length

/-- The check of a load: what it loads, or the result of Table 14.5. -/
def reelCheck (s : State) (r : Nat) (manifest : Option Bytes) : Except Nat ReelLoad :=
  match manifest with
  | none => .error 1
  | some bs =>
    let hs := ownShards s bs
    let keyless := (manifestParts bs).1.any fun e =>
      (shardFrom (ownDev s) (manifestParts bs).2 e 0).isSome &&
      ((tfind s.keys.transport (xf e 24 4)).isNone || keyEmpty s r (BitVec.ofNat 4 (xf e 6 1)))
    if bs.length ≠ cget s r F.ctxReelmanlenBytes 0 ∨ !manifestOk bs ∨ !rangesApart (stagePages s r) hs then .error 1
    else if manifestDigest bs ≠ wantedDigest s r then .error 2
    else if xf bs 4 4 ≤ cget s r F.ctxReelgenActgen 0 then .error 3
    else if keyless then .error 4
    else if cget s r F.ctxPgquotaQuota 0 < (ctx s r).vs.pages.length + stagingNew s r hs then .error 5
    else .ok ⟨BitVec.ofNat 32 (xf bs 4 4), digestNat (manifestDigest bs), hs, [], [], [], [(0, s.tcount), (1, s.tcount)], []⟩

/-- A refused load. -/
def reelRefuse (s : State) (r e : Nat) : State :=
  reelSignal (cset (cset s r F.ctxReelstatFail 0 1) r F.ctxReelstatResult 0 e) r

/-! ### Weight-stream lines (R488) -/

/-- Leading 4 KiB units of the chunks of a shard that have been written, and whether all of it has. -/
def unitsFrom (l : ReelLoad) (h : Shard) : Nat → Nat → Nat × Bool
  | 0, _ => (0, true)
  | n + 1, i =>
    if chunkThere l h.id i then
      let p := unitsFrom l h n (i + 1)
      ((min 65536 (h.bytes - 65536 * i) + 4095) / 4096 + p.1, p.2)
    else (0, false)

/-- Leading units of a stream: the layer's shards in ascending order. -/
def streamUnits (l : ReelLoad) : List Shard → Nat
  | [] => 0
  | h :: t =>
    let p := unitsFrom l h (shardChunks h) 0
    if p.2 then p.1 + streamUnits l t else p.1

/-- The totals of a context's bound lines brought up to date. -/
def putLines (s : State) (r : Nat) : State :=
  match (ctx s r).reel with
  | none => s
  | some l =>
    (List.range 4).foldl
      (fun s k =>
        if cget s r F.ctxReelstrmEn k = 1 then
          let n := streamUnits l (l.shards.filter (fun h => h.layer == cget s r F.ctxReelstrmLayer k))
          { s with fab := { s.fab with lineTot := tset s.fab.lineTot k (BitVec.ofNat 32 n) } }
        else s) s

/-- Whether another context holds a line. -/
def lineHeld (s : State) (sl k : Nat) : Bool :=
  s.ctxs.any fun e => registered e.2 && e.2.slot.map (·.val) != some sl && cget s e.1 F.ctxReelstrmEn k == 1

/-- `REEL_STREAM_BIND` (R488): a write of `CTX_REELSTRM`. -/
def execReelStreamBind (sl : SlotId) (k : Fin 4) (w : RegWrite) (s : State) : Host.Outcome State Fault Refusal :=
  onBar false s fun s =>
  if wbit w F.ctxReelstrmEn && lineHeld s sl.val k.val then .next s
  else
    let s := writeFields s w [F.ctxReelstrmLayer, F.ctxReelstrmEn] sl.val k.val
    if !wbit w F.ctxReelstrmEn then .next s
    else
      let s := { s with fab := { s.fab with lineTot := tset s.fab.lineTot k.val 0 } }
      match slotCtx s sl.val with
      | some r => .next (putLines s r)
      | none => .next s

/-! ### Chunks (R478 to R483) -/

/-- Messages of the loader: a chunk, and the request for one. -/
def msgChunk : Nat := 17
def msgChunkReq : Nat := 18

/-- A message of the loader to another device, on the port that a request to it would take. -/
def toDevice (s : State) (dev msg : Nat) (data : List Nat) : State :=
  match routePort s { pktInit with src := ownDev s, dst := dev } with
  | some p => portMsg s p msg (dev :: data)
  | none => s

/-- A chunk sent on (R478). -/
def sendChunk (s : State) (dev gen shard chunk : Nat) (data : Bytes) : State :=
  toDevice s dev msgChunk ([gen, shard, chunk] ++ data.map (·.toNat))

/-- Where a chunk is written: the staging range, or the shard's own pages after a switch in streaming. -/
def chunkVa (s : State) (r : Nat) (l : ReelLoad) (h : Shard) (i : Nat) : Nat :=
  h.va + 65536 * i + if switched s r l then 0 else cget s r F.ctxReelcfgStageoff 0

/-- The tile that translates the page of a chunk, whose loader handles it (R478). -/
def chunkTile (s : State) (r : Nat) (l : ReelLoad) (h : Shard) (i : Nat) : Nat := pageOf (chunkVa s r l h i) % 2

/-- The chunks of a load in the order in which they are taken (R478). -/
def chunkOrder (l : ReelLoad) : List (Shard × Nat) := (l.shards.map fun h => (List.range (shardChunks h)).map fun i => (h, i)).flatten

/-- Whether a chunk has failed before, and is fetched again out of its turn. -/
def chunkFailed (l : ReelLoad) (id i : Nat) : Bool := l.failed.contains (id, i)

/-- The chunk that a tile's loader expects next (R478). -/
def nextChunk (s : State) (r : Nat) (l : ReelLoad) (tile : Nat) : Option (Shard × Nat) :=
  (chunkOrder l).find? fun c =>
    !chunkThere l c.1.id c.2 && !chunkFailed l c.1.id c.2 && chunkTile s r l c.1 c.2 == tile

/-- Whether a chunk's turn has come: its loader expects it next, or has requested it again. -/
def chunkDue (s : State) (r : Nat) (l : ReelLoad) (h : Shard) (i : Nat) : Bool :=
  chunkFailed l h.id i || nextChunk s r l (chunkTile s r l h i) == some (h, i)

/-- A chunk read from the host, at the bus address that the source table gives for its shard (R474); while the host takes no
transfers nothing is read. -/
def readChunk (s : State) (r : Nat) (h : Shard) (i : Nat) : State :=
  if hostUp s then
    emit s (.sourceRead (cget s r F.ctxReelsrcAddr 0 + 8 * h.place) (65552 * i) (min 65536 (h.bytes - 65536 * i) + 16))
  else s

/-- The chunk that a tile's loader expects next read from the host, where this device is the root of its chain. -/
def readNext (s : State) (r tile : Nat) : State :=
  match (ctx s r).reel with
  | none => s
  | some l =>
    match nextChunk s r l tile with
    | some (h, i) => if h.up.isNone then readChunk s r h i else s
    | none => s

/-! ### `GO`, `ABORT` and `COMMIT` (R476, R484, R490) -/

/-- A load whose shards have all matched (R479). -/
def reelStaged (s : State) (r : Nat) : State :=
  reelSignal (cset (cset s r F.ctxReelstatStaged 0 1) r F.ctxReelstatState 0 2) r

/-- `GO` of a load (R476). -/
def reelGoLoad (s : State) (r : Nat) (manifest : Option Bytes) : State :=
  if cget s r F.ctxReelstatState 0 ≠ 0 then reelRefuse s r 3
  else
    match reelCheck s r manifest with
    | .error e => reelRefuse s r e
    | .ok l =>
      let s := modCtx (wake s []) r fun x => { x with reel := some l }
      let s := cset (cset (cset s r F.ctxReelgenStggen 0 l.gen.toNat) r F.ctxReelstatState 0 1) r F.ctxReelstatResult 0 0
      let s := putLines s r
      if l.shards.isEmpty then reelStaged s r else readNext (readNext s r 0) r 1

/-- A write of `CTX_REELCTL` (Table 14.5): `COMMIT` and `IRQ` are written, then `ABORT` and `GO` act. -/
def reelCtl (s : State) (sl : Nat) (w : RegWrite) (manifest : Option Bytes) : State :=
  let s := writeFields s w [F.ctxReelctlCommit, F.ctxReelctlIrq] sl 0
  match slotCtx s sl with
  | none => s
  | some r =>
    let s := if wbit w F.ctxReelctlAbort then reelFail s r 7 else s
    if wbit w F.ctxReelctlGo then reelGoLoad s r manifest else s

/-- `REEL_LOAD` (R476). -/
def execReelLoad (sl : SlotId) (w : RegWrite) (manifest : Option Bytes) (s : State) : Host.Outcome State Fault Refusal :=
  onBar false s fun s =>
  .next (reelCtl s sl.val w manifest)

/-- `ABORT` (R490). -/
def execAbort (sl : SlotId) (w : RegWrite) (s : State) : Host.Outcome State Fault Refusal :=
  onBar false s fun s => .next (reelCtl s sl.val w none)

/-- `COMMIT` (R484). -/
def execCommit (sl : SlotId) (w : RegWrite) (s : State) : Host.Outcome State Fault Refusal :=
  onBar false s fun s => .next (reelCtl s sl.val w none)

/-! ### Verifying chunks and shards (R479 to R483) -/

/-- A shard's root over the leaves of its chunks (R479). -/
def shardRoot (l : ReelLoad) (h : Shard) : Bytes :=
  treeRoot h.bytes
    (((List.range (shardChunks h)).map fun i =>
      ((l.got.find? (fun g => g.1 == h.id && g.2.1 == i)).map (·.2.2)).getD []).flatten)

/-- The device of the alternate root: the partner where a pairing is in effect, or was until this twin's warm reset for
its renewal (R518), else the host (R481). -/
def altRoot (s : State) : Option Nat :=
  let st := fget s F.pairStatState 0 0
  if st = 2 ∨ st = 4 ∨ st = 5 ∨ s.pair.renewed then some (fget s F.pairCfgPartner 0 0) else none

/-- A failure of a chunk (R481): fetched again from upstream, then from the alternate root; the third fails the reel. -/
def chunkFail (kind : Nat) (r : Nat) (h : Shard) (s : State) (i : Nat) : State :=
  match (ctx s r).reel with
  | none => s
  | some l =>
    let l := { l with failed := l.failed ++ [(h.id, i)], asked := l.asked ++ [(h.id, i, s.tcount)] }
    let n := (l.failed.filter (· == (h.id, i))).length
    let s := modCtx s r fun x => { x with reel := some l }
    let ask (s : State) (dev : Option Nat) : State :=
      match dev with
      | some d => toDevice s d msgChunkReq [l.gen.toNat, h.id, i]
      | none => readChunk s r h i
    if n = 1 then ask (ccount s r F.ctxReelretryUpstream 0 1) (h.up.map (·.toNat))
    else if n = 2 then ask (ccount s r F.ctxReelretryAltroot 0 1) (altRoot s)
    else
      let s := cset (cset (cset s r F.ctxReelfailShard 0 h.id) r F.ctxReelfailDev 0 ((altRoot s).getD 0xFFF))
        r F.ctxReelfailKind 0 kind
      reelFail s r 6

/-- A whole shard counted as failed (R482): all of it is fetched again. -/
def shardFail (s : State) (r : Nat) (h : Shard) : State :=
  let s := modCtx s r fun x =>
    { x with reel := x.reel.map fun l => { l with got := l.got.filter (fun g => g.1 != h.id) } }
  (List.range (shardChunks h)).foldl (chunkFail 3 r h) (putLines s r)

/-- How the page of a chunk meets it. -/
inductive ChunkPage where
  | there (s : State)
  | wait (s : State)
  | quota

/-- The page of a chunk mapped under the shard's key when its first chunk comes (R477); a page that moves, is being printed
or has found no place makes the chunk wait. -/
def chunkPage (s : State) (r : Nat) (l : ReelLoad) (h : Shard) (i : Nat) : ChunkPage :=
  let pg := pageOf (chunkVa s r l h i)
  if l.got.any (fun g => g.1 == h.id && g.2.1 / 32 == i / 32) then
    match tfind (ctx s r).vs.pages pg with
    | some p => if p.move.isSome || p.printing || (p.loc == .host && !hostUp s) then .wait s else .there s
    | none => .wait s
  else
    let t := unmapPage s r pg
    if cget t r F.ctxPgquotaQuota 0 ≤ (ctx t r).vs.pages.length then .quota
    else
      match placePage t r pg true h.key with
      | some p => if p.2.loc = .host ∧ !hostUp s then .wait s else .there (mapPage p.1 r pg p.2)
      | none => .wait (noteWait s r pg .reel)

/-- A shard all of whose chunks are there compared with its digest (R479, R482). -/
def settleShard (s : State) (r : Nat) (h : Shard) : State :=
  match (ctx s r).reel with
  | none => s
  | some l =>
    if !(List.range (shardChunks h)).all (chunkThere l h.id) then s
    else if digestNat (shardRoot l h) ≠ h.digest then shardFail s r h
    else
      let l := { l with verified := l.verified ++ [h.id] }
      let s := modCtx s r fun x => { x with reel := some l }
      if l.verified.length = l.shards.length then reelStaged s r else s

/-- The IV and the additional data of a chunk (R475). -/
def chunkIv (h : Shard) (i : Nat) : Bytes := leBytes 4 h.id ++ leBytes 8 i
def chunkAad (l : ReelLoad) (h : Shard) : Bytes := leBytes 4 l.gen.toNat ++ leBytes 4 h.id ++ leBytes 8 h.bytes

/-- The plaintext of a chunk received, where its tag holds under the shard's transport key and it has the length of the
chunk (R474, R475). -/
def openChunk (s : State) (l : ReelLoad) (h : Shard) (i : Nat) (data : Bytes) : Option Bytes :=
  ((tfind s.keys.transport h.keyid).bind fun k => gcmOpen (digestBytes k) (chunkIv h i) (chunkAad l h) data).filter
    fun pt => pt.length == min 65536 (h.bytes - 65536 * i)

/-- An authentic chunk taken in: `data` is its plaintext, `sealed_` what was received (R478). -/
def takeChunk (s : State) (r : Nat) (l : ReelLoad) (h : Shard) (i : Nat) (data sealed_ : Bytes) : State :=
  match chunkPage s r l h i with
  | .wait s => s
  | .quota => reelFail s r 5
  | .there s =>
    let va := chunkVa s r l h i
    let tile := chunkTile s r l h i
    let s := modCtx (putText s r va data []) r fun x =>
      { x with reel := some { l with got := l.got ++ [(h.id, i, leafDigest i data)], since := tset l.since tile s.tcount } }
    let s := match h.down with
      | some d => sendChunk s d.toNat l.gen.toNat h.id i sealed_
      | none => s
    settleShard (readNext (putLines s r) r tile) r h

/-- The load of a context and its shard of a number. -/
def loadShard (l : Option ReelLoad) (shard : Nat) : Option (ReelLoad × Shard) :=
  l.bind fun l => (l.shards.find? (fun h => h.id == shard)).map fun h => (l, h)

/-- `REEL_CHUNK` (R478): a chunk that the load has not yet and whose turn has come, as it is received; one that comes before
its turn stays with its sender. -/
def execReelChunk (r : CtxId) (shard chunk : Nat) (data : Bytes) (s : State) : Host.Outcome State Fault Refusal :=
  match loadShard (ctx s r.val).reel shard with
  | none => .next s
  | some (l, h) =>
    onClock s (edgeClock (chunkTile s r.val l h chunk)) fun s =>
    if shardChunks h ≤ chunk ∨ chunkThere l shard chunk ∨ !chunkDue s r.val l h chunk then .next s
    else
      match openChunk s l h chunk data with
      | none => .next (chunkFail 1 r.val h s chunk)
      | some pt => .next (takeChunk s r.val l h chunk pt data)

/-- When a chunk was last requested, or else came to be expected (R481). -/
def chunkSince (s : State) (r : Nat) (l : ReelLoad) (h : Shard) (i : Nat) : Nat :=
  match l.asked.reverse.find? (fun a => a.1 == h.id && a.2.1 == i) with
  | some a => a.2.2
  | none => tget l.since (chunkTile s r l h i) 0

/-- `CHUNK_TIMEOUT` (R481): a chunk whose turn has come is missing `CHUNKTO` ms after it was expected or requested. -/
def execChunkTimeout (r : CtxId) (shard chunk : Nat) (s : State) : Host.Outcome State Fault Refusal :=
  match loadShard (ctx s r.val).reel shard with
  | none => .next s
  | some (l, h) =>
    onClock s (edgeClock (chunkTile s r.val l h chunk)) fun s =>
    if shardChunks h ≤ chunk ∨ chunkThere l shard chunk ∨ !chunkDue s r.val l h chunk ∨
        s.tcount < chunkSince s r.val l h chunk + 1000000 * cget s r.val F.ctxReelcfgChunkto 0 then .next s
    else .next (chunkFail 2 r.val h s chunk)

/-- A chunk read where it lies, sealed again, and sent to the device that asks, where its key is loaded. -/
def giveChunk (s : State) (r : Nat) (l : ReelLoad) (h : Shard) (i va : Nat) (dev : BitVec 12) : State :=
  match tfind s.keys.transport h.keyid with
  | none => s
  | some k => sendChunk s dev.toNat l.gen.toNat h.id i
      (gcmSeal (digestBytes k) (chunkIv h i) (chunkAad l h) (vsRead (ctx s r).vs va (min 65536 (h.bytes - 65536 * i))))

/-- `CHUNK_REQUEST` (R481): a chunk that this device has, of its load or of the reel it serves. -/
def execChunkRequest (r : CtxId) (shard chunk : Nat) (dev : BitVec 12) (s : State) : Host.Outcome State Fault Refusal :=
  let give (l : ReelLoad) (h : Shard) (va : Nat) : Host.Outcome State Fault Refusal :=
    onClock s (edgeClock (pageOf va % 2)) fun s =>
    .next (if chunkThere l shard chunk then giveChunk s r.val l h chunk va dev else s)
  match loadShard (ctx s r.val).reel shard, loadShard (ctx s r.val).served shard with
  | some (l, h), _ => give l h (chunkVa s r.val l h chunk)
  | none, some (l, h) => give l h (h.va + 65536 * chunk)
  | none, none => .next s

/-! ### The switch (R486) -/

/-- The data of a page moved to another page. -/
def movePageData (vs : VSpace) (a b : Nat) : VSpace :=
  let vs' := dropPageData vs b
  let mem := (vs.mem.filter (fun c => pageOf c.1 == a)).foldl
    (fun m c => mset m (b * 2 ^ 21 + c.1 % 2 ^ 21) c.2) vs'.mem
  let poison := (vs.poison.filter (fun l => l.1 / 32768 == a)).foldl
    (fun t l => tset t (b * 32768 + l.1 % 32768) l.2) vs'.poison
  dropPageData { vs' with mem := mem, poison := poison } a

/-- One shard page exchanged with its staging page, whose frame then holds it, and the old page freed. -/
def switchPage (r off : Nat) (s : State) (pg : Nat) : State :=
  let s := unmapPage s r pg
  match tfind (ctx s r).vs.pages (pg + off) with
  | none => s
  | some p =>
    let s := if p.loc = .local_ then { s with frames := tset s.frames p.frame (.page (Fin.ofNat 64 r) pg) } else s
    modCtx (addTable s r pg) r fun x =>
      { x with vs := { movePageData x.vs (pg + off) pg with pages := tset (tdel x.vs.pages (pg + off)) pg p } }

/-- Whether a launch waits for the switch, and it may take place (R485, R486). -/
def switchReady (s : State) (r : Nat) (l : ReelLoad) : Bool := waitsForReel s r && reelMaySwitch s r l

/-- `REEL_SWITCH` (R486). -/
def execReelSwitch (r : CtxId) (s : State) : Host.Outcome State Fault Refusal :=
  onClock s (edgeClock 0) fun s =>
  match (ctx s r.val).reel with
  | none => .next s
  | some l =>
    if !switchReady s r.val l then .next s
    else
      let full := cget s r.val F.ctxReelstatState 0 == 2
      let s := (l.shards.map shardPages).flatten.foldl (switchPage r.val (stagePages s r.val)) s
      let s := cset (cset (cset s r.val F.ctxReelgenActgen 0 l.gen.toNat) r.val F.ctxReelgenStggen 0 0)
        r.val F.ctxReelctlCommit 0 0
      let s := modCtx s r.val fun x =>
        { x with actDigest := l.digest, reel := if full then none else some l, served := if full then some l else none }
      .next (if full then cset s r.val F.ctxReelstatState 0 0 else s)

end Sys2Proof.Machine
end

