-- ==== Sys2Proof/Machine/Reliability.lean ====
section
/-! DEFINITION. Core faults, retakes, check takes, tests of cores, ports and lanes, and health records (R492 to R509,
R520 to R526). -/

namespace Sys2Proof.Machine

/-! ### Core faults (R493, R494, R503) -/

/-- Whether a core may take over a virtual core of a context: a usable or spare one with the granules and segments, which
runs no floating step and holds nothing of the context's slot (R427, R502). DEDUCED (log 23): room for the code, and that one
core holds one virtual core of a slot, are asked for as well. -/
def heir (s : State) (k : Nat) (ic : CoreImage) (n : Nat) : Bool :=
  let c := core s n
  decide (c.use.toNat ≤ 1) && candidate s ic.granules n && decide (ic.segments ≤ (freeSegments c).length) &&
    (tfind c.vmap k).isNone

/-- The cores in the order in which a retake looks for one: the failed core's tile, then the device (R502). -/
def heirOrder (n : Nat) : List Nat :=
  placementOrder.filter (fun m => tileOf m == tileOf n) ++ placementOrder.filter (fun m => tileOf m != tileOf n)

/-- The image of the virtual core that a core holds for a slot, with its context. -/
def heldPart (s : State) (n k : Nat) : Option (Nat × CoreImage) :=
  match slotCtx s k, tfind (core s n).vmap k with
  | some r, some (vx, vy) => ((ctx s r).img.bind fun i => imgCore i vx vy).map fun ic => (r, ic)
  | _, _ => none

/-- Whether a faulted core's virtual core is retaken (R503). -/
def retakable (s : State) (n k : Nat) : Bool :=
  match heldPart s n k with
  | none => false
  | some (r, ic) =>
    cget s r F.ctxRelstatProt 0 == 1 && ((tfind (core s n).mirrors k).bind (·.image)).isSome &&
      (heirOrder n).any (heir s k ic)

/-- The mirrors that a faulted core kept for others are gone until the next commit (R504). -/
def loseMirrors (s : State) (n : Nat) : State :=
  let drop (e : Nat × Mirror) : Nat × Mirror :=
    if e.2.buddy.map (·.val) = some n then (e.1, { e.2 with image := none }) else e
  { s with cores := s.cores.map fun e => (e.1, { e.2 with mirrors := e.2.mirrors.map drop }) }

/-- A core fenced: its units are stopped and empty, what it had outstanding is given up (R494). -/
def fence (s : State) (n : Nat) : State :=
  let mine (q : Req) : Bool := match q.chan with | some (.core m _, _) => m.val == n | _ => false
  let s := { s with fab := { s.fab with reqs := s.fab.reqs.filter fun q => !mine q } }
  modCore s n fun c =>
    { c with fenced := true, fencedAt := s.tcount, use := 2, running := none, hold := 0, wait := false, takes := [], acc := [], qa := [],
             qb := [], flight := [], stop := none, chans := c.chans.map fun e => (e.1, { e.2 with xfer := none }) }

/-- The steps that have a part on a core. -/
def stepsOn (s : State) (n : Nat) : List (Nat × Nat) :=
  (s.ctxs.map fun e =>
    ((e.2.step.toList ++ e.2.floats.filter (·.launched)).filter
      (fun st => st.cores.any (fun c => c.core.val == n))).map fun st => (e.1, st.id.toNat)).flatten

/-- A core fault: the core is fenced and recorded; what is not retaken is lost. -/
def coreFault (s : State) (n : Nat) : State :=
  if (core s n).fenced then s
  else
    let steps := stepsOn s n
    let homes := ((core s n).vmap.map (·.1)).filter (fun k => (heldPart s n k).isSome)
    let floats := ((core s n).frames.map (·.1)).filter (8 ≤ ·)
    let again := homes.filter (retakable s n)
    let s := loseMirrors (fence s n) n
    let s := addRepair s 0x04 2 n 0 0
    let lose (s : State) (k : Nat) : State :=
      match slotCtx s k with
      | some r => loseCore s r n
      | none => s
    let s := (homes.filter (fun k => !again.contains k)).foldl lose s
    let s := floats.foldl (losePart n) s
    faultRecord s (1, n) 0x01 (if !again.isEmpty then 1 else if !steps.isEmpty then 2 else 3) steps

/-- `CORE_FAULT` (R494). -/
def execCoreFault (n : CoreId) (s : State) : Host.Outcome State Fault Refusal := .next (coreFault s n.val)

/-- `BEAT_TIMEOUT` (R493): no beat has come from a core that runs a context. -/
def execBeatTimeout (n : CoreId) (s : State) : Host.Outcome State Fault Refusal :=
  onClock s (coreClock n.val) fun s =>
  let c := core s n.val
  .next (if c.vmap.isEmpty && c.running.isNone then s else coreFault s n.val)

/-- `DEVICE_FAULT` (R495). -/
def execDeviceFault (s : State) : Host.Outcome State Fault Refusal := .next (deviceFault s)

/-! ### Virtual cores that move (R502, R520) -/

/-- The home set in serpentine order. -/
def sortMap (m : List (CoreId × Nat × Nat)) : List (CoreId × Nat × Nat) :=
  placementOrder.filterMap fun n => m.find? (fun e => e.1.val == n)

/-- A virtual core of a context moved from a core to another one, with what a shelf would hold of it: the new core is
assigned and loaded, the old one released, and home set and step name the new one. -/
def rehome (s : State) (r k n m : Nat) (img : Image) (e : ShelfCore) : State :=
  match (ctx s r).map.find? (fun p => p.1.val == n) with
  | none => s
  | some p =>
    let q : CoreId × Nat × Nat := (Fin.ofNat 1344 m, p.2)
    let s := releaseCore r k s p
    let s := assignCore r k img false false s q
    let s := modCore s m fun c =>
      { c with use := 0, replaces := tset c.replaces k n }
    let s := modCtx s r fun x =>
      { x with map := sortMap (x.map.map fun o => if o.1.val = n then q else o)
               step := x.step.map fun st =>
                 { st with cores := st.cores.map fun c => if c.core.val = n then { c with core := q.1 } else c } }
    unshelveCore k s { e with core := m }

/-- Granules for mirrors of a context claimed on a core, as far as there are any. -/
def claimMirrors (s : State) (r b size : Nat) : State :=
  modCore s b fun c => { c with granOwner := ownAll c.granOwner ((freeGranules c).take size) (ownMirror r) }

/-- Granules for mirrors of a context given back on a core. -/
def freeMirrors (s : State) (r b size : Nat) : State :=
  modCore s b fun c =>
    let gs := ((c.granOwner.filter (fun e => e.2 == ownMirror r)).map (·.1)).take size
    { c with granOwner := c.granOwner.filter fun e => !gs.contains e.1 }

/-- The mirror of a retaken virtual core, now on core `m`, kept by another buddy: the granules of the old one are free, and
those of the new one claimed (R502). -/
def turnBuddy (s : State) (r m : Nat) (ic : CoreImage) (old : Option CoreId) : State :=
  let s := old.elim s fun b => freeMirrors s r b.val (mirrorSize ic)
  claimMirrors s r (buddyNow s r m) (mirrorSize ic)

/-- What a mirror holds of a core, with the code of the image (R498); of the counts the later ones, which the senders deliver
again (R201). -/
def mirrorShelf (n : Nat) (ic : CoreImage) (c : Core) (k : Nat) (i : CutImage) (m : Mirror) : ShelfCore :=
  { core := n
    frame := i.frame
    recv := ((List.range 8).map fun q => (q, laterTotal (tget i.recv q 0) (recvOf c k q))).filter (fun e => e.2 != 0)
    bytes := i.bytes.filter (fun e => decide (e.1 < 2 ^ 20))
    bad := (i.bytes.filter (fun e => decide (2 ^ 20 ≤ e.1))).map (fun e => e.1 - 2 ^ 20)
    code := (ic.code.zipIdx.map fun p => (p.2, p.1)).filter (fun e => e.2 != 0)
    rest := false
    mirror := some m
    entries := tget c.entries k [] }

/-- Whether a core's part of the home-set step is under way. -/
def partRuns (s : State) (r n : Nat) : Bool :=
  ((ctx s r).step.map (fun st => st.cores.any (fun c => c.core.val == n && c.st == .running))).getD false

/-- The step's note of a retake: the contributions of the virtual core are again those of the mirror (R400, R498), and the
checks of the take that runs again end (R506). -/
def noteRetake (s : State) (r vx vy : Nat) (i : CutImage) : State :=
  let s := modCtx s r fun x =>
    { x with step := x.step.map (fun st =>
               { st with retakes := st.retakes + 1
                         contribs := st.contribs.filter (fun c => !(c.vx == vx && c.vy == vy)) ++ i.contribs })
             checks := x.checks.filter fun k => k.closed || k.vx != vx || k.vy != vy }
  let s := ccount s r F.ctxRelstatRetakes 0 1
  { s with dailies := { s.dailies with retakes := s.dailies.retakes + 1 } }

/-- What the cores of this device have sent to a virtual core of a context, by receive channel: the `SENT` of each
(R201). -/
def sentTo (s : State) (r vx vy : Nat) : List (Nat × BitVec 32) :=
  s.ctxs.flatMap fun e =>
    let x := e.2
    let sl := (x.slot.map (·.val)).getD 0
    let runs := x.step.toList.map (fun st => (st, sl)) ++ (x.floats.filter (·.launched)).map fun st => (st, sl + 8)
    runs.flatMap fun p => p.1.cores.flatMap fun c =>
      ((stepImage x p.1).filter fun ic => ic.vx == c.vx && ic.vy == c.vy).flatMap fun ic =>
        ic.chans.zipIdx.filterMap fun d =>
          match d.1 with
          | .send (.core dev pctx tx ty ch) =>
            if aliasOf s (dev.getD (ownDev s)) = ownDev s ∧ (pctx.map (·.val)).getD e.1 = r ∧ tx = vx ∧ ty = vy then
              some (ch, tget (frameOf (core s c.core.val) p.2).sent d.2 0)
            else none
          | _ => none

/-- A remapped virtual core recovers its counts: every core of this device that sends to it delivers its `SENT` again;
what others have sent it is kept (R201). -/
def recoverCounts (s : State) (r k n vx vy : Nat) : State :=
  (sentTo s r vx vy).foldl (fun s p => modCore s n fun c => { c with recv := tset c.recv (8 * k + p.1) p.2 }) s

/-- `RETAKE` (R502): the virtual core of a context on a fenced core goes to the first candidate that is idle or runs a
take of lower priority, from its mirror, and its take runs again. -/
def execRetake (n : CoreId) (r : CtxId) (s : State) : Host.Outcome State Fault Refusal :=
  onClock s (coreClock n.val) fun s =>
  let x := ctx s r.val
  match x.slot, x.img, x.map.find? (fun p => p.1 == n) with
  | some sl, some img, some p =>
    match heldPart s n.val sl.val, tfind (core s n.val).mirrors sl.val with
    | some (_, ic), some mir =>
      match if (core s n.val).fenced && cget s r.val F.ctxRelstatLost 0 == 0 then mir.image else none with
      | none => .next s
      | some im =>
        let prio := cget s r.val F.ctxCtlPrio 0
        match (heirOrder n.val).find? (fun m => heir s sl.val ic m && idleFor s prio m) with
        | none => .next s
        | some m =>
          let runs := partRuns s r.val n.val
          let e := mirrorShelf m ic (core s n.val) sl.val im mir
          let s := turnBuddy (rehome s r.val sl.val n.val m img e) r.val m ic mir.buddy
          let s := modFrame s m sl.val fun f => { f with takecyc := 0, occ := 0, fresh := true }
          let s := recoverCounts s r.val sl.val m p.2.1 p.2.2
          let s := if runs then addTake (noteRetake s r.val p.2.1 p.2.2 im) m sl.val else replaceHome s m sl.val r.val
          .next (serveStalled s)
    | _, _ => .next s
  | _, _, _ => .next s

/-- The buddy that applies a core's commit: the one it has, or the next one where that has faulted (R504, R520). -/
def commitBuddy (s : State) (r n : Nat) (m : Mirror) : CoreId :=
  match m.buddy with
  | some b => if (core s b.val).fenced then Fin.ofNat 1344 (buddyNow s r n) else b
  | none => Fin.ofNat 1344 (buddyNow s r n)

/-- `MIRROR_COMMIT` (R499): all of a commit has arrived at the buddy. -/
def execMirrorCommit (n : CoreId) (r : CtxId) (s : State) : Host.Outcome State Fault Refusal :=
  onClock s (coreClock n.val) fun s =>
  match (ctx s r.val).slot with
  | none => .next s
  | some sl =>
    match tfind (core s n.val).mirrors sl.val with
    | none => .next s
    | some m =>
      match m.coming with
      | none => .next s
      | some i =>
        let buddy := commitBuddy s r.val n.val m
        .next (modCore s n.val fun c => { c with mirrors := tset c.mirrors sl.val ⟨some buddy, some i, none⟩ })

/-! ### Tests (R520 to R522) -/

/-- Whether a core keeps the mirror that another one has for a slot. -/
def keepsFor (n k : Nat) (e : Nat × Core) : Bool := ((tfind e.2.mirrors k).bind (·.buddy)).map (·.val) == some n

/-- Granules of the mirrors that a core keeps for the cores of a slot's context. -/
def keptSize (s : State) (n k : Nat) : Nat :=
  ((s.cores.filter (keepsFor n k)).map fun e => ((heldPart s e.1 k).map fun p => mirrorSize p.2).getD 0).sum

/-- The mirrors that a core keeps for the cores of a slot's context moved to another core, which claims granules for them
(R520). -/
def moveMirrors (s : State) (r k n m size : Nat) : State :=
  let here (x : Mirror) : Mirror := { x with buddy := some (Fin.ofNat 1344 m) }
  let turn (e : Nat × Core) : Nat × Core :=
    if keepsFor n k e then
      (e.1, { e.2 with mirrors := (tfind e.2.mirrors k).elim e.2.mirrors fun x => tset e.2.mirrors k (here x) })
    else e
  let s := { s with cores := s.cores.map turn }
  claimMirrors s r m size

/-- The code, frames, granules and counts of a virtual core moved to another core as they stand, with the mirrors that the old
core kept (R520). -/
def moveHome (s : State) (n k : Nat) : Option State :=
  match heldPart s n k with
  | none => some s
  | some (r, ic) =>
    let size := keptSize s n k
    match (ctx s r).img, (ctx s r).map.find? (fun p => p.1.val == n),
        (heirOrder n).find? (heir s k { ic with granules := ic.granules + size }) with
    | some img, some p, some m =>
      let runs := partRuns s r n
      let rest := (core s n).takes.any (fun e => e.key == k && e.rest)
      let e := { shelfOf s k p with rest := rest }
      let s := moveMirrors (rehome s r k n m img e) r k n m size
      let s := replaceHome s m k r
      some (if runs ∧ !rest then addTake s m k else s)
    | _, _, _ => none

/-- The virtual cores of a core all moved, or none. -/
def moveAll (s : State) (n : Nat) : Option State :=
  ((core s n).vmap.map (·.1)).foldl (fun a k => a.bind fun s => moveHome s n k) (some s)

/-- Whether no take of a core is between its cuts. -/
def coreAtCut (s : State) (n : Nat) : Bool := (core s n).running.isNone || atRest s n

/-- A core that an online test waits for is taken into test once its takes stand at a cut and no floating step uses it; its
channels are asked to pause (R273). -/
def drainTest (s : State) : State :=
  match s.test.online with
  | some (0, n, _) =>
    if (core s n).use = 3 ∨ !coreAtCut s n ∨ runsFloat (core s n) then s
    else
      let s := modCore s n fun c =>
        { c with running := none, hold := 0,
                 takes := match c.running with | some k => c.takes ++ [⟨k, true, 0⟩] | none => c.takes }
      match moveAll s n with
      | some t => intPauseAll (modCore t n fun c => { c with use := 3, takes := [] })
      | none => s
  | _ => s

/-- A test that ends with a result of Table 15.14. -/
def testEnd (s : State) (result : Nat) : State :=
  let s := { s with test := { s.test with online := none } }
  fset (fset (fset s F.relOtestGo 0 0 0) F.relOtestResult 0 0 result) F.relOtestDone 0 0 1

/-- Whether another PAIR port to the same partner is in UP. -/
def otherPair (s : State) (p : Nat) : Bool :=
  (List.range 48).any fun q => q != p && pairUp s q && fget s F.lnkPartnerDev q 0 == fget s F.lnkPartnerDev p 0

/-- A port taken into test: off its routes, its partner asked to do the same. -/
def portToTest (s : State) (p : Nat) : State :=
  let s := if portState s p = 6 then portMsg s p msgTest [] else s
  let s := modPort s p fun q => { q with testing := true }
  if portState s p = 0 then s else toDetect s p

/-- The lanes of a port without one of them. -/
def lanesWithout (s : State) (p lane : Nat) : Nat := maskOut (fget s F.lnkStatLanes p 0) (2 ^ lane)

/-- A lane taken into test: a port that uses it leaves it out by RELANE (R343, R520). -/
def laneToTest (s : State) (p lane : Nat) : State :=
  let left := lanesWithout s p lane
  if (portState s p = 6 ∨ portState s p = 7) ∧ left ≠ fget s F.lnkStatLanes p 0 then
    unhear (portMsg (fset (fset s F.lnkStatLanes p 0 left) F.lnkStatState p 0 7) p msgLanes [left]) p
  else s

/-- Whether a lane may be tested: its port can do without it (log entry 129). -/
def laneSpare (s : State) (p lane : Nat) : Bool :=
  (portState s p != 6 && portState s p != 7) || decide (fget s F.lnkCtlMinlanes p 0 ≤ laneCount (lanesWithout s p lane))

/-- A test of a core, a port or a lane started (R520). -/
def testStart (s : State) (kind i lane : Nat) : State :=
  let began (s : State) : State :=
    fset { s with test := { s.test with online := some (kind, i, lane) } } F.relOtestGo 0 0 1
  if kind = 0 then
    if 1344 ≤ i ∨ 2 ≤ (core s i).use.toNat ∨ (core s i).fenced then testEnd s 4
    else if (moveAll s i).isNone then testEnd (testRecord s (1, i) 2 none) 2
    else drainTest (began s)
  else if kind = 3 ∨ 48 ≤ i ∨ portState s i = 8 ∨ portRetired s i then testEnd s 4
  else if kind = 1 then (if pairUp s i ∧ !otherPair s i then testEnd s 4 else portToTest (began s) i)
  else if laneSpare s i lane then laneToTest (began s) i lane
  else testEnd s 4

/-- The queued tests, where the DZ6 runs them by itself, up to the first that begins (R521). -/
def autoTest (s : State) : State :=
  s.test.queue.foldl
    (fun s n =>
      if fbit s F.relCfgAutotest 0 0 && s.test.online.isNone then
        testStart { s with test := { s.test with queue := s.test.queue.drop 1 } } 0 n 0
      else s) s

/-- `ONLINE_TEST` (R520): a write of `REL_OTEST`. -/
def execOnlineTest (w : RegWrite) (s : State) : Host.Outcome State Fault Refusal :=
  onBar false s fun s =>
  let s := clearBits s w [F.relOtestDone] 0 0
  if s.test.online.isSome then .next (if wbit w F.relOtestGo then fset s F.relOtestResult 0 0 3 else s)
  else
    let s := writeFields s w [F.relOtestKind, F.relOtestIndex, F.relOtestLane] 0 0
    if wbit w F.relOtestGo then
      .next (testStart s (fget s F.relOtestKind 0 0) (fget s F.relOtestIndex 0 0) (fget s F.relOtestLane 0 0))
    else .next s

/-- The repair records of what a test found. -/
def recordFails (s : State) (source : Nat) (fs : List TestFail) : State :=
  fs.foldl (fun s f => addRepair s f.kind.toNat source f.unit.toNat f.sub.toNat f.at_.toNat) s

/-- The failing row and bit of a failure, where it names one. -/
def failPlace (f : TestFail) : Option (Nat × Nat) :=
  if f.kind = 1 then some (f.at_.toNat, 0) else if f.kind = 2 then some (0, f.at_.toNat) else none

/-- The lanes of a port that a test failed. -/
def failedLanes (p : Nat) (fs : List TestFail) : Nat :=
  ((List.range 8).filter fun l =>
    fs.any (fun f => f.kind == 6 && f.unit.toNat == p && f.sub.toNat == l)).foldl (fun a l => a + 2 ^ l) 0

/-- A core's test over (R521). -/
def coreTestDone (s : State) (n : Nat) (fs : List TestFail) : State :=
  let s := testRecord s (1, n) (if fs.isEmpty then 0 else 1) (fs.head?.bind failPlace)
  let s := recordFails s 1 fs
  let s := if fs.isEmpty ∨ fs.any (fun f => f.kind == 3) then s else addRepair s 0x03 1 n 0 0
  testEnd (intPauseAll (modCore s n fun c => { c with use := if fs.isEmpty then 1 else 2 })) (if fs.isEmpty then 0 else 1)

/-- A port's or lane's test over (R521): a lane that fails stays out of use; what passes returns through DETECT. -/
def portTestDone (s : State) (kind p lane : Nat) (fs : List TestFail) : State :=
  let s := testRecord s (if kind = 1 then (4, p) else (5, 8 * p + lane)) (if fs.isEmpty then 0 else 1) none
  let s := recordFails s 1 fs
  let lost := if kind = 2 ∧ !fs.isEmpty then 2 ^ lane else 0
  let s := modPort s p fun q =>
    { q with testing := false, bad := q.bad ||| BitVec.ofNat 8 (failedLanes p fs) ||| BitVec.ofNat 8 lost }
  let s :=
    if portState s p = 0 ∨ portState s p = 8 then s
    else if laneCount (usableLanes s p 255) < fget s F.lnkCtlMinlanes p 0 ∨ portRetired s p then portFail s p 0x29
    else if lost ≠ 0 then s
    else toDetect s p
  testEnd s (if fs.isEmpty then 0 else 1)

/-- `ONLINE_TEST_COMPLETE` (R521). -/
def execOnlineTestComplete (fails : List TestFail) (s : State) : Host.Outcome State Fault Refusal :=
  match s.test.online with
  | none => .next s
  | some (0, n, _) =>
    let s := drainTest s
    .next (if (core s n).use = 3 then autoTest (coreTestDone s n fails) else s)
  | some (kind, p, lane) => .next (autoTest (portTestDone s kind p lane fails))

/-- `PARTNER_TEST_REQUEST` (R520): this end of the port goes into test, until the link is trained again. -/
def execPartnerTestRequest (p : PortId) (s : State) : Host.Outcome State Fault Refusal :=
  onClock s (portClock p.val) fun s =>
  .next (if portState s p.val = 6 then toDetect s p.val else s)

/-- `WRAP_TEST` (R522): a write of `REL_WRAP`. -/
def execWrapTest (w : RegWrite) (s : State) : Host.Outcome State Fault Refusal :=
  onBar false s fun s =>
  let state := fget s F.relWrapState 0 0
  if !wbit w F.relWrapGo ∨ state = 1 ∨ state = 2 then .next s
  else if !noneEnabled s ∨ !s.bulk.isEmpty then .next (fset s F.relWrapState 0 0 3)
  else .next (fset (fset (fset s F.relWrapGo 0 0 1) F.relWrapState 0 0 1) F.relWrapFails 0 0 0)

/-- The block that a failure of the wrap test lies in: a core, a channel or a lane. -/
def failBlock (f : TestFail) : Nat × Nat :=
  if f.kind.toNat = 5 then (3, f.unit.toNat)
  else if f.kind.toNat = 6 then (5, f.unit.toNat * 8 + f.sub.toNat)
  else if f.kind.toNat = 7 then (4, f.unit.toNat)
  else (1, f.unit.toNat)

/-- Cores recorded as retired in service. -/
def serviceRetired (s : State) : List Nat :=
  (List.range 1344).filter fun n =>
    (((goodRecords s).filter (fun b => recUnit b == n && recSub b == 0 && [0x03, 0x04, 0x0F].contains (recKind b))).getLast?).any
      (fun b => recKind b == 0x04)

/-- Lanes retired in service, which no record of the repair store retires (R523), by port and lane. -/
def serviceLanes (s : State) : List (Nat × Nat) :=
  ((List.range 48).map fun p =>
    ((List.range 8).filter fun l => (port s p).bad.getLsbD l && !laneRetired s p l).map fun l => (p, l)).flatten

/-- `WRAP_TEST_COMPLETE` (R522): the records of what failed, and of what was retired in service and passes. -/
def execWrapTestComplete (fails : List TestFail) (s : State) : Host.Outcome State Fault Refusal :=
  if fget s F.relWrapState 0 0 ≠ 1 then .next s
  else
    let passed (b : Nat × Nat) : Bool := !fails.any (fun f => failBlock f == b)
    let back := (serviceRetired s).filter fun n => passed (1, n)
    let lanes := (serviceLanes s).filter fun q => passed (5, q.1 * 8 + q.2)
    let s := lanes.foldl (fun s q => addRepair s 0x0F 0 q.1 q.2 0) s
    let s := fails.foldl (fun s f => testRecord s (failBlock f) 1 (failPlace f)) s
    let s := recordFails s 0 fails
    let banks := ((fails.filter (fun f => f.kind == 1 || f.kind == 2)).map (·.unit.toNat)).eraseDups
    let s := (banks.filter (sparesOut s)).foldl (fun s n => addRepair s 0x03 0 n 0 0) s
    let s := back.foldl (fun s n => addRepair s 0x0F 0 n 0 0) s
    let s := fset s F.relWrapFails 0 0 (min 255 ((fails.map failBlock).eraseDups).length)
    .next (fset (fset s F.relWrapGo 0 0 0) F.relWrapState 0 0 2)

/-! ### Check takes (R506 to R509) -/

/-- An ended step that waits for its record meets another outcome; its slate is compared with the logged one again, where it
did not differ before. -/
def failEnded (s : State) (r : Nat) (id : BitVec 64) (o : Nat) : State :=
  let met (st : Step) : Step := fixStep s r (noteOutcome o st)
  let late := (ctx s r).ended.filter fun st => st.id == id && !slateDiffers s r st && slateDiffers s r (met st)
  late.foldl (fun s st => noteMismatch s r st)
    (modCtx s r fun x => { x with ended := x.ended.map fun st => if st.id = id then met st else st })

/-- A home-set step meets an outcome, running or ended. -/
def failStep (s : State) (r : Nat) (id : BitVec 64) (o : Nat) : State :=
  failEnded (modCtx s r fun x => { x with step := x.step.map fun st => if st.id = id then noteOutcome o st else st }) r id o

/-- The check slots of a context without the first that a test picks. -/
def dropCheck (s : State) (r : Nat) (ok : CheckRun → Bool) : State :=
  modCtx s r fun x => { x with checks := x.checks.eraseP ok }

/-- Whether a core is the one that runs a check take or an arbiter: the first that may be claimed in placement order, but for
those that have run the take (R427, R428). -/
def checkCore (s : State) (r n : Nat) (ran : List CoreId) (image : Option CoreImage) : Bool :=
  match image with
  | some ic =>
    (placementOrder.find? fun m =>
      !(ran.map (·.val)).contains m && claimable s (cget s r F.ctxCtlPrio 0) ic.granules m) == some n
  | none => false

/-- The image of a checked virtual core. -/
def checkImage (s : State) (r : Nat) (k : CheckRun) : Option CoreImage := (ctx s r).img.bind fun i => imgCore i k.vx k.vy

/-- Whether two runs of a take agree: their take digests, and their contributions point by point (R400, R508). -/
def sameRun (a b : TakeRun) : Bool :=
  let points (cs : List (Nat × Digest)) : Tbl Digest := cs.foldl (fun t c => tset t c.1 c.2) []
  a.digest == b.digest && points a.contribs == points b.contribs

/-- `CHECK_TAKE` (R400, R508): the oldest closed check slot that core `n` may check, with the original's take digest and the
check take's run. -/
def execCheckTake (n : CoreId) (r : CtxId) (orig : Digest) (check : TakeRun) (s : State) :
    Host.Outcome State Fault Refusal :=
  onClock s (coreClock n.val) fun s =>
  let ok (k : CheckRun) : Bool :=
    k.closed && k.differ.isNone && checkCore s r.val n.val [k.core] (checkImage s r.val k)
  match (ctx s r.val).checks.find? ok with
  | none => .next s
  | some slot =>
    let run : TakeRun := ⟨orig, slot.made⟩
    let s := ccount s r.val F.ctxRelstatChecks 0 1
    let s := { s with dailies := { s.dailies with checks := s.dailies.checks + 1 } }
    if sameRun run check then .next (dropCheck s r.val ok)
    else
      let s := ccount s r.val F.ctxRelstatChkmiss 0 1
      let s := { s with dailies := { s.dailies with misses := s.dailies.misses + 1 } }
      .next (modCtx s r.val fun x =>
        { x with checks := x.checks.map fun k => if k = slot then { k with differ := some (n, run, check), since := s.tcount } else k })

/-- A suspect core: its record, and its place in the queue of tests (R509). -/
def suspect (r : Nat) (id : BitVec 64) (s : State) (n : CoreId) : State :=
  let s := faultRecord s (1, n.val) 0x07 5 [(r, id.toNat)]
  if s.test.queue.contains n.val then s else { s with test := { s.test with queue := s.test.queue ++ [n.val] } }

/-- `ARBITER` (R509, Table 15.5): the oldest mismatch that core `n`, a third one, may settle. -/
def execArbiter (n : CoreId) (r : CtxId) (arb : TakeRun) (s : State) : Host.Outcome State Fault Refusal :=
  onClock s (coreClock n.val) fun s =>
  let ok (k : CheckRun) : Bool :=
    k.differ.any fun d => checkCore s r.val n.val [k.core, d.1] (checkImage s r.val k)
  match (ctx s r.val).checks.find? ok with
  | none => .next s
  | some k =>
    match k.differ with
    | none => .next s
    | some (m, orig, check) =>
      let s := dropCheck s r.val ok
      if sameRun arb orig then .next (autoTest (suspect r.val k.step s m))
      else
        let s := failStep s r.val k.step stDigest
        let bad := if sameRun arb check then [k.core] else [k.core, m]
        .next (autoTest (bad.foldl (suspect r.val k.step) s))

/-! ### Health records (R525, Table 15.11) -/

/-- A signed byte. -/
def signed8 (v : Nat) : Int := if v < 128 then v else (v : Int) - 256

/-- `HEALTH_RECORD` (R525): the counts since the previous record; the temperatures of E0, C0 to C3 and E1. -/
def execHealthRecord (s : State) : Host.Outcome State Fault Refusal :=
  if fget s F.relDlcfgPeriod 0 0 = 0 ∨ !fbit s F.relDlcfgEn 0 0 then .next s
  else
    let d := s.dailies
    let temps := (List.range 6).map fun i => cborInt (signed8 (bitsOf (fget s F.mgTempTemp 0 0) (8 * i) 8))
    let spares := (List.range 4).map fun t =>
      ((List.range 1344).filter (fun n => tileOf n == t && (core s n).use == 1)).length
    let s := daily s 2 [(16, cborArr temps), (17, cborUints ((List.range 16).map (tget d.ddrce · 0))),
      (18, cborUints ((List.range 48).map (tget d.fec · 0))), (19, cborUints spares), (20, cborUint d.retakes),
      (21, cborUints [d.checks, d.misses]), (22, cborUints [d.losses, d.slates])]
    .next { s with dailies := ⟨s.dailies.seq, [], [], 0, 0, 0, 0, 0⟩ }

end Sys2Proof.Machine
end

