-- ==== Sys2Proof/Machine/Views.lean ====
section
/-! DEFINITION. What a register read returns (R600, R601): the fields as they are kept, and those that show state kept
elsewhere: cores and their channels, contexts, the directory, the timecode, the fuses and the security processor. -/

namespace Sys2Proof.Machine

/-- A flag as a field shows it. -/
def bitNat (b : Bool) : Nat := if b then 1 else 0

/-! ### Cores (Tables 6.7 to 6.9, 8.7) -/

/-- A field of `CORE_STATE`, the counters and `CORE_VMAP`. -/
def coreViews : List (Fld × (State → Nat → Nat → Nat)) :=
  [(F.coreStateUse, fun s n _ => (core s n).use.toNat),
   (F.coreStateRunctx, fun s n _ => ((core s n).running.getD 0) % 8),
   (F.coreStateRunning, fun s n _ => bitNat (core s n).running.isSome),
   (F.coreStateHold, fun s n _ => bitNat ((core s n).hold != 0)),
   (F.coreStateIssuewait, fun s n _ => bitNat (core s n).wait),
   (F.coreStateHoldcause, fun s n _ => (core s n).hold.toNat),
   (F.coreStatePc, fun s n _ => (((core s n).running.map fun k => (frameOf (core s n) k).pc).getD 0) % 4096),
   (F.coreHoldcycCount, fun s n _ => (core s n).holdCyc),
   (F.coreWaitcycCount, fun s n _ => (core s n).waitCyc),
   (F.coreTakecycCount, fun s n _ => ((core s n).running.map fun k => (frameOf (core s n) k).takecyc).getD 0),
   (F.coreVmapVx, fun s n k => ((tfind (core s n).vmap k).map (·.1)).getD 0),
   (F.coreVmapVy, fun s n k => ((tfind (core s n).vmap k).map (·.2)).getD 0),
   (F.coreVmapValid, fun s n k => bitNat ((tfind (core s n).vmap k).isSome && !(core s n).blank.contains k))]

/-- The state code of a core channel. -/
def chanState (h : CoreChan) : Nat :=
  match h.xfer with
  | none => 0
  | some _ => if h.paused then 3 else if h.pause || h.intPause then 2 else 1

/-- A field of the core mover registers; addresses run on from where the transfer stands. -/
def chanViews : List (Fld × (State → Nat → Nat → Nat)) :=
  let h (s : State) (n c : Nat) : CoreChan := chanOf (core s n) c
  [(F.cmvCtlPause, fun s n c => bitNat (h s n c).pause),
   (F.cmvStatState, fun s n c => chanState (h s n c)),
   (F.cmvStatClass, fun s n c =>
      match (core s n).running with
      | some k => declClass s n k c
      | none => (h s n c).cls.toNat),
   (F.cmvStatFault, fun s n c => bitNat (h s n c).fault),
   (F.cmvStatReason, fun s n c => (h s n c).reason.toNat),
   (F.cmvSrcAddr, fun s n c =>
      match (h s n c).xfer with
      | some x => srcAt x % 2 ^ 64
      | none => (h s n c).src.toNat),
   (F.cmvDstAddr, fun s n c =>
      match (h s n c).xfer with
      | some x => dstAt x % 2 ^ 64
      | none => (h s n c).dst.toNat),
   (F.cmvRemBytes, fun s n c =>
      match (h s n c).xfer with
      | some x => xfLen x.desc - landedBytes x
      | none => (h s n c).rem.toNat)]

/-! ### Contexts and the directory (Tables 9.7, 12.6, 12.7) -/

/-- A value of the context of a slot, 0 where the slot has none. -/
def ofSlot (f : State → Nat → Nat) (s : State) (sl _j : Nat) : Nat := ((slotCtx s sl).map (f s)).getD 0

/-- `CTX_STAT.STATE` of a slot. -/
def slotState (s : State) (sl _j : Nat) : Nat :=
  if slotChecking s sl then 1
  else
    match (slotCtx s sl).map fun r => (ctx s r).st with
    | some .resident => 2
    | some .shelving => 3
    | some .returning => 4
    | some .disabling => 5
    | _ => 0

/-- Fields of a context block that show the context's own state. -/
def ctxViews : List (Fld × (State → Nat → Nat → Nat)) :=
  [(F.ctxPgusedMapped, ofSlot fun s r => (ctx s r).vs.pages.length),
   (F.ctxPgusedLocal, ofSlot fun s r => ((ctx s r).vs.pages.filter fun p => p.2.loc == .local_).length),
   (F.ctxStatState, slotState),
   (F.ctxStatBlocked, ofSlot fun s r => bitNat (blocked s r)),
   (F.ctxStatStep, ofSlot fun s r => bitNat (ctx s r).step.isSome),
   (F.ctxCsStatQueued, ofSlot fun s r => queued (ctx s r))]

/-- The slot in which the enable of a number is being checked. -/
def checkSlot (s : State) (r : Nat) : Option Nat :=
  (List.range 8).find? fun sl => slotChecking s sl && fget s F.ctxCtlRegnum sl 0 == r

/-- The slot that a number holds, a CHECKING one among them, where it is not registered yet (R445). -/
def dirSlot (s : State) (r : Nat) : Option Nat :=
  if registered (ctx s r) then (ctx s r).slot.map (·.val) else checkSlot s r

/-- The priority of a number, of its block in the slot or as it was saved (R445). -/
def dirPrio (s : State) (r : Nat) : Nat :=
  if registered (ctx s r) then cget s r F.ctxCtlPrio 0
  else ((checkSlot s r).map fun sl => fget s F.ctxCtlPrio sl 0).getD 0

/-- The directory's code of a registered number's state. -/
def dirState (s : State) (r : Nat) : Nat :=
  if !registered (ctx s r) && (checkSlot s r).isSome then 5
  else
    match (ctx s r).st with
    | .unreg => 0
    | .resident => 1
    | .shelved => 2
    | .shelving => 3
    | .returning => 4
    | .disabling => 6

/-- A field of the directory: a value of the selected context. -/
def ofDir (f : State → Nat → Nat) (s : State) (_i _j : Nat) : Nat := f s (dirSel s)

/-- The selected context's fields. -/
def dirViews : List (Fld × (State → Nat → Nat → Nat)) :=
  [(F.schedDirState, ofDir dirState),
   (F.schedDirSlot, ofDir fun s r => (dirSlot s r).getD 0),
   (F.schedDirPrio, ofDir dirPrio),
   (F.schedDirBlocked, ofDir fun s r => bitNat (registered (ctx s r) && blocked s r)),
   (F.schedDirRunnable, ofDir fun s r => bitNat ((ctx s r).st == .shelved && runnable s r)),
   (F.schedDirShelflost, ofDir fun s r => bitNat (ctx s r).res.shelfLost),
   (F.schedDirKeywait, ofDir fun s r => bitNat (keyWait s r)),
   (F.schedDirBlockus, ofDir fun s r =>
      min (2 ^ 32 - 1) (((ctx s r).res.blockedAt.map fun t => (s.tcount - t) / 1000).getD 0)),
   (F.schedDirwaitValue, ofDir fun s r => if registered (ctx s r) then cget s r F.ctxAcctWaitNs 0 else 0),
   (F.schedDirpreValue, ofDir fun s r => if registered (ctx s r) then cget s r F.ctxAcctPreemptCount 0 else 0),
   (F.schedDirenergyValue, ofDir fun s r => if registered (ctx s r) then cget s r F.ctxAcctEnergyUj 0 else 0)]

/-! ### Device, security and management (R546 to R570, R592, R613) -/

/-- The `SVN` of the running image. -/
def runSvn (s : State) : Nat := (s.sec.running.map fun h => leNat ((h.drop 4).take 4)).getD 0

/-- `SEC_KEYMAP.SLOTS`. -/
def keySlots (s : State) (_i _j : Nat) : Nat :=
  let r := fget s F.secKeyselRegnum 0 0
  ((List.range 16).filter fun k => (tfind s.keys.page (16 * r + k)).isSome).foldl (fun a k => a + 2 ^ k) 0

/-- Fields of one value for the whole device. -/
def one (f : State → Nat) (s : State) (_i _j : Nat) : Nat := f s

/-- A value that reads 0 in OFF. -/
def unlessOff (f : State → Nat) (s : State) (_i _j : Nat) : Nat := if fget s F.pwrStatState 0 0 = 3 then 0 else f s

/-- Device-wide fields. -/
def deviceViews : List (Fld × (State → Nat → Nat → Nat)) :=
  [(F.tcNowCount, one (·.tcount)),
   (F.fabRtdataPorts, one fun s => (tget s.fab.routes (fget s F.fabRtidxEntry 0 0) 0).toNat % 2 ^ 48),
   (F.fabRtdataValid, one fun s => bitNat ((tget s.fab.routes (fget s F.fabRtidxEntry 0 0) 0).getLsbD 63)),
   (F.glbIdPart, one (·.chip.part.toNat)),
   (F.glbIdStep, one (·.chip.step.toNat)),
   (F.glbIdUsable, one fun s => if s.chip.part = 1 then 1280 else 1024),
   (F.glbIdMaxw, one fun s => if s.chip.part = 1 then 40 else 32),
   (F.glbIdMaxh, one fun _ => 32),
   (F.glbIdProfiles, one fun s => if s.chip.step = 0xA0 then 1 else 3),
   (F.glbStatReady, one fun s => fget s F.hostStatReady 0 0),
   (F.glbStatDevfault, one fun s => fget s F.relStatDevfault 0 0),
   (F.glbStatBoot, one fun s => s.nv.starts % 2 ^ 32),
   (F.relStatBoot, one fun s => s.nv.starts % 2 ^ 32),
   (F.pwrStatFloors, one fun s => floorSum s % 2 ^ 16)]

/-- Fields of the security block and of the management map that show state kept elsewhere. -/
def secViews : List (Fld × (State → Nat → Nat → Nat)) :=
  [(F.secStatLife, one fun s => (lifeNow s).toNat),
   (F.secStatDebug, one fun s => s.sec.dbg.toNat),
   (F.secStatD2cnt, one fun s => s.nv.d2cnt % 2 ^ 16),
   (F.secStatSvn, one runSvn),
   (F.secArbArbRs, one fun s => arbStored s),
   (F.secArbArbF, one fun s => s.nv.arbF),
   (F.secKeymapSlots, keySlots),
   (F.secKeymapTransport, one fun s => s.keys.transport.length),
   (F.secDevidData, fun _ _ w => bitsOf devId.toNat (64 * w) 64),
   (F.mgIdPart, one (·.chip.part.toNat)),
   (F.mgIdStep, one (·.chip.step.toNat)),
   (F.mgStatePower, one fun s => fget s F.pwrStatState 0 0),
   (F.mgStateBoot, one fun s => fget s F.secStatBoot 0 0),
   (F.mgStateReady, one fun s => fget s F.hostStatReady 0 0),
   (F.mgStateLife, one fun s => (lifeNow s).toNat),
   (F.mgPowerMeas, unlessOff fun s =>
      fget s F.pwrMeasVin 0 0 + 2 ^ 16 * fget s F.pwrMeasIin 0 0 + 2 ^ 32 * fget s F.pwrMeasWatts 0 0),
   (F.mgTempTemp, unlessOff fun s => fget s F.mgTempTemp 0 0),
   (F.mgCapWatts, one fun s => fget s F.pwrCapWatts 0 0)]

/-- Every field that is not simply what its register keeps. -/
def views : List (Fld × (State → Nat → Nat → Nat)) :=
  coreViews ++ chanViews ++ ctxViews ++ dirViews ++ deviceViews ++ secViews

/-- The value a read of a field returns; write-only fields read 0. -/
def view (s : State) (f : Fld) (i j : Nat) : Nat :=
  match views.find? (fun v => v.1 == f) with
  | some v => v.2 s i j
  | none => if f.acc = .wo then 0 else fget s f i j

/-- The 64 bits of a register (R601, R605). -/
def regWord (s : State) (r : RegD) (i j : Nat) : Nat :=
  (r.fields.map fun f => view s f i j % 2 ^ f.w * 2 ^ f.lo).sum

/-- An RC field cleared by a read (R17). -/
def clearRc (i j : Nat) (s : State) (f : Fld) : State :=
  if f = F.coreHoldcycCount then modCore s i fun c => { c with holdCyc := 0 }
  else if f = F.coreWaitcycCount then modCore s i fun c => { c with waitCyc := 0 }
  else fset s f i j 0

/-- What a read of part of a register clears: the RC fields that lie wholly within it (R601). -/
def readClears (s : State) (r : RegD) (i j : Nat) (h : Half) : State :=
  (r.fields.filter fun f => f.acc == .rc && covered h f).foldl (clearRc i j) s

end Sys2Proof.Machine
end

