-- ==== Sys2Proof/Machine/Security.lean ====
section
/-! DEFINITION. The security processor (R550 to R570): boot checks, quotes, the mailbox, keys, lifecycle, debug levels
and JTAG. -/

namespace Sys2Proof.Machine

/-- The firmware measurement (R553). The spec gives none where no image has run. -/
def measurement (s : State) : BitVec 256 :=
  match s.sec.running with
  | some h => digestNat (sha3 h)
  | none => BitVec.ofNat 256 (Config.free s.freeCtr)

/-! ### Boot (R550 to R552, R578) -/

/-- The minimum `SVN` (R552). -/
def minSvn (s : State) : Nat := max (arbStored s) (s.nv.arbF * 2 ^ 26)

/-- Check 1 of R551: the magic number, the length and the reserved bytes. -/
def imageForm (img : FwImage) : Bool :=
  let h := img.header
  let len := xf h 8 4
  h.length == 64 && img.tail.length == 3392 && xf h 0 4 == 0x57465A44 && len % 64 == 0 && decide (len ≤ 2 ^ 24) &&
  decide (xf h 12 1 ≤ 1) && decide (xf h 13 1 ≤ 1) && zeroBytes h 14 16 && zeroBytes h 48 64 &&
  zeroBytes img.tail 3373 3392

/-- The code of the first check of R551 that an image fails. -/
def bootCode (s : State) (img : FwImage) : Option Nat :=
  let h := img.header
  if !imageForm img then some 1
  else if s.nv.revoked.getLsbD (xf h 12 1) then some 6
  else if !img.edOk then some 2
  else if !img.mlOk then some 3
  else if xf h 4 4 < minSvn s then some 4
  else if xf h 8 4 ≠ img.payload.length ∨ sha3 img.payload ≠ (h.drop 16).take 32 then some 5
  else none

/-- The fetch is over: the SMC wants no image and the host's request stands no more. -/
def fetchOver (s : State) : State := fset (fset s F.hostFwctlGo 0 0 0) F.hostStatFwwant 0 0 0

/-- A boot that failed (R551). -/
def bootReject (s : State) (code : Nat) : State :=
  raiseAlert (fset (fset (fetchOver s) F.secStatBoot 0 0 3) F.secStatBooterr 0 0 code) F.mgAlertBootrej

/-- An image accepted: it runs (R552, R579). -/
def bootAccept (s : State) (img : FwImage) : State :=
  let h := img.header
  let nv := if (xf h 13 1) % 2 = 1 then { s.nv with arbRs := max (arbStored s) (xf h 4 4), arbRsOk := true } else s.nv
  let s := { s with nv := nv, sec := { s.sec with running := some h } }
  settleReady (fset (fset (fetchOver s) F.secStatBoot 0 0 2) F.secStatBooterr 0 0 0)

/-- `FIRMWARE_FETCH` (R578). -/
def execFirmwareFetch (w : RegWrite) (s : State) : Host.Outcome State Fault Refusal :=
  onBar false s fun s =>
  let s := writeFields s w [F.hostFwctlBytes] 0 0
  .next (if wbit w F.hostFwctlGo && fbit s F.hostStatFwwant 0 0 then fset s F.hostFwctlGo 0 0 1 else s)

/-- `BOOT_CHECK` (R551). -/
def execBootCheck (img : FwImage) (s : State) : Host.Outcome State Fault Refusal :=
  if !fbit s F.hostFwctlGo 0 0 ∨ !fbit s F.hostStatFwwant 0 0 then .next s
  else
    match bootCode s img with
    | some c => .next (bootReject s c)
    | none => .next (bootAccept s img)

/-- `FIRMWARE_FETCH_TIMEOUT` (R551, R571): 1 s after `FWWANT`, or on a link on which the fetch does not start. -/
def execFirmwareFetchTimeout (s : State) : Host.Outcome State Fault Refusal :=
  if fget s F.secStatBoot 0 0 ≠ 0 ∨ (!fbit s F.hostStatFwwant 0 0 ∧ !fbit s F.hostStatUnsuplink 0 0) then .next s
  else .next (bootReject s 7)

/-! ### Emptying keys (R328, R436) -/

/-- What the loss of a page key costs its context: its pages' data (R328) and a protected shelf (R436). -/
def keyLoss (r slot : Nat) (s : State) : State :=
  match tfind s.ctxs r with
  | none => s
  | some _ =>
    modCtx s r fun x =>
      let lose := slot == 0 && x.st == .shelved && (x.img.map (fun i => !i.keySlots.isEmpty)).getD false
      { x with
        vs := { x.vs with pages := x.vs.pages.map fun e =>
                  (e.1, if e.2.prot && e.2.keyslot.toNat == slot then { e.2 with lost := true } else e.2) }
        res := { x.res with shelfLost := x.res.shelfLost || lose } }

/-- The page key slots of a choice emptied. -/
def dropPageKeys (s : State) (sel : Nat → Bool) : State :=
  let gone := (s.keys.page.map (·.1)).filter sel
  let s := { s with keys := { s.keys with page := s.keys.page.filter (fun e => !sel e.1) } }
  gone.foldl (fun s k => keyLoss (k / 16) (k % 16) s) s

/-- The key store emptied. -/
def emptyStore (s : State) : State :=
  let s := dropPageKeys s (fun _ => true)
  { s with keys := { s.keys with transport := [] } }

/-- The key store and the ephemeral pair emptied (R566, R568). -/
def emptyKeys (s : State) : State :=
  let s := emptyStore s
  { s with keys := { s.keys with ephemeral := none } }

/-! ### Quotes (R555) -/

/-- The digest of the configuration that a quote carries (Table 17.2). -/
def configDigest (s : State) : Bytes :=
  sha3 (([R.glbId, R.glbDet, R.memCfg, R.fabCfg, R.tcCfg, R.secCfg, R.pwrCap, R.pairCfg].map
    fun r => leBytes 8 (regWord s r 0 0)).flatten)

/-- The body of a quote (Table 17.2). -/
def quoteBody (s : State) (nonce report : Bytes) : Bytes :=
  leBytes 4 0x51545A44 ++ [1] ++ leBytes 1 (lifeNow s).toNat ++ leBytes 1 s.sec.dbg.toNat ++
  leBytes 1 (fget s F.secStatDbgmax 0 0) ++ leBytes 1 (powerState s) ++ [0] ++
  leBytes 2 (if fbit s F.fabCfgLock 0 0 then ownDev s else 0xFFFF) ++ leBytes 4 s.nv.starts ++ leBytes 4 (runSvn s) ++
  leBytes 4 (arbStored s) ++ leBytes 1 s.nv.arbF ++ leBytes 1 (fget s F.glbDetEnf 0 0) ++ leBytes 2 s.nv.d2cnt ++
  leBytes 4 0 ++ leBytes 32 devId.toNat ++ leBytes 32 (measurement s).toNat ++ configDigest s ++
  fixLen 32 nonce ++ fixLen 32 report

/-- A whole quote: the body and its two signatures. -/
def quoteOf (s : State) (nonce report : Bytes) : Bytes :=
  let body := quoteBody s nonce report
  body ++ idSign body

/-- `IDENT` (R339, R556): this end's quote over the partner's random value goes out; the partner is taken over into
`LNK_PARTNER` and KEYX begins, or the port fails. No answer is a rejected quote. The messages count in the order sent: the
initiator's text, the responder's, then the quotes (R341). -/
def execIdent (p : PortId) (info : Option IdentInfo) (s : State) : Host.Outcome State Fault Refusal :=
  onClock s (portClock p.val) fun s =>
  if portState s p.val ≠ 3 then .next s
  else
    match info with
    | none => .next (portFail s p.val 0x25)
    | some i =>
      let quote := quoteOf s i.nonce []
      let s := portBytes (drawFree s).2 p.val msgIdent quote
      match identCode s p.val i with
      | some code => .next (portFail s p.val code)
      | none =>
        let s := fset (fset (fset s F.lnkPartnerDev p.val 0 i.dev.toNat) F.lnkPartnerPort p.val 0 i.port.toNat)
          F.lnkPartnerValid p.val 0 1
        let first := linkFirst s p.val
        let s := modPort s p.val fun q =>
          { q with script := inOrder first (identText s p.val) i.text ++ inOrder first quote i.quote }
        .next (beginKeyx (fset s F.lnkStatState p.val 0 4) p.val)

/-! ### RETAIN (R533) -/

/-- A flag of `PWR_STAT` that an event sets (R613). -/
def powerFlag (s : State) (f : Fld) : State := if fbit s f 0 0 then s else glbIrq (fset s f 0 0 1) F.glbIrqstatPower

/-- Whether an activity that keeps the device out of IDLE runs. -/
def deviceBusy (s : State) : Bool :=
  !s.bulk.isEmpty ||
  s.ctxs.any fun e =>
    e.2.step.isSome || e.2.floats.any (·.launched) || cget s e.1 F.ctxReelstatState 0 == 1 || (e.2.snap.map (·.started)).getD false

/-- RETAIN entered: DDR in self-refresh, and the ports without their links. -/
def enterRetain (s : State) : State :=
  let s := (List.range 16).foldl (fun s ch => if fget s F.ddrStatState ch 0 = 2 then fset s F.ddrStatState ch 0 4 else s) s
  let s := (List.range 48).foldl (fun s p => if 2 ≤ portState s p ∧ portState s p ≤ 7 then toDetect s p else s) s
  fset s F.pwrStatState 0 0 2

/-- Whether a mailbox command waits or runs. -/
def mbBusy (s : State) : Bool := fbit s F.secMbctlGo 0 0 || fbit s F.mgMbctlGo 0 0

/-- RETAIN entered, or refused to a device with work to do (R533). -/
def retain (s : State) : State :=
  let s := fset s F.pwrCtlReq 0 0 0
  if deviceBusy s ∨ s.ctxs.any (fun e => queued e.2 != 0) then powerFlag s F.pwrStatReqref else enterRetain s

/-! ### The mailbox (R557) -/

/-- Whether a request waits at a mailbox, came before one at the other, and the SMC can reach it. In OFF only the I3C one is
open (Table 17.8). -/
def mbReady (s : State) (src : MbSrc) : Bool :=
  match src with
  | .pcie => fbit s F.secMbctlGo 0 0 && hostUp s && powerState s != 3 && (!fbit s F.mgMbctlGo 0 0 || s.sec.first != some .i3c)
  | .i3c => fbit s F.mgMbctlGo 0 0 && s.pins.vaux && (!fbit s F.secMbctlGo 0 0 || s.sec.first != some .pcie)

/-- The result and the response of a command. -/
def mbAnswer (s : State) (src : MbSrc) (result : Nat) (resp : Bytes) : State :=
  match src with
  | .pcie =>
    let s := if resp.isEmpty then s else hostWrite s (fget s F.secMbrespAddr 0 0) resp
    let s := fset (fset (fset s F.secMbstatDone 0 0 1) F.secMbstatResult 0 0 result) F.secMbstatResplen 0 0 resp.length
    let s := fset s F.secMbctlGo 0 0 0
    signal s (fbit s F.secMbctlIrqen 0 0) (fget s F.secMbctlIrq 0 0)
  | .i3c =>
    let long := decide (8192 < resp.length)
    let resp := if long then [] else resp
    let s := { s with i3c := { s.i3c with mbdata := mwrite s.i3c.mbdata 0 resp } }
    let s := fset (fset s F.mgMbctlDone 0 0 1) F.mgMbctlResult 0 0 (if long then 1 else result)
    fset (fset s F.mgMbctlResplen 0 0 resp.length) F.mgMbctlGo 0 0 0

/-- A command ends with a result and a response; RETAIN that was asked for during it is entered (R569). -/
def mbDone (s : State) (src : MbSrc) (result : Nat) (resp : Bytes) : State :=
  let s := mbAnswer s src result resp
  if fget s F.pwrCtlReq 0 0 = 1 ∧ !mbBusy s then retain s else s

/-- A command runs where its request waits; with a result and no response where it is refused. -/
def mbRun (src : MbSrc) (s : State) (f : State → Except Nat (State × Bytes)) : Host.Outcome State Fault Refusal :=
  if !mbReady s src then .next s
  else
    match f s with
    | .error e => .next (mbDone s src e [])
    | .ok (s, resp) => .next (mbDone s src 0 resp)

/-- Whether OFF closes a command (Table 17.8). -/
def mbOff (s : State) : Bool := powerState s == 3

/-- Whether keys may be opened and loaded (Table 17.3). -/
def keysShut (s : State) : Bool := mbOff s || s.sec.dbg == 2 || lifeNow s == 2 || lifeNow s == 3

/-- `GET_CERTS` (R557). -/
def execGetCerts (src : MbSrc) (req : Bytes) (s : State) : Host.Outcome State Fault Refusal :=
  mbRun src s fun s => if req ≠ [] then .error 1 else .ok (s, Config.certs)

/-- `QUOTE` (R555). -/
def execQuote (src : MbSrc) (req : Bytes) (s : State) : Host.Outcome State Fault Refusal :=
  mbRun src s fun s =>
    if req.length ≠ 32 then .error 1 else .ok ((drawFree s).2, quoteOf s req [])

/-- The public halves of the ephemeral pairs of a draw: X25519, then ML-KEM-768 (R559). -/
def ephemeralPub (n : Nat) : Bytes := dhPublic n ++ fixLen 1184 (Config.mlkemPublic (kemSeed n))

/-- `KEY_OPEN` (R559). -/
def execKeyOpen (src : MbSrc) (req : Bytes) (s : State) : Host.Outcome State Fault Refusal :=
  mbRun src s fun s =>
    if keysShut s then .error 3
    else if req.length ≠ 32 then .error 1
    else
      let n := s.freeCtr
      let pub := ephemeralPub n
      .ok ({ (drawFree s).2 with keys := { s.keys with ephemeral := some (n, sha3 (quoteBody s req (sha3 pub))) } },
        quoteOf s req (sha3 pub) ++ pub)

/-- What bytes [7:0] of a key record name (R559). -/
inductive KeyTarget where
  | page (key : Nat)
  | transport (id : Nat)

/-- The key target in bytes [7:0] of a record. -/
def keyTarget (b : Bytes) : Option KeyTarget :=
  if b.length ≠ 8 then none
  else if xf b 0 1 = 1 then
    if xf b 1 1 < 64 ∧ xf b 2 1 < 16 ∧ zeroBytes b 3 8 then some (.page (16 * xf b 1 1 + xf b 2 1)) else none
  else if xf b 0 1 = 2 then
    if zeroBytes b 5 8 then some (.transport (xf b 1 4)) else none
  else none

/-- A page key put into its slot. Pages kept under another key are not recovered by it. -/
def putPageKey (s : State) (k : Nat) (v : BitVec 512) : State :=
  let s := match tfind s.keys.page k with
    | some old => if old ≠ v then keyLoss (k / 16) (k % 16) s else s
    | none => s
  { s with keys := { s.keys with page := tset s.keys.page k v } }

/-- The key-encryption key of a load for an ephemeral pair (R559). -/
def wrapKey (e : Nat × Bytes) (r : KeyRecord) : Bytes :=
  sha3 (labelBytes "DZ6-WRAP" ++ fixLen 32 (Config.x25519 (dhKey e.1) r.pub) ++
    fixLen 32 (Config.mlkemDecaps (kemSeed e.1) r.kem) ++ e.2)

/-- The key of a wrapped record, where its tag verifies (R559). -/
def unwrap (e : Nat × Bytes) (r : KeyRecord) : Option Bytes :=
  gcmOpen (wrapKey e r) (List.replicate 12 0) r.head r.sealed

/-- A transport key put into the store, where it has room (R558). -/
def putTransport (s : State) (id : Nat) (v : BitVec 256) : Except Nat (State × Bytes) :=
  if (tfind s.keys.transport id).isNone ∧ 64 ≤ s.keys.transport.length then .error 6
  else .ok ({ s with keys := { s.keys with transport := tset s.keys.transport id v } }, [])

/-- The bytes of the key that a target takes (R558). -/
def KeyTarget.size : KeyTarget → Nat
  | .page _ => 64
  | .transport _ => 32

/-- `KEY_LOAD` (R558, R559). -/
def execKeyLoad (src : MbSrc) (req : KeyRecord) (s : State) : Host.Outcome State Fault Refusal :=
  mbRun src s fun s =>
    if keysShut s then .error 3
    else
      match keyTarget req.head with
      | none => .error 1
      | some t =>
        if req.pub.length ≠ 32 ∨ req.kem.length ≠ 1088 ∨ req.sealed.length ≠ t.size + 16 then .error 1
        else
          match s.keys.ephemeral with
          | none => .error 4
          | some e =>
            match unwrap e req, t with
            | none, _ => .error 2
            | some key, .page k => .ok (putPageKey s k (BitVec.ofNat 512 (leNat key)), [])
            | some key, .transport id => putTransport s id (BitVec.ofNat 256 (leNat key))

/-- `KEY_CLEAR` (R557). -/
def execKeyClear (src : MbSrc) (req : Bytes) (s : State) : Host.Outcome State Fault Refusal :=
  mbRun src s fun s =>
    if mbOff s then .error 3
    else
      match keyTarget req with
      | none => .error 1
      | some (.page k) => .ok (dropPageKeys s (· == k), [])
      | some (.transport id) => .ok ({ s with keys := { s.keys with transport := tdel s.keys.transport id } }, [])

/-- `EPHEMERAL_KEY_EXPIRE` (R559). -/
def execEphemeralKeyExpire (s : State) : Host.Outcome State Fault Refusal :=
  .next { s with keys := { s.keys with ephemeral := none } }

/-! ### Debug levels and the lifecycle (R561 to R566) -/

/-- `DBG_CHAL` (R557): a nonce that no one can foresee. -/
def execDbgChal (src : MbSrc) (req : Bytes) (s : State) : Host.Outcome State Fault Refusal :=
  mbRun src s fun s =>
    if mbOff s then .error 3
    else if req ≠ [] then .error 1
    else
      let v := drawFree s
      let nonce := BitVec.ofNat 256 v.1
      .ok ({ v.2 with keys := { s.keys with nonce := some nonce } }, leBytes 32 nonce.toNat)

/-- Every core halted by D2 freed. -/
def unhaltAll (s : State) : State :=
  { s with cores := s.cores.map fun e =>
      (e.1, { e.2 with dbgHalt := false, hold := if e.2.hold = 8 then 0 else e.2.hold }) }

/-- The debug level lowered. -/
def lowerDebug (s : State) (v : Nat) : State := unhaltAll { s with sec := { s.sec with dbg := BitVec.ofNat 2 v } }

/-- `DBG_DROP` (R565). -/
def execDbgDrop (src : MbSrc) (req : Bytes) (s : State) : Host.Outcome State Fault Refusal :=
  mbRun src s fun s =>
    if mbOff s then .error 3
    else if req.length ≠ 1 ∨ s.sec.dbg.toNat ≤ xf req 0 1 then .error 1
    else .ok (lowerDebug s (xf req 0 1), [])

/-- Entering D2 (R566). -/
def enterD2 (s : State) : State :=
  let s := emptyKeys s
  let s := fset s F.secStatDbgmax 0 0 2
  let s := if lifeNow s = 1 then { s with nv := { s.nv with d2cnt := max s.nv.d2cnt (min 65535 (s.nv.d2cnt + 1)) } } else s
  let s := (s.ctxs.map (·.1)).foldl (fun s r => reelFail s r 4) s
  ((List.range 48).filter fun p => portState s p == 6).foldl toDetect s

/-- A debug level granted; no grant lowers the level. -/
def grantDebug (s : State) (v : Nat) : State :=
  let s := if v = 2 ∧ s.sec.dbg ≠ 2 then enterD2 s else s
  let s := fset s F.secStatDbgmax 0 0 (max v (fget s F.secStatDbgmax 0 0))
  { s with sec := { s.sec with dbg := BitVec.ofNat 2 (max v s.sec.dbg.toNat) } }

/-- Who may sign a change of the lifecycle state (Table 17.6). -/
def lifeSigner (was new signer : Nat) : Bool :=
  match was, new with
  | 0, 1 => signer == 0
  | 1, 2 => true
  | 2, 1 => signer == 1
  | 3, _ => false
  | _, 3 => true
  | _, _ => false

/-- Who may sign a debug grant (Table 17.7). -/
def debugSigner (life level signer : Nat) : Bool :=
  match life, level with
  | 0, _ => signer == 0
  | 1, 1 => true
  | 1, _ => signer == 1
  | 2, _ => true
  | _, _ => signer == 0

/-- A change of the lifecycle state (Table 17.6), both copies of it written (R561). -/
def changeLife (s : State) (new : Nat) (owner : BitVec 256) : State :=
  let was := (lifeNow s).toNat
  let s := if new = 1 ∧ was = 2 then s else emptyStore s
  let copy : LifeCopy := ⟨max s.nv.lifeA.seq s.nv.lifeB.seq + 1, BitVec.ofNat 2 new, true⟩
  let nv := { s.nv with lifeA := copy, lifeB := copy }
  let nv := if was = 0 ∧ new = 1 then { nv with ownerSet := true, owner := owner, fuseDeployed := true } else nv
  { s with nv := if new = 3 then { nv with fuseRetired := true } else nv }

/-- Whether a token has the layout of Table 17.5. -/
def tokenForm (s : State) (b : Bytes) : Bool :=
  b.length == 128 && xf b 0 4 == 0x4B545A44 && decide (xf b 6 1 ≤ 1) && zeroBytes b 7 8 && zeroBytes b 104 128 &&
  (if xf b 4 1 = 1 then decide (1 ≤ xf b 5 1 ∧ xf b 5 1 ≤ 2)
   else xf b 4 1 == 2 && decide (xf b 5 1 ≤ 3)) &&
  ((xf b 4 1 == 2 && xf b 5 1 == 1 && lifeNow s == 0) || zeroBytes b 72 104)

/-- Whether a reel load is running. -/
def reelRuns (s : State) : Bool := s.ctxs.any (fun e => e.2.reel.isSome)

/-- The result of a token that is not accepted (R563, R565). -/
def tokenCode (s : State) (t : TokenMsg) : Option Nat :=
  let b := t.body
  let life := (lifeNow s).toNat
  let owner := xf b 6 1 = 1
  let grant := xf b 4 1 = 1
  if mbOff s then some 3
  else if !tokenForm s b ∨ t.owner.length ≠ (if owner then 1984 else 0) then some 1
  else if !t.edOk ∨ !t.mlOk ∨ (owner ∧ (!s.nv.ownerSet ∨ digestNat (sha3 t.owner) ≠ s.nv.owner)) then some 2
  else if !(if grant then debugSigner life (xf b 5 1) (xf b 6 1) else lifeSigner life (xf b 5 1) (xf b 6 1)) then some 3
  else if BitVec.ofNat 256 (xf b 8 32) ≠ devId ∨ s.keys.nonce ≠ some (BitVec.ofNat 256 (xf b 40 32)) then some 2
  else if (if grant then fget s F.pairStatState 0 0 ≠ 0 ∧ fget s F.pairStatState 0 0 ≠ 3
      else !noneEnabled s ∨ fget s F.pairStatState 0 0 ≠ 0 ∨ reelRuns s) then some 5
  else none

/-- A token accepted. -/
def tokenApply (s : State) (b : Bytes) : State :=
  let s := { s with keys := { s.keys with nonce := none } }
  if xf b 4 1 = 1 then grantDebug s (xf b 5 1) else changeLife s (xf b 5 1) (BitVec.ofNat 256 (xf b 72 32))

/-- `TOKEN` (R562 to R566). -/
def execToken (src : MbSrc) (req : TokenMsg) (s : State) : Host.Outcome State Fault Refusal :=
  if !mbReady s src then .next s
  else
    match tokenCode s req with
    | some 5 => .next (mbDone { s with keys := { s.keys with nonce := none } } src 5 [])
    | some e => .next (mbDone s src e [])
    | none => .next (mbDone (tokenApply s req.body) src 0 [])

/-- `ARB_FUSE` (R552). -/
def execArbFuse (src : MbSrc) (req : Bytes) (s : State) : Host.Outcome State Fault Refusal :=
  mbRun src s fun s =>
    if mbOff s ∨ lifeNow s ≠ 1 then .error 3
    else if req ≠ [] then .error 1
    else .ok ({ s with nv := { s.nv with arbF := max s.nv.arbF (runSvn s / 2 ^ 26) } }, [])

/-! ### JTAG (R564) -/

/-- Whether invasive access is open: D2, in ACTIVE or IDLE (Tables 17.7 and 17.8). -/
def invasive (s : State) : Bool := s.sec.dbg == 2 && decide (powerState s ≤ 1)

/-- `DEBUG_HALT` (R564): a hold with cause 0x8. -/
def execDebugHalt (n : CoreId) (s : State) : Host.Outcome State Fault Refusal :=
  if !invasive s then .next s
  else .next (modCore s n.val fun c =>
    { c with dbgHalt := true, hold := if c.running.isSome && c.hold == 0 then 8 else c.hold })

/-- `SCAN` (R564): the clocks of the domains scanned stop until a warm reset. -/
def execScan (domains : List ScanDomain) (s : State) : Host.Outcome State Fault Refusal :=
  if !invasive s then .next s
  else
    let new := domains.filter (fun d => !s.jtag.scanned.contains d)
    .next { s with jtag := { s.jtag with scanned := s.jtag.scanned ++ new } }

/-- Bytes written to a core's scratchpad by physical address; a word wholly written has no mark. -/
def scratchPut (c : Core) (a : Nat) (bs : Bytes) : Core :=
  { c with
    scratch := mwrite c.scratch a bs
    poison := c.poison.filter (fun e => !decide (a ≤ 32 * e.1 ∧ 32 * e.1 + 32 ≤ a + bs.length)) }

/-- Bundles written to a core's instruction store from an index. -/
def istorePut (c : Core) (b : Nat) (bs : Bytes) : Core :=
  let put (t : Tbl (BitVec 128)) (i : Nat) : Tbl (BitVec 128) := tset t (b + i) (BitVec.ofNat 128 (xf bs (16 * i) 16))
  { c with istore := (List.range (bs.length / 16)).foldl put c.istore }

/-- `JTAG_WRITE` (R564): the scratchpad or the instruction store of a halted core. -/
def execJtagWrite (n : CoreId) (target : JtagTarget) (data : Bytes) (s : State) : Host.Outcome State Fault Refusal :=
  if !invasive s ∨ !(core s n.val).dbgHalt then .next s
  else
    match target with
    | .scratch a => .next (if a + data.length ≤ 24 * 32768 then modCore s n.val (scratchPut · a data) else s)
    | .istore b =>
      .next (if data.length % 16 = 0 ∧ b + data.length / 16 ≤ 4096 then modCore s n.val (istorePut · b data) else s)

end Sys2Proof.Machine
end

