-- ==== Sys2Proof/Machine/Pairing.lean ====
section
/-! DEFINITION. The stand-in pair (R510 to R518): the pairing check, commits of mirror mode, slates and announcements of
twin mode, loss of the partner, handover and resync. -/

namespace Sys2Proof.Machine

/-- `PAIR_STAT.STATE`. -/
def pairState (s : State) : Nat := fget s F.pairStatState 0 0
def setPair (s : State) (v : Nat) : State := fset s F.pairStatState 0 0 v
def partner (s : State) : Nat := fget s F.pairCfgPartner 0 0

/-- The registered twin contexts. -/
def twinCtxs (s : State) : List Nat := (s.ctxs.map (·.1)).filter (twinCtx s)

/-- A pairing refused (R510). -/
def pairRefuse (s : State) (code : Nat) : State :=
  let s := { s with pair := { s.pair with solo := false, synced := [] } }
  refuse (fset (fset (setPair s 0) F.pairCtlEn 0 0 0) F.pairStatReason 0 0 code) 5 0 code

/-! ### Takeover (R516 to R518) -/

/-- Packets held back sent. -/
def releaseHeld (s : State) : State :=
  let ids := s.pair.held.map (·.1)
  let s := { s with pair := { s.pair with held := [] } }
  ids.foldl (fun s id => match reqOf s id with | some q => resend s q | none => s) s

/-- The atomics of twin contexts, whose answers were never confirmed, ended with a fault after a takeover (R514). -/
def endAtomics (s : State) : State :=
  (s.fab.reqs.filter fun q => q.pkt.type == 6 && q.ctx.any (fun r => twinCtx s r.val)).foldl linkEnd s

/-- Ended steps wait for the partner no more. -/
def releaseSteps (s : State) : State :=
  (s.ctxs.map (·.1)).foldl
    (fun s r => modCtx s r fun x =>
      { x with ended := x.ended.map (fun st => { st with pairWait := false }), vs := { x.vs with shipping := [] } }) s

/-- The alias entries that name this device and its partner. -/
def pairAliases (s : State) : List Nat :=
  (List.range 16).filter fun k =>
    let a := fget s F.pairAliasDeva 0 k
    let b := fget s F.pairAliasDevb 0 k
    fbit s F.pairAliasValid 0 k && ((a == ownDev s && b == partner s) || (b == ownDev s && a == partner s))

/-- The announcement of an alias entry. -/
def aliasNats (s : State) (k : Nat) : List Nat :=
  let act := if fbit s F.pairAliasActb 0 k then fget s F.pairAliasDevb 0 k else fget s F.pairAliasDeva 0 k
  [fget s F.pairAliasAlias 0 k, act, fget s F.pairAliasEpoch 0 k]

/-- The pair's alias entries given to a twin with the next epoch, and announced. -/
def announce (s : State) (dev : Nat) (ok : State → Nat → Bool) : State :=
  (pairAliases s).foldl
    (fun s k =>
      let s := fset s F.pairAliasActb 0 k (if fget s F.pairAliasDevb 0 k = dev then 1 else 0)
      let s := fset s F.pairAliasEpoch 0 k ((fget s F.pairAliasEpoch 0 k + 1) % 2 ^ 16)
      onPorts s ok msgAlias (aliasNats s k)) s

/-- This twin serves alone: it is active, and nothing waits for the partner. -/
def serveAlone (s : State) : State :=
  let was := fbit s F.pairStatActive 0 0
  let s := fset (fset (setPair s 3) F.pairCtlEn 0 0 0) F.pairStatActive 0 0 1
  let s := if was then s else endAtomics (fset s F.pairStatTakeover 0 0 1)
  releaseSteps (releaseHeld s)

/-- `PARTNER_LOST` (R516): four heartbeat periods missed, or a resign message. -/
def execPartnerLost (_resign : Bool) (s : State) : Host.Outcome State Fault Refusal :=
  let st := pairState s
  if st ≠ 2 ∧ st ≠ 5 then .next s
  else
    let passive := passiveTwin s
    let steps := (openSteps s).filter (fun p => twinCtx s p.1)
    let s := fcount (fset s F.pairStatLostevt 0 0 1) F.pairStatLosses 0 0 1
    let s := { s with dailies := { s.dailies with losses := s.dailies.losses + 1 } }
    let s := if st = 5 then fset (setPair s 0) F.pairCtlEn 0 0 0 else serveAlone (if passive then announce s (ownDev s) fabricUp else s)
    let s := faultRecord s (6, 0) 0x09 (if passive then 4 else 0) steps
    .next (glbIrq s F.glbIrqstatPair)

/-- An alias entry updated by an announcement with a higher epoch: the entry, the announcement passed on, the requests to
the alias sent again. -/
def takeAlias (p : Nat) (m : AliasMsg) (s : State) (k : Nat) : State :=
  if !fbit s F.pairAliasValid 0 k ∨ fget s F.pairAliasAlias 0 k ≠ m.aliasDev.toNat ∨
      m.epoch.toNat ≤ fget s F.pairAliasEpoch 0 k then s
  else
    let s := fset s F.pairAliasEpoch 0 k m.epoch.toNat
    let s := fset s F.pairAliasActb 0 k (if fget s F.pairAliasDevb 0 k = m.active.toNat then 1 else 0)
    let s := onPorts s (fun s q => q != p && fabricUp s q) msgAlias (aliasNats s k)
    (s.fab.reqs.filter (fun q => q.pkt.dst == m.aliasDev.toNat && !heldBack s q.id)).foldl
      (fun s q => if (reqOf s q.id).isSome then resend s q else s) s

/-- `TAKEOVER_ANNOUNCE` (R516 to R518): from the partner, naming this twin, it is the handover; naming the partner to an
active twin, paired or alone, it ends the work of its twin contexts (R517). -/
def execTakeoverAnnounce (p : PortId) (m : AliasMsg) (s : State) : Host.Outcome State Fault Refusal :=
  onClock s (portClock p.val) fun s =>
  let mine := (pairAliases s).any fun k =>
    fget s F.pairAliasAlias 0 k == m.aliasDev.toNat && decide (fget s F.pairAliasEpoch 0 k < m.epoch.toNat)
  let active := activeTwin s
  let serving := fbit s F.pairStatActive 0 0 && (pairState s == 2 || pairState s == 3)
  let s' := (List.range 16).foldl (takeAlias p.val m) s
  if pairUp s p.val ∧ m.active.toNat = ownDev s ∧ pairState s = 2 then
    let s := serveAlone s'
    .next (if active then s else glbIrq s F.glbIrqstatPair)
  else if mine ∧ serving ∧ m.active.toNat = partner s then
    let s := (twinCtxs s').foldl (fun s r => endedFail (killAll s r stLink) r stLink) s'
    .next (fset (fset (setPair s 3) F.pairCtlEn 0 0 0) F.pairStatActive 0 0 0)
  else .next s'

/-- `HANDOVER` on the twin to be renewed (R518): it hands the alias over where it is active, and stops at the next step
boundary of each twin context. -/
def handover (s : State) : State :=
  if pairState s ≠ 2 then s
  else
    let both (s : State) (p : Nat) : Bool := fabricUp s p || pairUp s p
    let s :=
      if fbit s F.pairStatActive 0 0 then announce s (partner s) both
      else (pairAliases s).foldl (fun s k => onPorts s pairUp msgAlias (aliasNats s k)) s
    releaseSteps (fset (setPair s 4) F.pairStatActive 0 0 0)

/-- The pairing ended (R528). -/
def pairEnd (s : State) : State :=
  if pairState s = 0 then s
  else
    let s := releaseSteps (releaseHeld s)
    let s := { s with pair := ⟨[], [], false, false⟩ }
    fset (fset (setPair s 0) F.pairCtlEn 0 0 0) F.pairStatActive 0 0 0

/-! ### The pairing (R510) -/

/-- The check of `PAIR_CTL.EN` up to where the partner must answer. -/
def pairBegin (s : State) : State :=
  let st := pairState s
  let port := (List.range 48).any fun p => pairUp s p && fget s F.lnkPartnerDev p 0 == partner s
  if st ≠ 0 ∧ st ≠ 3 then pairRefuse (pairEnd s) 0x32
  else if !port then pairRefuse s 0x30
  else if partner s = ownDev s then pairRefuse s 0x31
  else setPair { s with pair := { s.pair with solo := st == 3, synced := [] } } 1

/-- The lowest code that the partner's pairing meets (Table 15.6). -/
def pairCode (s : State) (i : PairInfo) : Option Nat :=
  if i.dev.toNat ≠ partner s ∨ i.names.toNat ≠ ownDev s then some 0x31
  else if i.life ≠ lifeNow s ∨ i.dbg = 2 ∨ s.sec.dbg = 2 then some 0x33
  else if i.measure ≠ measurement s ∧ (!fbit s F.pairCfgFwmix 0 0 ∨ !i.fwmix) then some 0x34
  else if i.enf ≠ fbit s F.glbDetEnf 0 0 then some 0x37
  else none

/-- A context through with its resync; with the last twin context, or with none, both twins are paired again, and the one that
served is active. -/
def settleResync (s : State) (active : Nat) : State :=
  if (twinCtxs s).all (resynced s) then
    let s := { s with pair := { s.pair with synced := [], solo := false, renewed := false } }
    fset (setPair s 2) F.pairStatActive 0 0 active
  else s

/-- `PAIRING_COMPLETE` (R510): the partner's pairing, or none within 1 s. A twin that served alone goes on so until the
other one is resynced (R518); where both did, the one with the lower device number does (R513). -/
def execPairingComplete (info : Option PairInfo) (s : State) : Host.Outcome State Fault Refusal :=
  if pairState s ≠ 1 then .next s
  else
    match info with
    | none => .next (pairRefuse s 0x31)
    | some i =>
      match pairCode s i with
      | some c => .next (pairRefuse s c)
      | none =>
        let s := fset s F.pairCtlEn 0 0 1
        let low := decide (ownDev s < partner s)
        let serves := s.pair.solo && (!i.solo || low)
        if serves then .next (settleResync (fset (setPair s 3) F.pairStatActive 0 0 1) 1)
        else if i.solo then
          let s := { s with pair := { s.pair with solo := false } }
          .next (settleResync (fset (setPair s 5) F.pairStatActive 0 0 0) 0)
        else .next (fset (setPair { s with pair := { s.pair with renewed := false } } 2) F.pairStatActive 0 0 (bitNat low))

/-- A write of `PAIR_CTL`: the handover where its bit is written 1, else the pairing begun or ended. -/
def pairCtl (s : State) (w : RegWrite) : State :=
  if !covered w.half F.pairCtlEn then s
  else if wbit w F.pairCtlHandover then handover s
  else if wbit w F.pairCtlEn then (if fbit s F.pairCtlEn 0 0 then s else pairBegin s)
  else pairEnd s

/-- `PAIR_ENABLE` (R510). -/
def execPairEnable (w : RegWrite) (s : State) : Host.Outcome State Fault Refusal :=
  onBar false s fun s => .next (pairCtl s w)
/-- `PAIR_DISABLE` (R528). -/
def execPairDisable (w : RegWrite) (s : State) : Host.Outcome State Fault Refusal :=
  onBar false s fun s => .next (pairCtl s w)
/-- `HANDOVER` (R518). -/
def execHandover (w : RegWrite) (s : State) : Host.Outcome State Fault Refusal :=
  onBar false s fun s => .next (pairCtl s w)

/-! ### Mirror mode (R511, R512) -/

/-- `PROMOTE` (R512): a write of `CTX_RELCTL`. -/
def execPromote (sl : SlotId) (w : RegWrite) (s : State) : Host.Outcome State Fault Refusal :=
  onBar false s fun s =>
  if wbit w F.ctxRelctlPromote ∧ (slotCtx s sl.val).isSome ∧ fget s F.ctxRelcfgPair sl.val 0 = 2 then
    .next (fset s F.ctxRelcfgPair sl.val 0 0)
  else .next s

/-- Whether an ended step of a context waits for its partner. -/
def waitsPair (s : State) (r : Nat) : Option Step := (ctx s r).ended.find? (·.pairWait)

/-- `MIRROR_STEP_COMMIT` (R511): at the primary, the stand-in's acknowledgement of the oldest commit; at the stand-in, a
commit that has arrived. -/
def execMirrorStepCommit (r : CtxId) (acked : Bool) (got : Option Commit) (s : State) : Host.Outcome State Fault Refusal :=
  onClock s (edgeClock 0) fun s =>
  match cget s r.val F.ctxRelcfgPair 0, got, waitsPair s r.val with
  | 1, _, some st =>
    if !acked then .next s
    else
      .next (modCtx s r.val fun x =>
        { x with ended := x.ended.map (fun e => if e.id = st.id then { e with pairWait := false } else e)
                 vs := { x.vs with shipping := x.vs.shipping.filter (fun l => l.1 != st.id.toNat) } })
  | 2, some c, _ =>
    if !registered (ctx s r.val) then .next s
    else
      let s := c.lines.foldl (fun s l => putText s r.val l.1 l.2.1 l.2.2) s
      let s := cset s r.val F.ctxRelmirStepId 0 c.step.toNat
      .next (onPorts s pairUp msgCommitted [r.val, c.step.toNat])
  | _, _, _ => .next s

/-! ### Twin mode (R514 to R516, R518) -/

/-- `TWIN_SLATE_EXCHANGE` (R515): the partner's slate of the oldest step that waits for it. -/
def execTwinSlateExchange (r : CtxId) (slate : BitVec 256) (s : State) : Host.Outcome State Fault Refusal :=
  match if twinCtx s r.val then waitsPair s r.val else none with
  | none => .next s
  | some st =>
    let s := modCtx s r.val fun x =>
      { x with ended := x.ended.map fun e => if e.id = st.id then { e with pairWait := false } else e }
    if st.slate = slate then .next s
    else
      let s := fcount (failEnded s r.val st.id stDigest) F.pairStatSlatemiss 0 0 1
      let s := { s with dailies := { s.dailies with slates := s.dailies.slates + 1 } }
      .next (faultRecord s (6, 0) 0x08 2 [(r.val, st.id.toNat)])

/-- `HEARTBEAT` (R516). -/
def execHeartbeat (s : State) : Host.Outcome State Fault Refusal :=
  .next (if pairState s = 0 then s else onPorts s pairUp msgHeartbeat [])

/-- `ANSWERED_REPORT` (R514): the active twin has had the answer to a packet that this twin holds, by its name. -/
def execAnsweredReport (id : Nat) (s : State) : Host.Outcome State Fault Refusal :=
  .next { s with pair := { s.pair with held := s.pair.held.filter (fun h => pktName h.2 != id) } }

/-- A page of a resync applied. -/
def takeCopy (r : Nat) (s : State) (c : PageCopy) : State :=
  let s :=
    if (tfind (ctx s r).vs.pages c.page).isSome then s
    else
      match placePage s r c.page false 0 with
      | some p => mapPage p.1 r c.page p.2
      | none => s
  let va := c.page * 2 ^ 21
  putText s r va c.data c.bad

/-- A page as a resync sends it. -/
def copyNats (s : State) (r pg : Nat) : List Nat :=
  let t := pageText s r pg
  [r, pg, t.2.length] ++ t.2 ++ t.1.map (·.toNat)

/-- A context through with its resync. -/
def synced (s : State) (r : CtxId) (active : Nat) : State :=
  settleResync { s with pair := { s.pair with synced := r :: s.pair.synced } } active

/-- `RESYNC` (R518): at a step boundary of a twin context, the twin that serves ships its pages, and the renewed twin
takes what comes. -/
def execResync (r : CtxId) (got : List PageCopy) (s : State) : Host.Outcome State Fault Refusal :=
  onClock s (edgeClock 0) fun s =>
  if !twinCtx s r.val ∨ (ctx s r.val).step.isSome ∨ s.pair.synced.contains r then .next s
  else if pairState s = 5 then .next (synced (got.foldl (takeCopy r.val) s) r 0)
  else if pairState s = 3 ∧ s.pair.solo then
    let s' := ((ctx s r.val).vs.pages.map (·.1)).foldl
      (fun t pg => onPorts t pairUp msgResync (copyNats s r.val pg)) s
    .next (synced s' r 1)
  else .next s

end Sys2Proof.Machine
end

