-- ==== Sys2Proof/Machine/Power.lean ====
section
/-! DEFINITION. Power and thermal control (R529 to R549): the estimate and its calibration, the cap and its sharing,
throttles, clock steps, droop, fill-light, convoy, thermal limits, energy accounting, IDLE and RETAIN. -/

namespace Sys2Proof.Machine

/-! ### The throttles in force -/

/-- The throttles of R536: 0 the ceiling of the A clocks, 1 the hold duty in eighths, 2 and 3 the fractions of memory
and links in sixteenths, 4 the steps by which the fill level is lowered. -/
def powerLimit (s : State) (k : Nat) : Nat := tget s.power.limits k ([100, 0, 16, 16, 0].getD k 0)
def setLimit (s : State) (k v : Nat) : State := { s with power := { s.power with limits := tset s.power.limits k v } }

/-- The throttles of R545: 0 to 3 a tile's frequency limit, 4 to 7 its hold duty, 8 and 9 the fractions of memory and
links. -/
def thermalLimit (s : State) (k : Nat) : Nat := tget s.power.thermal k (if k < 4 then 100 else if k < 8 then 0 else 16)
def setThermal (s : State) (k v : Nat) : State := { s with power := { s.power with thermal := tset s.power.thermal k v } }

/-- The lowest A clock, `PWR_CFG.FMIN`. -/
def fMin (s : State) : Nat := fget s F.pwrCfgFmin 0 0

/-- The A clock of a tile. -/
def tileFreq (s : State) (t : Nat) : Nat := fget s F.pwrTileFreq 0 t

/-- The highest A clock in force. -/
def topFreq (s : State) : Nat := ((List.range 4).map (tileFreq s)).foldl max 0

/-- What a following device has heard from its group: the lowest rate and who announced it (R544). -/
def convoyRate (s : State) : Option (Nat × Nat) :=
  if !fbit s F.pwrConvoyEn 0 0 then none
  else
    (s.power.heard.filter fun e => e.2.1.toNat == fget s F.pwrConvoyGroup 0 0 && e.2.2.1 != 0).foldl
      (fun b e =>
        match b with
        | some (r, d) => if e.2.2.1 < r then some (e.2.2.1, e.1) else some (r, d)
        | none => some (e.2.2.1, e.1)) none

/-- The A clock that a tile's own bounds give: `FREQREQ`, R536 and R545. -/
def ownTarget (s : State) (t : Nat) : Nat := min (fget s F.pwrTileFreqreq 0 t) (min (powerLimit s 0) (thermalLimit s t))

/-- The A clock a tile is to run at: the lowest of the four bounds of R548, at least `FMIN`; `FMIN` in IDLE. -/
def freqTarget (s : State) (t : Nat) : Nat :=
  if powerState s = 1 then fMin s
  else max (fMin s) (match convoyRate s with
    | some (r, _) => min (ownTarget s t) r
    | none => ownTarget s t)

/-- The fill-light level in force on a core that waits (R540 to R542), in quarters. -/
def fillLevel (s : State) (n : Nat) : Nat :=
  let c := core s n
  let waits := match c.running with
    | some _ => c.hold == 4 || c.hold == 5
    | none => c.takes.any (·.rest)
  if powerState s ≠ 0 ∨ c.unlit = some (c.running, c.cycle) ∨ !waits then 0 else fget s F.pwrFillLevel 0 0 - powerLimit s 4

/-- Whether compute is slowed by a throttle that a convoy hears of (R543). -/
def computeSlow (s : State) : Bool :=
  decide (powerLimit s 0 < 100) || powerLimit s 1 != 0 ||
  (List.range 4).any (fun t => decide (thermalLimit s t < 100) || thermalLimit s (4 + t) != 0)

/-- The hold duties in force on the tiles (R548). -/
def putDuties (s : State) : State :=
  (List.range 4).foldl (fun s t => fset s F.pwrTileDuty 0 t (max (powerLimit s 1) (thermalLimit s (4 + t)))) s

/-! ### Convoy (R543, R544) -/

/-- The numbers an announcement carries. -/
def convoyNats (m : Convoy) : List Nat := [m.dev.toNat, m.group.toNat, m.rate, if m.release then 1 else 0]

/-- The A clock of a tile without the slowdown that a convoy asks for, which is never announced (R544, Table 16.5). -/
def ownFreq (s : State) (t : Nat) : Nat :=
  if (convoyRate s).isSome then max (tileFreq s t) (max (fMin s) (ownTarget s t)) else tileFreq s t

/-- The lowest effective rate of the compute tiles (R543). -/
def ownRate (s : State) : Nat := ((List.range 4).map fun t => ownFreq s t * (8 - fget s F.pwrTileDuty 0 t) / 8).foldl min 100

/-- The device's own announcement. -/
def ownConvoy (s : State) (release : Bool) : Convoy :=
  ⟨BitVec.ofNat 12 (ownDev s), BitVec.ofNat 16 (fget s F.pwrConvoyGroup 0 0), ownRate s, release⟩

/-- Since when compute is slowed kept up; a slowdown that was announced and ends is released. -/
def noteSlow (s : State) : State :=
  if computeSlow s then { s with power := { s.power with capSince := some (s.power.capSince.getD s.tcount) } }
  else
    let s := if s.power.announced.isSome then onPorts s fabricUp msgConvoy (convoyNats (ownConvoy s true)) else s
    { s with power := { s.power with capSince := none, announced := none } }

/-- `CONVOY_ANNOUNCE` (R543): 200 µs into a slowdown, and every 100 µs after; a slowdown that lasts over the exit from IDLE is
announced from the exit (Table 16.5). -/
def execConvoyAnnounce (s : State) : Host.Outcome State Fault Refusal :=
  let due := match s.power.capSince, s.power.announced with
    | some _, some t => decide (t + 100000 ≤ s.tcount)
    | some t, none => decide (t + 200000 ≤ s.tcount)
    | none, _ => false
  if !fbit s F.pwrConvoyAnnounce 0 0 ∨ !due ∨ powerState s ≠ 0 then .next s
  else
    let s := onPorts s fabricUp msgConvoy (convoyNats (ownConvoy s false))
    .next (fcount { s with power := { s.power with announced := some s.tcount } } F.pwrThrotAnnounces 0 0 1)

/-- Whose rate is followed, as the registers show it. -/
def showConvoy (s : State) : State :=
  match convoyRate s with
  | some (r, d) => fset (fset (fset s F.pwrStatConvoy 0 0 1) F.pwrConvstatSlowdev 0 0 d) F.pwrConvstatRate 0 0 r
  | none => fset (fset (fset s F.pwrStatConvoy 0 0 0) F.pwrConvstatSlowdev 0 0 0) F.pwrConvstatRate 0 0 0

/-- `CONVOY_RECEIVE` (R544): an announcement heard again on another port within 50 µs is the same one. -/
def execConvoyReceive (p : PortId) (m : Convoy) (s : State) : Host.Outcome State Fault Refusal :=
  onClock s (portClock p.val) fun s =>
  let rate := if m.release then 0 else m.rate
  let again := match tfind s.power.heard m.dev.toNat with
    | some (g, r, t) => g == m.group && r == rate && decide (s.tcount < t + 50000)
    | none => false
  if !fabricUp s p.val || again || m.dev.toNat == ownDev s then .next s
  else
    let s := onPorts s (fun s q => fabricUp s q && q != p.val) msgConvoy (convoyNats m)
    .next (showConvoy { s with power := { s.power with heard := tset s.power.heard m.dev.toNat (m.group, rate, s.tcount) } })

/-- `CONVOY_EXPIRE` (R544): an announcement not repeated for 500 µs. -/
def execConvoyExpire (dev : BitVec 12) (s : State) : Host.Outcome State Fault Refusal :=
  match tfind s.power.heard dev.toNat with
  | some (_, _, t) =>
    if s.tcount < t + 500000 then .next s
    else .next (showConvoy { s with power := { s.power with heard := tdel s.power.heard dev.toNat } })
  | none => .next s

/-! ### The estimate and the cap (R534 to R538) -/

/-- A power under the regulators' loss and the calibration gain, in units of 10^-7 W. -/
def withGain (s : State) (p : Nat) : Nat := p * fget s F.pwrEstGain 0 0 * 11 / 40960

/-- The power of a class that a context caused, or no context for `c = 0`. Counter `3 (65 e + c) + class` counts the
events of kind `e` caused by the context of registered number `c - 1`. -/
def classShare (s : State) (counts : List Nat) (cls c : Nat) : Nat :=
  withGain s ((counts.zipIdx.filter fun e => e.2 % 3 == cls && e.2 / 3 % 65 == c).map
    fun e => e.1 * Config.energy cls (e.2 / 195)).sum

/-- The power of a class. -/
def classPower (s : State) (counts : List Nat) (cls : Nat) : Nat := ((List.range 65).map (classShare s counts cls)).sum

/-- The voltage of `VDD_Cn` at a clock, in µV (R538). -/
def railUv (f : Nat) : Nat := 10000 * (f + 140) / 3

/-- The fixed power. -/
def fixedPower (s : State) : Nat :=
  withGain s (Config.leak ((List.range 4).map fun t => fget s F.pwrTileTemp 0 t) ((List.range 4).map fun t => railUv (tileFreq s t)))

/-- The power of compute at a clock, relative: f times V squared (R538). -/
def fv2 (f : Nat) : Nat := f * (f + 140) * (f + 140)

/-- The highest clock from `FMIN` to `top` whose modelled power fits; `FMIN` where none does. -/
def fitFreq (s : State) (p room : Nat) : Nat → Nat
  | 0 => fMin s
  | top + 1 => if top + 1 ≤ fMin s ∨ p * fv2 (top + 1) ≤ room * fv2 (topFreq s) then max (fMin s) (top + 1) else fitFreq s p room top

/-- A class throttled by the means of Table 16.4 (R536, R538, R542): the fill level one step; the clock to the highest one
that fits, and nothing more while it is on its way there; the duty one step. None where the class is at its limit. -/
def tighten (s : State) (cls p room : Nat) : Option State :=
  match cls with
  | 2 =>
    if powerLimit s 4 < fget s F.pwrFillLevel 0 0 then some (setLimit s 4 (powerLimit s 4 + 1))
    else if fMin s < powerLimit s 0 then some (setLimit s 0 (fitFreq s p room (powerLimit s 0)))
    else if fMin s < topFreq s then some s
    else if powerLimit s 1 < 7 then some (setLimit s 1 (powerLimit s 1 + 1))
    else none
  | _ => if 2 < powerLimit s (3 - cls) then some (setLimit s (3 - cls) (powerLimit s (3 - cls) - 1)) else none

/-- A class loosened one step where its demand at the next step fits (R536). -/
def loosen (s : State) (cls p room : Nat) : State :=
  match cls with
  | 2 =>
    let d := powerLimit s 1
    let f := powerLimit s 0
    if d ≠ 0 then (if p * (9 - d) ≤ room * (8 - d) then setLimit s 1 (d - 1) else s)
    else if f < 100 then (if p * fv2 (f + 1) ≤ room * fv2 f then setLimit s 0 (f + 1) else s)
    else if p ≤ room then setLimit s 4 (powerLimit s 4 - 1) else s
  | _ =>
    let f := powerLimit s (3 - cls)
    if f < 16 ∧ p * (f + 1) ≤ room * f then setLimit s (3 - cls) (f + 1) else s

/-- The classes in their order, each with its demand and what remains of the budget for it. -/
def allocate (powers : Nat → Nat) : List Nat → Nat → List (Nat × Nat × Nat)
  | [], _ => []
  | cls :: rest, room => (cls, powers cls, room) :: allocate powers rest (room - powers cls)

/-- The throttles of the next period, from the last class to the first (R536): a class over its allocation is throttled, or, at
its limit, passes its shortfall to the class before it; one within its allocation is loosened where that fits. -/
def shareOut : List (Nat × Nat × Nat) → Nat → State → State
  | [], _, s => s
  | (cls, p, room) :: before, short, s =>
    let given := if short = 0 then room else min p room - short
    if p ≤ given then shareOut before 0 (loosen s cls p given)
    else
      match tighten s cls p given with
      | some s => shareOut before 0 s
      | none => shareOut before (p - given) s

/-- The order of the classes. -/
def classOrder (s : State) : List Nat := (List.range 3).map fun i => bitsOf (fget s F.pwrCfgOrder 0 0) (2 * i) 2

/-- Whether a class is throttled under R536. -/
def capped (s : State) : Bool :=
  decide (powerLimit s 0 < 100) || powerLimit s 1 != 0 || decide (powerLimit s 2 < 16) || decide (powerLimit s 3 < 16) ||
  powerLimit s 4 != 0

/-- Energy in pJ counted to an owner: 0 no context, `r + 1` a context; whole µJ are shown, the rest is kept (R547). -/
def countEnergy (a : State) (e : Nat × Nat) : State :=
  let s := a
  let v := tget s.power.frac e.1 0 + e.2
  let s := { s with power := { s.power with frac := tset s.power.frac e.1 (v % 1000000) } }
  let uj := v / 1000000
  let s := fset s F.pwrEnergyUj 0 0 (fget s F.pwrEnergyUj 0 0 + uj)
  if e.1 = 0 then fset s F.pwrUnattrUj 0 0 (fget s F.pwrUnattrUj 0 0 + uj)
  else cset s (e.1 - 1) F.ctxAcctEnergyUj 0 (cget s (e.1 - 1) F.ctxAcctEnergyUj 0 + uj)

/-- The energy of a period by owner; what a number that no context holds caused counts as unattributed. -/
def energyShares (s : State) (counts : List Nat) (fixed : Nat) : List (Nat × Nat) :=
  let all (c : Nat) : Nat := ((List.range 3).map fun cls => classShare s counts cls c).sum
  let owned (c : Nat) : Bool := c != 0 && registered (ctx s (c - 1))
  let own := (List.range 65).filter owned
  let rest := (((List.range 65).filter fun c => !owned c).map all).sum
  (0, rest + fixed) :: own.map fun c => (c, all c)

/-- `POWER_PERIOD` (R534, R536, R537, R547): every 10 µs. -/
def execPowerPeriod (counts : List Nat) (s : State) : Host.Outcome State Fault Refusal :=
  if powerState s = 3 then .next s
  else
    let p := classPower s counts
    let fixed := fixedPower s
    let est := p 0 + p 1 + p 2 + fixed
    let watts (v : Nat) : Nat := min 65535 (v / 10000000)
    let shares := energyShares s counts fixed
    let s := fset (fset (fset s F.pwrEstTotal 0 0 (watts est)) F.pwrEstLinks 0 0 (watts (p 0)))
      F.pwrEstCompute 0 0 (watts (p 2))
    let s := { s with power := { s.power with ms := s.power.ms ++ [est] } }
    let s := shareOut (allocate p (classOrder s) (fget s F.pwrCapWatts 0 0 * 10000000 - fixed)).reverse 0 s
    let s := noteSlow (putDuties (fset s F.pwrStatCapped 0 0 (bitNat (capped s))))
    let s := if capped s then fcount s F.pwrThrotCapus 0 0 10 else s
    let s := if (convoyRate s).isSome then fcount s F.pwrConvstatFollowus 0 0 10 else s
    .next (shares.foldl countEnergy s)

/-- The gain after a calibration (R534). -/
def newGain (g meas sum n : Nat) : Nat :=
  let v := meas * n * 10000000
  let r := if 105 * sum ≤ 100 * v then g * 21 / 20 else if 100 * v ≤ 95 * sum then g * 19 / 20 else g * v / sum
  max 2048 (min 8192 r)

/-- `POWER_CALIBRATION` (R534): every 1 ms, with the shunt's reading as `PWR_MEAS` shows it. -/
def execPowerCalibration (meas : Nat) (s : State) : Host.Outcome State Fault Refusal :=
  if powerState s = 3 then .next s
  else
    let s := fset (fset (fset s F.pwrMeasVin 0 0 (bitsOf meas 0 16)) F.pwrMeasIin 0 0 (bitsOf meas 16 16))
      F.pwrMeasWatts 0 0 (bitsOf meas 32 16)
    let n := s.power.ms.length
    let sum := s.power.ms.sum
    let s := { s with power := { s.power with ms := [] } }
    .next (if sum = 0 then s
      else fset s F.pwrEstGain 0 0 (newGain (fget s F.pwrEstGain 0 0) (bitsOf meas 32 16) sum n))

/-- A write of the cap (R535). -/
def putCap (s : State) (w : RegWrite) : State :=
  if !covered w.half F.pwrCapWatts then s
  else
    let v := wval w F.pwrCapWatts
    if v < 600 ∨ 2400 < v ∨ v < floorSum s then powerFlag s F.pwrStatCapref else fset s F.pwrCapWatts 0 0 v

/-- `CAP_WRITE` (R535, R592): a write of `PWR_CAP`, or of `MG_CAP`, which OFF ignores. -/
def execCapWrite (src : MbSrc) (w : RegWrite) (s : State) : Host.Outcome State Fault Refusal :=
  match src with
  | .pcie => onBar true s fun s => .next (putCap s w)
  | .i3c => .next (if s.pins.vaux && powerState s != 3 then putCap s w else s)

/-- `FREQUENCY_STEP` (R538): one step of 25 MHz toward the clock wanted. DESIGN CHOICE (log 120): the first step after a
cold start, whose `FREQ` is 0, sets the clock to `FMIN`. -/
def execFrequencyStep (t : TileId) (s : State) : Host.Outcome State Fault Refusal :=
  let f := tileFreq s t.val
  let g := freqTarget s t.val
  if 2 ≤ powerState s ∨ f = g then .next s
  else .next (fset s F.pwrTileFreq 0 t.val (if f < g then max (f + 1) (fMin s) else f - 1))

/-! ### Droop and fill-light (R539 to R541) -/

/-- `DROOP` (R539). -/
def execDroop (t : TileId) (s : State) : Host.Outcome State Fault Refusal :=
  if 2 ≤ powerState s ∨ tget s.power.stretch t.val false then .next s
  else .next (fcount { s with power := { s.power with stretch := tset s.power.stretch t.val true } } F.pwrThrotDroops 0 0 1)

/-- `DROOP_END` (R539). -/
def execDroopEnd (t : TileId) (s : State) : Host.Outcome State Fault Refusal :=
  .next { s with power := { s.power with stretch := tdel s.power.stretch t.val } }

/-- `FILL_LIGHT_TIMEOUT` (R541): a core that has waited for `MAXUS` µs. -/
def execFillLightTimeout (n : CoreId) (s : State) : Host.Outcome State Fault Refusal :=
  onClock s (coreClock n.val) fun s =>
  if fillLevel s n.val = 0 then .next s else .next (modCore s n.val fun c => { c with unlit := some (c.running, c.cycle) })

/-! ### Rails off (R531, R545, R622) -/

/-- The registers that `VDD_AON` keeps: the security block, the management map and `PWR_STAT.SEQFAIL`. -/
def aonReg (e : Nat × Nat) : Bool :=
  (decide (0x600000 ≤ e.1 / 64) && decide (e.1 / 64 < 0x601000)) || decide (mgBase ≤ e.1 / 64) ||
  e.1 == F.pwrStatSeqfail.key 0 0

/-- Every `VIN` rail off: what lies in their domains is lost, the SMC goes on without the command it ran,
and its keys are emptied (R569, Table 17.8). -/
def railsOff (s : State) : State :=
  let s := fset (fset s F.secMbctlGo 0 0 0) F.mgMbctlGo 0 0 0
  { State.reset with
    pending := s.pending, regs := s.regs.filter aonReg, tcount := s.tcount, nv := s.nv, sec := s.sec,
    keys := { s.keys with page := [], transport := [], ephemeral := none },
    pins := { s.pins with pwrOk := false, thermN := true }, i3c := s.i3c, chip := s.chip, hostMem := s.hostMem,
    out := s.out, freeCtr := s.freeCtr }

/-! ### Thermal limits (R545) -/

/-- A compute tile's limit and duty under its hottest sensor. -/
def tileThermal (s : State) (t : Nat) (c : Int) : State :=
  let f := thermalLimit s t
  let d := thermalLimit s (4 + t)
  if 100 ≤ c then
    if fMin s < f then setThermal s t (f - 1) else setThermal s (4 + t) (min 7 (d + 1))
  else if c < 98 then
    if d ≠ 0 then setThermal s (4 + t) (d - 1) else setThermal s t (min 100 (f + 1))
  else s

/-- Memory and links throttled by a hot edge tile, and loosened again below 98 °C. -/
def edgeThermal (s : State) (hot cool : Bool) : State :=
  [8, 9].foldl (fun s k =>
    let f := thermalLimit s k
    if hot then setThermal s k (max 2 (f - 1)) else if cool then setThermal s k (min 16 (f + 1)) else s) s

/-- `THERMAL_STEP` (R545): every 100 µs, with the hottest sensor of E0, C0 to C3 and E1, each a signed byte. -/
def execThermalStep (temps : List Nat) (s : State) : Host.Outcome State Fault Refusal :=
  if temps.length ≠ 6 then .fault (.badOperand "one temperature for each of 6 tiles")
  else if powerState s = 3 then .next s
  else
    let c (i : Nat) : Int := signed8 (temps.getD i 0 % 256)
    let s := (List.range 4).foldl (fun s t => fset s F.pwrTileTemp 0 t (temps.getD (t + 1) 0)) s
    let s := fset s F.mgTempTemp 0 0 (leNat (temps.map (BitVec.ofNat 8)))
    let s := (List.range 4).foldl (fun s t => tileThermal s t (c (t + 1))) s
    let s := edgeThermal s (decide (100 ≤ c 0 ∨ 100 ≤ c 5)) (decide (c 0 < 98 ∧ c 5 < 98))
    let limited := (List.range 4).any fun t => decide (thermalLimit s t < 100)
    let s := if limited then raiseAlert (powerFlag s F.pwrStatThermal) F.mgAlertThermal else fset s F.pwrStatThermal 0 0 0
    let all := (List.range 6).map c
    let thermN := if all.any (fun x => decide (105 ≤ x)) then false else s.pins.thermN || all.all (fun x => decide (x < 100))
    let s := noteSlow (putDuties { s with pins := { s.pins with thermN := thermN } })
    if all.any (fun x => decide (110 ≤ x)) then
      let pin := s.pins.thermN
      let s := railsOff (deviceFault s)
      .next { s with pins := { s.pins with thermN := pin } }
    else .next s

/-! ### IDLE and RETAIN (R532, R533) -/

/-- `IDLE_ENTRY` (R533). -/
def execIdleEntry (s : State) : Host.Outcome State Fault Refusal :=
  if powerState s ≠ 0 ∨ deviceBusy s then .next s else .next (fset s F.pwrStatState 0 0 1)

/-- RETAIN left. -/
def leaveRetain (s : State) : State :=
  let s := (List.range 16).foldl (fun s ch => if fget s F.ddrStatState ch 0 = 4 then fset s F.ddrStatState ch 0 2 else s) s
  fset s F.pwrStatState 0 0 0

/-- A write of `PWR_CTL.REQ`, which reads 0 once acted on; RETAIN waits for the mailbox command that runs (R569). -/
def pwrCtl (s : State) (w : RegWrite) : State :=
  if !covered w.half F.pwrCtlReq then s
  else
    match wval w F.pwrCtlReq with
    | 1 =>
      if powerState s ≠ 0 ∧ powerState s ≠ 1 then s
      else if mbBusy s then fset s F.pwrCtlReq 0 0 1
      else retain s
    | 2 => if powerState s = 2 then leaveRetain s else s
    | 3 => rangeErr s
    | _ => s

/-- `RETAIN_REQUEST` (R533). -/
def execRetainRequest (w : RegWrite) (s : State) : Host.Outcome State Fault Refusal :=
  onBar true s fun s => .next (pwrCtl s w)

/-- `RETAIN_EXIT` (R533). -/
def execRetainExit (w : RegWrite) (s : State) : Host.Outcome State Fault Refusal :=
  onBar true s fun s => .next (pwrCtl s w)

end Sys2Proof.Machine
end

