-- ==== Sys2Proof/Machine/Resets.lean ====
section
/-! DEFINITION. Resets and supplies (R43, R443, R531, R568, R588 to R590, R616 to R622): the warm reset, its causes, the
cold start, the power-down and the events of the supply pins. -/

namespace Sys2Proof.Machine

/-! ### The warm reset, unit by unit -/

/-- A frame built afresh in the same granules and segments (R436, R443). -/
def freshFrame (fr : Frame) : Frame := { frameInit with gran := fr.gran, segs := fr.segs }

/-- A core after a warm reset: empty, its code, its places and its use kept, so that a test under way goes on (Tables 6.9
and 8.7, R99, R443, R528). -/
def resetCore (c : Core) : Core :=
  let homes := c.frames.filter (fun e => decide (e.1 < 8))
  { c with
    running := none, hold := 0, wait := false, holdCyc := 0, waitCyc := 0
    frames := homes.map fun e => (e.1, freshFrame e.2)
    blank := c.vmap.map (·.1)
    recv := [], scratch := [], poison := [], acc := [], qa := [], qb := [], edgeA := [], edgeB := []
    flight := [], fast := []
    granOwner := c.granOwner.filter (fun e => !(decide (64 ≤ e.2) && decide (e.2 < 128)))
    segOwner := c.segOwner.filter (fun e => !(decide (64 ≤ e.2) && decide (e.2 < 128)))
    chans := c.chans.map fun e => (e.1, { e.2 with pause := false, intPause := false, paused := false, xfer := none })
    takes := [], seq := 0, shadow := [], stop := none
    mirrors := c.mirrors.map fun e =>
      (e.1, { e.2 with image := e.2.image.map fun _ => ⟨freshFrame (frameOf c e.1), [], [], []⟩, coming := none })
    replaces := [], entries := [], prios := [], dbgHalt := false, throttled := false, unlit := none }

/-- Migrations under way abandoned: the pages stay where they are. -/
def dropMoves (s : State) (r : Nat) : State :=
  (ctx s r).vs.pages.foldl
    (fun s e =>
      match e.2.move with
      | some m => modPage (dropFrame s m.loc m.frame) r e.1 fun p => { p with move := none }
      | none => s) s

/-- The ring's head after a warm reset (R396): in REPLAY the start of the earliest `SUBMIT` of a step not completed. -/
def resetHead (s : State) (r : Nat) : State :=
  match logReplay s r, (ctx s r).log.subs.head? with
  | true, some e => cset s r F.ctxLogHeadCount 0 e.2
  | _, _ => s

/-- What a context keeps (R443). -/
def resetCtx (x : Ctx) : Ctx :=
  { x with
    queue := [], step := none, floats := [], ended := [], colls := [], checks := [], fbReqs := [], held := []
    coalesce := false
    vs := { x.vs with wrote := [], shipping := [], waits := [] }
    log := { x.log with q := [], replay := if x.log.subs.isEmpty then x.log.replay else [], subs := [], due := [], unbound := x.log.unbound.filter (fun e => !x.log.q.contains e) } }

/-- A context's copies: a shelving is abandoned, a return too, and a shelf is lost (R436, R443). -/
def resetCopies (s : State) (r : Nat) : State :=
  let x := ctx s r
  let s := match x.st with
    | .shelving => modCtx s r fun c => { c with st := .resident }
    | .returning => abandonReturn s r
    | _ => s
  let s := if (ctx s r).st = .shelved then modCtx s r fun c => { c with res := { c.res with shelf := [], shelfLost := true } } else s
  if x.res.disableReq ∧ (x.st = .shelving ∨ x.st = .returning) then beginDisable s r else settleDisable s r

/-- A warm reset of one context (R332, R372, R396, R443, R467, R490). -/
def resetContext (s : State) (r : Nat) : State :=
  if !registered (ctx s r) then s
  else
    let s := resetHead s r
    let s := modCtx s r resetCtx
    let s := [F.ctxCollstatDone0, F.ctxCollstatDone1, F.ctxCollstatFail, F.ctxCollstatFailq, F.ctxCollstatFailidx].foldl
      (fun s f => cset s r f 0 0) s
    let s := reelFail (cutPg (printFail s r 5) r) r 7
    resetCopies (dropMoves s r) r

/-- A port under a warm reset: OFF, unless it is RETIRED (R370, Table 10.3). -/
def resetPort (s : State) (p : Nat) : State := if portState s p = 9 then s else toOff s p

/-- The fields that a warm reset clears (R279, R371, R445, R528, R570, R594, R613, R495). DESIGN CHOICE (log 96): of
the fabric registers, and of `LNK_CTL` but for `EN`, it keeps what R370 and R371 do not name. -/
def resetFields (s : State) : State :=
  let s := [F.secStatBoot, F.secStatBooterr, F.secMbctlGo, F.secMbstatDone, F.secMbstatResult, F.secMbstatResplen,
    F.mgMbctlGo, F.hostFwctlGo, F.hostStatUnsuplink, F.hostStatFwwant, F.hostStatReady, F.schedStatSwaps,
    F.schedStatNofit, F.relWrapGo, F.relWrapState, F.pairStatState, F.pairCtlEn,
    F.glbErrBadacc, F.glbErrLocked, F.glbErrRange, F.glbIrqstatDevfault, F.glbIrqstatPort, F.glbIrqstatPower,
    F.glbIrqstatTime, F.glbIrqstatPair, F.glbIrqstatRefuse].foldl (fun s f => fset s f 0 0 0) s
  let s := (List.range 8).foldl (fun s i => fset s F.hostIngcfgEn 0 i 0) s
  let s := (List.range 64).foldl (fun s i => fset s F.fabRqcfgEn 0 i 0) s
  (List.range 64).foldl (fun s i => fset s F.bmvStatState i 0 0) s

/-- The fields of the timecode block that events change, as they stood (R407). -/
def keepTime (old s : State) : State :=
  [F.tcStatState, F.tcStatStratum, F.tcStatUpport, F.tcStatMasterdev, F.tcStatAlarm, F.tcStatConflict, F.tcStatBehind,
    F.tcOffsetTheta, F.tcOffsetDelay].foldl (fun s f => fset s f 0 0 (fget old f 0 0))
    { s with time := { old.time with launches := [] } }

/-- A warm reset (R43, R443): what every block says it does. -/
def warmReset (s : State) : State :=
  let renewing := fget s F.pairStatState 0 0 == 4
  let s := fcount s F.glbStatWarmcnt 0 0 1
  let s := (List.finRange 64).foldl bulkStop s
  let s : State := { s with cores := s.cores.map (fun e => (e.1, resetCore e.2)) }
  let s := (s.ctxs.map (·.1)).foldl resetContext s
  let s := keepTime s ((List.range 48).foldl resetPort s)
  let s := emptyKeys s
  let s := if powerState s = 2 then leaveRetain s else s
  let s := resetFields s
  { s with
    tokens := []
    fab := { s.fab with reqs := [], rqUnits := [], ingUnits := [], lineTot := [], stalled := [] }
    power := { s.power with limits := [], thermal := [], capSince := none, announced := none }
    pair := ⟨[], [], false, s.pair.renewed || renewing⟩
    faulted := false
    jtag := { s.jtag with scanned := [] }
    pcie := { s.pcie with d3 := false, resetting := true } }

/-- The SMC wants firmware once the link is in L0 and nothing holds the device in reset (R568, R578). -/
def wantFirmware (s : State) : State :=
  if s.pcie.link ∧ !s.jtag.held then { fset s F.hostStatFwwant 0 0 1 with pcie := { s.pcie with resetting := false } } else s

/-- A warm reset that keeps the link (Table 18.7). -/
def resetKeepingLink (s : State) : State := if powerState s = 3 then s else wantFirmware (warmReset s)

/-- `WARM_RESET` (R443). -/
def execWarmReset (s : State) : Host.Outcome State Fault Refusal := .next (resetKeepingLink s)

/-- `RST` (R588): a write of `GLB_CTL`. -/
def execRst (w : RegWrite) (s : State) : Host.Outcome State Fault Refusal :=
  onBar false s fun s =>
  .next (if wbit w F.glbCtlRst then resetKeepingLink s else s)

/-- `FUNCTION_LEVEL_RESET` (R588). -/
def execFunctionLevelReset (s : State) : Host.Outcome State Fault Refusal :=
  .next (if s.pcie.link then resetKeepingLink s else s)

/-- `PERST_N` (R588, R622): ignored while `PWR_EN` is low but for the level of the pin. -/
def execPerstN (s : State) : Host.Outcome State Fault Refusal :=
  let s := { s with pins := { s.pins with perstN := false } }
  if !s.pins.pwrEn ∨ powerState s = 3 then .next s
  else
    let s := warmReset s
    .next { s with pcie := { s.pcie with training := false, link := false } }

/-- PCIe training begins once `PERST_N` and `PWR_OK` are high (R620, R622). -/
def beginPcie (s : State) : State :=
  if s.pins.perstN ∧ s.pins.pwrOk ∧ !s.pcie.link then { s with pcie := { s.pcie with training := true } } else s

/-- `PERST_N_DEASSERT` (R620). -/
def execPerstNDeassert (s : State) : Host.Outcome State Fault Refusal :=
  .next (beginPcie { s with pins := { s.pins with perstN := true } })

/-- `PCIE_LINK_L0` (R571, R578): the rate in GT/s, the width, and whether all else is as Table 18.1 has it. -/
def execPcieLinkL0 (rate width : Nat) (ok : Bool) (s : State) : Host.Outcome State Fault Refusal :=
  if !s.pcie.training then .next s
  else
    let code := if rate = 64 then 2 else if rate = 32 then 1 else 0
    let s := fset (fset s F.hostStatRate 0 0 code) F.hostStatWidth 0 0 width
    let s := { s with pcie := { s.pcie with training := false } }
    if ok ∧ code ≠ 0 ∧ (width = 16 ∨ width = 8) then
      .next (wantFirmware { s with pcie := { s.pcie with link := true } })
    else .next (fset s F.hostStatUnsuplink 0 0 1)

/-- `D3HOT` (R572). -/
def execD3hot (s : State) : Host.Outcome State Fault Refusal :=
  .next (if s.pcie.link then { s with pcie := { s.pcie with d3 := true } } else s)

/-- `D3HOT_EXIT` (R572). -/
def execD3hotExit (s : State) : Host.Outcome State Fault Refusal := .next { s with pcie := { s.pcie with d3 := false } }

/-! ### JTAG (R568) -/

/-- `EXTEST`, `CLAMP` and `HIGHZ` (R568): the key store emptied, the device held as under a warm reset. -/
def jtagHold (s : State) : State :=
  if powerState s = 3 then s
  else
    let s := warmReset s
    { s with jtag := { s.jtag with held := true } }

/-- `EXTEST` (R568). -/
def execExtest (s : State) : Host.Outcome State Fault Refusal := .next (jtagHold s)

/-- `CLAMP` (R568). -/
def execClamp (s : State) : Host.Outcome State Fault Refusal := .next (jtagHold s)

/-- `HIGHZ` (R568). -/
def execHighz (s : State) : Host.Outcome State Fault Refusal := .next (jtagHold s)

/-- `TEST_LOGIC_RESET` (R568). -/
def execTestLogicReset (s : State) : Host.Outcome State Fault Refusal :=
  .next (if s.jtag.held then wantFirmware { s with jtag := { s.jtag with held := false } } else s)

/-! ### Supplies (R529 to R531, R616 to R622) -/

/-- A core at cold start: repaired, or retired for this start (R524). -/
def coldCores (s : State) : State :=
  ((List.range 1344).filter fun n => coreRetired s n || sparesOut s n).foldl
    (fun s n => modCore s n fun c => { c with use := 2 }) s

/-- Ports retired in the repair store (Table 10.3). -/
def coldPorts (s : State) : State :=
  ((List.range 48).filter (portRetired s)).foldl (fun s p => fset s F.lnkStatState p 0 9) s

/-- `COLD_START` (R531, R608, R620): `PWR_EN` asserts while `VAUX` is present and the device is off. -/
def execColdStart (s : State) : Host.Outcome State Fault Refusal :=
  if !s.pins.vaux ∨ s.pins.pwrEn then .next s
  else
    let nv := { s.nv with starts := max s.nv.starts (min (2 ^ 32 - 1) (s.nv.starts + 1)) }
    let t : State := { State.reset with
      pending := s.pending, nv := nv, i3c := s.i3c, chip := s.chip, hostMem := s.hostMem, out := s.out,
      freeCtr := s.freeCtr,
      pins := { s.pins with pwrEn := true, pwrOk := true, alertN := true, thermN := true, tcRef := true },
      power := { State.reset.power with railsUp := true } }
    let t := fset t F.pwrStatState 0 0 0
    .next (beginPcie (coldPorts (coldCores t)))

/-- The rails off before the sequence or the device is done with (R531, R622): `SEQFAIL`, until `PWR_EN` goes low. -/
def seqFail (s : State) : State :=
  raiseAlert (fset (railsOff s) F.pwrStatSeqfail 0 0 1) F.mgAlertSeqfail

/-- `RAIL_SEQUENCE_TIMEOUT` (R531): `PWR_EN` asserts, and a group does not reach regulation. -/
def execRailSequenceTimeout (group : BitVec 3) (s : State) : Host.Outcome State Fault Refusal :=
  if !s.pins.vaux ∨ s.power.railsUp ∨ 4 < group.toNat then .next s
  else .next (seqFail { s with pins := { s.pins with pwrEn := true } })

/-- `VIN_UNDERVOLTAGE` (R622). -/
def execVinUndervoltage (s : State) : Host.Outcome State Fault Refusal :=
  if !s.pins.pwrEn ∨ !s.power.railsUp then .next s else .next (seqFail s)

/-- `POWER_DOWN` (R531, R621, Table 17.8). -/
def execPowerDown (s : State) : Host.Outcome State Fault Refusal :=
  if !s.pins.pwrEn then .next s
  else
    let s := railsOff s
    .next { s with sec := { s.sec with dbg := 0 }, pins := { s.pins with pwrEn := false } }

/-- `VAUX_LOSS` (R618, R622): all volatile state is lost. -/
def execVauxLoss (s : State) : Host.Outcome State Fault Refusal :=
  .next { State.reset with
    pending := s.pending, nv := s.nv, chip := s.chip, hostMem := s.hostMem, out := s.out, freeCtr := s.freeCtr
    tcount := s.tcount
    pins := { State.reset.pins with pwrEn := s.pins.pwrEn, perstN := s.pins.perstN } }

/-- `VAUX_PRESENT` (R617): the SMC runs and samples the straps. -/
def execVauxPresent (sl : BitVec 2) (rcls : BitVec 2) (s : State) : Host.Outcome State Fault Refusal :=
  .next (if s.pins.vaux then s else { s with pins := { s.pins with vaux := true, slot := sl, rcls := rcls } })

/-- `TC_REF_LOSS` (R622). -/
def execTcRefLoss (s : State) : Host.Outcome State Fault Refusal :=
  if !s.power.railsUp then .next s else .next (deviceFault { s with pins := { s.pins with tcRef := false } })

end Sys2Proof.Machine
end

