-- ==== Sys2Proof/Machine/HostBus.lean ====
section
/-! DEFINITION. The host's accesses to BAR2 (R574 to R577): the segments and the ingest windows. -/

namespace Sys2Proof.Machine

/-- Whether BAR2 serves accesses: not in RETAIN, and not after a wrap test (R522, Table 17.8). -/
def bar2Open (s : State) : Bool := writeOpen s false

/-- The answer to a read of the host. -/
def busRead (s : State) (bs : Bytes) : State := emit s (.busRead bs)

/-- An access that is not served: a read returns all ones, a write is discarded. -/
def onesOrNothing (s : State) (n : Nat) (write : Bool) : State :=
  if write then s else busRead s (List.replicate n 0xFF#8)

/-- A refused access (R575). -/
def b2Refuse (s : State) (n : Nat) (write : Bool) : State := onesOrNothing (fcount s F.hostStatB2refused 0 0 1) n write

/-- Whether a page of an access is `PROTECTED`. -/
def touchesProt (s : State) (r va n : Nat) : Bool :=
  (pagesOf va n).any fun pg => ((tfind (ctx s r).vs.pages pg).map (·.prot)).getD false

/-- An access in a context's space (R575); one that must wait leaves everything as it is. -/
def b2Virtual (s : State) (r va n : Nat) (data : Option Bytes) : State :=
  if !registered (ctx s r) ∨ 2 ^ 48 < va + n ∨ touchesProt s r va n then b2Refuse s n data.isSome
  else if reelHole s r va n ∨ (data.isSome ∧ lineShips s r va n) then s
  else
    match touchPages (pagesOf va n) s r data.isSome (.host n data.isSome) with
    | (t, .ok) =>
      match data with
      | some bs => putText t r va bs []
      | none => busRead t (vsRead (ctx t r).vs va n)
    | (t, .wait) => t
    | (t, .fault _) => b2Refuse t n data.isSome

/-- A read of a physical address (R296, R302, R575): the frames of unprotected pages, and the system area. -/
def b2Physical (s : State) (p n : Nat) : State :=
  let f := pageOf p
  if pageOf (p + n - 1) ≠ f then b2Refuse s n false
  else if f < allFrames s ∧ allFrames s ≤ f + 8192 then busRead s ((List.range n).map fun i => systemRead s (p + i))
  else
    match tfind s.frames f with
    | some (.page r pg) =>
      match tfind (ctx s r.val).vs.pages pg with
      | some e =>
        if e.prot then b2Refuse s n false else busRead s (vsRead (ctx s r.val).vs (pg * 2 ^ 21 + p % 2 ^ 21) n)
      | none => b2Refuse s n false
    | _ => b2Refuse s n false

/-! ### Ingest windows (R577) -/

/-- The bytes of a unit of a window. -/
def ingUnit (s : State) (i : Nat) : Nat := 64 * 2 ^ fget s F.hostIngcfgUnitlog2 0 i

/-- The units of a window. -/
def ingSize (s : State) (i : Nat) : Nat := fget s F.hostIngcfgUnits 0 i

/-- The enabled window that holds an offset. -/
def windowAt (s : State) (off : Nat) : Option Nat :=
  (List.range 8).find? fun i =>
    fbit s F.hostIngcfgEn 0 i && decide (fget s F.hostIngcfgB2off 0 i ≤ off) &&
    decide (off < fget s F.hostIngcfgB2off 0 i + ingSize s i * ingUnit s i)

/-- Where a window's whole total is kept, beside the units that have landed; the register shows it modulo 2^32. -/
def ingTotalKey (i : Nat) : Nat := i * 2 ^ 33 + 2 ^ 32

/-- The units of a window that have landed in order, counted. -/
def ingTotal (s : State) (i : Nat) : Nat := tget s.fab.ingUnits (ingTotalKey i) 0

/-- The index of the unit that the next write of a position fills. -/
def ingIndex (s : State) (i pos : Nat) : Nat :=
  let t := ingTotal s i
  let m := ingSize s i
  t + (pos + m - t % m) % m

/-- Whether a window takes a write: whole units whose indices lie in reach of the total. -/
def ingTakes (s : State) (i off n : Nat) : Bool :=
  let u := ingUnit s i
  let o := off - fget s F.hostIngcfgB2off 0 i
  let m := ingSize s i
  n != 0 && o % u == 0 && n % u == 0 && decide (o + n ≤ m * u) &&
  (List.range (n / u)).all fun j => decide (ingIndex s i (o / u + j) < ingTotal s i + min m 4096)

/-- A counted unit logged (Table 11.4); in REPLAY one that diverges fails the step (R398). -/
def logUnit (s : State) (i r pos : Nat) : State :=
  let u := ingUnit s i
  let va := fget s F.hostIngdstVa 0 i + pos * u
  let key := va + 0xFFFF * 2 ^ 64 + 0xFFFF * 2 ^ 80 + 2 * 2 ^ 96
  let data := fget s F.hostIngcfgB2off 0 i + pos * u + u * 2 ^ 64 + 2 ^ 96
  let p := logInput s r none key data (vsRead (ctx s r).vs va u)
  if p.2.isSome then modCtx p.1 r fun c => { c with step := c.step.map noteDiverged } else p.1

/-- The total advanced past the units that have landed in order, at most `k` of them. -/
def ingAdvance (i r : Nat) : Nat → State → State
  | 0, s => s
  | k + 1, s =>
    let t := ingTotal s i
    let pos := t % ingSize s i
    if (tfind s.fab.ingUnits (i * 2 ^ 33 + pos)).isNone then s
    else
      let units := tset (tdel s.fab.ingUnits (i * 2 ^ 33 + pos)) (ingTotalKey i) (t + 1)
      let s := { s with fab := { s.fab with ingUnits := units } }
      ingAdvance i r k (logUnit (fset s F.hostIngtotTotal 0 i (t + 1)) i r pos)

/-- A write to a window: its units land in the owner's space and are counted in order. -/
def ingWrite (s : State) (i off : Nat) (bs : Bytes) : State :=
  let r := fget s F.hostIngcfgOwner 0 i
  let u := ingUnit s i
  let pos := (off - fget s F.hostIngcfgB2off 0 i) / u
  let va := fget s F.hostIngdstVa 0 i + pos * u
  let n := bs.length
  if !registered (ctx s r) ∨ !ingTakes s i off n ∨ 2 ^ 48 < va + n then b2Refuse s n true
  else
    match cvWrite s r va bs [] (.host n true) with
    | (s, .ok) =>
      let put (t : Tbl Nat) (j : Nat) : Tbl Nat := tset t (i * 2 ^ 33 + pos + j) 1
      let s := { s with fab := { s.fab with ingUnits := (List.range (n / u)).foldl put s.fab.ingUnits } }
      ingAdvance i r (min (ingSize s i) 4096) s
    | (s, .wait) => s
    | (s, .fault _) => b2Refuse s n true

/-- `INGEST_WRITE` (R577). -/
def execIngestWrite (off : Nat) (data : Bytes) (s : State) : Host.Outcome State Fault Refusal :=
  if !bar2Open s then .next s
  else
    match windowAt s off with
    | some i => .next (ingWrite s i off data)
    | none => .next s

/-- `BAR2_ACCESS` (R575): a read of `size` bytes, or a write of data. -/
def execBar2Access (off size : Nat) (data : Option Bytes) (s : State) : Host.Outcome State Fault Refusal :=
  let n := (data.map (·.length)).getD size
  if n = 0 ∨ 2 ^ 34 < off + n then .fault (.badOperand "an access outside BAR2")
  else if !bar2Open s then .next (onesOrNothing s n data.isSome)
  else
    match windowAt s off, data with
    | some i, some bs => .next (ingWrite s i off bs)
    | some _, none => .next (b2Refuse s n false)
    | none, _ =>
      let seg := off / 2 ^ 31
      let a := fget s F.hostB2mapBase 0 seg * 2 ^ 21 + off % 2 ^ 31
      match fget s F.hostB2mapMode 0 seg with
      | 1 => .next (b2Virtual s (fget s F.hostB2mapRegnum 0 seg) a n data)
      | 2 => .next (if data.isSome then b2Refuse s n true else b2Physical s a n)
      | _ => .next (onesOrNothing s n data.isSome)

/-! ### Accesses that found no place (R306) -/

/-- The burst of a channel whose write waits for a page: of those read, the first that touches it. -/
def waitingBurst (s : State) (ch : ChanRef) (pg : Nat) : Nat :=
  let at_ (x : Xfer) (b : Burst) : Bool :=
    let a := xfDst x.desc + b.off
    xfDsp x.desc == 2 && b.data.isSome && decide (a < (pg + 1) * 2 ^ 21 ∧ pg * 2 ^ 21 < a + b.len)
  match chXfer s ch with
  | some x => ((x.flight.find? (at_ x)).map (·.k)).getD x.issued
  | none => 0

/-- Whether a collective stands at an entry of its queue: it runs, or its descriptor is being read. -/
def collStands (s : State) (r e idx : Nat) : Bool :=
  let q := tget (ctx s r).colls e collInit
  q.dead.isNone && (q.head == idx || q.running.any (fun x => x.idx == idx))

/-- An access that has waited too long for a page faults (R306): a channel with `MV_UNMAPPED`; a collective as one whose
access faults; an access of the host is refused; a reel fails as for its quota (PRESUMED, log 152). -/
def placeFail (s : State) (r pg : Nat) (w : Waiter) : State :=
  match w with
  | .chan ch => if (chXfer s ch).isSome then moverFault s ch (waitingBurst s ch pg) 0x1A else s
  | .coll e idx => if collStands s r e.val idx then collFail s e.val r idx stCore else s
  | .host n write => b2Refuse s n write
  | .reel => reelFail s r 5
  | .access => s

/-- `PLACEMENT_TIMEOUT` (R306): the accesses to a page that has found no place fault, where it still has none. -/
def execPlacementTimeout (r : CtxId) (va : Nat) (s : State) : Host.Outcome State Fault Refusal :=
  onClock s (pageClock (pageOf va)) fun s =>
  let ws := (ctx s r.val).vs.waits.filter (fun w => w.1 == pageOf va)
  let s := modCtx s r.val fun c => { c with vs := { c.vs with waits := c.vs.waits.filter (fun w => w.1 != pageOf va) } }
  .next (if (tfind (ctx s r.val).vs.pages (pageOf va)).isSome then s
    else (ws.map (·.2)).foldl (fun s w => placeFail s r.val (pageOf va) w) s)

end Sys2Proof.Machine
end

