-- ==== Sys2Proof/Machine/I3c.lean ====
section
/-! DEFINITION. The I3C target (R591 to R593): addresses, the CCCs it supports, and private writes to its map. -/

namespace Sys2Proof.Machine

/-- The target changed, where `VAUX` is present. -/
def i3cSet (s : State) (f : I3c → I3c) : State := if s.pins.vaux then { s with i3c := f s.i3c } else s

/-- The target's answer to a CCC directed at its dynamic address; without one it does not acknowledge. -/
def i3cAnswer (s : State) (bs : Bytes) : State :=
  if s.pins.vaux && s.i3c.addr.isSome then emit s (.i3c bs) else s

/-- The answer of a characteristic that the spec does not state, of `n` bytes. -/
def i3cOpen (s : State) (n : Nat) : State :=
  let v := drawFree s
  i3cAnswer v.2 (leBytes n v.1)

/-- `ENTDAA` (R591): a target that has no dynamic address takes the one assigned. -/
def execEntdaa (addr : BitVec 7) (s : State) : Host.Outcome State Fault Refusal :=
  .next (i3cSet s fun i => { i with addr := some (i.addr.getD addr) })

/-- `SETDASA` (R591), sent to the static address 0x60 + `SLOT`. -/
def execSetdasa (addr : BitVec 7) (s : State) : Host.Outcome State Fault Refusal :=
  .next (i3cSet s fun i => { i with addr := some (i.addr.getD addr) })

/-- `SETNEWDA` (R591). -/
def execSetnewda (addr : BitVec 7) (s : State) : Host.Outcome State Fault Refusal :=
  .next (i3cSet s fun i => { i with addr := i.addr.map fun _ => addr })

/-- `RSTDAA` (R591). -/
def execRstdaa (s : State) : Host.Outcome State Fault Refusal := .next (i3cSet s fun i => { i with addr := none })

/-- `GETPID` (R591): six bytes. -/
def execGetpid (s : State) : Host.Outcome State Fault Refusal := .next (i3cOpen s 6)

/-- `GETBCR` (R591). -/
def execGetbcr (s : State) : Host.Outcome State Fault Refusal := .next (i3cOpen s 1)

/-- `GETDCR` (R591). -/
def execGetdcr (s : State) : Host.Outcome State Fault Refusal := .next (i3cOpen s 1)

/-- `GETSTATUS` (R591). -/
def execGetstatus (s : State) : Host.Outcome State Fault Refusal := .next (i3cOpen s 2)

/-- `ENEC` (R591): bit 0 enables in-band interrupts. -/
def execEnec (mask : BitVec 8) (s : State) : Host.Outcome State Fault Refusal :=
  .next (i3cSet s fun i => { i with ibi := i.ibi || mask.getLsbD 0 })

/-- `DISEC` (R591). -/
def execDisec (mask : BitVec 8) (s : State) : Host.Outcome State Fault Refusal :=
  .next (i3cSet s fun i => { i with ibi := i.ibi && !mask.getLsbD 0 })

/-- `SETMWL` (R591). -/
def execSetmwl (len : BitVec 16) (s : State) : Host.Outcome State Fault Refusal :=
  .next (i3cSet s fun i => { i with mwl := len })

/-- `GETMWL` (R591), most significant byte first. -/
def execGetmwl (s : State) : Host.Outcome State Fault Refusal := .next (i3cAnswer s (leBytes 2 s.i3c.mwl.toNat).reverse)

/-- `SETMRL` (R591). -/
def execSetmrl (len : BitVec 16) (s : State) : Host.Outcome State Fault Refusal :=
  .next (i3cSet s fun i => { i with mrl := len })

/-- `GETMRL` (R591): the length, most significant byte first, and the one byte of an in-band interrupt. -/
def execGetmrl (s : State) : Host.Outcome State Fault Refusal :=
  .next (i3cAnswer s ((leBytes 2 s.i3c.mrl.toNat).reverse ++ [1]))

/-! ### Private writes (R592) -/

/-- What a write of bytes from an offset gives a field of the register at `base`: nothing where it does not cover all
the field's bytes. -/
def mgField (off : Nat) (bs : Bytes) (base : Nat) (f : Fld) : Option Nat :=
  let a := base + f.lo / 8
  let b := base + (f.lo + f.w - 1) / 8
  if off ≤ a ∧ b < off + bs.length then some (bitsOf (leNat ((bs.drop (a - off)).take (b + 1 - a))) (f.lo % 8) f.w) else none

/-- A bit of `MG_ALERT` or `MG_MBCTL` cleared by a write of 1. -/
def mgClear (off : Nat) (bs : Bytes) (base : Nat) (s : State) (f : Fld) : State :=
  if mgField off bs base f = some 1 then fset s f 0 0 0 else s

/-- The offset of `MG_ALERT`, `MG_CAP` and `MG_MBCTL` in the map (Table 18.8). -/
def mgAlertAt : Nat := 0x10
def mgCapAt : Nat := 0x28
def mgMbctlAt : Nat := 0x1000

/-- `MG_ALERT` written. -/
def mgAlert (off : Nat) (bs : Bytes) (s : State) : State :=
  let s := [F.mgAlertDevfault, F.mgAlertSeqfail, F.mgAlertBootrej, F.mgAlertThermal].foldl (mgClear off bs mgAlertAt) s
  let s := match mgField off bs mgAlertAt F.mgAlertMask with
    | some v => fset s F.mgAlertMask 0 0 v
    | none => s
  alertPin s

/-- `MG_CAP` written (R535). -/
def mgCap (off : Nat) (bs : Bytes) (s : State) : State :=
  match mgField off bs mgCapAt F.mgCapWatts with
  | some v => if powerState s = 3 then s else putCap s ⟨.both, BitVec.ofNat 64 v⟩
  | none => s

/-- `MG_MBCTL` written: `LEN`, at most 8,192, then `DONE`, then `GO`. -/
def mgMbctl (off : Nat) (bs : Bytes) (s : State) : State :=
  let s := match mgField off bs mgMbctlAt F.mgMbctlLen with
    | some v => if v ≤ 8192 then fset s F.mgMbctlLen 0 0 v else s
    | none => s
  let s := mgClear off bs mgMbctlAt s F.mgMbctlDone
  if mgField off bs mgMbctlAt F.mgMbctlGo = some 1 then fset (noteRequest s .i3c) F.mgMbctlGo 0 0 1 else s

/-- Bytes written to `MG_MBDATA`. -/
def mgData (off : Nat) (bs : Bytes) (s : State) : State :=
  let own := (bs.zipIdx.filter fun e => decide (0x2000 ≤ off + e.2 ∧ off + e.2 < 0x4000))
  { s with i3c := { s.i3c with mbdata := own.foldl (fun m e => mset m (off + e.2 - 0x2000) e.1) s.i3c.mbdata } }

/-- `I3C_PRIVATE_WRITE` (R592, R593): a le16 offset, then data from that offset on. -/
def execI3cPrivateWrite (bytes : Bytes) (s : State) : Host.Outcome State Fault Refusal :=
  if bytes.length < 2 ∨ !s.pins.vaux then .next s
  else
    let off := leNat (bytes.take 2)
    let bs := bytes.drop 2
    let s := { s with i3c := { s.i3c with off := BitVec.ofNat 16 off } }
    .next (mgData off bs (mgMbctl off bs (mgCap off bs (mgAlert off bs s))))

end Sys2Proof.Machine
end

