-- ==== Sys2Proof/Machine/Splice.lean ====
section
/-! DEFINITION. The splice unit (R90 to R108): adding to an accumulator, the exact partial as it is written and read,
the final rounding of accumulators into a tile; and the instructions of the splice slot (R241 to R246). -/

namespace Sys2Proof.Machine

/-! ### Accumulators -/

/-- An addend of the splice unit: an exact value, the unit its window would sit at, class, poison, domain and tag. -/
structure Addend where
  v : Dy
  unit : Int
  esc : Bool
  cls : BitVec 2
  poison : Bool
  int : Bool
  tag : BitVec 8
  pos : Option Nat
  neg : Option Nat
  deriving DecidableEq, Repr

/-- The two's complement integer of `w` bits that a number stands for. -/
def sint (w v : Nat) : Int := if v % 2 ^ w ≥ 2 ^ (w - 1) then ((v % 2 ^ w : Nat) : Int) - 2 ^ w else ((v % 2 ^ w : Nat) : Int)

/-- The bits of an integer in `w`-bit two's complement. -/
def ubits (w : Nat) (v : Int) : Nat := (v % 2 ^ w).toNat

/-- Whether an integer fits in `w`-bit two's complement. -/
def fits (w : Nat) (v : Int) : Bool := decide (-(2 ^ (w - 1) : Int) ≤ v ∧ v < 2 ^ (w - 1))

/-- The value in whole units of `2^w`, where no set bit lies below (R92). -/
def inUnits (v : Dy) (w : Int) : Option Int :=
  if v.m = 0 then some 0
  else if w ≤ v.e then some (v.m * 2 ^ (v.e - w).toNat)
  else if v.m % 2 ^ (w - v.e).toNat = 0 then some (v.m / 2 ^ (w - v.e).toNat) else none

/-- The lower of two block indices, where there are any. -/
def minBlk : Option Nat → Option Nat → Option Nat
  | none, b => b
  | a, none => a
  | some a, some b => some (min a b)

/-- The view address of the wide form of accumulator `a` (R94); `wide` is the first granule of the area. -/
def wideAt (wide a : Nat) : Nat := wide * 32768 + 96 * a

/-- The exact value of an accumulator (Table 3.6). -/
def accVal (c : Core) (fr : Frame) (wide a : Nat) : Dy :=
  match (accOf c a).st with
  | .empty => ⟨0, 0⟩
  | .window w => ⟨(accOf c a).s, w⟩
  | .wide => ⟨sint 768 (leNat (vread c fr (wideAt wide a) 96)), -480⟩

/-- The wide form of an accumulator written. -/
def putWide (c : Core) (fr : Frame) (wide a : Nat) (v : Int) : Core :=
  vwrite c fr (wideAt wide a) (leBytes 96 (ubits 768 v))

/-- An accumulator set. -/
def setAcc (c : Core) (a : Nat) (x : SpAcc) : Core := { c with acc := tset c.acc a x }

/-- Hold cycles counted (R196). -/
def holdAdd (c : Core) (n : Nat) : Core := { c with holdCyc := min (2 ^ 64 - 1) (c.holdCyc + n) }

/-- The hold of a wide-form operation (R93): its cycles counted, and the core shown held with cause 0x1 until
`HOLD_END` (Table 6.3). -/
def holdWide (c : Core) (n : Nat) : Core := if n = 0 then c else { holdAdd c n with hold := 1 }

/-- The value of the wide form after an addition; one that overflows leaves the NaN class and an open value (R96).
DESIGN CHOICE (log 26): so does one whose exact sum has set bits below position -480. -/
def wideSum (c : Core) (fr : Frame) (wide a : Nat) (x : SpAcc) (old : Dy) (v : Dy) : Core :=
  let sum := dyAdd old v
  match inUnits sum (-480) with
  | some t =>
    if fits 768 t then setAcc (putWide c fr wide a t) a { x with st := .wide, s := 0 }
    else setAcc (putWide c fr wide a (sint 768 (Config.wideOverflow t 0).toNat)) a { x with st := .wide, s := 0, cls := 3 }
  | none =>
    setAcc (putWide c fr wide a (sint 768 (Config.wideOverflow sum.m sum.e).toNat)) a { x with st := .wide, s := 0, cls := 3 }

/-- One addition to an accumulator (R91, R92, R95, R96), the holds of R93 counted. -/
def accAdd (c : Core) (fr : Frame) (wide a : Nat) (d : Addend) : Core :=
  let o := accOf c a
  match o.st with
  | .empty =>
    let x : SpAcc := ⟨.window d.unit, 0, d.cls, d.poison, d.int, d.tag, d.pos, d.neg⟩
    if d.esc then wideSum (holdWide c 40) fr wide a x ⟨0, -480⟩ d.v
    else
      match inUnits d.v d.unit with
      | some t => if fits 192 t then setAcc c a { x with s := t } else wideSum (holdWide c 40) fr wide a x ⟨0, -480⟩ d.v
      | none => wideSum (holdWide c 40) fr wide a x ⟨0, -480⟩ d.v
  | st =>
    let clash := d.tag != o.tag || d.int != o.int
    let x : SpAcc :=
      { o with cls := if clash then 3 else o.cls ||| d.cls, poison := o.poison || d.poison,
               pos := minBlk o.pos d.pos, neg := minBlk o.neg d.neg }
    match st with
    | .window w =>
      match d.esc, inUnits d.v w with
      | false, some t =>
        if fits 192 (o.s + t) then setAcc c a { x with s := o.s + t }
        else wideSum (holdWide c 40) fr wide a x ⟨o.s, w⟩ d.v
      | _, _ => wideSum (holdWide c 40) fr wide a x ⟨o.s, w⟩ d.v
    | _ => wideSum (holdWide c 6) fr wide a x (accVal c fr wide a) d.v

/-- The unit of a block partial (Table 3.2, R85). -/
def Part.unit (p : Part) : Int := p.alpha - (if p.wide then 118 else 54)

/-- `Q` of a block partial, from its two halves (R84). -/
def Part.q (p : Part) : Int := (p.hi ++ p.lo).toInt

/-- The addend of a block partial: its window sits at its unit less 64 (R91). -/
def partAddend (p : Part) : Addend :=
  ⟨⟨p.q, p.unit⟩, p.unit - 64, false, p.cls, p.poison, p.int, p.tag,
   if p.cls.getLsbD 0 then some p.blk else none, if p.cls.getLsbD 1 then some p.blk else none⟩

/-- Accumulators back to EMPTY (R98, R99). -/
def clearAccs (c : Core) (as : List Nat) : Core := as.foldl (fun c a => setAcc c a accEmpty) c

/-- The `KBLOCK` of an output rounded from an accumulator of NaN class (R73). -/
def accKblock (x : SpAcc) : Nat :=
  match x.pos, x.neg with
  | some p, some q => max p q
  | _, _ => 0xFFFFFFFE

/-- What an accumulator holds, as the value that is rounded (R106, R107): its class governs; an exact zero is -0 in RDN
and +0 otherwise (R66). -/
def accNum (c : Core) (fr : Frame) (wide a : Nat) (rm : RMode) : Num :=
  clsNum (accOf c a).cls (dyNum (accVal c fr wide a) (rm == .rdn))

/-! ### Exact partials (R100 to R104) -/

/-- The canonical XP of an exact value, with the packet where it escapes (R102). DESIGN CHOICE (log 26): a value that
the wide form does not hold gives an open packet. -/
def xpBytes (v : Dy) (cls : BitVec 2) (poison int : Bool) (tag : BitVec 8) : Bytes :=
  let flags (esc : Nat) : Nat :=
    tag.toNat + 256 * esc + 512 * cls.toNat + (if poison then 2048 else 0) + (if int then 4096 else 0)
  if v.m = 0 then leBytes 2 0 ++ leBytes 12 0 ++ leBytes 2 (flags 0)
  else
    let p := dyLowBit v
    let w := v.m / 2 ^ (p - v.e).toNat
    if fits 96 w && decide (-32768 ≤ p ∧ p < 32768) then
      leBytes 2 (ubits 16 p) ++ leBytes 12 (ubits 96 w) ++ leBytes 2 (flags 0)
    else
      leBytes 2 (ubits 16 (-480)) ++ leBytes 12 0 ++ leBytes 2 (flags 1) ++
        leBytes 96 (match inUnits v (-480) with
          | some t => ubits 768 t
          | none => (Config.wideOverflow v.m v.e).toNat)

/-- The addend an XP stands for, and the bytes it takes of the stream (R100, R101, R104, R245): a malformed one has no value, and
one with `ESC` moves its accumulator to WIDE, malformed or not (Table 3.7). -/
def xpRead (bs : Bytes) : Addend × Nat :=
  let base := sint 16 (leNat (bs.take 2))
  let win := leNat ((bs.drop 2).take 12)
  let fl := leNat ((bs.drop 14).take 2)
  let esc := fl / 256 % 2 == 1
  let bad := fl / 8192 != 0 || (esc && (base != -480 || win != 0))
  let v : Dy := if esc then ⟨sint 768 (leNat ((bs.drop 16).take 96)), -480⟩ else ⟨sint 96 win, base⟩
  (⟨if bad then ⟨0, 0⟩ else v, base - 64, esc, if bad then 3 else BitVec.ofNat 2 (fl / 512),
    fl / 2048 % 2 == 1, fl / 4096 % 2 == 1, BitVec.ofNat 8 fl, none, none⟩, if esc then 112 else 16)

/-! ### Rounding a range of accumulators into a tile -/

/-- An output element: its place, its exact value, whether it carries poison. -/
structure OutElem where
  row : Nat
  col : Nat
  v : Num
  poison : Bool
  deriving DecidableEq, Repr

/-- The element writes of values rounded into a format other than MXFP4. -/
def roundPlain (d : Desc) (rm : RMode) (sr : SrIn) (es : List OutElem) : List EW × List ElemOut :=
  let rs := es.map fun e => (e, roundTo d.f rm (modeU rm sr e.row e.col) e.v)
  (rs.map (fun p => elemWrite d p.1.row p.1.col p.2.code p.1.poison),
   rs.map (fun p => ⟨p.1.row, p.1.col, numCls p.1.v, p.2.sat⟩))

/-- One MXFP4 block of a row: the scale from its written elements, their nibbles, and the padding nibbles at or beyond
the row's columns (R52, R53). DESIGN CHOICE (log 150): a poisoned element marks the word of its own nibble and that of
the scale, and not those of the other nibbles, which depend on it through the scale alone (R157). -/
def roundBlock (d : Desc) (rm : RMode) (sr : SrIn) (row blk : Nat) (es : List OutElem) : List EW × List ElemOut :=
  let xs := es.map (·.v)
  let sc := mxScale xs
  let z := mxZero xs
  let rs := es.map fun e => (e, mxElem z sc rm (modeU rm sr e.row e.col) e.v)
  let pad := ((List.range 32).filter (fun j => decide (d.cols ≤ 32 * blk + j))).map (fun j => elemWrite d row (32 * blk + j) 0 false)
  let p := es.any (·.poison)
  (bytesWrite (d.scaleAt row (32 * blk)) (leBytes 1 sc) p :: rs.map (fun q => elemWrite d q.1.row q.1.col q.2.code q.1.poison) ++ pad,
   rs.map (fun q => ⟨q.1.row, q.1.col, numCls q.1.v, q.2.sat⟩))

/-- MXFP4 rows: each block with a written element is written, the others are not (R53). -/
def roundMx (d : Desc) (rm : RMode) (sr : SrIn) (es : List OutElem) : List EW × List ElemOut :=
  let keys := (es.map (fun e => (e.row, e.col / 32))).dedup
  let bs := keys.map fun k => roundBlock d rm sr k.1 k.2 (es.filter (fun e => e.row == k.1 && e.col / 32 == k.2))
  ((bs.map (·.1)).flatten, (bs.map (·.2)).flatten)

/-- Values rounded once into a destination tile (R53, R59). -/
def roundTile (d : Desc) (rm : RMode) (sr : SrIn) (es : List OutElem) : List EW × List ElemOut :=
  if d.f = .mxfp4 then roundMx d rm sr es else roundPlain d rm sr es

/-- The `KBLOCK` of the first NaN among outputs whose accumulators are given. -/
def firstKblock (c : Core) (accs : List (OutElem × Nat)) : Nat :=
  match accs.find? (fun p => numCls p.1.v == 3) with
  | some p => accKblock (accOf c p.2)
  | none => 0xFFFFFFFF

/-- The number of accumulators of a list that are WIDE, each read holding the core for 24 cycles (R93). -/
def wideReads (c : Core) (as : List Nat) : Nat := (as.filter (fun a => (accOf c a).st == .wide)).length

/-- Accumulators rounded into a tile: the places with their accumulators, whether they are emptied after the read
(R98, R106, R243). -/
def roundAccs (s : State) (x : Cx) (wide : Nat) (d : Desc) (rm : RMode) (sr : SrIn) (places : List (Nat × Nat × Nat))
    (clr : List Nat) (status : Nat) : State :=
  let c := core s x.n
  let es := places.map fun p =>
    (({ row := p.1, col := p.2.1, v := accNum c x.fr wide p.2.2 rm, poison := (accOf c p.2.2).poison } : OutElem), p.2.2)
  let kb := firstKblock c es
  let r := roundTile d rm sr (es.map (·.1))
  let s := modCore s x.n fun c => clearAccs (holdWide c (24 * wideReads c (places.map (·.2.2)))) clr
  writeOut s x r.1 (some status) r.2 (es.any (fun e => e.1.poison)) d.fmt kb

/-! ### The instructions of the splice slot -/

/-- The first granule of the wide-form area of a take's virtual core (R94). -/
def wideOf (s : State) (n k : Nat) : Option Nat := (keyImage s n k).bind (·.wide)

/-- The causes common to splice instructions: no wide-form area (R246). -/
def wideCauses (s : State) (x : Cx) : List Nat := if (wideOf s x.n x.k).isSome then [] else [9]

/-- The causes for which the status word's place is illegal (R218): misaligned, outside the view, or overlapping. -/
def statusCauses (x : Cx) (reg : Nat) (others : List (Nat × Nat)) : List Nat :=
  let a := (sreg x.fr reg).toNat
  (if a % 16 = 0 ∧ a + 16 ≤ viewLen x.fr then [] else [7]) ++
  (if regionsMeet [(a, 16)] others then [6] else [])

/-- Formats `SPADD` reads (R241). -/
def spaddFmt (f : Fmt) : Bool := f == .fp32 || f == .bf16 || f == .fp16 || f == .int32

/-- The addend of an element (R241). DESIGN CHOICE (log 149): a NaN or Inf that is the first to reach an EMPTY
accumulator places its window as a zero does. -/
def elemAddend (f : Fmt) (e : Elem) (tag : BitVec 8) : Addend :=
  let v := elemNum f e
  let unit : Int := if f = .int32 then 0 else
    (match elemExp f e.code e.scale with
     | some x => x
     | none => minExp f) - (floatOf f).fbits
  ⟨numDy v, unit - 64, false, numCls v, e.poison, f == .int32, tag, none, none⟩

/-- Causes of `SPADD`. -/
def spaddCauses (s : State) (x : Cx) (f : SpaddF) : List Nat :=
  wideCauses s x ++ arsCauses (sreg x.fr f.ars.toNat) ++ descCauses x.fr spaddFmt (tdesc x.fr f.t.toNat)

/-- Places of a tile in row-major order, `n` of them. -/
def tilePlaces (cols n : Nat) : List (Nat × Nat) := (List.range n).map fun i => (i / cols, i % cols)

/-- The effect of `SPADD`: element e, in row-major order, enters accumulator `FIRST` + e (R241). -/
def effSpadd (s : State) (x : Cx) (f : SpaddF) : State :=
  let d := tdesc x.fr f.t.toNat
  let a := arsOf (sreg x.fr f.ars.toNat)
  let w := (wideOf s x.n x.k).getD 0
  let ads := (tilePlaces d.cols (min a.count (d.rows * d.cols))).map fun p =>
    elemAddend d.f (readElem x.mem x.fr d p.1 p.2) a.tag
  setCore s x.n (ads.zipIdx.foldl (fun c p => accAdd c x.fr w (a.first + p.2) p.1) (core s x.n))

/-- Causes of `SPMERGE` (R242). -/
def spmergeCauses (s : State) (x : Cx) (f : SpmergeF) : List Nat :=
  let d := arsOf (sreg x.fr f.dst.toNat)
  let r := arsOf (sreg x.fr f.src.toNat)
  wideCauses s x ++ arsCauses (sreg x.fr f.dst.toNat) ++ arsCauses (sreg x.fr f.src.toNat) ++
    (if d.count = r.count then [] else [7]) ++
    (if rangesMeet (d.first, d.count) (r.first, r.count) then [6] else [])

/-- One pair of `SPMERGE`: an EMPTY source leaves its destination as it was; an EMPTY destination takes the source's
state, window, tag and `INT`; otherwise the source enters as an addend, in place where it fits (R92, R242). -/
def mergePair (c : Core) (fr : Frame) (wide dst src : Nat) : Core :=
  let r := accOf c src
  match r.st, (accOf c dst).st with
  | .empty, _ => c
  | .wide, .empty =>
    setAcc (holdWide (putWide c fr wide dst (accVal c fr wide src).m) 64) dst { r with pos := none, neg := none }
  | .window _, .empty => setAcc c dst { r with pos := none, neg := none }
  | st, _ =>
    let c := if st = .wide then holdWide c 24 else c
    let w : Int := match st with
      | .window w => w
      | _ => -480
    accAdd c fr wide dst ⟨accVal c fr wide src, w, false, r.cls, r.poison, r.int, r.tag, none, none⟩

/-- The effect of `SPMERGE` (R242). -/
def effSpmerge (s : State) (x : Cx) (f : SpmergeF) : State :=
  let d := arsOf (sreg x.fr f.dst.toNat)
  let r := arsOf (sreg x.fr f.src.toNat)
  let w := (wideOf s x.n x.k).getD 0
  let c := (List.range d.count).foldl (fun c i => mergePair c x.fr w (d.first + i) (r.first + i)) (core s x.n)
  setCore s x.n (if f.clr then clearAccs c r.accs else c)

/-- Formats of Table 2.1, any of which `SPROUND`, `VCVT` and `MMUL` write. -/
def anyFmt (_ : Fmt) : Bool := true

/-- The causes for which an MXFP4 destination is illegal (R53). -/
def mxDest (d : Desc) : List Nat := if d.f = .mxfp4 ∧ d.trans then [0xC] else []

/-- Causes of `SPROUND` (R243, R218). -/
def sproundCauses (s : State) (x : Cx) (f : SproundF) : List Nat :=
  let d := tdesc x.fr f.t.toNat
  let a := arsOf (sreg x.fr f.ars.toNat)
  wideCauses s x ++ arsCauses (sreg x.fr f.ars.toNat) ++ descCauses x.fr anyFmt d ++ mxDest d ++
    (if (rmOf f.rm.toNat).isSome then [] else [2]) ++ (if a.count ≤ d.rows * d.cols then [] else [7]) ++
    statusCauses x 30 d.region

/-- The effect of `SPROUND` (R243). -/
def effSpround (s : State) (x : Cx) (f : SproundF) : State :=
  let d := tdesc x.fr f.t.toNat
  let a := arsOf (sreg x.fr f.ars.toNat)
  let w := (wideOf s x.n x.k).getD 0
  let ps := (tilePlaces d.cols a.count).zipIdx.map fun p => (p.1.1, p.1.2, a.first + p.2)
  roundAccs s x w d ((rmOf f.rm.toNat).getD .rne) (srFrom s x 24) ps (if f.clr then a.accs else [])
    (sreg x.fr 30).toNat

/-- Causes of a stream of XPs at an address: misaligned or outside the view (R244, R245). -/
def streamCauses (s : State) (x : Cx) (addr ars : BitVec 5) : List Nat :=
  let a := (sreg x.fr addr.toNat).toNat
  let r := arsOf (sreg x.fr ars.toNat)
  wideCauses s x ++ arsCauses (sreg x.fr ars.toNat) ++
    (if a % 16 = 0 ∧ a + 112 * r.count ≤ viewLen x.fr then [] else [7])

/-- The stream of canonical XPs of some accumulators (R244). -/
def xpStream (c : Core) (fr : Frame) (wide : Nat) (tag : BitVec 8) (as : List Nat) : List (Bytes × Bool) :=
  as.map fun a =>
    let o := accOf c a
    (xpBytes (accVal c fr wide a) o.cls o.poison o.int (if o.st = .empty then tag else o.tag), o.poison)

/-- The writes of consecutive byte strings from an address on. -/
def streamWrites : Nat → List (Bytes × Bool) → List EW
  | _, [] => []
  | a, (bs, p) :: t => bytesWrite a bs p :: streamWrites (a + bs.length) t

/-- The effect of `SPEXPORT` (R244). -/
def effSpexport (s : State) (x : Cx) (f : SpexportF) : State :=
  let a := (sreg x.fr f.addr.toNat).toNat
  let r := arsOf (sreg x.fr f.ars.toNat)
  let w := (wideOf s x.n x.k).getD 0
  let c := core s x.n
  let ws := streamWrites a (xpStream c x.fr w r.tag r.accs)
  let s := modCore s x.n fun c => if f.clr then clearAccs (holdWide c (24 * wideReads c r.accs)) r.accs
    else holdWide c (24 * wideReads c r.accs)
  writeOut s x ws none [] (ws.any (·.poison)) 0 0

/-- The XPs of a stream: each addend, with the marks of the words it lies in (R245). -/
def readStream (c : Core) (fr : Frame) : Nat → Nat → List Addend
  | 0, _ => []
  | n + 1, a =>
    let r := xpRead (vread c fr a 112)
    { r.1 with poison := r.1.poison || vpoisonRange c fr a r.2 } :: readStream c fr n (a + r.2)

/-- The effect of `SPIMPORT` (R245): XP i enters accumulator `FIRST` + i; an `ESC` packet is read within its hold. -/
def effSpimport (s : State) (x : Cx) (f : SpimportF) : State :=
  let a := (sreg x.fr f.addr.toNat).toNat
  let r := arsOf (sreg x.fr f.ars.toNat)
  let w := (wideOf s x.n x.k).getD 0
  let ads := readStream x.mem x.fr r.count a
  setCore s x.n (ads.zipIdx.foldl (fun c p => accAdd c x.fr w (r.first + p.2) p.1) (core s x.n))

end Sys2Proof.Machine
end

