-- ==== Sys2Proof/Machine/Reduce.lean ====
section
/-! DEFINITION. The reduce engines (R360 to R368): descriptors, segments and shares, exact sums on the way round the ring,
completions in queue order, failures. -/

namespace Sys2Proof.Machine

/-! ### Descriptors (Table 10.6) -/

def cOp (d : Bytes) : Nat := xf d 0 1
def cG (d : Bytes) : Nat := xf d 2 2
def cRank (d : Bytes) : Nat := xf d 4 2
def cGroup (d : Bytes) : Nat := xf d 8 8
def cCid (d : Bytes) : Nat := xf d 16 4
def cS (d : Bytes) : Nat := xf d 20 2
def cSegn (d : Bytes) : Nat := xf d 24 4
def cSrc (d : Bytes) : Nat := xf d 28 8
def cDst (d : Bytes) : Nat := xf d 36 8

/-- Whether an operation adds XPs. -/
def cXp (d : Bytes) : Bool := cOp d ≤ 2

/-- The stride of segments (R362). -/
def cStride (d : Bytes) : Nat := if cXp d then (112 * cSegn d + 63) / 64 * 64 else cSegn d

/-- Whether a descriptor is well formed (R361). -/
def cOk (d : Bytes) : Bool :=
  decide (1 ≤ cOp d ∧ cOp d ≤ 4 ∧ xf d 1 1 = 0 ∧ 1 ≤ cG d ∧ cG d ≤ 4096 ∧ cRank d < cG d ∧ xf d 6 2 = 0 ∧ 1 ≤ cS d ∧
    xf d 22 2 = 0 ∧ cSrc d % 64 = 0 ∧ cDst d % 64 = 0 ∧ cNotify d < 2 ^ 14 ∧ xf d 46 18 = 0) &&
  (if cXp d then decide (1 ≤ cSegn d ∧ cSegn d ≤ 1024) else decide (cSegn d ≠ 0 ∧ cSegn d % 64 = 0))

/-- The share a segment belongs to (R364): share q runs from floor(q S / G). -/
def shareOf (d : Bytes) (seg : Nat) : Nat := ((seg + 1) * cG d - 1) / cS d

/-- The segments a rank is through with when its part is done. -/
def cNeed (d : Bytes) : Nat := if cOp d = 3 then cG d * cS d else cS d

/-- Whether this rank is through with a collective. -/
def collDone (x : CollRun) : Bool := decide (cNeed x.desc ≤ x.fin.length)

/-! ### Exact partials (R365) -/

/-- Whether an exact value fits neither the window of an XP nor the wide form (R96). -/
def xpOver (v : Dy) : Bool :=
  if v.m = 0 then false
  else
    let p := dyLowBit v
    let w := v.m / 2 ^ (p - v.e).toNat
    !(fits 96 w && decide (-32768 ≤ p ∧ p < 32768)) &&
      match inUnits v (-480) with
      | some t => !fits 768 t
      | none => true

/-- The XP of an addend, in canonical form. -/
def addendXp (a : Addend) : Bytes := xpBytes a.v a.cls a.poison a.int a.tag

/-- The exact sum of the XP that comes in and the rank's own; the tag of rank 0's input prevails. DESIGN CHOICE (log
124): so does its `INT` bit. -/
def xpAdd (rank : Nat) (a b : Addend) : Addend :=
  let v := dyAdd a.v b.v
  let clash := a.tag != b.tag || a.int != b.int
  { a with v := v, cls := if clash || xpOver v then 3 else a.cls ||| b.cls, poison := a.poison || b.poison,
           tag := if rank = 0 then b.tag else a.tag, int := if rank = 0 then b.int else a.int }

/-- The XPs of a byte stream, at most `n`, each with its offset and length. -/
def xpStreamOf : Nat → Nat → Bytes → List (Addend × Nat × Nat)
  | 0, _, _ => []
  | n + 1, o, bs =>
    if bs.length < 16 then []
    else
      let r := xpRead bs
      (r.1, o, r.2) :: xpStreamOf n (o + r.2) (bs.drop r.2)

/-- XPs with the poison of the lines they lie in. -/
def xpMarked (bad : List Nat) (x : Addend × Nat × Nat) : Addend :=
  { x.1 with poison := x.1.poison || bad.any (fun o => decide (o < x.2.1 + x.2.2 ∧ x.2.1 < o + 64)) }

/-! ### Memory of the context -/

/-- The rank's own XPs of a segment. -/
def ownXps (s : State) (r : Nat) (d : Bytes) (seg : Nat) (who : Waiter) : State × Acc × List Addend :=
  match cvRead s r (cSrc d + seg * cStride d) (cStride d) who with
  | (s, a, bs, bad) => (s, a, (xpStreamOf (cSegn d) 0 bs).map (xpMarked bad))

/-- Poison that a collective writes noted in the step (R324). -/
def collPoison (s : State) (r lines : Nat) (seen : Bool) : State :=
  if !seen then s
  else modCtx s r fun c => { c with step := c.step.map fun t => noteOutcome stPoison { t with poisoned := t.poisoned + lines } }

/-- A stream of XPs written; the bytes past its end are left unchanged. The XPs carry their poison in themselves, and a line
that they overwrite whole loses its mark (R323). -/
def writeXps (s : State) (r va : Nat) (xs : List Bytes) (who : Waiter) : State × Acc :=
  let bs := xs.flatten
  let t := touchPages (pagesOf va bs.length) s r true who
  match t.2 with
  | .ok =>
    let bad := xs.any fun b => (leNat ((b.drop 14).take 2)) / 2048 % 2 == 1
    (collPoison (putText t.1 r va bs []) r 0 bad, .ok)
  | a => (t.1, a)

/-- Whole lines written with their marks. -/
def writeLines (s : State) (r va : Nat) (bs : Bytes) (bad : List Nat) (who : Waiter) : State × Acc :=
  match cvWrite s r va bs bad who with
  | (s, .ok) => (collPoison s r bad.length (!bad.isEmpty), .ok)
  | x => x

/-! ### Packets (R363) -/

/-- XPs gathered into packets: as many whole XPs as fit into 4,096 bytes, each packet with the index of its first. -/
def packXps : List Bytes → Nat → Nat → Bytes → List (Nat × Bytes)
  | [], first, _, cur => if cur.isEmpty then [] else [(first, cur)]
  | x :: xs, first, i, cur =>
    if 4096 < cur.length + x.length then (first, cur) :: packXps xs i (i + 1) x
    else packXps xs first (i + 1) (cur ++ x)

/-- One packet of a segment on its way to the successor; one that cannot leave fails the collective. -/
def sendColl (e : EdgeId) (r : Nat) (x : CollRun) (pass seg : Nat) (s : State) (p : Nat × Bytes × List Nat) : State :=
  let d := x.desc
  let next := x.group.getD ((cRank d + 1) % cG d) 0
  let addr := cCid d + seg % 2 ^ 24 * 2 ^ 32 + pass * 2 ^ 56 + cOp d * 2 ^ 57
  match request s { pktInit with type := 7, dst := next, addr := addr, data := p.2.1, ext := p.1, poison := poisonMap p.2.2 }
      (some (cS d + (cG d - 1) * 2 ^ 16)) none (some (e, x.idx)) (some r) with
  | some s => s
  | none => collFail s e.val r x.idx stLink

/-- A segment of XPs sent to the successor. -/
def sendXps (s : State) (e : EdgeId) (r : Nat) (x : CollRun) (pass seg : Nat) (xs : List Bytes) : State :=
  (packXps xs 0 0 []).foldl (fun s p => sendColl e r x pass seg s (p.1, p.2, [])) s

/-- A segment of bytes sent to the successor, 4,096 at a time. -/
def sendBytes (s : State) (e : EdgeId) (r : Nat) (x : CollRun) (seg : Nat) (bs : Bytes) (bad : List Nat) : State :=
  (List.range ((bs.length + 4095) / 4096)).foldl
    (fun s i =>
      let o := 4096 * i
      let part := bad.filterMap fun b => if o ≤ b ∧ b < o + 4096 then some (b - o) else none
      sendColl e r x 1 seg s (64 * i, (bs.drop o).take 4096, part)) s

/-! ### Runs -/

/-- A running collective replaced. -/
def putRun (s : State) (e r : Nat) (x : CollRun) : State :=
  modCtx s r fun c =>
    let q := tget c.colls e collInit
    { c with colls := tset c.colls e { q with running := q.running.map fun y => if y.idx = x.idx then x else y } }

/-- A segment this rank is through with. -/
def finSeg (x : CollRun) (seg : Nat) : CollRun := if x.fin.contains seg then x else { x with fin := x.fin ++ [seg] }

/-- A finished sum at its rank (R364): written, and for ALLREDUCE sent round. -/
def finishSum (s : State) (e : EdgeId) (r : Nat) (x : CollRun) (seg : Nat) (xs : List Bytes) : State × Acc :=
  match writeXps s r (cDst x.desc + seg * cStride x.desc) xs (.coll e x.idx) with
  | (s, .ok) =>
    let x := finSeg x seg
    let s := putRun s e.val r x
    (if cOp x.desc = 1 ∧ cG x.desc ≠ 1 then sendXps s e r x 1 seg xs else s, .ok)
  | y => y

/-- A segment's sums complete at a rank in the reduce pass: the last rank of the share finishes, the others send on. -/
def reduceSeg (s : State) (e : EdgeId) (r : Nat) (x : CollRun) (seg : Nat) (xs : List Bytes) : State × Acc :=
  if shareOf x.desc seg = cRank x.desc then finishSum s e r x seg xs
  else
    let x := if cOp x.desc = 2 then finSeg x seg else x
    (sendXps (putRun s e.val r x) e r x 0 seg xs, .ok)

/-- Whether a rank sends a gathered segment on (R364). -/
def forwards (d : Bytes) (seg : Nat) : Bool :=
  match cOp d with
  | 1 => cRank d != (shareOf d seg + cG d - 1) % cG d
  | 3 => cRank d != (seg / cS d + cG d - 1) % cG d
  | _ => cRank d + 1 != cG d

/-- The key of a part of a segment among a run's data. -/
def partKey (pass seg i : Nat) : Nat := (pass * 2 ^ 24 + seg) * 2 ^ 32 + i

/-- The XPs of a segment at hand, where all are. -/
def wholeSeg (x : CollRun) (pass seg : Nat) : Option (List Bytes) :=
  let xs := (List.range (cSegn x.desc)).filterMap fun i => tfind x.data (partKey pass seg i)
  if xs.length = cSegn x.desc then some xs else none

/-! ### COLL packets (R363 to R367) -/

/-- Segment, pass, operation and offset of a COLL packet. -/
def pkSeg (pk : Packet) : Nat := bitsOf pk.addr 32 24
def pkPass (pk : Packet) : Nat := bitsOf pk.addr 56 1
def pkOp (pk : Packet) : Nat := bitsOf pk.addr 57 3

/-- The XPs a COLL packet carries. -/
def pkXps (pk : Packet) : List Addend := (xpStreamOf 256 0 pk.data).map (fun p => xpMarked (mapBad pk) p)

/-- The part of a segment that a packet of XPs brings taken in. -/
def takeXps (s : State) (e : EdgeId) (r : Nat) (x : CollRun) (pk : Packet) : State × Acc :=
  let d := x.desc
  let seg := pkSeg pk
  let put (x : CollRun) (xs : List Bytes) : CollRun :=
    { x with data := xs.zipIdx.foldl (fun t p => tset t (partKey (pkPass pk) seg (pk.ext + p.2)) p.1) x.data,
             parts := x.parts ++ [(seg, pkPass pk, pk.ext)], since := s.tcount }
  if pkPass pk = 0 then
    match ownXps s r d seg (.coll e x.idx) with
    | (s, .ok, own) =>
      let sums := (pkXps pk).zipIdx.map fun p => addendXp (xpAdd (cRank d) p.1 (own.getD (pk.ext + p.2) p.1))
      let x := put x sums
      let s := putRun s e.val r x
      match wholeSeg x 0 seg with
      | some xs => reduceSeg s e r x seg xs
      | none => (s, .ok)
    | (s, a, _) => (s, a)
  else
    let x := put x ((pkXps pk).map addendXp)
    let s := putRun s e.val r x
    match wholeSeg x 1 seg with
    | none => (s, .ok)
    | some xs =>
      match writeXps s r (cDst d + seg * cStride d) xs (.coll e x.idx) with
      | (s, .ok) =>
        let x := finSeg x seg
        let s := putRun s e.val r x
        (if forwards d seg then sendXps s e r x 1 seg xs else s, .ok)
      | y => y

/-- The part of a segment that a packet of bytes brings: written and sent on. -/
def takeBytes (s : State) (e : EdgeId) (r : Nat) (x : CollRun) (pk : Packet) : State × Acc :=
  let d := x.desc
  let seg := pkSeg pk
  match writeLines s r (cDst d + seg * cSegn d + 64 * pk.ext) pk.data (mapBad pk) (.coll e x.idx) with
  | (s, .ok) =>
    let x := { x with parts := x.parts ++ [(seg, pkPass pk, pk.ext)], since := s.tcount }
    let n := (x.parts.filter (fun p => p.1 == seg)).length
    let x := if n = (cSegn d + 4095) / 4096 then finSeg x seg else x
    let s := putRun s e.val r x
    (if forwards d seg then sendColl e r x 1 seg s (pk.ext, pk.data, mapBad pk) else s, .ok)
  | y => y

/-- Whether a packet's part lies within its collective. -/
def partOk (x : CollRun) (pk : Packet) : Bool :=
  let d := x.desc
  let segs := if cOp d = 3 then cG d * cS d else cS d
  decide (pkSeg pk < segs) &&
    if cXp d then
      decide (pk.ext + (pkXps pk).length ≤ cSegn d) && !(pkXps pk).isEmpty && (pkPass pk == 0 || cOp d == 1)
    else
      decide (pkPass pk = 1 ∧ pk.ext % 64 = 0 ∧ 64 * pk.ext < cSegn d ∧ pk.data.length = min 4096 (cSegn d - 64 * pk.ext))

/-- The running collective that a packet's identifier names, among the contexts of its class. -/
def collFor (s : State) (pk : Packet) : Option (Nat × Nat × CollRun) :=
  s.ctxs.findSome? fun c =>
    if c.2.slot.isSome && cget s c.1 F.ctxLnkcrClass 0 == pk.pool.toNat % 8 then
      c.2.colls.findSome? fun q => (q.2.running.find? (fun x => cCid x.desc == pk.addr % 2 ^ 32)).map fun x => (c.1, q.1, x)
    else none

/-- Whether a packet repeats a part of a collective that is over. -/
def collPast (s : State) (pk : Packet) : Bool :=
  s.ctxs.any fun c =>
    c.2.slot.isSome && cget s c.1 F.ctxLnkcrClass 0 == pk.pool.toNat % 8 &&
      c.2.colls.any fun q => q.2.past.any fun h => h.1 == pk.addr % 2 ^ 32 && h.2.contains (pkSeg pk, pkPass pk, pk.ext)

/-- What a collective that goes no further waits for, noted in the state it stays in (R306). -/
def keepWaits (s t : State) (r : Nat) : State :=
  modCtx s r fun c => { c with vs := { c.vs with waits := (ctx t r).vs.waits } }

/-- A COLL packet taken by its engine, and answered. -/
def serveColl (s : State) (pk : Packet) : State :=
  match collFor s pk with
  | none => answer s pk 4 (if collPast s pk then 0 else 2) [] []
  | some (r, e, x) =>
    let d := x.desc
    if pkOp pk ≠ cOp d ∨ pk.reqid ≠ cS d + (cG d - 1) * 2 ^ 16 ∨ !partOk x pk then
      answer (collFail s e r x.idx stLink) pk 4 1 [] []
    else if x.parts.contains (pkSeg pk, pkPass pk, pk.ext) then answer s pk 4 0 [] []
    else
      match (if cXp d then takeXps s (Fin.ofNat 2 e) r x pk else takeBytes s (Fin.ofNat 2 e) r x pk) with
      | (s', .ok) => answer s' pk 4 0 [] []
      | (t, .wait) => answer (keepWaits s t r) pk 4 2 [] []
      | (s', .fault _) => answer (collFail s' e r x.idx stCore) pk 4 1 [] []

/-- `COLL` (R363, R366, R367). -/
def execColl (p : PortId) (pkt : Packet) (s : State) : Host.Outcome State Fault Refusal :=
  onClock s (portClock p.val) fun s =>
  if pkt.type ≠ 7 then .fault (.badOperand "type of a packet")
  else if 4096 < pkt.data.length then .fault (.badOperand "length of a packet")
  else
    match inbound s p.val pkt with
    | (s, true) => .next (serveColl (freed s p.val pkt) pkt)
    | (s, false) => .next s

/-! ### Start (R360, R361, R364, R366) -/

/-- Collectives an engine runs. -/
def engineLoad (s : State) (e : Nat) : Nat :=
  (s.ctxs.map fun c => ((tget c.2.colls e collInit).running.filter (fun x => !collDone x)).length).sum

/-- The segments of this rank's own first pass: the share it starts in a reduce, its input in a gather. -/
def firstSegs (d : Bytes) : List Nat :=
  let own := if cG d = 1 then 0 else (cRank d + cG d - 1) % cG d
  match cOp d with
  | 3 => List.range (cS d)
  | 4 => if cRank d = 0 then List.range (cS d) else []
  | _ => (List.range (cS d)).filter (fun g => shareOf d g == own)

/-- One segment of the rank's own first pass. -/
def firstSeg (e : EdgeId) (r idx : Nat) (a : State × Acc) (seg : Nat) : State × Acc :=
  match a.2, (tget (ctx a.1 r).colls e.val collInit).running.find? (fun x => x.idx == idx) with
  | .ok, some x =>
    let s := a.1
    let d := x.desc
    if cXp d then
      match ownXps s r d seg (.coll e idx) with
      | (s, .ok, own) => reduceSeg s e r x seg (own.map addendXp)
      | (s, b, _) => (s, b)
    else
      let out := if cOp d = 3 then cRank d * cS d + seg else seg
      match cvRead s r (cSrc d + seg * cSegn d) (cSegn d) (.coll e idx) with
      | (s, .ok, bs, bad) =>
        match writeLines s r (cDst d + out * cSegn d) bs bad (.coll e idx) with
        | (s, .ok) =>
          let x := finSeg x out
          let s := putRun s e.val r x
          (if cG d = 1 then s else sendBytes s e r x out bs bad, .ok)
        | y => y
      | (s, b, _, _) => (s, b)
  | _, _ => a

/-- The next entry of a queue started: its descriptor checked, its group read, its first pass begun. -/
def startColl (s : State) (e : EdgeId) (r : Nat) (q : CollQ) : State :=
  let base := cget s r (if e.val = 0 then F.ctxCollq0Va else F.ctxCollq1Va) 0
  let idx := q.head
  let queue (s : State) (q : CollQ) : State := modCtx s r fun c => { c with colls := tset c.colls e.val q }
  match cvRead s r (base + idx % 256 * 64) 64 (.coll e idx) with
  | (t, .wait, _, _) => keepWaits s t r
  | (s, .fault _, _, _) => collFail s e.val r idx stCore
  | (s, .ok, d, _) =>
    if !cOk d then collFail (queue s { q with head := idx + 1 }) e.val r idx stCore
    else
      match cvRead s r (cGroup d) (2 * cG d) (.coll e idx) with
      | (t, .wait, _, _) => keepWaits s t r
      | (s, .fault _, _, _) => collFail s e.val r idx stCore
      | (s, .ok, t, _) =>
        let group := (List.range (cG d)).map fun i => leNat ((t.drop (2 * i)).take 2) % 4096
        let x : CollRun := ⟨idx, d, group, [], [], [], s.tcount⟩
        let s' := queue s { q with head := idx + 1, running := q.running ++ [x] }
        match (firstSegs d).foldl (firstSeg e r idx) (s', .ok) with
        | (s', .ok) => s'
        | (t, .wait) => keepWaits s t r
        | (s', .fault _) => collFail s' e.val r idx stCore

/-- `COLLECTIVE_START` (R360, R366): the token total has reached the next entry, and fewer than 16 collectives run. -/
def execCollectiveStart (e : EdgeId) (r : CtxId) (s : State) : Host.Outcome State Fault Refusal :=
  onClock s (edgeClock e.val) fun s =>
  let q := tget (ctx s r.val).colls e.val collInit
  if q.dead.isSome ∨ q.start.toNat ≤ q.head ∨ 16 ≤ engineLoad s e.val ∨ (ctx s r.val).slot.isNone ∨ s.faulted then
    .next s
  else .next (startColl s e r.val q)

/-! ### Completion and time-out (R367, R368) -/

/-- `COLLECTIVE_COMPLETE` (R368): the oldest collective of a queue, where it is done, is reported as a running total. -/
def execCollectiveComplete (e : EdgeId) (r : CtxId) (s : State) : Host.Outcome State Fault Refusal :=
  onClock s (edgeClock e.val) fun s =>
  let q := tget (ctx s r.val).colls e.val collInit
  match q.running with
  | [] => .next s
  | x :: rest =>
    if !collDone x then .next s
    else
      let f := if e.val = 0 then F.ctxCollstatDone0 else F.ctxCollstatDone1
      let n := cget s r.val f 0 + 1
      let s := cset s r.val f 0 n
      let q := { q with running := rest, past := q.past ++ [(cCid x.desc, x.parts)] }
      let s := modCtx s r.val fun c => { c with colls := tset c.colls e.val q }
      let t := cNotify x.desc
      .next { s with tokens := s.tokens ++
        [⟨r, bitsOf t 0 6, bitsOf t 6 5, bitsOf t 11 3, BitVec.ofNat 32 (x.idx + 1), (ctx s r.val).step.map (·.id)⟩] }

/-- `COLLECTIVE_TIMEOUT` (R367): a collective has made no progress for `COLLTO`. -/
def execCollectiveTimeout (e : EdgeId) (r : CtxId) (s : State) : Host.Outcome State Fault Refusal :=
  onClock s (edgeClock e.val) fun s =>
  let q := tget (ctx s r.val).colls e.val collInit
  match q.running.find? (fun x => !collDone x && decide (x.since + 1000000 * fget s F.fabTimersCollto 0 0 ≤ s.tcount)) with
  | some x => .next (collFail s e.val r.val x.idx stTimeout)
  | none => .next s

end Sys2Proof.Machine
end

