-- ==== Sys2Proof/Machine/Registers.lean ====
section
/-! DEFINITION. Reads and writes of BAR0 (R596 to R611): which accesses are served, what a read returns and clears, what
a write does to each field, and the rows that a write of a register with an effect of its own stands for. -/

namespace Sys2Proof.Machine

/-! ### Accesses (R597, R600, R604) -/

/-- Whether an access has a served size and alignment. -/
def accessOk (off size : Nat) : Bool := (size == 8 && off % 8 == 0) || (size == 4 && off % 4 == 0)

/-- Whether an offset lies in the power, timecode or security block, which RETAIN serves. -/
def alwaysOn (off : Nat) : Bool := [0x400, 0x500, 0x600].contains (off / 0x1000)

/-- The register and the part of it that an access takes. -/
def halfOf (off size : Nat) : Half := if size = 8 then .both else if off % 8 = 0 then .low else .high

/-- The word that a write's data stand in. -/
def placed (off size : Nat) (data : BitVec 64) : RegWrite :=
  let d := if size = 8 then data.toNat else data.toNat % 2 ^ 32 * (if off % 8 = 0 then 1 else 2 ^ 32)
  ⟨halfOf off size, BitVec.ofNat 64 d⟩

/-- The answer to a read. -/
def readBack (s : State) (off v : Nat) : State := emit s (.read off v)

/-- `RC_READ` (R600, R601, R604): a read of a register; a reserved offset reads 0. -/
def execRcRead (off size : Nat) (s : State) : Host.Outcome State Fault Refusal :=
  let ones := 2 ^ (8 * size) - 1
  if !barOpen s || (powerState s == 2 && !alwaysOn off) then .next (readBack s off ones)
  else if !accessOk off size then .next (readBack (fcount s F.glbErrBadacc 0 0 1) off ones)
  else
    match findReg (off / 8 * 8) with
    | none => .next (readBack s off 0)
    | some (r, i, j) =>
      let h := halfOf off size
      let v := regWord s r i j
      let part := match h with
        | .both => v
        | .low => v % 2 ^ 32
        | .high => v / 2 ^ 32
      .next (readBack (readClears s r i j h) off part)

/-! ### Fields that a write leaves (R411, R606, R607, R610) -/

/-- Fields of a context block that stand while the slot is not FREE (R331, R372, R408, R411, R527, R595). -/
def slotFrozen : List Fld :=
  [F.ctxImageAddr, F.ctxImagelenBytes, F.ctxDigestData, F.ctxShelfVa, F.ctxHomeCores, F.ctxPgquotaQuota,
   F.ctxPgquotaFloor, F.ctxLnkcrClass, F.ctxCollq0Va, F.ctxCollq1Va, F.ctxLogBaseAddr, F.ctxSlateBaseAddr,
   F.ctxSlateCfgSlots, F.ctxSlateCfgDetail, F.ctxSlateCfgDpoint, F.ctxRelcfgRetake, F.ctxRelcfgChkFrac,
   F.ctxRelcfgPair, F.ctxCsBaseAddr, F.ctxCsCfgSizelog2, F.ctxCqBaseAddr, F.ctxCqCfgSizelog2]

/-- Fields that stand while a field of the same block is not 0: the field, and what holds it. -/
def heldBy : List (Fld × Fld) :=
  [(F.ctxTrapBaseAddr, F.ctxStatStep), (F.ctxPrintvaVa, F.ctxPrintctlGo), (F.ctxPrintcntPages, F.ctxPrintctlGo),
   (F.ctxPrinttblVa, F.ctxPrintctlGo), (F.ctxReelmanAddr, F.ctxReelstatState),
   (F.ctxReelmanlenBytes, F.ctxReelstatState), (F.ctxReelsrcAddr, F.ctxReelstatState),
   (F.ctxReelcfgStageoff, F.ctxReelstatState), (F.ctxReelcfgStream, F.ctxReelstatState),
   (F.ctxReelcfgChunkto, F.ctxReelstatState), (F.ctxReelcfgIrqen, F.ctxReelstatState),
   (F.ctxReeldigData, F.ctxReelstatState), (F.ctxPgvaVa, F.ctxPgcmdGo), (F.ctxPgcntPages, F.ctxPgcmdGo),
   (F.bmvDescData, F.bmvCtlEn), (F.pairCfgPartner, F.pairCtlEn), (F.secMbctlGo, F.secMbctlGo)]

/-- Fields that stand while an enable of the same index is 1. -/
def heldByLine : List (Fld × Fld) :=
  [(F.tcTickCfgPeriod, F.tcTickCfgEn), (F.tcTickStartCount, F.tcTickCfgEn), (F.hostIngdstVa, F.hostIngcfgEn),
   (F.hostIngcfgB2off, F.hostIngcfgEn), (F.hostIngcfgOwner, F.hostIngcfgEn), (F.hostIngcfgUnitlog2, F.hostIngcfgEn),
   (F.hostIngcfgUnits, F.hostIngcfgEn)]

/-- The lock of a register's fields (R610). -/
def lockOf (r : RegD) : Option Fld :=
  if r.off = R.memCfg.off then some F.memCfgLock
  else if r.off = R.fabCfg.off then some F.fabCfgLock
  else if r.off = R.tcCfg.off then some F.tcCfgLock
  else if r.off = R.secCfg.off then some F.secCfgLock
  else none

/-- Whether a field's table or rule says that a write of it is ignored now, `v` being the value written. -/
def standing (s : State) (f : Fld) (i j v : Nat) : Bool :=
  (slotFrozen.contains f && slotBusy s i) ||
  heldBy.any (fun p => p.1 == f && view s p.2 i 0 != 0) ||
  heldByLine.any (fun p => p.1 == f && fbit s p.2 0 j) ||
  (f == F.ctxSeedSeed && fget s F.ctxLogCfgMode i 0 == 2) ||
  (f == F.pwrCfgOrder && !((List.range 3).all fun k => (List.range 3).any fun q => bitsOf v (2 * q) 2 == k))

/-- Whether a value lies outside a range that depends on other fields (R606, R607). -/
def outside (s : State) (f : Fld) (j v : Nat) : Bool :=
  (f == F.tcTickCfgEn && v == 1 && decide (fget s F.tcTickCfgPeriod 0 j < 100)) ||
  (f == F.relDlcfgEn && v == 1 &&
    (!rangeOk F.relDlcfgSizelog2 (fget s F.relDlcfgSizelog2 0 0) || fget s F.relDlbaseAddr 0 0 == 0)) ||
  (f == F.fabTimersRto && decide (10 * v < 2 * fget s F.fabTimersLifetime 0 0)) ||
  (f == F.pwrTileFreqreq && decide (v < fget s F.pwrCfgFmin 0 0))

/-- One field of a write; `old` is the state before it. -/
def takeField (old : State) (w : RegWrite) (i j : Nat) (s : State) (f : Fld) : State :=
  match f.acc with
  | .ro | .rc | .wo => s
  | .w1c =>
    if f = F.cmvStatFault then
      (if wbit w f then modChan s i j fun h => { h with fault := false } else s)
    else clearBit w i j s f
  | .rw | .rwl =>
    if standing old f i j (wval w f) then s
    else if covered w.half f && outside s f j (wval w f) then rangeErr s
    else writeField w i j s f

/-- What an enable newly set, or the master bit written, does beside its field: line totals begin at 0 (R387, R577), a
master's stratum is 0 in FREE, a device that is master no more is unaligned (R375, R376, Table 11.1), queued tests run where
`AUTOTEST` is 1 (R521), the pool's array may have changed before migration is turned on (R313), a request counts in its order
(R557), and what is heard of convoys is shown for the group then set (R549). -/
def afterWrite (old s : State) (r : RegD) (w : RegWrite) (j : Nat) : State :=
  if r.off = R.tcTickCfg.off then
    (if !fbit old F.tcTickCfgEn 0 j && fbit s F.tcTickCfgEn 0 j then startTicks s j else s)
  else if r.off = R.hostIngcfg.off then
    (if !fbit old F.hostIngcfgEn 0 j && fbit s F.hostIngcfgEn 0 j then
      let units := s.fab.ingUnits.filter (fun e => e.1 / 2 ^ 33 != j)
      fset { s with fab := { s.fab with ingUnits := units } } F.hostIngtotTotal 0 j 0
    else s)
  else if r.off = R.tcCfg.off then
    (if wbit w F.tcCfgMaster then enterFree s
    else if fbit old F.tcCfgMaster 0 0 && !fbit s F.tcCfgMaster 0 0 then follow (fset s F.tcStatStratum 0 0 255)
    else s)
  else if r.off = R.relCfg.off then autoTest s
  else if r.off = R.memMig.off then
    (if fbit s F.memMigEn 0 0 then { s with poolGen := (poolFresh old).poolGen, freeCtr := (poolFresh old).freeCtr } else s)
  else if r.off = R.pwrConvoy.off then showConvoy s
  else if r.off = R.secMbctl.off then
    (if !fbit old F.secMbctlGo 0 0 && fbit s F.secMbctlGo 0 0 then noteRequest s .pcie else s)
  else s

/-- A write of a register that has no row of its own (R602, R605, R606, R610). -/
def writeReg (s : State) (r : RegD) (i j : Nat) (w : RegWrite) : State :=
  match lockOf r with
  | some l =>
    if fbit s l 0 0 then
      (if r.fields.any (fun f => f.acc == .rwl && covered w.half f) then fcount s F.glbErrLocked 0 0 1 else s)
    else afterWrite s (r.fields.foldl (takeField s w i j) s) r w j
  | none => afterWrite s (r.fields.foldl (takeField s w i j) s) r w j

/-! ### Registers with rows of their own -/

/-- `GLB_DET_WRITE` (R110, R613): `ENF` only while no context is enabled; `NRSEEN` is cleared by 1. -/
def execGlbDetWrite (w : RegWrite) (s : State) : Host.Outcome State Fault Refusal :=
  onBar false s fun s =>
  let s' := if noneEnabled s then writeField w 0 0 s F.glbDetEnf else s
  .next (clearBit w 0 0 s' F.glbDetNrseen)

/-- A write without one of its bits. -/
def masked (w : RegWrite) (f : Fld) : RegWrite := ⟨w.half, w.data &&& ~~~(1#64 <<< f.lo)⟩

/-- A write of `CTX_CTL`: the enable or the disable, then the request to shelve where the slot holds a context; a slot that
this write has freed takes nothing more of it (R419). -/
def writeCtl (s : State) (sl : SlotId) (w : RegWrite) : Host.Outcome State Fault Refusal :=
  match (if wbit w F.ctxCtlEn then execContextEnable sl w s else execContextDisable sl w s) with
  | .next t => if slotBusy t sl.val then execShelve sl w t else .next t
  | o => o

/-- A write of `BMV_CTL`. -/
def writeBulk (s : State) (b : BulkId) (w : RegWrite) : Host.Outcome State Fault Refusal :=
  if w.half != .high && w.data.getLsbD 0 then execBmvEnable b w s
  else if fbit s F.bmvCtlEn b.val 0 then execBmvDisable b w s
  else .next (writeFields s w [F.bmvCtlClass, F.bmvCtlOwner, F.bmvCtlFwown, F.bmvCtlIrq, F.bmvCtlIrqen] b.val 0)

/-- A write of `CMV_CTLc`. -/
def writePause (s : State) (n : CoreId) (c : Fin 4) (w : RegWrite) : Host.Outcome State Fault Refusal :=
  if wbit w F.cmvCtlPause then execPause n c s
  else if covered w.half F.cmvCtlPause then execResumeTransfer n c s
  else .next s

/-- A write of `SCHED_DIRCTL`. -/
def writeDir (s : State) (w : RegWrite) : Host.Outcome State Fault Refusal :=
  if wbit w F.schedDirctlDisable then execDisableShelved w s else execReturnCtx w s

/-- What a write of each register does: the row that stands for it, where it has one. A `GO` or a `RESUME` that needs
what the host's memory holds is given by its own row only. -/
def writeRow (s : State) (r : RegD) (i j : Nat) (w : RegWrite) : Host.Outcome State Fault Refusal :=
  let sl : SlotId := Fin.ofNat 8 i
  if r.off = R.ctxCtl.off then writeCtl s sl w
  else if r.off = R.bmvCtl.off then writeBulk s (Fin.ofNat 64 i) w
  else if r.off = R.cmvCtl.off then writePause s (Fin.ofNat 1344 i) (Fin.ofNat 4 j) w
  else if r.off = R.schedDirctl.off then writeDir s w
  else if r.off = R.tcSet.off then execTcSet w s
  else if r.off = R.tcCtl.off then execReacq w s
  else if r.off = R.ctxLogNote.off then execLogNote sl w s
  else if r.off = R.ctxLogCfg.off then execLogModeWrite sl w s
  else if r.off = R.ctxPgcmd.off then .next (pgWrite sl w s)
  else if r.off = R.lnkCtl.off then
    (if wbit w F.lnkCtlEn then execLinkEnable (Fin.ofNat 48 i) w s else execLinkDisable (Fin.ofNat 48 i) w s)
  else if r.off = R.fabRtdata.off then execRouteEntryWrite w s
  else if r.off = R.fabCrfloor.off then execCreditFloorWrite (Fin.ofNat 8 j) w s
  else if r.off = R.fabRqcfg.off then execRqWindowEnable (Fin.ofNat 32 j) w s
  else if r.off = R.ctxPrintctl.off then execGoSnapshot sl w s
  else if r.off = R.ctxReelctl.off then execAbort sl (masked w F.ctxReelctlGo) s
  else if r.off = R.ctxReelstrm.off then execReelStreamBind sl (Fin.ofNat 4 j) w s
  else if r.off = R.pairCtl.off then .next (pairCtl s w)
  else if r.off = R.ctxRelctl.off then execPromote sl w s
  else if r.off = R.relOtest.off then execOnlineTest w s
  else if r.off = R.relWrap.off then execWrapTest w s
  else if r.off = R.pwrCap.off then execCapWrite .pcie w s
  else if r.off = R.pwrCtl.off then .next (pwrCtl s w)
  else if r.off = R.hostFwctl.off then execFirmwareFetch w s
  else if r.off = R.glbCtl.off then execRst w s
  else if r.off = R.glbDet.off then execGlbDetWrite w s
  else if r.off = R.ctxCsCtl.off then execSkip sl w s
  else .next (writeReg s r i j w)

/-- `REGISTER_WRITE` (R600 to R611): a write that is not served is discarded, one of a wrong size or alignment is
counted, and one of a reserved offset is ignored. -/
def execRegisterWrite (off size : Nat) (data : BitVec 64) (s : State) : Host.Outcome State Fault Refusal :=
  onBar (alwaysOn off) s fun s =>
  if !accessOk off size then .next (fcount s F.glbErrBadacc 0 0 1)
  else
    match findReg (off / 8 * 8) with
    | none => .next s
    | some (r, i, j) => writeRow s r i j (placed off size data)

end Sys2Proof.Machine
end

