-- ==== Sys2Proof/Machine/Control.lean ====
section
/-! DEFINITION. The control slot (R224 to R234): loops and branches, token instructions, launch requests, cuts, fences,
slate contributions, the trap enable, the end of a step. Each instruction has the causes for which it is illegal, the
conditions on which it waits, and its effect; where the program goes next is `nextPc`. -/

namespace Sys2Proof.Machine

/-! ### Loops and branches (R224 to R227) -/

/-- Iterations closed by the issue, or the skip, of bundle `a` (R224): the bodies still active and the next bundle. -/
def closeLoops : List LoopSt → Nat → List LoopSt × Nat
  | [], a => ([], a + 1)
  | l :: t, a =>
    if l.stop = a then
      if 1 < l.left then ({ l with left := l.left - 1 } :: t, l.start) else closeLoops t a
    else (l :: t, a + 1)

/-- The count of a `LOOP` (R224). -/
def loopCount (fr : Frame) (f : LoopF) : Nat := if f.imm then f.cnt.toNat + 1 else (sreg fr f.cnt.toNat).toNat

/-- Causes of `LOOP` (R225). -/
def loopCauses (x : Cx) (f : LoopF) : List Nat :=
  let e := f.last.toNat
  (if e < codeSize x.fr then [] else [7]) ++
  (if x.fr.pc < e ∧ !x.fr.loops.any (fun l => l.n == f.n) ∧
      x.fr.loops.all (fun l => decide (l.start ≤ x.fr.pc + 1 ∧ e ≤ l.stop)) then [] else [0xB])

/-- A predicate; `p0` reads 1 (Table 6.1). -/
def pred (fr : Frame) (p : BitVec 3) : Bool := p == 0 || fr.p.getLsbD p.toNat

/-- Whether a branch is taken (R226). -/
def brTaken (fr : Frame) (f : BrF) : Bool := pred fr f.p != f.inv

/-- Causes of the branch forms of `BR` (R225, R226). -/
def brCauses (x : Cx) (f : BrF) : List Nat :=
  if brTaken x.fr f then
    (if f.target.toNat < codeSize x.fr then [] else [7]) ++
    (if x.fr.loops.all (fun l => decide (l.start ≤ f.target.toNat ∧ f.target.toNat ≤ l.stop)) then [] else [0xB])
  else []

/-- The comparison of the set form of `BR` (R227). -/
def brCond (c : BitVec 3) (a b : BitVec 32) : Bool :=
  match c.toNat with
  | 0 => a == b
  | 1 => a != b
  | 2 => a.slt b
  | 3 => a.sle b
  | 4 => a.ult b
  | 5 => a.ule b
  | _ => a &&& b != 0

/-- Causes of the set form: condition 0b111 is reserved. -/
def brSetCauses (f : BrSetF) : List Nat := if f.cond = 7 then [2] else []

/-- A predicate written; a write to `p0` is ignored. -/
def setPred (fr : Frame) (p : BitVec 3) (v : Bool) : Frame :=
  if p = 0 then fr
  else
    let m : BitVec 8 := 1#8 <<< p.toNat
    { fr with p := if v then fr.p ||| m else fr.p &&& ~~~m }

/-- The effect of the set form of `BR` (R227). -/
def effBrSet (s : State) (x : Cx) (f : BrSetF) : State :=
  modFrame s x.n x.k fun fr => setPred fr f.p (brCond f.cond (sreg x.fr f.sa.toNat) (sreg x.fr f.sb.toNat))

/-- Where the program goes after a bundle whose control slot is `i`: the bodies active then, and the next bundle. -/
def nextPc (fr : Frame) (i : CInstr) : List LoopSt × Nat :=
  match i with
  | .loop f =>
    let n := loopCount fr f
    if n = 0 then closeLoops fr.loops f.last.toNat else (⟨f.n, fr.pc + 1, f.last.toNat, n⟩ :: fr.loops, fr.pc + 1)
  | .br f => if brTaken fr f then (fr.loops, f.target.toNat) else closeLoops fr.loops fr.pc
  | _ => closeLoops fr.loops fr.pc

/-! ### Tokens (R198, R199, R228, R229) -/

/-- Whether a channel is declared to receive, or to send. -/
def isRecv : ChanDecl → Bool
  | .recv _ => true
  | _ => false

def isSend : ChanDecl → Bool
  | .send _ => true
  | _ => false

/-- Without the immediate form, the upper bits of `K` must be 0 (R228). -/
def tokResv (f : TokF) : List Nat := if f.imm ∨ f.k.toNat < 32 then [] else [2]

/-- Causes of `WAITTOK`. -/
def waittokCauses (s : State) (x : Cx) (f : TokF) : List Nat :=
  tokResv f ++ (if isRecv (chanDecl s x.n x.k f.q.toNat) then [] else [0xA])

/-- Issue condition of `WAITTOK` (R199). -/
def waittokWait (c : Core) (x : Cx) (f : TokF) : Wait := holdUnless (tokReady c x.k x.fr (.waittok f)) 4

/-- Tokens consumed. -/
def consume (s : State) (x : Cx) (q : Nat) (k : BitVec 32) : State :=
  modFrame s x.n x.k fun fr => { fr with cons := tset fr.cons q (tget fr.cons q 0 + k) }

/-- The effect of `WAITTOK`. -/
def effWaittok (s : State) (x : Cx) (f : TokF) : State := consume s x f.q.toNat (tokCount x.fr f)

/-- Whether a context has a rushes log (R111). -/
def hasLog (s : State) (r : Nat) : Bool := logLive s r || logReplay s r

/-- Causes of `RECV_ANY` (R111, R228). -/
def recvAnyCauses (s : State) (x : Cx) (f : AnyF) : List Nat :=
  (if fbit s F.glbDetEnf 0 0 ∧ !hasLog s ((keyCtx s x.k).getD 0) then [8] else []) ++
  (if (List.range 8).all (fun q => !f.mask.getLsbD q || isRecv (chanDecl s x.n x.k q)) then [] else [0xA])

/-- The `KEY` of a logged choice (Table 11.4). -/
def anyKey (s : State) (x : Cx) : Nat := choiceKey ((keyPlace s x.n x.k).getD (0, 0)) x.fr

/-- The channel that the step has logged before under the key, or that a replay's log gives. -/
def loggedChan (s : State) (x : Cx) : Option Nat :=
  match keyCtx s x.k, keyStep s x.n x.k with
  | some r, some st => choiceLogged s r st (anyKey s x)
  | _, _ => none

/-- The lowest-numbered channel of the mask with a token. -/
def firstReady (c : Core) (x : Cx) (f : AnyF) : Option Nat :=
  (List.range 8).find? fun q => f.mask.getLsbD q && decide (1 ≤ tokensReady c x.k x.fr q)

/-- The entry of a choice. -/
def anyEntry (s : State) (x : Cx) (r q : Nat) : LogEnt :=
  ⟨5, r, 0, s.tcount, ((keyStep s x.n x.k).map (·.id)).getD 0, anyKey s x, q, []⟩

/-- Whether a replay has no entry for the choice: a divergence (R398). -/
def anyMissing (s : State) (x : Cx) : Bool :=
  match keyCtx s x.k with
  | some r => logReplay s r && (loggedChan s x).isNone
  | none => false

/-- Issue condition of `RECV_ANY`: a token on the logged channel, or on any channel of the mask and room for the entry
(R229, R395). -/
def recvAnyWait (s : State) (x : Cx) (f : AnyF) : Wait :=
  let c := core s x.n
  match loggedChan s x with
  | some q => holdUnless (decide (1 ≤ tokensReady c x.k x.fr q)) 4
  | none =>
    match firstReady c x f, keyCtx s x.k with
    | some q, some r =>
      holdUnless (!logLive s r || ((ctx s r).log.q.isEmpty && logRoom s r (anyEntry s x r q))) 9
    | _, _ => .hold 4

/-- The effect of `RECV_ANY` (R229). -/
def effRecvAny (s : State) (x : Cx) (f : AnyF) : State :=
  let c := core s x.n
  let was := loggedChan s x
  match (was.or (firstReady c x f)), keyCtx s x.k with
  | some q, some r =>
    let s := if anyMissing s x then
        modKeyStep (diverge s r 2 (((keyStep s x.n x.k).map (·.id)).getD 0)) x.n x.k noteDiverged else s
    let s := if was.isSome then s else logFor s r (some (x.n, x.k)) 5 (anyKey s x) q []
    modFrame (consume s x q 1) x.n x.k fun fr =>
      { fr with s := tset fr.s f.d.toNat (BitVec.ofNat 32 q), occ := fr.occ + 1 }
  | _, _ => s

/-- Causes of `SENDTOK`. -/
def sendtokCauses (s : State) (x : Cx) (f : TokF) : List Nat :=
  tokResv f ++ (if isSend (chanDecl s x.n x.k f.q.toNat) then [] else [0xA])

/-- Every mover write of the take's context on this core is acknowledged (R198). -/
def writesDone (c : Core) (k : Nat) : Bool := (xfersOf c k).isEmpty

/-- The running total that a `SENDTOK` delivers. -/
def sentTotal (x : Cx) (f : TokF) : BitVec 32 := tget x.fr.sent f.q.toNat 0 + tokCount x.fr f

/-- Issue condition of `SENDTOK` (R198), and its wait for a port that has no room (R39, Table 6.3). -/
def sendtokWait (s : State) (x : Cx) (f : TokF) : Wait :=
  let stuck := match chanDecl s x.n x.k f.q.toNat with
    | .send p => tokenStuck s x.n x.k p (sentTotal x f)
    | _ => false
  (holdUnless (writesDone (core s x.n) x.k) 5).and (holdUnless (!stuck) 6)

/-- The effect of `SENDTOK` (R198). -/
def effSendtok (s : State) (x : Cx) (f : TokF) : State :=
  let v := sentTotal x f
  let s := modFrame s x.n x.k fun fr => { fr with sent := tset fr.sent f.q.toNat v }
  match chanDecl s x.n x.k f.q.toNat with
  | .send p => sendToken s x.n x.k p v
  | _ => s

/-! ### Launches, cuts, fences (R203, R230 to R232) -/

/-- Causes of `ACTION`: `TS` must be even. -/
def actionCauses (f : ActionF) : List Nat := if f.ts.toNat % 2 = 0 then [] else [2]

/-- The effect of `ACTION` (R230). -/
def effAction (s : State) (x : Cx) (f : ActionF) : State :=
  match keyCtx s x.k with
  | some r =>
    askLaunch s r (.group f.group) ((sreg x.fr f.ts.toNat).toNat + 2 ^ 32 * (sreg x.fr (f.ts.toNat + 1)).toNat)
  | none => s

/-- Whether a transfer has moved its last byte, so that only acknowledgements are outstanding. -/
def movedAll (x : Xfer) : Bool := decide (x.issued = xfBursts x.desc) && x.flight.all (fun b => b.data.isSome)

/-- Issue condition of `CUT` and `END` (R203, Table 4.3). -/
def cutWait (c : Core) (x : Cx) : Wait :=
  (waitUnless (c.flight.isEmpty && c.qa.isEmpty && c.qb.isEmpty)).and
    (let xs := xfersOf c x.k
     if xs.isEmpty then .ok else if xs.all movedAll then .hold 5 else .hold 2)

/-- Whether a cut waits for a check slot (R507): the take it opens is checked, and 64 slots are in use. -/
def slotWait (s : State) (x : Cx) : Wait :=
  match keyCtx s x.k, keyStep s x.n x.k, keyPlace s x.n x.k with
  | some r, some st, some (vx, vy) =>
    holdUnless (8 ≤ x.k || !takeChecked s r st vx vy (x.fr.take.toNat + 1) || checkSlots s < 64) 0xB
  | _, _, _ => .ok

/-- Causes of `FENCE`: kind 0b11 is reserved. -/
def fenceCauses (kind : BitVec 2) : List Nat := if kind = 3 then [2] else []

/-- Issue condition of `FENCE` (R232). -/
def fenceWait (c : Core) (x : Cx) (kind : BitVec 2) : Wait :=
  (if kind.getLsbD 0 ∧ kind ≠ 2 then .ok else holdUnless (writesDone c x.k) 5).and
    (if kind = 0 then .ok else waitUnless c.flight.isEmpty)

/-! ### Slates and the trap (R233, R234, R400) -/

/-- Causes of `SLATE`: the address is a multiple of 32, within the view. -/
def slateCauses (x : Cx) (f : SlateF) : List Nat :=
  let a := (sreg x.fr f.dr.toNat).toNat
  if a % 32 = 0 ∧ a + 32 ≤ viewLen x.fr then [] else [7]

/-- Issue condition of `SLATE`: the digest is present. -/
def slateWait (c : Core) (x : Cx) (f : SlateF) : Wait := srcWait c x.k [((sreg x.fr f.dr.toNat).toNat, 32)]

/-- A contribution: the digest, or folded with the one before (R400). -/
def foldContrib (old : Option (BitVec 256)) (d : Bytes) : BitVec 256 :=
  match old with
  | none => digestNat d
  | some c => digestNat (sha3 (0x03#8 :: digestBytes c ++ d))

/-- The contributions of a step with one more for (vx, vy) and a point. -/
def addContrib (cs : List Contrib) (vx vy p : Nat) (d : Bytes) : List Contrib :=
  if cs.any (fun c => c.vx == vx && c.vy == vy && c.point == p) then
    cs.map fun c => if c.vx = vx ∧ c.vy = vy ∧ c.point = p then { c with cur := some (foldContrib c.cur d) } else c
  else cs ++ [⟨vx, vy, p, some (foldContrib none d), none⟩]

/-- The effect of `SLATE`. -/
def effSlate (s : State) (x : Cx) (f : SlateF) : State :=
  match keyPlace s x.n x.k with
  | some (vx, vy) =>
    let d := vread (core s x.n) x.fr (sreg x.fr f.dr.toNat).toNat 32
    modKeyStep s x.n x.k fun st => { st with contribs := addContrib st.contribs vx vy f.point.toNat d }
  | none => s

/-- Causes of `TRAPCFG`: the trap needs a trap area. -/
def trapcfgCauses (s : State) (x : Cx) (nan : Bool) : List Nat :=
  match keyCtx s x.k with
  | some r => if nan && cget s r F.ctxTrapBaseAddr 0 == 0 then [0xE] else []
  | none => []

/-- The effect of `TRAPCFG` (R234). -/
def effTrapcfg (s : State) (x : Cx) (nan : Bool) : State := modFrame s x.n x.k fun fr => { fr with trapNan := nan }

/-! ### The control slot as a whole -/

/-- The causes for which a control instruction is illegal. -/
def cCauses (s : State) (x : Cx) : CInstr → List Nat
  | .nop => []
  | .loop f => loopCauses x f
  | .br f => brCauses x f
  | .brSet f => brSetCauses f
  | .waittok f => waittokCauses s x f
  | .recvAny f => recvAnyCauses s x f
  | .sendtok f => sendtokCauses s x f
  | .action f => actionCauses f
  | .cut => []
  | .fence k => fenceCauses k
  | .slate f => slateCauses x f
  | .trapcfg n => trapcfgCauses s x n
  | .endStep => []

/-- Issue condition of the control slot. -/
def cWait (s : State) (x : Cx) (i : CInstr) : Wait :=
  let c := core s x.n
  match i with
  | .waittok f => waittokWait c x f
  | .recvAny f => recvAnyWait s x f
  | .sendtok f => sendtokWait s x f
  | .cut => (cutWait c x).and (slotWait s x)
  | .fence k => fenceWait c x k
  | .slate f => slateWait c x f
  | .endStep => cutWait c x
  | _ => .ok

/-- The effect of a control instruction on everything but where the program goes, and but the yield of a cut or the end
of the part, which follow the bundle. -/
def effC (s : State) (x : Cx) : CInstr → State
  | .nop => s
  | .loop _ => s
  | .br _ => s
  | .brSet f => effBrSet s x f
  | .waittok f => effWaittok s x f
  | .recvAny f => effRecvAny s x f
  | .sendtok f => effSendtok s x f
  | .action f => effAction s x f
  | .cut => s
  | .fence _ => s
  | .slate f => effSlate s x f
  | .trapcfg n => effTrapcfg s x n
  | .endStep => s

end Sys2Proof.Machine
end

