-- ==== Sys2Proof/Machine/Matrix.lean ====
section
/-! DEFINITION. The matrix array (R114 to R141) and its instructions (R235 to R240): staging, the block partials of an
output tile, their way into the splice unit, the finish of a tile, element-wise mode. Cycle counts are durations
(R196) and are not modelled: the blocks of an `MMUL` are fed in order, at most two of them under way, and each partial
then enters the splice unit in its own step. -/

namespace Sys2Proof.Machine

/-- The formats that pair in an array product, by class: FP32, 16-bit, FP8, MXFP4, INT8, INT4 (R56). -/
def pairClass (f : Fmt) : Nat :=
  match f with
  | .fp32 => 1 | .bf16 => 2 | .fp16 => 2 | .e4m3 => 3 | .e5m2 => 3 | .mxfp4 => 4 | .int8 => 5 | .int4 => 6 | .int32 => 0

/-- Whether two formats pair (R56). -/
def pairOk (a b : Fmt) : Bool := pairClass a == pairClass b && pairClass a != 0

/-- Whether an `MMUL` is in progress: blocks or partials of it, or its finish, are on their way (R133). -/
def mmulBusy (c : Core) : Bool :=
  c.flight.any fun x =>
    match x with
    | .part mm _ _ => mm
    | .mjob _ => true
    | .mfin _ => true
    | .vfin _ => false

/-! ### `MCFG` (R235) -/

/-- Causes of `MCFG`. -/
def mcfgCauses (s : State) (f : McfgF) : List Nat :=
  (if (fmtOf f.fa.toNat).isSome && (fmtOf f.fb.toNat).isSome && (fmtOf f.fo.toNat).isSome && (rmOf f.rm.toNat).isSome
   then [] else [2]) ++
  (match fmtOf f.fa.toNat, fmtOf f.fb.toNat with
   | some a, some b => if pairOk a b then [] else [5]
   | _, _ => []) ++
  (if f.fast && fbit s F.glbDetEnf 0 0 then [8] else [])

/-- Issue condition of `MCFG` (Table 4.3). -/
def mcfgWait (c : Core) : Wait := waitUnless (c.qa.isEmpty && c.qb.isEmpty && !mmulBusy c)

/-- The effect of `MCFG`: the configuration of the frame; a change of `ACC` discards the FAST running values. -/
def effMcfg (s : State) (x : Cx) (f : McfgF) : State :=
  let s := modFrame s x.n x.k fun fr => { fr with mcfg := ⟨f.fa, f.fb, f.fo, f.rm, f.fast⟩ }
  if f.fast != x.fr.mcfg.fast then modCore s x.n fun c => { c with fast := [] } else s

/-! ### Staging (R120 to R126, R236) -/

/-- Whether the stored rows of a staged tile that is not transposed run across K: those of B do. DEDUCED (log 140): those of an
MXFP4 tile run along K in both operands, since its scale blocks do (R50, R117), and they lie along the stored row (R125). -/
def acrossK (b : Bool) (d : Desc) : Bool := b && d.f != .mxfp4

/-- Causes of a staging instruction; `b` for `MSTAGEB` (R125, R236). DESIGN CHOICE (log 116): a tile with more columns of
B, or rows of A, than the array's 32 is illegal with the cause of too many rows, and (log 141) one whose `STRIDE` is no
multiple of 32 B with that of a misaligned address. -/
def stageCauses (x : Cx) (b : Bool) (t : BitVec 4) : List Nat :=
  let d := tdesc x.fr t.toNat
  let want := if b then x.fr.mcfg.fb else x.fr.mcfg.fa
  descCauses x.fr (fun f => fmtCode f == want.toNat) d ++
    (if d.korg % 128 = 0 then [] else [4]) ++
    (if d.base % 32 = 0 ∧ d.stride % 32 = 0 then [] else [7]) ++
    (if d.f = .mxfp4 ∧ d.trans then [0xC] else []) ++
    (if (if acrossK b d then d.cols else d.rows) ≤ 32 then [] else [0xC])

/-- Issue condition of a staging instruction (Table 4.3). -/
def stageWait (c : Core) (x : Cx) (b : Bool) (t : BitVec 4) : Wait :=
  (waitUnless (decide ((if b then c.qb else c.qa).length < 2))).and (srcWait c x.k (tdesc x.fr t.toNat).region)

/-- The largest element exponent of a block (R79, Table 3.1). -/
def blockExp (f : Fmt) (es : List (Nat × Nat)) : Int :=
  match es.filterMap (fun e => elemExp f e.1 e.2) with
  | [] => minExp f
  | x :: xs => xs.foldl max x

/-- One row of A, or column of B, of K-block `q` of a tile as its image holds it, with what the prescan finds (R122,
R123, R126). -/
def imageRow (c : Core) (fr : Frame) (d : Desc) (b : Bool) (kext q i : Nat) : ImageRow :=
  let es := (List.range (min 128 (kext - 128 * q))).map fun k =>
    if acrossK b d then readElem c fr d (128 * q + k) i else readElem c fr d i (128 * q + k)
  let xs := es.map fun e => (e.code, e.scale)
  ⟨xs, blockExp d.f xs, es.any (·.poison)⟩

/-- K-block `q` of a tile copied into an image. -/
def blockImage (c : Core) (fr : Frame) (b : Bool) (t : Staged) (q : Nat) : BlockImage :=
  ⟨q, (List.range t.rows).map (imageRow c fr (descOf t.desc) b t.kext q)⟩

/-- Images of an image buffer (Table 4.2). -/
def imageCount (f : Fmt) : Nat :=
  match f with
  | .fp32 => 2 | .bf16 => 4 | .fp16 => 4 | _ => 8

/-- The images of a buffer that hold no block; the tiles of a queue share a format (R133, R236). -/
def freeImages (q : List Staged) : Nat :=
  match q with
  | [] => 0
  | t :: _ => imageCount (descOf t.desc).f - (q.map fun u => u.imgs.length).sum

/-- The next blocks of the tiles of a queue copied, in block order across the tiles, into `n` free images (R121). -/
def fillImages (c : Core) (fr : Frame) (b : Bool) : Nat → List Staged → List Staged
  | _, [] => []
  | n, t :: ts =>
    let m := min n (kblocks t.kext - t.next)
    { t with next := t.next + m, imgs := t.imgs ++ (List.range m).map fun i => blockImage c fr b t (t.next + i) } ::
      fillImages c fr b (n - m) ts

/-- The staging path at work: every free image takes the next block of its operand. -/
def restage (c : Core) (fr : Frame) : Core :=
  { c with qa := fillImages c fr false (freeImages c.qa) c.qa, qb := fillImages c fr true (freeImages c.qb) c.qb }

/-- The queue entry of the tile a descriptor describes (R120). -/
def stagedTile (fr : Frame) (t : Nat) (b : Bool) : Staged :=
  let d := tdesc fr t
  ⟨tget fr.t t 0, d.korg, if acrossK b d then d.rows else d.cols, if acrossK b d then d.cols else d.rows, 0, [], none⟩

/-- The effect of `MSTAGEA` and `MSTAGEB`: the tile joins its operand's queue, and its blocks enter the free images
(R120, R121). -/
def effStage (s : State) (x : Cx) (b : Bool) (t : BitVec 4) : State :=
  modCore s x.n fun c =>
    let fill (q : List Staged) : List Staged :=
      let q := q ++ [stagedTile x.fr t.toNat b]
      fillImages x.mem x.fr b (freeImages q) q
    if b then { c with qb := fill c.qb } else { c with qa := fill c.qa }

/-- The image of a block freed, and the queue entry with its tile's last block (R120, R122): the oldest tile's. -/
def freeImage (blk : Nat) (q : List Staged) : List Staged :=
  match q with
  | [] => []
  | t :: ts =>
    let i := blk - t.korg / 128
    if i + 1 = kblocks t.kext then ts else { t with imgs := t.imgs.filter fun m => m.blk != i } :: ts

/-! ### Block partials (R75 to R89, R114 to R119) -/

/-- Cycles of a K-block (Table 4.1). -/
def blockCycles (f : Fmt) : Nat :=
  match f with
  | .fp32 => 2048 | .bf16 => 128 | .fp16 => 128 | .mxfp4 => 32 | .int4 => 32 | _ => 64

/-- Chain cycles of a partial (R129). -/
def chainCycles (f : Fmt) : Nat := if f = .fp32 then 2 else 1

/-- The grid unit of a block with anchor `alpha` (Table 3.2). -/
def gridUnit (f : Fmt) (alpha : Int) : Int := if fmtInt f then 0 else if f = .fp32 then alpha - 118 else alpha - 54

/-- The sum of a block's products, each rounded once onto the grid, and the class bits (R82, R87). -/
def blockSum (fa fb : Fmt) (unit : Int) (as bs : List (Nat × Nat)) : Int × BitVec 2 :=
  (as.zip bs).foldl
    (fun r p =>
      let v := numMul (decodeElem fa p.1.1 p.1.2) (decodeElem fb p.2.1 p.2.2)
      (if numCls v = 0 then r.1 + dyRoundRne (numDy v) unit else r.1, r.2 ||| numCls v)) (0, 0)

/-- A partial with sum `q`, under anchor `alpha` or in the integer domain (R84, R85, R119). -/
def mkPart (f : Fmt) (acc : Nat) (alpha q : Int) (cls : BitVec 2) (poison : Bool) (tag : BitVec 8) (blk : Nat) : Part :=
  ⟨acc, if fmtInt f then 54 else alpha, BitVec.ofInt 64 q, BitVec.ofInt 64 (q / 2 ^ 64), f == .fp32, cls, poison,
    fmtInt f, tag, blk⟩

/-- A row or column that a tile does not have (R126). -/
def missingRow (f : Fmt) : ImageRow := ⟨[], minExp f, false⟩

/-- Rows of a block image, with the missing ones. -/
def imageRows (f : Fmt) (m : BlockImage) : List ImageRow := (List.range 32).map fun i => m.rows.getD i (missingRow f)

/-- The anchors of block `q` loaded into the edge latches of its parity (R127, R128); under FAST every row has the
largest of the tile's rows (R112). DESIGN CHOICE (log 143): after a block of integers, which have no anchors, the latches hold
the smallest exponent. -/
def loadEdge (fast : Bool) (q : Nat) (rows : List ImageRow) (t : Tbl Int) : Tbl Int :=
  let es := rows.map (·.exp)
  let top := es.foldl max (es.headD 0)
  es.zipIdx.foldl (fun t e => tset t (32 * (q % 2) + e.2) (if fast then top else e.1)) t

/-- The partial of cell (r, c) for block `q` (R82, R85, R117, R119). -/
def cellPart (j : MmulJob) (blk q : Nat) (ea eb : Tbl Int) (as bs : List ImageRow) (r c : Nat) : Part :=
  let a := as.getD r (missingRow j.fa)
  let b := bs.getD c (missingRow j.fb)
  let alpha := tget ea (32 * (q % 2) + r) 0 + tget eb (32 * (q % 2) + c) 0 + 2
  let z := blockSum j.fa j.fb (gridUnit j.fa alpha) a.elems b.elems
  mkPart j.fa (32 * r + c) alpha z.1 z.2 (a.poison || b.poison) j.tag blk

/-- The cells in the order in which a block's partials enter the splice unit: (r, c) enters c + w(31 - r) cycles after
the first, and column order settles a cycle (R129). -/
def drainOrder (w : Nat) : List (Nat × Nat) :=
  ((List.range (32 + 31 * w)).map fun t =>
    (List.range 32).filterMap fun c =>
      if c ≤ t ∧ (t - c) % w = 0 ∧ (t - c) / w ≤ 31 then some (31 - (t - c) / w, c) else none).flatten

/-- The cycle in which a partial enters the splice unit, counted from the first of its block (R129). -/
def drainCycle (f : Fmt) (p : Part) : Nat := p.acc % 32 + chainCycles f * (31 - p.acc / 32)

/-- The partials of a block that still drain and those of the block fed next, `gap` cycles later, merged by the cycle in which
they enter, the earlier block's first in a cycle. -/
def mergeDrains (f : Fmt) (gap : Nat) : List Part → List Part → List Part
  | [], ys => ys
  | x :: xs, ys =>
    let before (y : Part) : Bool := decide (drainCycle f y + gap < drainCycle f x)
    ys.takeWhile before ++ x :: mergeDrains f gap xs (ys.dropWhile before)

/-- The lead of an `MMUL` in cycles (R128). -/
def leadCycles (j : MmulJob) : Nat := if fmtInt j.fa ∨ j.fast then 0 else 4

/-- The partial at the head of what is under way, where it is the array's. -/
def arrayPart : Flight → Option Part
  | .part true _ p => some p
  | _ => none

/-- A K-block of the array's next `MMUL` computed, where at most one block is in the latches: its anchors go to the edge,
its partials to the latches of its parity, and they drain as R129 and R134 have it beside the block before, of the same `MMUL`
or of the one that was still feeding when it issued (R119, R127, R135). -/
def feedBlock (c : Core) : Core :=
  let ps := (c.flight.takeWhile fun x => (arrayPart x).isSome).filterMap arrayPart
  match c.flight.drop ps.length with
  | .mjob j :: t =>
    match c.qa.find? (fun u => u.claim == some j.seq), c.qb.find? (fun u => u.claim == some j.seq) with
    | some a, some b =>
      match a.imgs.find? (fun m => m.blk == j.next), b.imgs.find? (fun m => m.blk == j.next) with
      | some ia, some ib =>
        if (ps.filter fun p => p.acc == 31).length < 2 then
          let as := imageRows j.fa ia
          let bs := imageRows j.fb ib
          let ea := loadEdge j.fast j.next as c.edgeA
          let eb := loadEdge j.fast j.next bs c.edgeB
          let new := (drainOrder (chainCycles j.fa)).map fun p =>
            cellPart j (a.korg / 128 + j.next) j.next ea eb as bs p.1 p.2
          let front :=
            if j.next = 0 ∧ !j.chained then c.flight.take ps.length ++ new.map (.part true j.fast)
            else (mergeDrains j.fa (blockCycles j.fa + if j.next = 0 then leadCycles j else 0) ps new).map (.part true j.fast)
          { c with
            edgeA := ea, edgeB := eb,
            flight := front ++ (if j.next + 1 < j.blocks then .mjob { j with next := j.next + 1 } :: t else t) }
        else c
      | _, _ => c
    | _, _ => c
  | _ => c

/-- The array fed as far as its latches take it. -/
def feed (c : Core) : Core := feedBlock (feedBlock c)

/-- One FAST addition: the partial rounded RNE to FP32 and added into the running value (R112); keys from 1,024 hold
the poison. -/
def fastAdd (t : Tbl (BitVec 32)) (p : Part) : Tbl (BitVec 32) :=
  let v := toF32 (clsNum p.cls (dyNum ⟨p.q, p.unit⟩ false))
  let t' := tset t p.acc (BitVec.ofNat 32 (f32Add (tget t p.acc 0).toNat v))
  if p.poison then tset t' (1024 + p.acc) 1 else t'

/-! ### `MMUL` (R237, R238) -/

/-- The oldest tile of a queue that no `MMUL` has claimed (R133). -/
def unclaimed (q : List Staged) : Option Staged := q.find? (·.claim.isNone)

/-- That tile claimed by the `MMUL` at a place in program order; its entry stays (R120). -/
def claimTile (seq : Nat) : List Staged → List Staged
  | [] => []
  | t :: ts => if t.claim.isNone then { t with claim := some seq } :: ts else t :: claimTile seq ts

/-- Causes of `MMUL` (R133, R237, R246). DEDUCED (log 142): a tile that is missing in one queue alone is a missing tile too. -/
def mmulCauses (s : State) (x : Cx) (f : MmulF) : List Nat :=
  let c := core s x.n
  let d := tdesc x.fr f.t.toNat
  (if x.fr.mcfg.fast then [] else wideCauses s x) ++
  (match unclaimed c.qa, unclaimed c.qb with
   | some a, some b => if a.korg = b.korg ∧ a.kext = b.kext then [] else [0xC]
   | _, _ => [0xC]) ++
  (if f.fin then
     descCauses x.fr (fun g => fmtCode g == x.fr.mcfg.fo.toNat) d ++ mxDest d ++
       (if d.rows ≤ 32 ∧ d.cols ≤ 32 then [] else [0xC]) ++ statusCauses x 30 d.region
   else if f.t = 0 then [] else [2])

/-- Whether block 0 of a queue's oldest unclaimed tile is complete (R123). -/
def block0Done (q : List Staged) : Bool := (unclaimed q).any fun t => decide (1 ≤ t.next)

/-- Issue condition of `MMUL` (Table 4.3). -/
def mmulWait (c : Core) (x : Cx) (f : MmulF) : Wait :=
  (waitUnless (block0Done c.qa && block0Done c.qb)).and
  (if f.fin then dstWait c x.fr x.k ((tdesc x.fr f.t.toNat).region ++ [((sreg x.fr 30).toNat, 16)]) else .ok)

/-- The effect of `MMUL`: it claims the oldest staged tiles, whose blocks the array is fed with behind those of earlier
`MMUL`s; the partials go to the splice unit in EXACT mode, under FAST into the running values; with the finish flag its
outputs follow (R131, R237, R238). -/
def effMmul (s : State) (x : Cx) (f : MmulF) : State :=
  let c := core s x.n
  let m := x.fr.mcfg
  match unclaimed c.qa, unclaimed c.qb with
  | some a, some b =>
    let j : MmulJob := ⟨x.seq, (fmtOf m.fa.toNat).getD .fp32, (fmtOf m.fb.toNat).getD .fp32, m.fast, f.tag, 0, kblocks a.kext,
      c.flight.any fun x => match x with | .mjob _ => true | _ => false⟩
    let fin : List Flight :=
      if f.fin then
        [.mfin ⟨x.fr.pc, x.seq, 1, tget x.fr.t f.t.toNat 0, m.fo, m.rm, (sreg x.fr 30).toNat, srFrom s x 24,
          x.fr.trapNan, m.fast, f.tag, a.rows, b.rows, 0⟩]
      else []
    setCore s x.n (feed { c with
      qa := claimTile x.seq c.qa, qb := claimTile x.seq c.qb, flight := c.flight ++ .mjob j :: fin })
  | _, _ => s

/-- The take's key that runs on a core, where one does. -/
def runKey (s : State) (n : Nat) : Option Nat := (core s n).running

/-- What an instruction that finishes later was issued with, over the frame as it is now. -/
def finishCx (s : State) (n k : Nat) (f : Finish) : Cx :=
  ⟨n, k, f.slot, { frameOf (core s n) k with pc := f.iaddr, trapNan := f.trap }, f.seq, core s n⟩

/-- Places of an output tile within its descriptor and within the rows and columns present (R126, R131). -/
def finPlaces (d : Desc) (rows cols : Nat) : List (Nat × Nat) :=
  ((List.range (min d.rows rows)).map fun r => (List.range (min d.cols cols)).map fun c => (r, c)).flatten

/-- The finish of an `MMUL`: outputs rounded and written, the accumulators emptied, the status word (R131); under FAST
the running values rounded to the output format and cleared (R112, R238). DESIGN CHOICE (log 117): the accumulators of
cells whose output is missing or lies outside the destination are emptied with the others. -/
def finishMmul (s : State) (n k : Nat) (f : Finish) : State :=
  let x := finishCx s n k f
  let d := descOf f.desc
  let rm := (rmOf f.rm.toNat).getD .rne
  let ps := finPlaces d f.rows f.cols
  if f.fast then
    let c := core s n
    let es : List OutElem := ps.map fun p =>
      ⟨p.1, p.2, f32 (tget c.fast (32 * p.1 + p.2) 0).toNat, tget c.fast (1024 + 32 * p.1 + p.2) 0 != 0⟩
    let r := roundTile d rm f.sr es
    let s := modCore s n fun c => { c with fast := [] }
    writeOut s x r.1 (some f.status) r.2 (es.any (·.poison)) d.fmt 0xFFFFFFFE
  else
    roundAccs s x ((wideOf s n k).getD 0) d rm f.sr (ps.map fun p => (p.1, p.2, 32 * p.1 + p.2)) (List.range 1024)
      f.status

/-- Result rows written, added to the vector stream total of a take (Table 8.6). -/
def countRows (s : State) (n k rows : Nat) : State :=
  modFrame s n k fun fr => { fr with rowsTot := fr.rowsTot + BitVec.ofNat 32 rows }

/-- The finish of a `VRED`: row r's accumulator rounded into column 0 of row r, and emptied (R160, R250). -/
def finishVred (s : State) (n k : Nat) (f : Finish) : State :=
  let x := finishCx s n k f
  let d := descOf f.desc
  (countRows · n k f.rows) <| roundAccs s x ((wideOf s n k).getD 0) d ((rmOf f.rm.toNat).getD .rne) f.sr
    ((List.range f.rows).map fun r => (r, 0, f.first + r)) ((List.range f.rows).map (f.first + ·)) f.status

/-- Finish jobs of the vector engine at the head of the flight done (R160), and the array fed. -/
def runVfins : Nat → State → Nat → Nat → State
  | 0, s, _, _ => s
  | m + 1, s, n, k =>
    match (core s n).flight with
    | .vfin f :: t => runVfins m (finishVred (modCore s n fun c => { c with flight := t }) n k f) n k
    | _ => modCore s n feed

/-- What staging does once a partial of the array has left: the image of its block is free with the first partial of
the block to leave, and the free images take further blocks (R121, R122). -/
def arrayNext (c : Core) (fr : Frame) (p : Part) : Core :=
  if p.acc = 992 then restage { c with qa := freeImage p.blk c.qa, qb := freeImage p.blk c.qb } fr else c

/-- The arrival of the oldest block partial at its accumulator, or at its FAST running value (R112, R130, R160). -/
def arrive (s : State) (n k : Nat) : State :=
  match (core s n).flight with
  | .part mm fast p :: t =>
    let c := { core s n with flight := t }
    let fr := frameOf c k
    let c := if fast then { c with fast := fastAdd c.fast p }
      else accAdd c fr ((wideOf s n k).getD 0) p.acc (partAddend p)
    runVfins (t.length + 1) (setCore s n (if mm then arrayNext c fr p else c)) n k
  | _ => s

/-! ### `MDRAIN` (R239) -/

/-- Issue condition of `MDRAIN` (Table 4.3). -/
def mdrainWait (c : Core) : Wait := waitUnless (!mmulBusy c)

/-- The effect of `MDRAIN`: none in EXACT mode; under FAST the running values are discarded. -/
def effMdrain (s : State) (x : Cx) : State :=
  if x.fr.mcfg.fast then modCore s x.n fun c => { c with fast := [] } else s

/-! ### `MEW` (R139, R140, R240) -/

/-- Formats of `MEW`'s operands and output (R140). -/
def mewFmt (f : Fmt) : Bool := f == .bf16 || f == .fp16 || f == .e4m3 || f == .e5m2 || f == .int8

/-- Whether a source covers the rows and columns processed (R143). -/
def covers (d : Desc) (rows cols : Nat) : Bool := decide (rows ≤ d.rows ∧ cols ≤ d.cols)

/-- Causes of `MEW`. -/
def mewCauses (x : Cx) (f : MewF) : List Nat :=
  let d := tdesc x.fr f.d.toNat
  let a := tdesc x.fr f.x.toNat
  let b := tdesc x.fr f.y.toNat
  (if f.op.toNat ≤ 4 ∧ (rmOf f.rm.toNat).isSome then [] else [2]) ++
    descCauses x.fr mewFmt d ++ descCauses x.fr mewFmt a ++ descCauses x.fr mewFmt b ++
    (if pairOk a.f b.f then [] else [5]) ++ (if d.rows ≤ 32 then [] else [0xC]) ++
    (if covers a d.rows d.cols && covers b d.rows d.cols then [] else [0xC]) ++
    (if overlapBad d a || overlapBad d b then [6] else []) ++
    statusCauses x 30 (d.region ++ a.region ++ b.region)

/-- Issue condition of `MEW` (Table 4.3). -/
def mewWait (c : Core) (x : Cx) (f : MewF) : Wait :=
  ((waitUnless (c.qa.isEmpty && c.qb.isEmpty && !mmulBusy c)).and
    (srcWait c x.k ((tdesc x.fr f.x.toNat).region ++ (tdesc x.fr f.y.toNat).region))).and
  (dstWait c x.fr x.k ((tdesc x.fr f.d.toNat).region ++ [((sreg x.fr 30).toNat, 16)]))

/-- The exact result of `MEW`'s operation (R139, R240). -/
def mewOp (rm : RMode) (op : Nat) (a b : Num) : Num :=
  match op with
  | 0 => numMul a b
  | 1 => numAdd rm a b
  | 2 => numAdd rm a (numNeg b)
  | 3 => numMax a b
  | _ => numMin a b

/-- The effect of `MEW`: each element's exact result rounded once (R139). DESIGN CHOICE (log 144): the mask of the destination's
descriptor is ignored, as `SPROUND` ignores it (R243); so it is in the outputs of an `MMUL`. -/
def effMew (s : State) (x : Cx) (f : MewF) : State :=
  let d := tdesc x.fr f.d.toNat
  let a := tdesc x.fr f.x.toNat
  let b := tdesc x.fr f.y.toNat
  let rm := (rmOf f.rm.toNat).getD .rne
  let c := x.mem
  let es : List OutElem := (tilePlaces d.cols (d.rows * d.cols)).map fun p =>
    let u := readElem c x.fr a p.1 p.2
    let v := readElem c x.fr b p.1 p.2
    ⟨p.1, p.2, mewOp rm f.op.toNat (elemNum a.f u) (elemNum b.f v), u.poison || v.poison⟩
  let r := roundTile d rm (srFrom s x 24) es
  writeOut s x r.1 (some (sreg x.fr 30).toNat) r.2 (es.any (·.poison)) d.fmt 0xFFFFFFFF

end Sys2Proof.Machine
end

