-- ==== Sys2Proof/Machine/Scalar.lean ====
section
/-! DEFINITION. The mover slot (R254 to R256): the register forms of `MOV`, and the transfer instructions, which start a
core mover channel on a descriptor in the view. -/

namespace Sys2Proof.Machine

/-! ### Register forms (R254) -/

/-- A scalar written. -/
def putS (s : State) (x : Cx) (d : Nat) (v : BitVec 32) : State :=
  modFrame s x.n x.k fun fr => { fr with s := tset fr.s d v }

/-- The effect of `SETI`. -/
def effSeti (s : State) (x : Cx) (f : SetiF) : State := putS s x f.d.toNat (f.imm.signExtend 32)

/-- The effect of `SETHI`. -/
def effSethi (s : State) (x : Cx) (f : SetiF) : State :=
  putS s x f.d.toNat (f.imm ++ (sreg x.fr f.d.toNat).extractLsb' 0 16)

/-- The operations of `SALU`. -/
def saluOp (op : BitVec 3) (a b : BitVec 32) : BitVec 32 :=
  match op.toNat with
  | 0 => a + b
  | 1 => a - b
  | 2 => a * b
  | 3 => a <<< (b.toNat % 32)
  | 4 => a >>> (b.toNat % 32)
  | 5 => a &&& b
  | 6 => a ||| b
  | _ => a ^^^ b

/-- The effect of `SALU`. -/
def effSalu (s : State) (x : Cx) (f : SaluF) : State :=
  putS s x f.d.toNat (saluOp f.op (sreg x.fr f.a.toNat) (sreg x.fr f.b.toNat))

/-- The place and width of the field of a descriptor that `FLD` names. -/
def tadjField (fld : BitVec 2) : Nat × Nat :=
  match fld.toNat with
  | 0 => (0, 20)
  | 1 => (128, 32)
  | 2 => (96, 20)
  | _ => (32, 16)

/-- A descriptor with a field set, modulo its width. -/
def putField (d : BitVec 256) (lo w v : Nat) : BitVec 256 :=
  let x := d.toNat
  BitVec.ofNat 256 (x - bitsOf x lo w * 2 ^ lo + v % 2 ^ w * 2 ^ lo)

/-- The effect of `TADJ`. -/
def effTadj (s : State) (x : Cx) (f : TadjF) : State :=
  let p := tadjField f.fld
  let d := tget x.fr.t f.n.toNat 0
  let a := (sreg x.fr f.a.toNat).toNat
  let v := if f.set then a else bitsOf d.toNat p.1 p.2 + a
  modFrame s x.n x.k fun fr => { fr with t := tset fr.t f.n.toNat (putField d p.1 p.2 v) }

/-- Causes of `SETVL`: a value above 65,536. -/
def setvlCauses (x : Cx) (a : BitVec 5) : List Nat := if (sreg x.fr a.toNat).toNat ≤ 65536 then [] else [7]

/-- The effect of `SETVL`. -/
def effSetvl (s : State) (x : Cx) (a : BitVec 5) : State :=
  modFrame s x.n x.k fun fr => { fr with vl := (sreg x.fr a.toNat).setWidth 17 }

/-! ### Transfers (R255, R256, R275) -/

/-- The kind code of a transfer instruction (Table 8.3). -/
def kindCode (k : MKind) : Nat :=
  match k with
  | .xfer => 1 | .movg => 2 | .hash => 3 | .fill => 4 | .cmpm => 5 | .swp => 6

/-- The class the image declares for a channel of the take's virtual core. -/
def chanClass (s : State) (x : Cx) (ch : BitVec 2) : Nat := declClass s x.n x.k ch.toNat

/-- The descriptor a transfer instruction names. -/
def moveDesc (x : Cx) (f : XferF) : Bytes := vread x.mem x.fr (sreg x.fr f.sd.toNat).toNat 64

/-- Causes of a transfer instruction. -/
def moveCauses (s : State) (x : Cx) (kd : MKind) (f : XferF) : List Nat :=
  let a := (sreg x.fr f.sd.toNat).toNat
  (if a % 64 = 0 ∧ a + 64 ≤ viewLen x.fr then [] else [7]) ++
  (if kd = .movg ∧ xfFpAtom (moveDesc x f) ∧ fbit s F.glbDetEnf 0 0 then [8] else []) ++
  (if classAllows (chanClass s x f.ch) (kindCode kd) then [] else [0xD])

/-- The regions of the own view that a transfer reads. -/
def moveReads (d : Bytes) : List (Nat × Nat) :=
  if xfSsp d ≠ 0 ∨ xfKind d = 4 then []
  else (xfSrc d, xfLen d) :: (if xfKind d = 5 then [(xfAux d, xfLen d)] else [])

/-- The regions of the own view that a transfer writes. -/
def moveWrites (d : Bytes) : List (Nat × Nat) := if xfDsp d = 0 then [(xfOut d, xfOutLen d)] else []

/-- Issue condition of a transfer instruction: the channel idle and not paused, the descriptor present, the regions of
the view present and free (R190, R255, R274). -/
def moveWait (s : State) (x : Cx) (f : XferF) : Wait :=
  let c := core s x.n
  let h := chanOf c f.ch.toNat
  let d := moveDesc x f
  ((holdUnless (h.xfer.isNone && !h.pause && !h.intPause) 2).and
    (srcWait c x.k (((sreg x.fr f.sd.toNat).toNat, 64) :: moveReads d))).and (dstWait c x.fr x.k (moveWrites d))

/-- The effect of a transfer instruction: the channel starts on the descriptor, or the descriptor fails its check and the
core stops (R275). -/
def effMove (s : State) (x : Cx) (kd : MKind) (f : XferF) : State :=
  let d := moveDesc x f
  let st := ((keyStep s x.n x.k).map (·.id)).getD 0
  let c := f.ch.toNat
  let s := modChan s x.n c fun h =>
    askPause s false { h with cls := BitVec.ofNat 2 (chanClass s x f.ch), paused := false, xfer := some (xferNew d x.fr.pc x.k st) }
  match lowest (descCodes s (some (x.n, x.k)) none (chanClass s x f.ch) (kindCode kd) d) with
  | none => s
  | some code =>
    let s := modChan s x.n c fun h => { h with fault := true, reason := BitVec.ofNat 8 code, xfer := none }
    stopCore s x.n ⟨3, c, code, x.fr.pc, 0xFFFFFFFF, 0xFFFF, 0xFFFF, 0xFF, x.seq⟩

/-! ### The mover slot as a whole -/

/-- The causes for which a mover-slot instruction is illegal. -/
def dCauses (s : State) (x : Cx) : DInstr → List Nat
  | .move k f => moveCauses s x k f
  | .setvl a => setvlCauses x a
  | _ => []

/-- Issue condition of the mover slot. -/
def dWait (s : State) (x : Cx) : DInstr → Wait
  | .move _ f => moveWait s x f
  | _ => .ok

/-- The scalar a mover-slot instruction writes. -/
def dScalar : DInstr → Option (BitVec 5)
  | .seti f => some f.d
  | .sethi f => some f.d
  | .salu f => some f.d
  | _ => none

/-- The effect of a mover-slot instruction. -/
def effD (s : State) (x : Cx) : DInstr → State
  | .nop => s
  | .move k f => effMove s x k f
  | .seti f => effSeti s x f
  | .sethi f => effSethi s x f
  | .salu f => effSalu s x f
  | .tadj f => effTadj s x f
  | .setvl a => effSetvl s x a

end Sys2Proof.Machine
end

