-- ==== Sys2Proof/Machine/Transc.lean ====
section
/-! DEFINITION. The transcendental functions by their reference algorithms (R162 to R165), with the tables and
constants of Table 5.2, each entry the exact real rounded to FP32 in RNE. -/

namespace Sys2Proof.Machine

/-! ### Tables and constants (Table 5.2) -/

/-- Table T: f32(2^(j/64)), 64 entries of 32 bits to a literal, lowest first (Table 5.2). -/
def tabT : List Nat :=
  [0x3FFD3E0C3FFA83B33FF7D0DF3FF5257D3FF281773FEFE4BA3FED4F303FEAC0C73FE8396A3FE5B9073FE33F893FE0CCDF3FDE60F53FDBFBB83FD99D163FD744FD3FD4F35B3FD2A81E3FD063343FCE248C3FCBEC153FC9B9BE3FC78D753FC5672A3FC346CD3FC12C4D3FBF179A3FBD08A43FBAFF5B3FB8FBAF3FB6FD923FB504F33FB311C43FB123F63FAF3B793FAD583F3FAB7A3A3FA9A15B3FA7CD943FA5FED73FA435163FA270433FA0B0513F9EF5323F9D3EDA3F9B8D3A3F99E0463F9837F03F96942D3F94F4F03F935A2B3F91C3D33F9031DC3F8EA43A3F8D1ADF3F8B95C23F8A14D53F88980F3F871F623F85AAC33F843A293F82CD873F8164D23F800000]

/-- Table RL: f32(1/c_j) (Table 5.2). -/
def tabRL : List Nat :=
  [0x3F2B8F6A3F2D602B3F2F3ADE3F311FD43F330F633F3509E73F370FBB3F3921443F3B3EE73F3D69103F3FA0303F41E4BC3F4437303F46980C3F4907DA3F4B87283F4E168A3F50B6A03F53680D3F562B813F5901B23F5BEB623F5EE95C3F61FC783F6525983F6865AC3F6BBDB33F6F2EB73F72B9D63F76603E3F7A232D3F8000003F8000003F83126F3F8534083F8767AB3F89AE413F8C08C13F8E78353F90FDBC3F939A863F964FDA3F991F1A3F9C09C13F9F11663FA237C33FA57EB53FA8E83F]

/-- Table LN: f32(-ln RL[j]) (Table 5.2). -/
def tabLN : List Nat :=
  [0x3ECCECAC3EC788F53EC2168E3EBC952A3EB704763EB164163EABB3BA3EA5F2FD3EA021853E9A3EEE3E944AD03E8E44C63E882C5F3E82012E3E7785703E6AE10A3E5E14363E511DE03E43FD043E36B07E3E29372F3E1B8FE13E0DB9583DFF648A3DE2F2A63DC61A333DA8D8373D8B29B93D5A16F03D1CF4373CBDC8D60000000000000000BCC24943BD23356DBD665B93BD95502CBDB8069FBDDB563EBDFF4489BE11EB8BBE2489E9BE378092BE4AD2D9BE5E843ABE729877BE8389C3BE8DFCCA]

/-- Table LG: f32(-log2 RL[j]) (Table 5.2). -/
def tabLG : List Nat :=
  [0x3F13D2603F0FEF1F3F0C01463F08089D3F0404E83EFFEBCB3EF7B6B53EEF69FF3EE705253EDE87983ED5F0C33ECD40113EC474E23EBB8E973EB28C803EA96DEF3EA032343E96D8873E8D602E3E83C8563E74205F3E606DB63E4C76EA3E383A173E23B5513E0EE6903DF3975C3DC8C50D3D9D51823D626FCC3D08E68D0000000000000000BD0C25DABD6B75DBBDA62B00BDD769D3BE04BF21BE1E37D7BE382301BE5284A8BE6D6112BE845E6FBE924E6BBEA08301BEAEFEE7BEBDC4F8BECCD838]

/-- Table RS: f32(1/sqrt((j + 64.5)/64)) (Table 5.2). -/
def tabRS : List Nat :=
  [0x3F355FBA3F3616E43F36D03D3F378BD03F3849AA3F3909D63F39CC603F3A91543F3B58C03F3C22B13F3CEF343F3DBE583F3E902C3F3F64BD3F403C1C3F4116593F41F3833F42D3AD3F43B6E63F449D423F4586D33F4673AC3F4763E23F4857873F494EB33F4A497A3F4B47F43F4C4A383F4D505E3F4E5A7F3F4F68B63F507B1D3F5191D13F52ACEE3F53CC933F54F0DF3F5619F23F5747EE3F587AF73F59B3303F5AF0BF3F5C33CC3F5D7C7F3F5ECB043F601F873F617A363F62DB413F6442DB3F65B1393F6726913F68A31D3F6A271A3F6BB2C53F6D46603F6EE2323F7086813F7233993F73E9CB3F75A9693F7772CB3F79464E3F7B24523F7D0D3E3F7F017E,
   0x3F13FE973F1461E73F14C5FF3F152AE33F1590953F15F7183F165E703F16C69E3F172FA53F17998A3F18044E3F186FF53F18DC823F1949F83F19B85B3F1A27AE3F1A97F33F1B09303F1B7B673F1BEE9B3F1C62D13F1CD80D3F1D4E523F1DC5A33F1E3E063F1EB77F3F1F32103F1FADC03F202A913F20A8893F2127AC3F21A7FE3F2229853F22AC463F2330453F23B5873F243C113F24C3EA3F254D153F25D79A3F26637D3F26F0C43F277F763F280F983F28A1313F2934463F29C8E03F2A5F033F2AF6B73F2B90043F2C2AF03F2CC7823F2D65C33F2E05BA3F2EA76E3F2F4AE93F2FF0323F3097523F3140523F31EB3B3F3298163F3346ED3F33F7C93F34AAB4,
   0x3F00200C3F00606D3F00A12E3F00E2533F0123DA3F0165C63F01A8183F01EAD03F022DEF3F0271763F02B5683F02F9C33F033E8B3F0383BF3F03C9613F040F723F0455F43F049CE73F04E44C3F052C253F0574743F05BD383F0606743F0650293F069A583F06E5033F07302A3F077BD03F07C7F53F08149B3F0861C33F08AF6F3F08FDA13F094C593F099B9A3F09EB643F0A3BBA3F0A8C9D3F0ADE0E3F0B30103F0B82A43F0BD5CB3F0C29883F0C7DDC3F0CD2C93F0D28513F0D7E753F0DD5383F0E2C9B3F0E84A03F0EDD4A3F0F369A3F0F90923F0FEB353F1046843F10A2813F10FF303F115C923F11BAA93F1219783F1279003F12D9453F133A493F139C0E]

/-- Table RC: f32(64/(j + 64.5)) (Table 5.2). -/
def tabRC : List Nat :=
  [0x3F0080813F01848E3F028CC03F0399303F04A9FA3F05BF373F06D9053F07F7813F091AC73F0A42F83F0B70343F0CA29C3F0DDA523F0F177A3F105A383F11A2B43F12F1143F1445813F15A0253F17012E3F1868C83F19D7233F1B4C703F1CC8E13F1E4CAD3F1FD80A3F216B313F23065E3F24A9CF3F2655C43F280A813F29C84A3F2B8F6A3F2D602B3F2F3ADE3F311FD43F330F633F3509E73F370FBB3F3921443F3B3EE73F3D69103F3FA0303F41E4BC3F4437303F46980C3F4907DA3F4B87283F4E168A3F50B6A03F53680D3F562B813F5901B23F5BEB623F5EE95C3F61FC783F6525983F6865AC3F6BBDB33F6F2EB73F72B9D63F76603E3F7A232D3F7E03F8]

/-- Table P: f32 of the standard normal distribution at (j - 640)/64 (Table 5.2). -/
def tabP : List Nat :=
  [0x1FE71A201FC85F491FADAFC71F9684C91F8268DE1F61EB711F43A4891F2961E81F129C921EFDBE1B1EDB865A1EBDE0221EA430E91E8DF2571E755F5E1E5406FF1E372B5D1E1E33721E089A621DEBD9BB1DCB8DAC1DAFA2F91D97830D1D82AB5A1D61555C1D423DE81D2766581D103B701CF87B541CD5FD3F1CB83D7F1C9E96B01C8879BB1C6AD5B51C49FE151C2DB38A1C1556271C005BBB1BDC99CE1BBD85221BA2C76B1B8BC6FA1B6FFE5E1B4DFB3C1B30BF271B179FE41B020AB31ADF022A1ABF2C151AA3D75A1A8C62381A7082D41A4DFA151A305BD61A16F6851A01316719DD124019BD198519A1B676198A423F196C5B101949FA6B192C8F21191363AF,
   0x261DEB47260B0C8125F4CEDC25D7739425BD91D225A6C1BB2592A7662580F1852562B05E2547379A252F08542519BF302507046524ED14CD24D0197324B69DD024A03727248C874824767634245812A5243D62A12425F437241162F923FEACD723DF013823C339C823AADDA8239582712382CA7F2364C6E2234809A4232EDDD62318D370230587FB22E949E522CBBCAB22B1E2C8229B47052287827E226C75CD224E420B2233DEBA221CD1FC2208B0F721EE3C0821CF8E2821B4C885219D6D3221890DEC216E945A214F9AF921349BE4211D15CE210897A420ED7D1620CE683220B35997209BCD5820875038206AFB33204BFB482031075D201999AB20053D7E,
   0x2BA117282B9009EB2B80C2D92B6627162B4DA4862B37B2E32B240EA22B127B052B02C1742AE961BF2AD03A642AB9BDA82AA5A4702A93AEE62A83A3BE2A6A9F1F2A5108792A3A30D12A25CDFC2A139D7E2A0363C329E9D6D429D0094629B9093C29A48A0E299247202982030C29670DD2294D433029364E5E2921E0DA290FB47A28FF151E28E2563728C8C84028B211F4289DE3A5288BF63B28781493285BCE802842B55D282C6F432818AC102807245F27EF313627D3A04527BB311927A589F527925AFF27815D2D2764A2A32749FE8227326A17271D8CA1270B174726F587F726D8A91826BF238126A8952A2694A71726830C1D2666FF97264B8AE926334E96,
   0x30764845305F9BA9304AF912303832BB30271EC6301796E8300978222FF944EA2FE1F14B2FCCBFFF2FB9803D2FA8057E2F9827192F89BFF62F795C762F61A6142F4C24792F38A4502F26F6D22F16F15F2F086D252EF68D8F2EDEBC292EC92B7E2EB5A6392EA3FBD62E9400342E858B332E70F0B02E594CFC2E43EF0B2E30A0262E1F2E9A2E0F6D4C2E0133482DE8B6CA2DD187DC2DBC9CA02DA9BDA62D98B8AB2D8960232D7715932D5E267A2D47AF482D3372B32D2139412D10D0BF2D020BC52CE982802CD1981D2CBC153D2CA8BD342C9759322C87B7B32C7358032C5A1B802C4371012C2F16C52C1CD17D2C0C6BAC2BFB6A2D2BE104862BC958092BB41E1B,
   0x348DE60A3482CE7834711B24345E276C344CA4B1343C77E4342D87E1341FBD473413025F340742FC33F8D8C533E4DA5B33D26A7033C16B0E33B1C06733A350B6339604143389C457337CF9F0336835E1335519463343837B3333564D332475C63316C809330A352832FD4E0732E8124C32D4914F32C2A81E32B2367332A31E7D329544B732888FB83279D01B3264702C3250D7BD323EE201322E6D0F321F59A332118AEF3204E66C31F2A75731DD785D31CA168231B85BAD31A824D0319951AF318BC4A6317EC4ED3168242C3153790931409942312F5E09311FA3BE311149B2310431E330F0819D30DABA7030C6DFF830B4C7CD30A44B113095462830879878,
   0x37F8AC8137E8B44337D9B59437CBA21C37BE6C4337B2072F37A666B5379B7F57379146353787B108377D6C34376C987E375CD59B374E1330374041CC373352DE372738A9371BE63737114F513707687136FC4D7C36EAFFFF36DAD52A36CBBADA36BDA00136B0749036A4296C3698B061368DFC133683FFF436756070366403943653D4833644BFAE3636B2BF36299C7B361D6CBD3612145C3607852335FB638435E91B7A35D81AC435C84B7B35B9991C35ABF073359F3F8635937586358882B7357CB0C83569D19A35584E3035480E853538FC2A352B022A351E0CF735120A4D3506E92334F9332A34E6199F34D46A0034C40A8A34B4E33A34A6DDB03499E518,
   0x3AA811353A9F9BD23A978A9A3A8FD9663A8884343A8187273A75BD0E3A690D7A3A5CF8A93A5177F33A4684EF3A3C19733A322F8F3A28C18F3A1FC9F73A17437F3A0F29163A0775DE3A00252A39F264F739E5330B39D8AC4939CCC8C339C180DF39B6CD5339ACA72239A3079B3999E8553991432E3989124539814FFC3973EDE5396604073958D88A394C62083940978739357074392AE49E3920EC3439177FC0390E982339062E9538FC793438ED781138DF4DFC38D1EFC138C552B438B96CAB38AE33FC38A39F713899A649389040313887653D387E1BD0386E6615385F9BB33851AFC438449607383842DC382CAB3B3821C4AC38178543380DE3973804D6BD,
   0x3CB390BD3CACF8FD3CA695F63CA066673C9A690F3C949CB43C8F001F3C89921E3C8451813C7E7A3E3C74A7A43C6B28F03C61FBE93C591E5E3C508E273C4849283C404D493C3898813C3128CD3C29FC353C2310CA3C1C64A73C15F5EF3C0FC2D13C09C9843C0408493BFCFAD33BF24E763BE808343BDE24DA3BD4A1493BCB7A733BC2AD5D3BBA371F3BB214E13BAA43E03BA2C1673B9B8AD53B949D9A3B8DF7363B87953C3B81754C3B772A373B6BE4D63B61161C3B56B9CE3B4CCBCF3B4348223B3A2AE43B3170543B2914CB3B2114BD3B196CBD3B1219763B0B17AF3B0464483AFBF8783AEFB9393AE405293AD8D6CE3ACE28DA3AC3F62F3ABA39D93AB0EF10,
   0x3E1E9F273E1AD7443E171ED93E1375E23E0FDC583E0C52333E08D7693E056BED3E020FB23DFD85543DF709853DF0ABD33DEA6C173DE44A253DDE45D13DD85EE93DD295393DCCE88E3DC758AC3DC1E55B3DBC8E5D3DB753713DB234573DAD30CB3DA848873DA37B443D9EC8B73D9A30963D95B2953D914E653D8D03B63D88D2373D84B9963D80B97F3D79A33E3D72033E3D6A92523D634FCB3D5C3AFB3D55532E3D4E97B33D4807D73D41A2E43D3B68273D3556EA3D2F6E763D29AE153D2415123D1EA2B63D19564B3D142F1A3D0F2C703D0A4D963D0591D83D00F8843CF901CA3CF054973CE7E80B3CDFBAC83CD7CB723CD018AE3CC8A1263CC163853CBA5E7C,
   0x3EFCCF003EF99E333EF66DCC3EF33DFE3EF00EFC3EECE0F83EE9B4253EE688B63EE35EDC3EE036C93EDD10AF3ED9ECBE3ED6CB273ED3AC1A3ED08FC73ECD765D3ECA600C3EC74D003EC43D673EC1316F3EBE29443EBB25103EB825003EB5293D3EB231EF3EAF3F413EAC51593EA9685E3EA684773EA3A5C83EA0CC753E9DF8A23E9B2A713E9862033E959F793E92E2F23E902C8C3E8D7C653E8AD2983E882F413E85927B3E82FC5D3E806D013E7BC8FA3E76C5CD3E71D0A53E6CE9AA3E6811003E6346CA3E5E8B293E59DE3C3E55401E3E50B0E93E4C30B63E47BF993E435DA83E3F0AF23E3AC7883E3693763E326EC73E2E59853E2A53B73E265D613E227686,
   0x3F5668A83F556B123F54699F3F53644E3F525B233F514E1E3F503D433F4F28963F4E101A3F4CF3D33F4BD3C63F4AAFF93F4988713F485D363F472E4D3F45FBC03F44C5953F438BD73F424E8D3F410DC23F3FC97F3F3E81D13F3D36C33F3BE85F3F3A96B43F3941CE3F37E9BA3F368E873F3530433F33CEFE3F326AC83F3103AF3F2F99C63F2E2D1C3F2CBDC53F2B4BD13F29D7543F2860603F26E7083F256B623F23ED803F226D783F20EB5E3F1F67483F1DE14C3F1C59803F1ACFFA3F1944D13F17B81D3F1629F33F149A6D3F1309A13F1177A93F0FE49B3F0E50923F0CBBA53F0B25ED3F098F843F07F8823F0661013F04C91A3F0330E73F0198803F000000,
   0x3F79F4E43F79BAF73F797F3B3F7941A43F79022A3F78C0C03F787D5B3F7837F23F77F0783F77A6E23F775B273F770D393F76BD0E3F766A9B3F7615D53F75BEAF3F75651F3F7509193F74AA913F74497E3F73E5D23F737F833F7316853F72AACD3F723C503F71CB033F7156DB3F70DFCC3F7065CC3F6FE8D03F6F68CD3F6EE5B93F6E5F893F6DD6333F6D49AD3F6CB9ED3F6C26E93F6B90983F6AF6EF3F6A59E73F69B9753F6915923F686E343F67C3553F6714EA3F6662EE3F65AD593F64F4233F6437463F6376BB3F62B27D3F61EA863F611ECF3F604F563F5F7C133F5EA5053F5DCA263F5CEB733F5C08EA3F5B22873F5A384A3F594A2F3F5858363F57625F,
   0x3F7FA2E33F7F9E053F7F98EC3F7F93953F7F8DFD3F7F88233F7F82043F7F7B9C3F7F74E83F7F6DE73F7F66933F7F5EEB3F7F56EB3F7F4E903F7F45D53F7F3CB83F7F33343F7F29463F7F1EEA3F7F141B3F7F08D63F7EFD153F7EF0D63F7EE4123F7ED6C53F7EC8EA3F7EBA7D3F7EAB783F7E9BD63F7E8B923F7E7AA53F7E690B3F7E56BD3F7E43B63F7E2FF03F7E1B633F7E060A3F7DEFDF3F7DD8DA3F7DC0F53F7DA8283F7D8E6D3F7D73BD3F7D580F3F7D3B5D3F7D1D9E3F7CFECB3F7CDEDB3F7CBDC73F7C9B873F7C78103F7C535C3F7C2D613F7C06173F7BDD743F7BB36F3F7B87FF3F7B5B1A3F7B2CB83F7AFCCD3F7ACB503F7A98383F7A637A3F7A2D0C,
   0x3F7FFDC83F7FFDA23F7FFD793F7FFD4D3F7FFD1F3F7FFCEE3F7FFCB93F7FFC823F7FFC463F7FFC083F7FFBC53F7FFB7E3F7FFB333F7FFAE33F7FFA8E3F7FFA353F7FF9D53F7FF9713F7FF9063F7FF8943F7FF81C3F7FF79D3F7FF7163F7FF6883F7FF5F13F7FF5523F7FF4A93F7FF3F73F7FF33A3F7FF2723F7FF1A03F7FF0C13F7FEFD63F7FEEDE3F7FEDD83F7FECC33F7FEB9F3F7FEA6B3F7FE9263F7FE7D03F7FE6673F7FE4EA3F7FE35A3F7FE1B33F7FDFF73F7FDE233F7FDC363F7FDA2F3F7FD80E3F7FD5D03F7FD3743F7FD0FA3F7FCE5F3F7FCBA23F7FC8C23F7FC5BD3F7FC2913F7FBF3C3F7FBBBE3F7FB8133F7FB43B3F7FB0323F7FABF73F7FA788,
   0x3F7FFFFB3F7FFFFA3F7FFFFA3F7FFFF93F7FFFF93F7FFFF83F7FFFF83F7FFFF73F7FFFF63F7FFFF53F7FFFF43F7FFFF33F7FFFF23F7FFFF13F7FFFF03F7FFFEF3F7FFFEE3F7FFFEC3F7FFFEB3F7FFFE93F7FFFE73F7FFFE53F7FFFE33F7FFFE13F7FFFDE3F7FFFDB3F7FFFD93F7FFFD63F7FFFD23F7FFFCF3F7FFFCB3F7FFFC73F7FFFC33F7FFFBE3F7FFFB93F7FFFB43F7FFFAE3F7FFFA83F7FFFA13F7FFF9A3F7FFF933F7FFF8B3F7FFF823F7FFF793F7FFF6F3F7FFF643F7FFF593F7FFF4D3F7FFF403F7FFF323F7FFF233F7FFF133F7FFF033F7FFEF13F7FFEDD3F7FFEC93F7FFEB33F7FFE9C3F7FFE833F7FFE693F7FFE4D3F7FFE2F3F7FFE0F3F7FFDED,
   0x3F8000003F8000003F8000003F8000003F8000003F8000003F8000003F8000003F8000003F8000003F8000003F8000003F8000003F8000003F8000003F8000003F8000003F8000003F8000003F8000003F8000003F8000003F8000003F8000003F8000003F8000003F8000003F8000003F8000003F8000003F8000003F8000003F8000003F8000003F8000003F8000003F8000003F7FFFFF3F7FFFFF3F7FFFFF3F7FFFFF3F7FFFFF3F7FFFFF3F7FFFFF3F7FFFFF3F7FFFFF3F7FFFFF3F7FFFFF3F7FFFFF3F7FFFFE3F7FFFFE3F7FFFFE3F7FFFFE3F7FFFFE3F7FFFFE3F7FFFFE3F7FFFFD3F7FFFFD3F7FFFFD3F7FFFFD3F7FFFFC3F7FFFFC3F7FFFFC3F7FFFFB,
   0x3F800000]

/-- Table D: f32 of the standard normal density at (j - 640)/64 (Table 5.2). -/
def tabD : List Nat :=
  [0x2183C9162164E91C2146C276212C89B02115BD272101EBBB20E1657820C3783220A9798C2092E6B2207E9B39205C95EC203F106C20257404200F3D811FF7F55F1FD690611FB99F251FA08B4D1F8AD2191F7003C81F4F6FCE1F333CA41F1AD5341F05B8071EE6E9701EC753711EAC04C21E946A831E8005501E5CCD6B1E3E5DE81E2416201E0D66491DF3A3AA1DD1D9CF1DB4B43E1D9B914F1D85E5201D666D591D463A941D2A7CF01D1297F71CFC08D91CD89AF81CBA1C6E1C9FDEED1C894BF51C6BC33F1C4A5FA81C2DABBB1C1500A71BFF9D2B1BDB330A1BBBED301BA113741B8A07321B6C7F961B4A8F421B2D72E81B147C491AFE2AF71AD97B1C1ABA0B42,
   0x27A09E6F278DB19A2779EF9F275C611E27424543272B368E2716DAFF2704E2CC26EA0E7F26CE136326B56546269FA1DA268C7219267711F3265944A3263F03A52627E44C2613884526019C2E25E3ACAC25C7EB4125AF8115259A08922587280A256D20AA254FF73325365870251FD7B0250C151B24F5786924D7050F24BC4CF224A4DC8224904DF9247C8F78245CF5DD24414457242900CC2413BFDA2401231523E1AEFB23C5284423AC31D823965B222383414323651ADF2347E6EF232E6105231813D62304988522E729BE22C973A822AF84352298E1FB228522A02267D2052249C736222F961A2218C1CD2204DD0E21E710A221C8E01321AE96602197B3E3,
   0x2D10085F2D0110142CE73DBA2CCF1B2D2CB971E52CA602392C9492C12C84EFC32C6DD5452C54B2C42C3E2C642C29FE0D2C17EA772C07BA7A2BF278F32BD887AC2BC150DF2BAC8C682B99F9742B895DC42B750A082B5A80742B42CA6F2B2D9C422B1AB1FD2B09CEAE2AF577562ADA8FE62AC28F312AAD267A2A9A0F3A2A890A422A73BDFE2A58B59A2A40A0B22A2B2E282A18156F2A0715A629EFE99129D4FDFC29BD0BE129A7C0772994D1D02983FDE4296A138E294F81BD2937E87E2922F418291059E728FFAEB528E2624628C864C928B15812289CE843288ACAAE287579B32859073F283FD4BB282984892815C3682804475527E99D0F27CE3D1D27B606FA,
   0x31BE0F6731ACFD07319D6960318F33D731823E83316CDBEE315752193143B16D3131CFAA3121861C3112B150310530D130F1CDD030DB70C830C718CA30B4985430A3C5C930947B1D3086958C3073EAA4305CFAD5304826AB30353DC4302413F7301480F7300660042FF31F292FDBE2352FC6D1702FB3BA132FA26DDD2F92C2AB2F8492212F6F72A32F5830E92F4325412F301B102F1EE2802F0F50152F013C492EE906652ED208672EBD43572EAA816B2E9991CD2E8A48312E78F8C92E6013E72E499F9F2E3560072E231ECE2E12AAC32E03D7532DECF84C2DD4E9652DBF3FD12DABBFBB2D9A33032D8A68B82D7869322D5EDD4D2D47E5792D3340682D20B320,
   0x35B8868E35AA9887359DADD73591B46A35869B5D3578A5DF356598DC3553F44435439E8335347FC1352681C735198FDF350D96C13502847634F0908D34DDA54634CC2A2134BC042F34AD1A64349F557634929FC03486E527347825F934642FCF3451C79A3440CF7734312BA73422C27034157BF53409421733FC00AC33E7476233D4351E33C2A94733B285AF33A3AE663396099533897F51337BF2FC3366C751335355D733417BA03331186833220E623314420B330799FC32F7FD8C32E2B59232CF342932BD548932ACF4CB329DF5B332903A763283A89332704F3F325B4246324800DC323664F432264B8B32179470320A220C31FBB25631E5419F31D0C408,
   0x3903D01638F7900F38E86BF838DA274E38CCB61538C00CE638B420E938A8E7D3389E57D9389467B0388B0E84388243F3387400153864767E3855DCD13848257F383B43AB382F2B263823D0673819287F380F29173805C86437F9FA4637E97D2237DA08CC37CB8D9A37BDFCC137B1484637A562F5379A4058378FD4AA378614D33779ECB23768DEBB3758ED22374A065C373C19E1372F181F3722F26D37179AFE370D04D4370323B736F3D85536E2A6BE36D29E5836C3AC0D36B5BDEE36A8C323369CABDC369169413686ED63367A566736682CE03657473836478FE63638F2BC362B5CD3361EBC773613011636081B2C35FBF86E35E92D4435D7BB7835C78B4B,
   0x3B8A8E403B84298E3B7C11033B70516B3B650FB13B5A474D3B4FF3DA3B4611133B3C9AD23B338D0F3B2AE3E03B229B793B1AB02E3B131E6B3B0BE2BC3B04F9C73AFCC09B3AF026573AE41EAF3AD8A3C13ACDAFDE3AC33D893AB947733AAFC87B3AA6BBAF3A9E1C483A95E5AB3A8E13653A86A12E3A7F15CD3A7199263A64C4BF3A5891383A4CF7783A41F0AD3A3776463A2D81F33A240DA33A1B13833A128DFC3A0A77AD3A02CB6F39F708A339E93B2939DC255A39CFBE7E39C3FE3D39B8DC9739AE51E539A456D1399AE4593991F3C939897EB739817F013973DD9A3965910439580D90394B490B393F39BA3933D652392915F9391EF03C39155D0F390C54C7,
   0x3D56511E3D4FA59F3D4922B33D42C7DE3D3C94A73D36888C3D30A30C3D2AE3A03D2549C03D1FD4E23D1A84793D1557F43D104EC53D0B68573D06A4173D0201703CFAFF963CF23D223CE9BA553CE175FD3CD96EE83CD1A3E53CCA13C13CC2BD4A3CBB9F4F3CB4B89E3CAE08083CA78C5E3CA144723C9B2F1B3C954B2D3C8F97833C8A12F63C84BC653C7F255F3C7529733C6B82D33C622F513C592CC73C5079163C4812263C3FF5E83C3822513C3095603C294D1E3C2247993C1B82E73C14FD2A3C0EB48A3C08A7373C02D36B3BFA6ED33BEFA2F93BE53FF13BDB42763BD1A7533BC86B653BBF8B9D3BB704FB3BAED4923BA6F7863B9F6B0F3B982C723B91390A,
   0x3E73E8243E7009973E6C2BFD3E684FCE3E64757D3E609D7E3E5CC8403E58F6313E5527BC3E515D493E4D973E3E49D6003E4619ED3E4263653E3EB2C23E3B085D3E37648A3E33C79E3E3031E63E2CA3B13E291D483E259EF13E2228F13E1EBB893E1B56F73E17FB753E14A93C3E1160813E0E21763E0AEC4B3E07C12C3E04A0433E0189B63DFCFB513DF6F87A3DF10B213DEB33803DE571C73DDFC6233DDA30BC3DD4B1B43DCF49293DC9F7323DC4BBE43DBF974E3DBA897A3DB5926D3DB0B22A3DABE8AD3DA735F03DA299E83D9E14863D99A5B83D954D673D910B793D8CDFD23D88CA503D84CAD13D80E12E3D7A1A7A3D729DA33D6B4B7A3D64239D3D5D25A2,
   0x3ECC3BC83ECC28A33ECC08BF3ECBDC223ECBA2D43ECB5CE03ECB0A533ECAAB3D3ECA3FAE3EC9C7BC3EC9437D3EC8B3083EC816793EC76DED3EC6B9843EC5F95D3EC52D9D3EC456693EC373E83EC286443EC18DA73EC08A3F3EBF7C3B3EBE63CA3EBD41203EBC14703EBADDF03EB99DD63EB8545B3EB701B83EB5A6283EB441E83EB2D5353EB1604E3EAFE3713EAE5EE03EACD2DC3EAB3FA73EA9A5843EA804B73EA65D833EA4B02F3EA2FCFE3EA144363E9F861E3E9DC2FB3E9BFB143E9A2EAF3E985E143E9689873E94B14F3E92D5B43E90F6FA3E8F15673E8D31403E8B4ACB3E89624B3E8778053E858C3B3E839F313E81B1273E7F84BF3E7BA6343E77C72C,
   0x3E7BA6343E7F84BF3E81B1273E839F313E858C3B3E8778053E89624B3E8B4ACB3E8D31403E8F15673E90F6FA3E92D5B43E94B14F3E9689873E985E143E9A2EAF3E9BFB143E9DC2FB3E9F861E3EA144363EA2FCFE3EA4B02F3EA65D833EA804B73EA9A5843EAB3FA73EACD2DC3EAE5EE03EAFE3713EB1604E3EB2D5353EB441E83EB5A6283EB701B83EB8545B3EB99DD63EBADDF03EBC14703EBD41203EBE63CA3EBF7C3B3EC08A3F3EC18DA73EC286443EC373E83EC456693EC52D9D3EC5F95D3EC6B9843EC76DED3EC816793EC8B3083EC9437D3EC9C7BC3ECA3FAE3ECAAB3D3ECB0A533ECB5CE03ECBA2D43ECBDC223ECC08BF3ECC28A33ECC3BC83ECC422A,
   0x3D64239D3D6B4B7A3D729DA33D7A1A7A3D80E12E3D84CAD13D88CA503D8CDFD23D910B793D954D673D99A5B83D9E14863DA299E83DA735F03DABE8AD3DB0B22A3DB5926D3DBA897A3DBF974E3DC4BBE43DC9F7323DCF49293DD4B1B43DDA30BC3DDFC6233DE571C73DEB33803DF10B213DF6F87A3DFCFB513E0189B63E04A0433E07C12C3E0AEC4B3E0E21763E1160813E14A93C3E17FB753E1B56F73E1EBB893E2228F13E259EF13E291D483E2CA3B13E3031E63E33C79E3E37648A3E3B085D3E3EB2C23E4263653E4619ED3E49D6003E4D973E3E515D493E5527BC3E58F6313E5CC8403E609D7E3E64757D3E684FCE3E6C2BFD3E7009973E73E8243E77C72C,
   0x3B982C723B9F6B0F3BA6F7863BAED4923BB704FB3BBF8B9D3BC86B653BD1A7533BDB42763BE53FF13BEFA2F93BFA6ED33C02D36B3C08A7373C0EB48A3C14FD2A3C1B82E73C2247993C294D1E3C3095603C3822513C3FF5E83C4812263C5079163C592CC73C622F513C6B82D33C7529733C7F255F3C84BC653C8A12F63C8F97833C954B2D3C9B2F1B3CA144723CA78C5E3CAE08083CB4B89E3CBB9F4F3CC2BD4A3CCA13C13CD1A3E53CD96EE83CE175FD3CE9BA553CF23D223CFAFF963D0201703D06A4173D0B68573D104EC53D1557F43D1A84793D1FD4E23D2549C03D2AE3A03D30A30C3D36888C3D3C94A73D42C7DE3D4922B33D4FA59F3D56511E3D5D25A2,
   0x39155D0F391EF03C392915F93933D652393F39BA394B490B39580D90396591043973DD9A39817F0139897EB73991F3C9399AE45939A456D139AE51E539B8DC9739C3FE3D39CFBE7E39DC255A39E93B2939F708A33A02CB6F3A0A77AD3A128DFC3A1B13833A240DA33A2D81F33A3776463A41F0AD3A4CF7783A5891383A64C4BF3A7199263A7F15CD3A86A12E3A8E13653A95E5AB3A9E1C483AA6BBAF3AAFC87B3AB947733AC33D893ACDAFDE3AD8A3C13AE41EAF3AF026573AFCC09B3B04F9C73B0BE2BC3B131E6B3B1AB02E3B229B793B2AE3E03B338D0F3B3C9AD23B4611133B4FF3DA3B5A474D3B650FB13B70516B3B7C11033B84298E3B8A8E403B91390A,
   0x35D7BB7835E92D4435FBF86E36081B2C36130116361EBC77362B5CD33638F2BC36478FE63657473836682CE0367A56673686ED6336916941369CABDC36A8C32336B5BDEE36C3AC0D36D29E5836E2A6BE36F3D855370323B7370D04D437179AFE3722F26D372F181F373C19E1374A065C3758ED223768DEBB3779ECB2378614D3378FD4AA379A405837A562F537B1484637BDFCC137CB8D9A37DA08CC37E97D2237F9FA463805C864380F29173819287F3823D067382F2B26383B43AB3848257F3855DCD13864767E38740015388243F3388B0E84389467B0389E57D938A8E7D338B420E938C00CE638CCB61538DA274E38E86BF838F7900F3903D016390C54C7,
   0x31E5419F31FBB256320A220C3217947032264B8B323664F4324800DC325B424632704F3F3283A89332903A76329DF5B332ACF4CB32BD548932CF342932E2B59232F7FD8C330799FC3314420B33220E623331186833417BA0335355D73366C751337BF2FC33897F513396099533A3AE6633B285AF33C2A94733D4351E33E7476233FC00AC3409421734157BF53422C27034312BA73440CF773451C79A34642FCF347825F93486E52734929FC0349F557634AD1A6434BC042F34CC2A2134DDA54634F0908D35028476350D96C135198FDF352681C735347FC135439E833553F444356598DC3578A5DF35869B5D3591B46A359DADD735AA988735B8868E35C78B4B,
   0x31D0C408]

/-- Constant LN2 of Table 5.2. -/
def cLN2 : Nat := 0x3F317218

/-- Constant LOG2E of Table 5.2. -/
def cLOG2E : Nat := 0x3FB8AA3B

/-- Constant K64 of Table 5.2. -/
def cK64 : Nat := 0x42B8AA3B

/-- Constant L1 of Table 5.2. -/
def cL1 : Nat := 0x3C317218

/-- Constant L2 of Table 5.2. -/
def cL2 : Nat := 0xAE02E308

/-- Constant E3 of Table 5.2. -/
def cE3 : Nat := 0x3E2AAAAB

/-- Constant G3 of Table 5.2. -/
def cG3 : Nat := 0x3EAAAAAB

/-- Constant G5 of Table 5.2. -/
def cG5 : Nat := 0x3E4CCCCD

/-- Constant IHP of Table 5.2. -/
def cIHP : Nat := 0x3F22F983

/-- Constant P1 of Table 5.2. -/
def cP1 : Nat := 0x3FC90FDB

/-- Constant P2 of Table 5.2. -/
def cP2 : Nat := 0xB33BBD2E

/-- Constant P3 of Table 5.2. -/
def cP3 : Nat := 0xA6F72CED

/-- Constant S1 of Table 5.2. -/
def cS1 : Nat := 0xBE2AAAAB

/-- Constant S2 of Table 5.2. -/
def cS2 : Nat := 0x3C088889

/-- Constant S3 of Table 5.2. -/
def cS3 : Nat := 0xB9500D01

/-- Constant S4 of Table 5.2. -/
def cS4 : Nat := 0x3638EF1D

/-- Constant C2 of Table 5.2. -/
def cC2 : Nat := 0x3D2AAAAB

/-- Constant C3 of Table 5.2. -/
def cC3 : Nat := 0xBAB60B61

/-- Constant C4 of Table 5.2. -/
def cC4 : Nat := 0x37D00D01

/-- Constant C5 of Table 5.2. -/
def cC5 : Nat := 0xB493F27E

/-- Entry `j` of a table packed 64 entries to a literal. -/
def tabAt (t : List Nat) (j : Nat) : Nat := bitsOf (t.getD (j / 64) 0) (32 * (j % 64)) 32

/-! ### The operations of R163 -/

def f1 : Nat := 0x3F800000
def fHalf : Nat := 0x3F000000
def fNegHalf : Nat := 0xBF000000
def fNeg1 : Nat := 0xBF800000
def fNan : Nat := 0x7FC00000
def fInf : Nat := 0x7F800000
def fNegInf : Nat := 0xFF800000
def fNeg0 : Nat := 0x80000000

/-- An integer as an FP32 operand; it converts exactly. -/
def f32Int (n : Int) : Nat := toF32 (dyNum ⟨n, 0⟩ false)

/-- An exact dyadic value as FP32. -/
def f32Dy (m e : Int) : Nat := toF32 (dyNum ⟨m, e⟩ false)

/-- `rint`: an FP32 value rounded to an integer in RNE. -/
def rint (x : Nat) : Int := dyRoundRne (numDy (f32 x)) 0

/-- `scale(y, m)`: y × 2^m rounded once to FP32 in RNE. -/
def f32Scale (y : Nat) (m : Int) : Nat :=
  match f32 y with
  | .fin n k e => toF32 (.fin n k (e + m))
  | v => toF32 v

/-- `exponent(x)` of a finite non-zero value. -/
def exponentOf (x : Nat) : Int := (numLog2 (f32 x)).getD 0

/-- `signif(x)` in [1, 2), with the sign of x, as an FP32 value. -/
def signifOf (x : Nat) : Nat := f32Scale x (-(exponentOf x))

/-- abs(x). -/
def f32Abs (x : Nat) : Nat := x % 2 ^ 31

/-- copysign(y, x). -/
def copysign (y x : Nat) : Nat := y % 2 ^ 31 + x / 2 ^ 31 * 2 ^ 31

/-- floor(f × 64) of a value in [0, 4). -/
def floor64 (f : Nat) : Nat :=
  match f32 f with
  | .fin _ m e => if -6 ≤ e then m * 2 ^ (e + 6).toNat else m / 2 ^ (-(e + 6)).toNat
  | _ => 0

/-- The smaller of two FP32 values, neither a NaN. -/
def f32MinC (a b : Nat) : Nat := if numLt (f32 b) (f32 a) then b else a

/-- The larger of two FP32 values, neither a NaN. -/
def f32MaxC (a b : Nat) : Nat := if numLt (f32 a) (f32 b) then b else a

/-- Whether one FP32 value is below another. -/
def f32Lt (a b : Nat) : Bool := numLt (f32 a) (f32 b)

/-! ### The functions (R165), each with its special inputs first (Table 5.3) -/

/-- `exp_parts`. -/
def expParts (x : Nat) (base2 : Bool) : Nat × Int × Nat :=
  let ns : Int × Nat :=
    if base2 then
      let x := f32MinC (f32MaxC x (f32Int (-160))) (f32Int 160)
      let n := rint (f32Mul x (f32Int 64))
      (n, f32Mul (f32Add x (f32Dy (-n) (-6))) cLN2)
    else
      let x := f32MinC (f32MaxC x (f32Int (-120))) (f32Int 100)
      let n := rint (f32Mul x cK64)
      (n, f32Fma (f32Int (-n)) cL2 (f32Fma (f32Int (-n)) cL1 x))
  let j := ns.1 % 64
  let m := (ns.1 - j) / 64
  let p := f32Fma cE3 ns.2 fHalf
  let p := f32Fma p ns.2 f1
  (j.toNat, m, f32Mul p ns.2)

/-- `exp_ref`. -/
def expRef (x : Nat) (base2 : Bool) : Nat :=
  match f32 x with
  | .nan => fNan
  | .inf true => 0
  | .inf false => fInf
  | .fin _ m _ =>
    if m = 0 then f1
    else
      let q := expParts x base2
      let t := tabAt tabT q.1
      f32Scale (f32Fma t q.2.2 t) q.2.1

/-- `em1_ref`: e^x - 1, as `tanh_ref` calls it. -/
def em1Ref (x : Nat) : Nat :=
  let q := expParts x false
  let t := tabAt tabT q.1
  if q.2.1 = 0 then f32Fma t q.2.2 (f32Add t fNeg1)
  else f32Add (f32Scale (f32Fma t q.2.2 t) q.2.1) fNeg1

/-- `log_ref`. -/
def logRef (x : Nat) (base2 : Bool) : Nat :=
  match f32 x with
  | .nan => fNan
  | .inf true => fNan
  | .inf false => fInf
  | .fin neg m _ =>
    if m = 0 then fNegInf
    else if neg then fNan
    else
      let e0 := exponentOf x
      let f0 := signifOf x
      let big := !f32Lt f0 0x3FC00000
      let f := if big then f32Scale f0 (-1) else f0
      let e := if big then e0 + 1 else e0
      let j := floor64 f - 48
      let z := f32Fma f (tabAt tabRL j) fNeg1
      let q := f32Fma cG5 z (f32Dy (-1) (-2))
      let q := f32Fma q z cG3
      let q := f32Fma q z fNegHalf
      let q := f32Mul q z
      let q := f32Fma q z z
      if base2 then f32Add (f32Fma q cLOG2E (tabAt tabLG j)) (f32Int e)
      else f32Fma (f32Int e) cLN2 (f32Add (tabAt tabLN j) q)

/-- One Newton step of `rsqrt_ref`. -/
def rsqrtStep (h y : Nat) : Nat := f32Mul y (f32Fma (f32Neg h) (f32Mul y y) 0x3FC00000)

/-- `rsqrt_ref`. -/
def rsqrtRef (x : Nat) : Nat :=
  match f32 x with
  | .nan => fNan
  | .inf true => fNan
  | .inf false => 0
  | .fin neg m _ =>
    if m = 0 then (if neg then fNegInf else fInf)
    else if neg then fNan
    else
      let e0 := exponentOf x
      let odd := e0 % 2 = 1
      let f := if odd then f32Scale (signifOf x) 1 else signifOf x
      let e := if odd then e0 - 1 else e0
      let y := tabAt tabRS (floor64 f - 64)
      let h := f32Mul fHalf f
      f32Scale (rsqrtStep h (rsqrtStep h y)) (-(e / 2))

/-- One Newton step of `rcp_ref`. -/
def rcpStep (f y : Nat) : Nat := f32Fma y (f32Fma (f32Neg f) y f1) y

/-- `rcp_ref`. -/
def rcpRef (x : Nat) : Nat :=
  match f32 x with
  | .nan => fNan
  | .inf true => fNeg0
  | .inf false => 0
  | .fin neg m _ =>
    if m = 0 then (if neg then fNegInf else fInf)
    else
      let f := signifOf (f32Abs x)
      let y := tabAt tabRC (floor64 f - 64)
      copysign (f32Scale (rcpStep f (rcpStep f y)) (-(exponentOf x))) x

/-- `tanh_ref`. -/
def tanhRef (x : Nat) : Nat :=
  match f32 x with
  | .nan => fNan
  | .inf neg => if neg then fNeg1 else f1
  | .fin _ m _ =>
    if m = 0 then x
    else
      let a := f32Abs x
      if !f32Lt a (f32Int 10) then copysign f1 x
      else
        let e := em1Ref (f32Mul (f32Int 2) a)
        copysign (f32Mul e (rcpRef (f32Add e (f32Int 2)))) x

/-- `sig_ref`. -/
def sigRef (x : Nat) : Nat :=
  match f32 x with
  | .nan => fNan
  | .inf neg => if neg then 0 else f1
  | .fin _ m _ => if m = 0 then fHalf else rcpRef (f32Add f1 (expRef (f32Neg x) false))

/-- `gelu_ref`. -/
def geluRef (x : Nat) : Nat :=
  match f32 x with
  | .nan => fNan
  | .inf neg => if neg then fNeg0 else fInf
  | .fin _ m _ =>
    if m = 0 then x
    else if !f32Lt x (f32Int 6) then x
    else if f32Lt x (f32Int (-10)) then fNeg0
    else
      let j := rint (f32Mul x (f32Int 64))
      let x0 := f32Dy j (-6)
      let i := (j + 640).toNat
      let d := tabAt tabD i
      let h := f32Add x (f32Neg x0)
      let c2 := f32Mul (f32Mul x0 d) fNegHalf
      let c3 := f32Mul (f32Mul (f32Fma x0 x0 fNeg1) d) cE3
      let q := f32Fma c3 h c2
      let q := f32Fma q h d
      let q := f32Fma q h (tabAt tabP i)
      f32Mul x q

/-- `trig_ref`. -/
def trigRef (x : Nat) (cosine : Bool) : Nat :=
  match f32 x with
  | .nan => fNan
  | .inf _ => fNan
  | .fin _ m _ =>
    if m = 0 then (if cosine then f1 else x)
    else if f32Lt (f32Int 1048576) (f32Abs x) then fNan
    else
      let n := rint (f32Mul x cIHP)
      let mn := f32Int (-n)
      let r := f32Fma mn cP3 (f32Fma mn cP2 (f32Fma mn cP1 x))
      let s := f32Mul r r
      let u := f32Fma cS4 s cS3
      let u := f32Fma u s cS2
      let u := f32Fma u s cS1
      let sn := f32Fma (f32Mul u s) r r
      let v := f32Fma cC5 s cC4
      let v := f32Fma v s cC3
      let v := f32Fma v s cC2
      let v := f32Fma v s fNegHalf
      let cs := f32Fma v s f1
      match ((n + if cosine then 1 else 0) % 4).toNat with
      | 0 => sn
      | 1 => cs
      | 2 => f32Neg sn
      | _ => f32Neg cs

end Sys2Proof.Machine
end

