-- ==== Sys2Proof/Machine/Vector.lean ====
section
/-! DEFINITION. The vector engine (R143 to R174) and its instructions (R247 to R253). Beats and latencies are durations
(R196) and are not modelled: an instruction writes its results at its issue, but for the block partials of `VRED`, which
enter the splice unit in steps of their own (R160). -/

namespace Sys2Proof.Machine

/-! ### Operands -/

/-- A source operand of kind O (Table 7.1): a descriptor or a broadcast scalar. -/
inductive VSrc where
  | desc (d : Desc)
  | scal (w : BitVec 32)
  deriving DecidableEq, Repr

/-- The operand a 5-bit O code names. -/
def vsrc (fr : Frame) (code : BitVec 5) : VSrc :=
  if code.toNat < 16 then .desc (tdesc fr code.toNat) else .scal (sreg fr (code.toNat - 16))

/-- The formats of vector arithmetic (R144). -/
def vecFmt (f : Fmt) : Bool := f == .fp32 || f == .bf16 || f == .fp16 || f == .int32

/-- The floating-point formats of vector arithmetic. -/
def vecFloat (f : Fmt) : Bool := f == .fp32 || f == .bf16 || f == .fp16

/-- The byte ranges an operand is read from. -/
def VSrc.region : VSrc → List (Nat × Nat)
  | .desc d => d.region
  | .scal _ => []

/-- Causes of an operand, with formats `ok`, that must cover `rows` by `vl` (R143, R183). -/
def VSrc.causes (fr : Frame) (ok : Fmt → Bool) (rows vl : Nat) : VSrc → List Nat
  | .desc d => descCauses fr ok d ++ (if covers d rows vl then [] else [0xC])
  | .scal _ => []

/-- Whether an operand is an INT32 descriptor. -/
def VSrc.isInt : VSrc → Bool
  | .desc d => d.f == .int32
  | .scal _ => false

/-- Whether an operand is a floating-point descriptor. -/
def VSrc.isFloat : VSrc → Bool
  | .desc d => d.f != .int32
  | .scal _ => false

/-- Whether an instruction with these sources and destination computes on INT32 (R144, R215): a source is an INT32
descriptor, or every source is a scalar and the destination is INT32. DESIGN CHOICE (log 118): the second case. -/
def intArith (srcs : List VSrc) (d : Desc) : Bool :=
  srcs.any VSrc.isInt || (!srcs.any VSrc.isFloat && d.f == .int32)

/-- INT32 sources pair only with INT32 sources (R144). -/
def mixCauses (srcs : List VSrc) : List Nat := if srcs.any VSrc.isInt && srcs.any VSrc.isFloat then [5] else []

/-- The value of element (r, j) of an operand, and its poison (R157, R215). -/
def VSrc.read (c : Core) (fr : Frame) (isInt : Bool) (r j : Nat) : VSrc → Num × Bool
  | .desc d => let e := readElem c fr d r j; (elemNum d.f e, e.poison)
  | .scal w => (if isInt then decodeInt 32 w.toNat else f32 w.toNat, false)

/-- The vector length in force. -/
def vlen (x : Cx) : Nat := x.fr.vl.toNat

/-- Elements processed, in row-major order. -/
def vplaces (rows vl : Nat) : List (Nat × Nat) :=
  ((List.range rows).map fun r => (List.range vl).map fun j => (r, j)).flatten

/-- Whether a destination breaks R149 against an operand. -/
def VSrc.overlaps (d : Desc) : VSrc → Bool
  | .desc e => overlapBad d e
  | .scal _ => false

/-- Causes of a destination that takes elements: descriptor, `vl`, overlap with the sources, status word against these,
the destination and the other regions the instruction reads or writes (R146, R149, R218). -/
def destCauses (x : Cx) (ok : Fmt → Bool) (d : Desc) (srcs : List VSrc) (more : List (Nat × Nat) := []) : List Nat :=
  descCauses x.fr ok d ++ (if vlen x ≤ d.cols then [] else [7]) ++
    (if srcs.any (VSrc.overlaps d) then [6] else []) ++
    statusCauses x 31 (d.region ++ (srcs.map VSrc.region).flatten ++ more)

/-- A reserved or unused field that must be 0, or a reserved code. -/
def mustBe (b : Bool) : List Nat := if b then [] else [2]

/-- The scalar block of a vector instruction (R219). -/
def vblock (f : VecF) : Nat := if f.sb then 20 else 24

/-- Result rows written, added to the vector stream total (Table 8.6); with `vl` = 0 none is (R146). -/
def addRows (s : State) (x : Cx) (n : Nat) : State :=
  if vlen x = 0 then s else countRows s x.n x.k n

/-- The results of an instruction over the elements of its destination: active elements rounded, inactive ones zeroed
under `MZ` and otherwise kept, the status word (R151 to R153). -/
def effElems (s : State) (x : Cx) (d : Desc) (rm : RMode) (sr : SrIn) (mz : Bool) (val : Nat → Nat → Num × Bool) : State :=
  let c := x.mem
  let ps := vplaces d.rows (vlen x)
  let es : List OutElem := (ps.filter (fun p => d.active c x.fr p.1 p.2)).map fun p =>
    let v := val p.1 p.2
    ⟨p.1, p.2, v.1, v.2⟩
  let off := ps.filter (fun p => !d.active c x.fr p.1 p.2)
  let r := roundTile d rm sr es
  let keep (p : Nat × Nat) : Bool :=
    d.f != .mxfp4 || es.any (fun e => e.row == p.1 && e.col / 32 == p.2 / 32)
  let zs := if mz then (off.filter keep).map (fun p => elemWrite d p.1 p.2 0 false) else []
  addRows (writeOut s x (zs ++ r.1) (some (sreg x.fr 31).toNat) r.2 (es.any (·.poison)) d.fmt 0xFFFFFFFF) x d.rows

/-! ### Element-wise instructions (R154 to R157) -/

/-- Causes of an instruction with two arithmetic sources. -/
def arithCauses (x : Cx) (f : VecF) (srcs : List VSrc) : List Nat :=
  let d := tdesc x.fr f.t.toNat
  mustBe (rmOf f.rm.toNat).isSome ++ destCauses x vecFmt d srcs ++
    (srcs.map (VSrc.causes x.fr vecFmt d.rows (vlen x))).flatten ++ mixCauses srcs

/-- The effect of an instruction that combines two sources. -/
def effBinary (s : State) (x : Cx) (f : VecF) (op : RMode → Num → Num → Num) : State :=
  let d := tdesc x.fr f.t.toNat
  let a := vsrc x.fr f.a
  let b := vsrc x.fr f.b
  let i := intArith [a, b] d
  let rm := (rmOf f.rm.toNat).getD .rne
  let c := x.mem
  effElems s x d rm (srFrom s x (vblock f)) f.mz fun r j =>
    let u := a.read c x.fr i r j
    let v := b.read c x.fr i r j
    (op rm u.1 v.1, u.2 || v.2)

/-- Causes of `VADD`. -/
def vaddCauses (x : Cx) (f : VecF) : List Nat :=
  mustBe (f.x.toNat ≤ 1) ++ arithCauses x f [vsrc x.fr f.a, vsrc x.fr f.b]

/-- The effect of `VADD`; `SUB` negates b. -/
def effVadd (s : State) (x : Cx) (f : VecF) : State :=
  effBinary s x f fun rm a b => numAdd rm a (if f.x = 1 then numNeg b else b)

/-- Causes of `VMUL`. -/
def vmulCauses (x : Cx) (f : VecF) : List Nat :=
  mustBe (f.x = 0) ++ arithCauses x f [vsrc x.fr f.a, vsrc x.fr f.b]

/-- The effect of `VMUL`. -/
def effVmul (s : State) (x : Cx) (f : VecF) : State := effBinary s x f fun _ a b => numMul a b

/-- Causes of `VFMA`. -/
def vfmaCauses (x : Cx) (f : VecF) : List Nat :=
  arithCauses x f [vsrc x.fr f.a, vsrc x.fr f.b, vsrc x.fr f.x]

/-- The effect of `VFMA`: one rounding of the exact a × b + c. -/
def effVfma (s : State) (x : Cx) (f : VecF) : State :=
  let d := tdesc x.fr f.t.toNat
  let a := vsrc x.fr f.a
  let b := vsrc x.fr f.b
  let c3 := vsrc x.fr f.x
  let i := intArith [a, b, c3] d
  let rm := (rmOf f.rm.toNat).getD .rne
  let c := x.mem
  effElems s x d rm (srFrom s x (vblock f)) f.mz fun r j =>
    let u := a.read c x.fr i r j
    let v := b.read c x.fr i r j
    let w := c3.read c x.fr i r j
    (numAdd rm (numMul u.1 v.1) w.1, u.2 || v.2 || w.2)

/-- Causes of `VMAX`. -/
def vmaxCauses (x : Cx) (f : VecF) : List Nat :=
  mustBe (f.x.toNat ≤ 1) ++ arithCauses x f [vsrc x.fr f.a, vsrc x.fr f.b]

/-- The effect of `VMAX`; `MIN` takes the minimum. -/
def effVmax (s : State) (x : Cx) (f : VecF) : State :=
  effBinary s x f fun _ a b => if f.x = 1 then numMin a b else numMax a b

/-- The comparison of `VCMP` (Table 7.7): a NaN operand gives 0, except that NE gives 1. -/
def vcmpBit (op : Nat) (a b : Num) : Bool :=
  match op with
  | 0 => numEq a b
  | 1 => !numEq a b
  | 2 => numLt a b
  | 3 => numLt a b || numEq a b
  | 4 => numLt b a
  | _ => numLt b a || numEq a b

/-- Causes of an instruction that writes a mask, whatever the destination's format (R145, R249, Table 5.5). -/
def maskDestCauses (x : Cx) (d : Desc) (srcs : List VSrc) : List Nat :=
  descCauses x.fr anyFmt d ++ (if d.masken then [] else [3]) ++ (if vlen x ≤ d.cols then [] else [7]) ++
    (if regionsMeet (d.maskRegion d.rows (vlen x)) ((srcs.map VSrc.region).flatten) then [6] else [])

/-- One row of mask bytes: bits 0 to `vl` - 1, and 0 up to the end of the last byte (R249). -/
def maskRow (vl : Nat) (bit : Nat → Bool) : Bytes :=
  (List.range ((vl + 7) / 8)).map fun i =>
    BitVec.ofNat 8 (((List.range 8).map fun b => if 8 * i + b < vl ∧ bit (8 * i + b) then 2 ^ b else 0).sum)

/-- The rows of a mask written, byte by byte: a byte is poisoned where an element with a bit in it is (R157). -/
def effMask (s : State) (x : Cx) (d : Desc) (bit poison : Nat → Nat → Bool) : State :=
  let ws := if vlen x = 0 then [] else
    ((List.range d.rows).map fun r =>
      (maskRow (vlen x) (bit r)).zipIdx.map fun b =>
        bytesWrite (d.maskptr + r * d.maskPitch + b.2) [b.1]
          ((List.range 8).any fun i => decide (8 * b.2 + i < vlen x) && poison r (8 * b.2 + i))).flatten
  addRows (writeOut s x ws none [] false 0 0) x d.rows

/-- Causes of `VCMP`. -/
def vcmpCauses (x : Cx) (f : VecF) : List Nat :=
  let d := tdesc x.fr f.t.toNat
  let srcs := [vsrc x.fr f.a, vsrc x.fr f.b]
  mustBe (f.x.toNat ≤ 5 ∧ f.rm = 0 ∧ f.mz = false) ++ maskDestCauses x d srcs ++
    (srcs.map (VSrc.causes x.fr vecFmt d.rows (vlen x))).flatten ++ mixCauses srcs

/-- The effect of `VCMP`. DESIGN CHOICE (log 118): two scalar sources are compared as FP32. -/
def effVcmp (s : State) (x : Cx) (f : VecF) : State :=
  let d := tdesc x.fr f.t.toNat
  let a := vsrc x.fr f.a
  let b := vsrc x.fr f.b
  let i := intArith [a, b] { d with fmt := 0 }
  let c := x.mem
  effMask s x d (fun r j => vcmpBit f.x.toNat (a.read c x.fr i r j).1 (b.read c x.fr i r j).1)
    (fun r j => (a.read c x.fr i r j).2 || (b.read c x.fr i r j).2)

/-- Causes of `VSEL`: the sources have the destination's format, and X names a legal descriptor, in any format, whose
mask lies in the view (R183); a mask is no source that must cover what is processed (R143, R145); log entry 130. -/
def vselCauses (x : Cx) (f : VecF) : List Nat :=
  let d := tdesc x.fr f.t.toNat
  let srcs := [vsrc x.fr f.a, vsrc x.fr f.b]
  let m := tdesc x.fr f.x.toNat
  mustBe (f.x.toNat < 16 ∧ f.rm = 0) ++ destCauses x vecFmt d srcs (m.maskRegion d.rows (vlen x)) ++
    descCauses x.fr anyFmt m ++ (srcs.map (VSrc.causes x.fr vecFmt d.rows (vlen x))).flatten ++
    (if srcs.all (fun v => match v with | .desc e => e.f == d.f | .scal _ => true) then [] else [5]) ++
    (if inView x.fr (m.maskRegion d.rows (vlen x)) then [] else [3])

/-- The code of element (r, j) of a `VSEL` source, and its poison (R215). -/
def selCode (c : Core) (fr : Frame) (w r j : Nat) : VSrc → Nat × Bool
  | .desc d => let e := readElem c fr d r j; (e.code, e.poison)
  | .scal v => (v.toNat % 2 ^ w, false)

/-- The effect of `VSEL`: bits copied unchanged by the selection mask. DESIGN CHOICE (log 150): a source element that
the selection does not pick is not read, and its poison does not show. -/
def effVsel (s : State) (x : Cx) (f : VecF) : State :=
  let d := tdesc x.fr f.t.toNat
  let a := vsrc x.fr f.a
  let b := vsrc x.fr f.b
  let m := tdesc x.fr f.x.toNat
  let c := x.mem
  let w := fmtBits d.f
  let pick (p : Nat × Nat) : Nat × Bool :=
    selCode c x.fr w p.1 p.2 (if maskBit c x.fr m.maskptr m.maskPitch p.1 p.2 then a else b)
  let ps := vplaces d.rows (vlen x)
  let on := ps.filter (fun p => d.active c x.fr p.1 p.2)
  let off := ps.filter (fun p => !d.active c x.fr p.1 p.2)
  let ws := on.map fun p => elemWrite d p.1 p.2 (pick p).1 (pick p).2
  let os : List ElemOut := on.map fun p => ⟨p.1, p.2, numCls (decodeElem d.f (pick p).1 0), false⟩
  let zs := if f.mz then off.map (fun p => elemWrite d p.1 p.2 0 false) else []
  addRows (writeOut s x (zs ++ ws) (some (sreg x.fr 31).toNat) os (on.any (fun p => (pick p).2)) d.fmt 0xFFFFFFFF) x d.rows

/-- Causes of `VCVT`: any two formats of Table 2.1 (R64); an MXFP4 destination is untransposed (R53). -/
def vcvtCauses (x : Cx) (f : VecF) : List Nat :=
  let d := tdesc x.fr f.t.toNat
  let a := vsrc x.fr f.a
  mustBe ((rmOf f.rm.toNat).isSome ∧ f.b = 0 ∧ f.x = 0) ++ destCauses x anyFmt d [a] ++ mxDest d ++
    a.causes x.fr anyFmt d.rows (vlen x)

/-- The effect of `VCVT`. -/
def effVcvt (s : State) (x : Cx) (f : VecF) : State :=
  let d := tdesc x.fr f.t.toNat
  let a := vsrc x.fr f.a
  let c := x.mem
  effElems s x d ((rmOf f.rm.toNat).getD .rne) (srFrom s x (vblock f)) f.mz
    fun r j => a.read c x.fr (intArith [a] d) r j

/-! ### Row reductions (R158 to R161, R250) -/

/-- The anchor of a row block of elements (R81, R159). -/
def rowAlpha (sq : Bool) (ea : Int) : Int := if sq then 2 * ea + 2 else ea + 2

/-- The partial of one block of a row: its active elements with their codes (R81, R159). -/
def rowPart (f : Fmt) (sq : Bool) (es : List Nat) (acc : Nat) (poison : Bool) (tag : BitVec 8) (blk : Nat) : Part :=
  let alpha := rowAlpha sq (blockExp f (es.map fun e => (e, 0)))
  let r := es.foldl
    (fun r e =>
      let v := if sq then numMul (decodeElem f e 0) (decodeElem f e 0) else decodeElem f e 0
      (if numCls v = 0 then r.1 + dyRoundRne (numDy v) (gridUnit f alpha) else r.1, r.2 ||| numCls v))
    ((0 : Int), (0 : BitVec 2))
  mkPart f acc alpha r.1 r.2 poison tag blk

/-- The active elements of block `q` of a row. -/
def rowBlock (c : Core) (fr : Frame) (d : Desc) (vl r q : Nat) : List Elem :=
  (((List.range vl).drop (128 * q)).take 128 |>.filter (fun j => d.active c fr r j)).map fun j => readElem c fr d r j

/-- The partials a `SUM` or `SUMSQ` delivers for its rows (R160). -/
def vredParts (c : Core) (fr : Frame) (d : Desc) (vl : Nat) (sq : Bool) (ars : Ars) : List Part :=
  ((List.range d.rows).map fun r =>
    (List.range (kblocks vl)).map fun q =>
      let es := rowBlock c fr d vl r q
      rowPart d.f sq (es.map (·.code)) (ars.first + r) (es.any (·.poison)) ars.tag (d.korg / 128 + q)).flatten

/-- Causes of `VRED`. -/
def vredCauses (s : State) (x : Cx) (f : VecF) : List Nat :=
  let op := f.x.toNat % 4
  let fin := f.x.getLsbD 2
  let d := tdesc x.fr f.t.toNat
  let writes := fin || decide (2 ≤ op)
  let zeros := mustBe (f.x.toNat < 8 && (decide (op < 2) || f.b == 0) && (writes || (f.t == 0 && f.rm == 0)) &&
    (rmOf f.rm.toNat).isSome)
  match vsrc x.fr f.a with
  | .scal _ =>
    zeros ++ [0xC] ++ (if op < 2 then wideCauses s x ++ arsCauses (sreg x.fr f.b.toNat) else []) ++
      (if writes then descCauses x.fr vecFmt d ++ statusCauses x 31 d.region else [])
  | .desc a =>
    zeros ++ descCauses x.fr vecFmt a ++ (if a.korg % 128 = 0 then [] else [4]) ++
      (if vlen x ≤ a.cols then [] else [7]) ++
      (if op < 2 then
        wideCauses s x ++ arsCauses (sreg x.fr f.b.toNat) ++
          (if a.rows ≤ (arsOf (sreg x.fr f.b.toNat)).count then [] else [7])
       else []) ++
      (if writes then
        descCauses x.fr vecFmt d ++ (if a.rows ≤ d.rows then [] else [0xC]) ++
          (if overlapBad d a then [6] else []) ++ statusCauses x 31 (d.region ++ a.region)
       else [])

/-- The effect of `VRED`: `SUM` and `SUMSQ` send block partials to the splice unit, finishing with `FIN`; `MAX` and
`MIN` write column 0 (R160, R161, R250). DESIGN CHOICE (log 119): with `vl` = 0 the accumulators named stay as they are,
and the trap record of a `MAX` or `MIN` gives 0xFFFFFFFF as its K-block. -/
def effVred (s : State) (x : Cx) (f : VecF) : State :=
  let op := f.x.toNat % 4
  let fin := f.x.getLsbD 2
  let d := tdesc x.fr f.t.toNat
  let rm := (rmOf f.rm.toNat).getD .rne
  let c := x.mem
  match vsrc x.fr f.a with
  | .scal _ => s
  | .desc a =>
    if op < 2 then
      let ars := arsOf (sreg x.fr f.b.toNat)
      let parts := (vredParts c x.fr a (vlen x) (op == 1) ars).map (Flight.part false false)
      let rows := if vlen x = 0 then 0 else a.rows
      let job : List Flight :=
        if fin then
          [.vfin ⟨x.fr.pc, x.seq, 2, tget x.fr.t f.t.toNat 0, BitVec.ofNat 4 d.fmt, f.rm, (sreg x.fr 31).toNat,
            srFrom s x (vblock f), x.fr.trapNan, false, ars.tag, rows, 1, ars.first⟩]
        else []
      let old := (core s x.n).flight
      let s := modCore s x.n fun c => { c with flight := c.flight ++ parts ++ job }
      if old.isEmpty && parts.isEmpty then runVfins job.length s x.n x.k else s
    else
      let row (r : Nat) : OutElem :=
        let es := ((List.range (vlen x)).filter (fun j => a.active c x.fr r j)).map fun j => readElem c x.fr a r j
        let vs := es.map (elemNum a.f)
        let v := match vs with
          | [] => Num.inf (op == 2)
          | v :: t => t.foldl (if op = 2 then numMax else numMin) v
        ⟨r, 0, v, es.any (·.poison)⟩
      let es := if vlen x = 0 then [] else (List.range a.rows).map row
      let r := roundTile d rm (srFrom s x (vblock f)) es
      addRows (writeOut s x r.1 (some (sreg x.fr 31).toNat) r.2 (es.any (·.poison)) d.fmt 0xFFFFFFFF) x a.rows

/-! ### Transcendentals (R162 to R165) -/

/-- An input as the reference algorithms take it: FP32, a subnormal of its own format replaced by zero of the same
sign. -/
def transIn (f : Fmt) (code : Nat) : Nat :=
  let g := floatOf f
  let ex := code / 2 ^ g.fbits % 2 ^ g.ebits
  match decodeElem f code 0 with
  | .fin neg m e => toF32 (if ex = 0 then .fin neg 0 0 else .fin neg m e)
  | v => toF32 v

/-- Causes of a transcendental instruction; `x` is the largest value the X field may take. -/
def transCauses (x : Cx) (f : VecF) (maxX : Nat) : List Nat :=
  let d := tdesc x.fr f.t.toNat
  let a := vsrc x.fr f.a
  mustBe ((rmOf f.rm.toNat).isSome ∧ f.b = 0 ∧ f.x.toNat ≤ maxX) ++ destCauses x vecFmt d [a] ++
    a.causes x.fr vecFloat d.rows (vlen x)

/-- The effect of a transcendental instruction with the reference function `fn`. -/
def effTrans (s : State) (x : Cx) (f : VecF) (fn : Nat → Nat) : State :=
  let d := tdesc x.fr f.t.toNat
  let c := x.mem
  effElems s x d ((rmOf f.rm.toNat).getD .rne) (srFrom s x (vblock f)) f.mz fun r j =>
    match vsrc x.fr f.a with
    | .desc a => let e := readElem c x.fr a r j; (f32 (fn (transIn a.f e.code)), e.poison)
    | .scal w => (f32 (fn (transIn .fp32 w.toNat)), false)

def effVexp (s : State) (x : Cx) (f : VecF) : State := effTrans s x f fun v => expRef v (f.x == 1)
def effVlog (s : State) (x : Cx) (f : VecF) : State := effTrans s x f fun v => logRef v (f.x == 1)
def effVrsq (s : State) (x : Cx) (f : VecF) : State := effTrans s x f rsqrtRef
def effVrcp (s : State) (x : Cx) (f : VecF) : State := effTrans s x f rcpRef
def effVtanh (s : State) (x : Cx) (f : VecF) : State := effTrans s x f tanhRef
def effVsig (s : State) (x : Cx) (f : VecF) : State := effTrans s x f sigRef
def effVgelu (s : State) (x : Cx) (f : VecF) : State := effTrans s x f geluRef
def effVsin (s : State) (x : Cx) (f : VecF) : State := effTrans s x f fun v => trigRef v false
def effVcos (s : State) (x : Cx) (f : VecF) : State := effTrans s x f fun v => trigRef v true

/-! ### Random numbers (R166 to R168, R252) -/

/-- Bits of precision of `UNIFORM` in a format (Table 5.5). -/
def uniformBits : Fmt → Nat
  | .bf16 => 8
  | .fp16 => 11
  | _ => 24

/-- Causes of `VRAND`. -/
def vrandCauses (s : State) (x : Cx) (f : VecF) : List Nat :=
  let d := tdesc x.fr f.t.toNat
  let mode := f.x.toNat % 4
  let maskout := f.x.getLsbD 3
  mustBe (mode ≠ 3 ∧ f.x.getLsbD 4 = false ∧ f.rm = 0 ∧ f.b = 0 ∧ (maskout = true → mode = 2) ∧
    (if mode = 2 then 16 ≤ f.a.toNat else f.a = 0)) ++
  (if f.x.getLsbD 2 && fbit s F.glbDetEnf 0 0 then [8] else []) ++
  (if maskout then maskDestCauses x d []
   else destCauses x (if mode = 0 then (· == .int32) else if mode = 1 then vecFloat else vecFmt) d [])

/-- The random word of an element: Philox, or the entropy source under `ENT` (R166, R168); `i` is the element's place
in drawing order. -/
def drawU (s : State) (sr : SrIn) (ent : Bool) (i r c : Nat) : Nat :=
  if ent then (Config.entropy (s.freeCtr + i)).toNat else srU sr r c

/-- The value `VRAND` writes for a random word (Table 5.5). -/
def vrandNum (f : Fmt) (mode thr u : Nat) : Num :=
  match mode with
  | 0 => decodeInt 32 u
  | 1 => .fin false (u / 2 ^ (32 - uniformBits f)) (-(uniformBits f : Int))
  | _ => .fin false (if u < thr then 1 else 0) 0

/-- The effect of `VRAND`. -/
def effVrand (s : State) (x : Cx) (f : VecF) : State :=
  let d := tdesc x.fr f.t.toNat
  let mode := f.x.toNat % 4
  let ent := f.x.getLsbD 2
  let sr := srFrom s x (vblock f)
  let thr := (sreg x.fr (f.a.toNat - 16)).toNat
  let s' := if ent then { s with freeCtr := s.freeCtr + d.rows * vlen x } else s
  let u (r j : Nat) : Nat := drawU s sr ent (r * vlen x + j) r j
  if f.x.getLsbD 3 then effMask s' x d (fun r j => decide (u r j < thr)) (fun _ _ => false)
  else effElems s' x d .rne sr f.mz fun r j => (vrandNum d.f mode thr (u r j), false)

/-! ### Row replay (R169 to R171, R251) -/

/-- An anchored sum of one row through accumulator `a`, rounded RNE to FP32 (R169): FP32 codes, or the codes of an
element format; the accumulator is EMPTY before and after (R170). -/
def fsum (fr : Frame) (wide a : Nat) (tag : BitVec 8) (f : Fmt) (sq : Bool) (vl : Nat) (elem : Nat → Option Nat) (c : Core) :
    Core × Nat :=
  let parts := (List.range (kblocks vl)).map fun q =>
    rowPart f sq ((((List.range vl).drop (128 * q)).take 128).filterMap elem) a false tag q
  let c := parts.foldl (fun c p => accAdd c fr wide a (partAddend p)) (setAcc c a accEmpty)
  let v := toF32 (accNum c fr wide a .rne)
  (setAcc (holdWide c (24 * wideReads c [a])) a accEmpty, v)

/-- The operands of a `VROWREPLAY`: x, and the gain and the bias where its mode takes them (R251). -/
def replaySrcs (x : Cx) (f : VecF) : List VSrc :=
  let mode := f.x.toNat / 8
  [vsrc x.fr f.a] ++ (if mode = 0 then [] else [vsrc x.fr f.b]) ++ (if mode = 2 then [vsrc x.fr (f.b + 1)] else [])

/-- Where a `VROWREPLAY` writes its statistics (R251). -/
def replayStats (x : Cx) (f : VecF) : List (Nat × Nat) :=
  if f.x.getLsbD 1 then [((sreg x.fr (vblock f + 2)).toNat, 8 * (tdesc x.fr f.t.toNat).rows)] else []

/-- Whether the statistics of a `VROWREPLAY`, two FP32 words a row, overlap a source without coinciding with it (R149). -/
def statsBad (stats : List (Nat × Nat)) (base : Nat) : VSrc → Bool
  | .scal _ => false
  | .desc g => regionsMeet stats g.region && !(g.base == base && g.stride == 8 && fmtBits g.f == 32)

/-- Causes of `VROWREPLAY`. DESIGN CHOICE (log 118): an INT32 x, gain or bias is refused with cause 0x05, a gain code that
names a scalar with 0x0C. -/
def vrowreplayCauses (s : State) (x : Cx) (f : VecF) : List Nat :=
  let d := tdesc x.fr f.t.toNat
  let mode := f.x.toNat / 8
  let outy := f.x.getLsbD 2
  let outs := f.x.getLsbD 1
  let w2 := (sreg x.fr (vblock f + 2)).toNat
  let w3 := sreg x.fr (vblock f + 3)
  let srcs := replaySrcs x f
  let stats := replayStats x f
  let srow (v : VSrc) : List Nat := match v with
    | .desc g => descCauses x.fr vecFloat g ++ (if vlen x ≤ g.cols then [] else [0xC])
    | .scal _ => [0xC]
  (if outy || outs then [] else [1]) ++
  mustBe (mode ≠ 3 ∧ f.x.getLsbD 0 = false ∧ (mode = 0 → f.b = 0) ∧ (rmOf f.rm.toNat).isSome ∧
    (outy = false → f.rm = 0) ∧ (mode = 2 → f.b.toNat ≤ 14)) ++
  wideCauses s x ++ arsCauses w3 ++ (if (arsOf w3).count = 1 then [] else [7]) ++
  (if outs then (if w2 % 8 = 0 ∧ w2 + 8 * d.rows ≤ viewLen x.fr then [] else [7]) else []) ++
  (if srcs.any (statsBad stats w2) then [6] else []) ++
  (vsrc x.fr f.a).causes x.fr vecFloat d.rows (vlen x) ++
  (match vsrc x.fr f.a with
   | .scal _ => []
   | .desc a => if a.korg % 128 = 0 then [] else [4]) ++
  (srcs.drop 1).flatMap srow ++
  (if outy then destCauses x vecFmt d srcs stats
   else descCauses x.fr vecFmt d ++ (if vlen x ≤ d.cols then [] else [7]))

/-- One row replayed (R169): the core after its sums, the first statistic, the scale r, and the exact value of each
element; `raw` gives an active element's code in format `f`, `e` its FP32 code, `sum` an anchored sum. -/
def replayRow (mode : Nat) (rm : RMode) (vl cN eps : Nat) (f : Fmt) (raw e : Nat → Option Nat) (g b : Nat → Num)
    (sum : Fmt → Bool → (Nat → Option Nat) → Core → Core × Nat) (c : Core) : Core × Nat × Nat × (Nat → Num) :=
  match mode with
  | 0 =>
    let vs := (List.range vl).filterMap e
    let mx := match vs with
      | [] => fNegInf
      | v :: t => toF32 (t.foldl (fun m w => numMax m (f32 w)) (f32 v))
    let ex (j : Nat) : Option Nat := (e j).map fun v => expRef (f32Add v (f32Neg mx)) false
    let sm := sum .fp32 false ex c
    let r := rcpRef sm.2
    (sm.1, mx, r, fun j => numMul (f32 ((ex j).getD 0)) (f32 r))
  | 1 =>
    let sm := sum f true raw c
    let r := rsqrtRef (f32Fma sm.2 cN eps)
    (sm.1, 0, r, fun j => numMul (f32 (f32Mul ((e j).getD 0) r)) (g j))
  | _ =>
    let sm := sum f false raw c
    let mu := f32Mul sm.2 cN
    let dv (j : Nat) : Option Nat := (e j).map fun v => f32Add v (f32Neg mu)
    let sq := sum .fp32 true dv sm.1
    let r := rsqrtRef (f32Fma sq.2 cN eps)
    (sq.1, mu, r, fun j => numAdd rm (numMul (f32 (f32Mul ((dv j).getD 0) r)) (g j)) (b j))

/-- The rows of a `VROWREPLAY` replayed in order: the core after their sums, and each row's statistics and values. -/
def replayRows (row : Nat → Core → Core × Nat × Nat × (Nat → Num)) : List Nat → Core → Core × List (Nat × Nat × (Nat → Num))
  | [], c => (c, [])
  | r :: rs, c =>
    let p := row r c
    let q := replayRows row rs p.1
    (q.1, p.2 :: q.2)

/-- The addresses of byte ranges. -/
def addrsOf (rs : List (Nat × Nat)) : List Nat := rs.flatMap fun r => (List.range r.2).map (r.1 + ·)

/-- The bytes that two destinations of one instruction share after both are written: the manual orders the two writes nowhere, and
they hold an open value (DESIGN CHOICE, log 145). -/
def bothWritten (s : State) (x : Cx) (as bs : List (Nat × Nat)) : State :=
  if !regionsMeet as bs then s
  else
    let p := drawFree s
    let es := (addrsOf as).filter fun a => bs.any fun r => decide (r.1 ≤ a ∧ a < r.1 + r.2)
    modCore p.2 x.n fun c => es.foldl (fun c a => vwrite c x.fr a [BitVec.ofNat 8 (p.1 / 256 ^ a)]) c

/-- The effect of `VROWREPLAY`: y under `OUTY`, the statistics under `OUTS`; the sums go through the accumulator named,
which is left EMPTY (R170). A row's statistics and every y of it are marked by its active x, and y by its own gain and
bias too (R157). DESIGN CHOICE (log 119): with `vl` = 0 no statistics are written. -/
def effVrowreplay (s : State) (x : Cx) (f : VecF) : State :=
  let d := tdesc x.fr f.t.toNat
  let mode := f.x.toNat / 8
  let vl := vlen x
  let c := x.mem
  let b0 := vblock f
  let rm := (rmOf f.rm.toNat).getD .rne
  let w (i : Nat) : Nat := (sreg x.fr (b0 + i)).toNat
  let ars := arsOf (sreg x.fr (b0 + 3))
  let wide := (wideOf s x.n x.k).getD 0
  let el (r j : Nat) : Elem := match vsrc x.fr f.a with
    | .desc a => readElem c x.fr a r j
    | .scal v => ⟨v.toNat, 0, false⟩
  let fx := match vsrc x.fr f.a with
    | .desc a => a.f
    | .scal _ => .fp32
  let act (r j : Nat) : Bool := d.active c x.fr r j
  let raw (r j : Nat) : Option Nat := if act r j then some (el r j).code else none
  let e (r j : Nat) : Option Nat := if act r j then some (toF32 (elemNum fx (el r j))) else none
  let gv (v : VSrc) (j : Nat) : Num × Bool := v.read c x.fr false 0 j
  let g := vsrc x.fr f.b
  let bb := vsrc x.fr (f.b + 1)
  let row (r : Nat) := replayRow mode rm vl (w 0) (w 1) fx (raw r) (e r) (fun j => (gv g j).1) (fun j => (gv bb j).1)
    fun h sq el => fsum x.fr wide ars.first ars.tag h sq vl el
  let res := replayRows row (List.range d.rows) (clearAccs (core s x.n) ars.accs)
  let at' (r : Nat) : Nat × Nat × (Nat → Num) := res.2.getD r (0, 0, fun _ => .nan)
  let px (r : Nat) : Bool := (List.range vl).any fun j => act r j && (el r j).poison
  let s := setCore s x.n res.1
  let stats := (List.range d.rows).map fun r =>
    bytesWrite (w 2 + 8 * r) (leBytes 4 (at' r).1 ++ leBytes 4 (at' r).2.1) (px r)
  let s := if f.x.getLsbD 1 ∧ vl ≠ 0 then writeOut s x stats none [] false 0 0 else s
  if f.x.getLsbD 2 then
    let s := effElems s x d rm (srFrom s x b0) f.mz fun r j =>
      ((at' r).2.2 j, px r || (mode != 0 && (gv g j).2) || (mode == 2 && (gv bb j).2))
    bothWritten s x (if f.x.getLsbD 1 ∧ vl ≠ 0 then replayStats x f else []) d.region
  else s

/-! ### Split-master update (R172 to R174, R253) -/

/-- The descriptors of a `VUPD`: high half, low half, m, v, gradient. -/
def vupdDescs (x : Cx) (f : VupdF) : List Desc :=
  (List.range 4).map (fun i => tdesc x.fr (f.th.toNat + i)) ++ [tdesc x.fr f.tg.toNat]

/-- Causes of `VUPD`. -/
def vupdCauses (x : Cx) (f : VupdF) : List Nat :=
  let ds := vupdDescs x f
  let d := tdesc x.fr f.th.toNat
  let bf (g : Fmt) : Bool := g == .bf16
  let fp (g : Fmt) : Bool := g == .fp32
  mustBe (f.th.toNat ≤ 12 ∧ f.sbase.toNat ≤ 23) ++
    ((ds.zip [bf, bf, fp, fp, bf]).map fun p =>
      descCauses x.fr p.2 p.1 ++ (if covers p.1 d.rows (vlen x) then [] else [0xC])).flatten ++
    (if vlen x ≤ d.cols then [] else [7]) ++
    (if (List.range 4).any (fun i => (List.range 5).any fun j =>
        i != j && overlapBad (ds.getD i d) (ds.getD j d)) then [6] else []) ++
    statusCauses x 31 ((ds.map Desc.region).flatten)

/-- One master updated: the new master, m and v, as FP32 codes (R173). -/
def updStep (sgdm : Bool) (sc : Nat → Nat) (w m v g : Nat) : Nat × Nat × Nat :=
  let lr := f32Neg (sc 0)
  if sgdm then
    let m' := f32Fma (sc 2) m g
    (f32Fma lr (f32Fma (sc 1) w m') w, m', v)
  else
    let m' := f32Fma (sc 2) m (f32Mul (sc 3) g)
    let v' := f32Fma (sc 4) v (f32Mul (sc 5) (f32Mul g g))
    let mh := f32Mul m' (sc 7)
    let vh := f32Mul v' (sc 8)
    let sq := if numZero (f32 vh) then 0 else f32Mul vh (rsqrtRef vh)
    let st := f32Mul mh (rcpRef (f32Add sq (sc 6)))
    (f32Fma lr (f32Fma (sc 1) w st) w, m', v')

/-- The effect of `VUPD`: the four streams in place, and the status word of the FP32 masters (R173, R174). Each output
word is marked by the elements that its value is computed from (R157): the master's halves by all five (v only under
`ADAMW`), m by m and g, v by v and, under `ADAMW`, g. -/
def effVupd (s : State) (x : Cx) (f : VupdF) : State :=
  let c := x.mem
  let dd (i : Nat) : Desc := tdesc x.fr (f.th.toNat + i)
  let hi := dd 0
  let sc (i : Nat) : Nat := (sreg x.fr (f.sbase.toNat + i)).toNat
  let ps := vplaces hi.rows (vlen x)
  let on := ps.filter (fun p => hi.active c x.fr p.1 p.2)
  let off := ps.filter (fun p => !hi.active c x.fr p.1 p.2)
  let code (d : Desc) (p : Nat × Nat) : Nat := (readElem c x.fr d p.1 p.2).code
  let g := tdesc x.fr f.tg.toNat
  let upd (p : Nat × Nat) : Nat × Nat × Nat :=
    updStep f.sgdm sc (code (dd 0) p * 65536 + code (dd 1) p) (code (dd 2) p) (code (dd 3) p) (code g p * 65536)
  let pd (d : Desc) (p : Nat × Nat) : Bool := (readElem c x.fr d p.1 p.2).poison
  let pg (p : Nat × Nat) : Bool := pd g p
  let pw (p : Nat × Nat) : Bool := pd (dd 0) p || pd (dd 1) p || pd (dd 2) p || (!f.sgdm && pd (dd 3) p) || pg p
  let pz (p : Nat × Nat) : Bool := pw p || pd (dd 3) p
  let ws := (on.map fun p =>
    let r := upd p
    [elemWrite (dd 0) p.1 p.2 (r.1 / 65536) (pw p), elemWrite (dd 1) p.1 p.2 (r.1 % 65536) (pw p),
     elemWrite (dd 2) p.1 p.2 r.2.1 (pd (dd 2) p || pg p),
     elemWrite (dd 3) p.1 p.2 r.2.2 (pd (dd 3) p || (!f.sgdm && pg p))]).flatten
  let zs := if f.mz then (off.map fun p => (List.range 4).map fun i => elemWrite (dd i) p.1 p.2 0 false).flatten else []
  let os : List ElemOut := on.map fun p => ⟨p.1, p.2, numCls (f32 (upd p).1), false⟩
  addRows (writeOut s x (zs ++ ws) (some (sreg x.fr 31).toNat) os (on.any pz) 0 0xFFFFFFFF) x hi.rows

/-! ### The vector slot as a whole -/

/-- The causes for which a vector instruction is illegal. -/
def vCauses (s : State) (x : Cx) : VInstr → List Nat
  | .nop => []
  | .vupd f => vupdCauses x f
  | .vec op f =>
    match op with
    | .vadd => vaddCauses x f
    | .vmul => vmulCauses x f
    | .vfma => vfmaCauses x f
    | .vmax => vmaxCauses x f
    | .vcmp => vcmpCauses x f
    | .vsel => vselCauses x f
    | .vcvt => vcvtCauses x f
    | .vred => vredCauses s x f
    | .vexp => transCauses x f 1
    | .vlog => transCauses x f 1
    | .vrsq => transCauses x f 0
    | .vrcp => transCauses x f 0
    | .vtanh => transCauses x f 0
    | .vsig => transCauses x f 0
    | .vgelu => transCauses x f 0
    | .vsin => transCauses x f 0
    | .vcos => transCauses x f 0
    | .vrand => vrandCauses s x f
    | .vrowreplay => vrowreplayCauses s x f

/-- What a vector instruction reads of the view. -/
def vReads (x : Cx) : VInstr → List (Nat × Nat)
  | .nop => []
  | .vupd f =>
    let d := tdesc x.fr f.th.toNat
    (if d.masken then d.maskRegion d.rows (vlen x) else []) ++ ((vupdDescs x f).map Desc.region).flatten
  | .vec op f =>
    let d := tdesc x.fr f.t.toNat
    let m := if d.masken then d.maskRegion d.rows (vlen x) else []
    let two := (vsrc x.fr f.a).region ++ (vsrc x.fr f.b).region
    match op with
    | .vfma => m ++ two ++ (vsrc x.fr f.x).region
    | .vsel => m ++ two ++ (tdesc x.fr f.x.toNat).maskRegion d.rows (vlen x)
    | .vcmp => two
    | .vred => (vsrc x.fr f.a).region ++
        (match vsrc x.fr f.a with
         | .desc a => if a.masken then a.maskRegion a.rows (vlen x) else []
         | .scal _ => [])
    | .vrand => if f.x.getLsbD 3 then [] else m
    | .vrowreplay => m ++ ((replaySrcs x f).map VSrc.region).flatten
    | .vadd => m ++ two
    | .vmul => m ++ two
    | .vmax => m ++ two
    | _ => m ++ (vsrc x.fr f.a).region

/-- What a vector instruction writes of the view, its status word included. -/
def vWrites (x : Cx) : VInstr → List (Nat × Nat)
  | .nop => []
  | .vupd f => (((vupdDescs x f).take 4).map Desc.region).flatten ++ [((sreg x.fr 31).toNat, 16)]
  | .vec op f =>
    let d := tdesc x.fr f.t.toNat
    let st := [((sreg x.fr 31).toNat, 16)]
    match op with
    | .vcmp => d.maskRegion d.rows (vlen x)
    | .vrand => if f.x.getLsbD 3 then d.maskRegion d.rows (vlen x) else d.region ++ st
    | .vred => if f.x.getLsbD 2 || decide (2 ≤ f.x.toNat % 4) then d.region ++ st else []
    | .vrowreplay =>
      replayStats x f ++ (if f.x.getLsbD 2 then d.region ++ st else [])
    | _ => d.region ++ st

/-- Issue condition of the vector slot (R191). -/
def vWait (c : Core) (x : Cx) (v : VInstr) : Wait :=
  ((srcWait c x.k (vReads x v)).and (dstWait c x.fr x.k (vWrites x v))).and
  (match v with
   | .vec .vrowreplay f => accWait c (arsOf (sreg x.fr (vblock f + 3))).accs
   | _ => .ok)

/-- The effect of a vector instruction. -/
def effV (s : State) (x : Cx) : VInstr → State
  | .nop => s
  | .vupd f => effVupd s x f
  | .vec op f =>
    match op with
    | .vadd => effVadd s x f
    | .vmul => effVmul s x f
    | .vfma => effVfma s x f
    | .vmax => effVmax s x f
    | .vcmp => effVcmp s x f
    | .vsel => effVsel s x f
    | .vcvt => effVcvt s x f
    | .vred => effVred s x f
    | .vexp => effVexp s x f
    | .vlog => effVlog s x f
    | .vrsq => effVrsq s x f
    | .vrcp => effVrcp s x f
    | .vtanh => effVtanh s x f
    | .vsig => effVsig s x f
    | .vgelu => effVgelu s x f
    | .vsin => effVsin s x f
    | .vcos => effVcos s x f
    | .vrand => effVrand s x f
    | .vrowreplay => effVrowreplay s x f

end Sys2Proof.Machine
end

