-- ==== Sys2Proof/Machine/Sequencer.lean ====
section
/-! DEFINITION. The sequencer (R176, R191 to R196, R220, R221): the legality of a bundle, its issue conditions, its
issue, and the commands of a core. A row of the table that is one instruction is the issue of a bundle that holds that
instruction alone. -/

namespace Sys2Proof.Machine

/-! ### The matrix and splice slot as a whole -/

/-- The causes for which a matrix-slot instruction is illegal. -/
def mCauses (s : State) (x : Cx) : MInstr → List Nat
  | .nop => []
  | .mcfg f => mcfgCauses s f
  | .mstagea t => stageCauses x false t
  | .mstageb t => stageCauses x true t
  | .mmul f => mmulCauses s x f
  | .mdrain => []
  | .mew f => mewCauses x f
  | .spadd f => spaddCauses s x f
  | .spmerge f => spmergeCauses s x f
  | .spround f => sproundCauses s x f
  | .spexport f => streamCauses s x f.addr f.ars
  | .spimport f => streamCauses s x f.addr f.ars

/-- The region of a stream of XPs (R244, R245). -/
def streamRegion (x : Cx) (addr ars : BitVec 5) : List (Nat × Nat) :=
  [((sreg x.fr addr.toNat).toNat, 112 * (arsOf (sreg x.fr ars.toNat)).count)]

/-- Issue condition of the matrix slot (Table 4.3, R190). -/
def mWait (c : Core) (x : Cx) (i : MInstr) : Wait :=
  match i with
  | .nop => .ok
  | .mcfg _ => mcfgWait c
  | .mstagea t => stageWait c x false t
  | .mstageb t => stageWait c x true t
  | .mmul f => mmulWait c x f
  | .mdrain => mdrainWait c
  | .mew f => mewWait c x f
  | .spadd f => srcWait c x.k (tdesc x.fr f.t.toNat).region
  | .spmerge f => accWait c (arsOf (sreg x.fr f.src.toNat)).accs
  | .spround f =>
    (accWait c (arsOf (sreg x.fr f.ars.toNat)).accs).and
      (dstWait c x.fr x.k ((tdesc x.fr f.t.toNat).region ++ [((sreg x.fr 30).toNat, 16)]))
  | .spexport f =>
    (accWait c (arsOf (sreg x.fr f.ars.toNat)).accs).and (dstWait c x.fr x.k (streamRegion x f.addr f.ars))
  | .spimport f => srcWait c x.k (streamRegion x f.addr f.ars)

/-- The effect of a matrix-slot instruction. -/
def effM (s : State) (x : Cx) (i : MInstr) : State :=
  match i with
  | .nop => s
  | .mcfg f => effMcfg s x f
  | .mstagea t => effStage s x false t
  | .mstageb t => effStage s x true t
  | .mmul f => effMmul s x f
  | .mdrain => effMdrain s x
  | .mew f => effMew s x f
  | .spadd f => effSpadd s x f
  | .spmerge f => effSpmerge s x f
  | .spround f => effSpround s x f
  | .spexport f => effSpexport s x f
  | .spimport f => effSpimport s x f

/-! ### The bundle -/

/-- The four slots of a bundle as the decoder reads them. -/
structure Slots where
  c : SlotResult CInstr
  m : SlotResult MInstr
  v : SlotResult VInstr
  d : SlotResult DInstr

/-- The slots of a bundle. -/
def slotsOf (w : BitVec 128) : Slots :=
  ⟨decodeC (w.extractLsb' 96 32), decodeM (w.extractLsb' 64 32), decodeV (w.extractLsb' 32 32),
    decodeD (w.extractLsb' 0 32)⟩

/-- The causes of one slot: the decoder's, or those of its instruction. -/
def slotCauses {α : Type} (r : SlotResult α) (f : α → List Nat) : List Nat :=
  match r with
  | .ok i => f i
  | .error e => [e]

/-- Whether the control and the mover slot write the same scalar (R217). -/
def sameScalar (b : Slots) : Bool :=
  match b.c, b.d with
  | .ok (.recvAny f), .ok d => dScalar d == some f.d
  | _, _ => false

/-- An issue seen from a slot. -/
def slotCx (n k : Nat) (c : Core) (slot : Nat) : Cx := ⟨n, k, slot, frameOf c k, 4 * c.seq + slot, c⟩

/-- The first slot, in the order C, M, V, D, with a cause, and its lowest cause (R220). -/
def bundleBad (s : State) (n k : Nat) (b : Slots) : Option (Nat × Nat) :=
  let c := core s n
  let x (i : Nat) := slotCx n k c i
  let cs := slotCauses b.c (cCauses s (x 0)) ++ (if sameScalar b then [0xF] else [])
  match lowest cs, lowest (slotCauses b.m (mCauses s (x 1))), lowest (slotCauses b.v (vCauses s (x 2))),
      lowest (slotCauses b.d (dCauses s (x 3))) with
  | some e, _, _, _ => some (0, e)
  | none, some e, _, _ => some (1, e)
  | none, none, some e, _ => some (2, e)
  | none, none, none, some e => some (3, e)
  | none, none, none, none => none

/-- Holds that do not depend on the bundle: a debug halt, a power throttle, a commit awaited at the buddy (Table 6.3). -/
def coreHeld (c : Core) : Wait :=
  ((holdUnless (!c.dbgHalt) 8).and (holdUnless (!c.throttled) 7)).and
    (holdUnless (c.mirrors.all fun e => e.2.coming.isNone) 0xB)

/-- Whether the space for the packets a passive twin holds is full (R514). -/
def twinFull (s : State) (k : Nat) : Bool :=
  (keyCtx s k).any (fun r => twinCtx s r) && decide (2 ^ 26 ≤ (s.pair.held.map fun h => pktBytes h.2).sum)

/-- What a slot of the decoder's result waits for; an illegal slot does not get so far. -/
def slotWait' {α : Type} (r : SlotResult α) (f : α → Wait) : Wait :=
  match r with
  | .ok i => f i
  | .error _ => .ok

/-- What a bundle waits for (R191, R192). -/
def bundleWait (s : State) (n k : Nat) (b : Slots) : Wait :=
  let c := core s n
  let x (i : Nat) := slotCx n k c i
  (((slotWait' b.c (cWait s (x 0))).and (slotWait' b.m (mWait c (x 1)))).and (slotWait' b.v (vWait c (x 2)))).and
    (slotWait' b.d (dWait s (x 3)))

/-- The instruction of a legal slot. -/
def slotGet {α : Type} (r : SlotResult α) (d : α) : α :=
  match r with
  | .ok i => i
  | .error _ => d

/-- The effects of a bundle's slots: each reads the registers as they stood before (R217). -/
def bundleEff (s : State) (n k : Nat) (b : Slots) : State :=
  let c := core s n
  let x (i : Nat) := slotCx n k c i
  let s := effC s (x 0) (slotGet b.c .nop)
  let s := effM s (x 1) (slotGet b.m .nop)
  let s := effV s (x 2) (slotGet b.v .nop)
  effD s (x 3) (slotGet b.d .nop)

/-- The frame after a bundle has issued: where the program goes, the cycle counted. -/
def stepFrame (old : Frame) (i : CInstr) (fr : Frame) : Frame :=
  let p := nextPc old i
  { fr with loops := p.1, pc := p.2, takecyc := fr.takecyc + 1, fresh := false }

/-- What follows a bundle: the cut and its yield, or the end of the part (R204, R231). -/
def afterC (s : State) (n k : Nat) (i : CInstr) : State :=
  match i with
  | .cut =>
    let s := cutCore s n k
    if (core s n).stop.isSome then s else yieldCut s n k
  | .endStep =>
    let s := closeTake s n k
    if (core s n).stop.isSome then s else endPart s n k .finished
  | _ => s

/-- A core that issues shows neither a hold nor an issue wait; the cycle counts. -/
def unheld (s : State) (n : Nat) : State :=
  modCore s n (countCycle (fget s F.pwrTileDuty 0 (tileOf n)))

/-- A legal bundle whose conditions hold issues. -/
def issueOk (s : State) (n k : Nat) (b : Slots) : State :=
  let old := frameOf (core s n) k
  let i := slotGet b.c .nop
  let s := bundleEff (unheld s n) n k b
  let s := modFrame s n k (stepFrame old i)
  let s := modCore s n fun c => { c with seq := c.seq + 1 }
  afterC s n k i

/-- A cycle of a hold: the cause shown, the cycle counted; a take that comes to rest gives way to a pending one (R192,
R195, R422). -/
def issueHold (s : State) (n cause : Nat) : State :=
  kickCore (modCore s n fun c =>
    { holdAdd c 1 with hold := BitVec.ofNat 4 cause, wait := false, cycle := c.cycle + 1 }) n

/-- A cycle of an issue wait. -/
def issueWait (s : State) (n k : Nat) : State :=
  modFrame (modCore s n fun c =>
    { c with hold := 0, wait := true, waitCyc := min (2 ^ 64 - 1) (c.waitCyc + 1), cycle := c.cycle + 1 }) n k
    fun fr => { fr with takecyc := fr.takecyc + 1 }

/-- The stop for an illegal bundle (R221). -/
def issueBad (s : State) (n : Nat) (slot cause iaddr : Nat) : State :=
  stopCore s n ⟨2, slot, cause, iaddr, 0xFFFFFFFF, 0xFFFF, 0xFFFF, 0xFF, 4 * (core s n).seq⟩

/-- Whether a core can issue at all: a take runs, and no stop is on its way (R495, R206, R631). -/
def issuer (s : State) (n : Nat) : Option Nat :=
  let c := core s n
  if c.stop.isSome || c.fenced || s.faulted || !clockRuns s (coreClock n) then none
  else c.running.filter (fun k => decide ((frameOf c k).takecyc < 500000))

/-- What holds a core whatever its next bundle is: Table 6.3's holds of the core, the twin's full buffer, and a check slot
that its take waits for. -/
def outerHold (s : State) (n k : Nat) : Wait :=
  ((coreHeld (core s n)).and (holdUnless (!twinFull s k) 0xA)).and (holdUnless (!slotOwed s n k) 0xB)

/-- What a bundle waits for, the holds from outside it included (R195): a bundle that is illegal waits for nothing. -/
def slotsWait (s : State) (n k : Nat) (b : Slots) : Wait :=
  (outerHold s n k).and (if (bundleBad s n k b).isSome then .ok else bundleWait s n k b)

/-- One cycle of the sequencer with the slots of a bundle next (R176, R191, R192, R220, R221). A core that a splice
escape holds stands still until `HOLD_END` (R93, R194): the cycles of that hold are counted with the access. -/
def issueCycle (s : State) (n : Nat) (b : Slots) : State :=
  match issuer s n with
  | none => s
  | some k =>
    let c := core s n
    let fr := frameOf c k
    if c.hold = 1 then s
    else
      match outerHold s n k, slotsWait s n k b with
      | .hold _, .hold e => issueHold s n e
      | _, w =>
        if codeSize fr ≤ fr.pc then issueBad s n 0xFF 7 fr.pc
        else
          match bundleBad s n k b with
          | some (slot, e) => issueBad s n slot e fr.pc
          | none =>
            match w with
            | .ok => issueOk s n k b
            | .issue => issueWait s n k
            | .hold e => issueHold s n e

/-- The underrun counts of a context once the hold of a core has changed from one with cause 0x3, or to one (R487). -/
def noteUnder (s : State) (n : Nat) (t : State) : State :=
  match (core s n).running.bind (keyCtx s) with
  | none => t
  | some r =>
    match (core s n).hold == 3, (core t n).hold == 3 with
    | false, true => ccount (fset t F.underSince n 0 t.tcount) r F.ctxReelunderCount 0 1
    | true, false => addUnder t n r
    | _, _ => t

/-- One cycle of the sequencer, with the underruns it shows. -/
def issueSlots (s : State) (n : Nat) (b : Slots) : State := noteUnder s n (issueCycle s n b)

/-- The slots of the bundle a core would issue next. -/
def nextSlots (s : State) (n : Nat) : Slots :=
  let c := core s n
  let fr := frameOf c (c.running.getD 0)
  slotsOf (fetchBundle c fr fr.pc)

/-- A bundle of one control instruction, and so on for the other slots. -/
def onlyC (i : CInstr) : Slots := ⟨.ok i, .ok .nop, .ok .nop, .ok .nop⟩
def onlyM (i : MInstr) : Slots := ⟨.ok .nop, .ok i, .ok .nop, .ok .nop⟩
def onlyV (i : VInstr) : Slots := ⟨.ok .nop, .ok .nop, .ok i, .ok .nop⟩
def onlyD (i : DInstr) : Slots := ⟨.ok .nop, .ok .nop, .ok .nop, .ok i⟩

/-! ### The commands of a core -/

/-- `BUNDLE_ISSUE` (R191). -/
def execBundleIssue (n : CoreId) (s : State) : Host.Outcome State Fault Refusal :=
  .next (issueSlots s n.val (nextSlots s n.val))

/-- What the next bundle of a running take waits for, the core's own holds included; a core that is stopping issues
none (R631). -/
def nextWait (s : State) (n k : Nat) : Wait :=
  if (core s n).stop.isSome then outerHold s n k else slotsWait s n k (nextSlots s n)

/-- The check slot that a core's take waits for opened, where one is free (R507). -/
def openOwed (s : State) (n k : Nat) : State := if slotOwed s n k ∧ checkSlots s < 64 then openTake s n k else s

/-- `HOLD_END` (R194): where the cause has cleared, the units resume. -/
def execHoldEnd (n : CoreId) (s : State) : Host.Outcome State Fault Refusal :=
  onClock s (coreClock n.val) fun s =>
  let s := if (core s n.val).hold = 7 then modCore s n.val fun c => { c with throttled := false } else s
  let c := core s n.val
  match c.running with
  | some k =>
    let s := openOwed s n.val k
    match nextWait s n.val k with
    | .hold e =>
      .next (noteUnder s n.val (modCore s n.val fun c => if c.hold = 0 then c else { c with hold := BitVec.ofNat 4 e }))
    | _ => .next (noteUnder s n.val (modCore s n.val fun c => { c with hold := 0 }))
  | none => .next s

/-- `SPLICE_PARTIAL_ARRIVAL` (R130): the oldest partial under way enters its accumulator, unless a hold freezes the
units (R194). -/
def execSplicePartialArrival (n : CoreId) (s : State) : Host.Outcome State Fault Refusal :=
  onClock s (coreClock n.val) fun s =>
  let c := core s n.val
  match c.running with
  | some k => if c.hold = 0 then .next (arrive s n.val k) else .next s
  | none => .next s

/-- `MMUL_FINISH` (R131): the outputs and the status word of the oldest finish; the array may then take another block. -/
def execMmulFinish (n : CoreId) (s : State) : Host.Outcome State Fault Refusal :=
  onClock s (coreClock n.val) fun s =>
  let c := core s n.val
  match c.running, c.flight with
  | some k, .mfin f :: t =>
    if c.hold = 0 then
      .next (runVfins (t.length + 1) (finishMmul (modCore s n.val fun c => { c with flight := t }) n.val k f) n.val k)
    else .next s
  | _, _ => .next s

/-- `LOOP` (R224). -/
def execLoop (n : CoreId) (f : LoopF) (s : State) : Host.Outcome State Fault Refusal :=
  .next (issueSlots s n.val (onlyC (.loop f)))

/-- `BR` (R226). -/
def execBr (n : CoreId) (f : BrF) (s : State) : Host.Outcome State Fault Refusal :=
  .next (issueSlots s n.val (onlyC (.br f)))

/-- `BR_SET` (R227). -/
def execBrSet (n : CoreId) (f : BrSetF) (s : State) : Host.Outcome State Fault Refusal :=
  .next (issueSlots s n.val (onlyC (.brSet f)))

/-- `WAITTOK` (R199). -/
def execWaittok (n : CoreId) (f : TokF) (s : State) : Host.Outcome State Fault Refusal :=
  .next (issueSlots s n.val (onlyC (.waittok f)))

/-- `RECV_ANY` (R229). -/
def execRecvAny (n : CoreId) (f : AnyF) (s : State) : Host.Outcome State Fault Refusal :=
  .next (issueSlots s n.val (onlyC (.recvAny f)))

/-- `SENDTOK` (R198). -/
def execSendtok (n : CoreId) (f : TokF) (s : State) : Host.Outcome State Fault Refusal :=
  .next (issueSlots s n.val (onlyC (.sendtok f)))

/-- `ACTION` (R230). -/
def execAction (n : CoreId) (f : ActionF) (s : State) : Host.Outcome State Fault Refusal :=
  .next (issueSlots s n.val (onlyC (.action f)))

/-- `SLATE` (R233). -/
def execSlate (n : CoreId) (f : SlateF) (s : State) : Host.Outcome State Fault Refusal :=
  .next (issueSlots s n.val (onlyC (.slate f)))

/-- `CUT` (R204). -/
def execCut (n : CoreId) (s : State) : Host.Outcome State Fault Refusal :=
  .next (issueSlots s n.val (onlyC .cut))

/-- `FENCE` (R232). -/
def execFence (n : CoreId) (kind : BitVec 2) (s : State) : Host.Outcome State Fault Refusal :=
  .next (issueSlots s n.val (onlyC (.fence kind)))

/-- `TRAPCFG` (R234). -/
def execTrapcfg (n : CoreId) (nan : Bool) (s : State) : Host.Outcome State Fault Refusal :=
  .next (issueSlots s n.val (onlyC (.trapcfg nan)))

/-- `END` (R231). -/
def execEndTake (n : CoreId) (s : State) : Host.Outcome State Fault Refusal :=
  .next (issueSlots s n.val (onlyC .endStep))

/-- `MCFG` (R235). -/
def execMcfg (n : CoreId) (f : McfgF) (s : State) : Host.Outcome State Fault Refusal :=
  .next (issueSlots s n.val (onlyM (.mcfg f)))

/-- `MMUL` (R237). -/
def execMmul (n : CoreId) (f : MmulF) (s : State) : Host.Outcome State Fault Refusal :=
  .next (issueSlots s n.val (onlyM (.mmul f)))

/-- `MEW` (R139). -/
def execMew (n : CoreId) (f : MewF) (s : State) : Host.Outcome State Fault Refusal :=
  .next (issueSlots s n.val (onlyM (.mew f)))

/-- `SPADD` (R241). -/
def execSpadd (n : CoreId) (f : SpaddF) (s : State) : Host.Outcome State Fault Refusal :=
  .next (issueSlots s n.val (onlyM (.spadd f)))

/-- `SPMERGE` (R242). -/
def execSpmerge (n : CoreId) (f : SpmergeF) (s : State) : Host.Outcome State Fault Refusal :=
  .next (issueSlots s n.val (onlyM (.spmerge f)))

/-- `SPROUND` (R243). -/
def execSpround (n : CoreId) (f : SproundF) (s : State) : Host.Outcome State Fault Refusal :=
  .next (issueSlots s n.val (onlyM (.spround f)))

/-- `SPEXPORT` (R244). -/
def execSpexport (n : CoreId) (f : SpexportF) (s : State) : Host.Outcome State Fault Refusal :=
  .next (issueSlots s n.val (onlyM (.spexport f)))

/-- `SPIMPORT` (R245). -/
def execSpimport (n : CoreId) (f : SpimportF) (s : State) : Host.Outcome State Fault Refusal :=
  .next (issueSlots s n.val (onlyM (.spimport f)))

/-- `MSTAGEA` (R120). -/
def execMstagea (n : CoreId) (t : BitVec 4) (s : State) : Host.Outcome State Fault Refusal :=
  .next (issueSlots s n.val (onlyM (.mstagea t)))

/-- `MSTAGEB` (R120). -/
def execMstageb (n : CoreId) (t : BitVec 4) (s : State) : Host.Outcome State Fault Refusal :=
  .next (issueSlots s n.val (onlyM (.mstageb t)))

/-- `MDRAIN` (R239). -/
def execMdrain (n : CoreId) (s : State) : Host.Outcome State Fault Refusal :=
  .next (issueSlots s n.val (onlyM .mdrain))

/-- `VADD` (R154). -/
def execVadd (n : CoreId) (f : VecF) (s : State) : Host.Outcome State Fault Refusal :=
  .next (issueSlots s n.val (onlyV (.vec .vadd f)))

/-- `VMUL` (R154). -/
def execVmul (n : CoreId) (f : VecF) (s : State) : Host.Outcome State Fault Refusal :=
  .next (issueSlots s n.val (onlyV (.vec .vmul f)))

/-- `VFMA` (R154). -/
def execVfma (n : CoreId) (f : VecF) (s : State) : Host.Outcome State Fault Refusal :=
  .next (issueSlots s n.val (onlyV (.vec .vfma f)))

/-- `VMAX` (R154). -/
def execVmax (n : CoreId) (f : VecF) (s : State) : Host.Outcome State Fault Refusal :=
  .next (issueSlots s n.val (onlyV (.vec .vmax f)))

/-- `VCMP` (R249). -/
def execVcmp (n : CoreId) (f : VecF) (s : State) : Host.Outcome State Fault Refusal :=
  .next (issueSlots s n.val (onlyV (.vec .vcmp f)))

/-- `VSEL` (R154). -/
def execVsel (n : CoreId) (f : VecF) (s : State) : Host.Outcome State Fault Refusal :=
  .next (issueSlots s n.val (onlyV (.vec .vsel f)))

/-- `VCVT` (R64). -/
def execVcvt (n : CoreId) (f : VecF) (s : State) : Host.Outcome State Fault Refusal :=
  .next (issueSlots s n.val (onlyV (.vec .vcvt f)))

/-- `VRED` (R250). -/
def execVred (n : CoreId) (f : VecF) (s : State) : Host.Outcome State Fault Refusal :=
  .next (issueSlots s n.val (onlyV (.vec .vred f)))

/-- `VEXP` (R165). -/
def execVexp (n : CoreId) (f : VecF) (s : State) : Host.Outcome State Fault Refusal :=
  .next (issueSlots s n.val (onlyV (.vec .vexp f)))

/-- `VLOG` (R165). -/
def execVlog (n : CoreId) (f : VecF) (s : State) : Host.Outcome State Fault Refusal :=
  .next (issueSlots s n.val (onlyV (.vec .vlog f)))

/-- `VRSQ` (R165). -/
def execVrsq (n : CoreId) (f : VecF) (s : State) : Host.Outcome State Fault Refusal :=
  .next (issueSlots s n.val (onlyV (.vec .vrsq f)))

/-- `VRCP` (R165). -/
def execVrcp (n : CoreId) (f : VecF) (s : State) : Host.Outcome State Fault Refusal :=
  .next (issueSlots s n.val (onlyV (.vec .vrcp f)))

/-- `VTANH` (R165). -/
def execVtanh (n : CoreId) (f : VecF) (s : State) : Host.Outcome State Fault Refusal :=
  .next (issueSlots s n.val (onlyV (.vec .vtanh f)))

/-- `VSIG` (R165). -/
def execVsig (n : CoreId) (f : VecF) (s : State) : Host.Outcome State Fault Refusal :=
  .next (issueSlots s n.val (onlyV (.vec .vsig f)))

/-- `VGELU` (R165). -/
def execVgelu (n : CoreId) (f : VecF) (s : State) : Host.Outcome State Fault Refusal :=
  .next (issueSlots s n.val (onlyV (.vec .vgelu f)))

/-- `VSIN` (R165). -/
def execVsin (n : CoreId) (f : VecF) (s : State) : Host.Outcome State Fault Refusal :=
  .next (issueSlots s n.val (onlyV (.vec .vsin f)))

/-- `VCOS` (R165). -/
def execVcos (n : CoreId) (f : VecF) (s : State) : Host.Outcome State Fault Refusal :=
  .next (issueSlots s n.val (onlyV (.vec .vcos f)))

/-- `VRAND` (R166). -/
def execVrand (n : CoreId) (f : VecF) (s : State) : Host.Outcome State Fault Refusal :=
  .next (issueSlots s n.val (onlyV (.vec .vrand f)))

/-- `VROWREPLAY` (R169). -/
def execVrowreplay (n : CoreId) (f : VecF) (s : State) : Host.Outcome State Fault Refusal :=
  .next (issueSlots s n.val (onlyV (.vec .vrowreplay f)))

/-- `VUPD` (R173). -/
def execVupd (n : CoreId) (f : VupdF) (s : State) : Host.Outcome State Fault Refusal :=
  .next (issueSlots s n.val (onlyV (.vupd f)))

/-- `SETI` (R254). -/
def execSeti (n : CoreId) (f : SetiF) (s : State) : Host.Outcome State Fault Refusal :=
  .next (issueSlots s n.val (onlyD (.seti f)))

/-- `SETHI` (R254). -/
def execSethi (n : CoreId) (f : SetiF) (s : State) : Host.Outcome State Fault Refusal :=
  .next (issueSlots s n.val (onlyD (.sethi f)))

/-- `SALU` (R254). -/
def execSalu (n : CoreId) (f : SaluF) (s : State) : Host.Outcome State Fault Refusal :=
  .next (issueSlots s n.val (onlyD (.salu f)))

/-- `TADJ` (R254). -/
def execTadj (n : CoreId) (f : TadjF) (s : State) : Host.Outcome State Fault Refusal :=
  .next (issueSlots s n.val (onlyD (.tadj f)))

/-- `SETVL` (R254). -/
def execSetvl (n : CoreId) (a : BitVec 5) (s : State) : Host.Outcome State Fault Refusal :=
  .next (issueSlots s n.val (onlyD (.setvl a)))

/-- `XFER` (R255). -/
def execXfer (n : CoreId) (f : XferF) (s : State) : Host.Outcome State Fault Refusal :=
  .next (issueSlots s n.val (onlyD (.move .xfer f)))

/-- `MOVG` (R255). -/
def execMovg (n : CoreId) (f : XferF) (s : State) : Host.Outcome State Fault Refusal :=
  .next (issueSlots s n.val (onlyD (.move .movg f)))

/-- `HASH` (R283). -/
def execHash (n : CoreId) (f : XferF) (s : State) : Host.Outcome State Fault Refusal :=
  .next (issueSlots s n.val (onlyD (.move .hash f)))

/-- `FILL` (R281). -/
def execFill (n : CoreId) (f : XferF) (s : State) : Host.Outcome State Fault Refusal :=
  .next (issueSlots s n.val (onlyD (.move .fill f)))

/-- `CMPM` (R282). -/
def execCmpm (n : CoreId) (f : XferF) (s : State) : Host.Outcome State Fault Refusal :=
  .next (issueSlots s n.val (onlyD (.move .cmpm f)))

/-- `SWP` (R263). -/
def execSwp (n : CoreId) (f : XferF) (s : State) : Host.Outcome State Fault Refusal :=
  .next (issueSlots s n.val (onlyD (.move .swp f)))

end Sys2Proof.Machine
end

