-- ==== Sys2Proof/Machine/Dispatch.lean ====
section
/-! DEFINITION. One arm per command: a direct call of its meaning. -/

namespace Sys2Proof.Machine

/-- The effect of one command on everything but the queue. -/
def exec (i : Instr) (s : State) : Host.Outcome State Fault Refusal :=
  match i with
  | .bundleIssue n => Sys2Proof.Machine.execBundleIssue n s
  | .holdEnd n => Sys2Proof.Machine.execHoldEnd n s
  | .coreStop n => Sys2Proof.Machine.execCoreStop n s
  | .takeTimeout n => Sys2Proof.Machine.execTakeTimeout n s
  | .loop n f => Sys2Proof.Machine.execLoop n f s
  | .br n f => Sys2Proof.Machine.execBr n f s
  | .brSet n f => Sys2Proof.Machine.execBrSet n f s
  | .waittok n f => Sys2Proof.Machine.execWaittok n f s
  | .recvAny n f => Sys2Proof.Machine.execRecvAny n f s
  | .sendtok n f => Sys2Proof.Machine.execSendtok n f s
  | .action n f => Sys2Proof.Machine.execAction n f s
  | .cut n => Sys2Proof.Machine.execCut n s
  | .fence n kind => Sys2Proof.Machine.execFence n kind s
  | .slate n f => Sys2Proof.Machine.execSlate n f s
  | .trapcfg n nan => Sys2Proof.Machine.execTrapcfg n nan s
  | .endTake n => Sys2Proof.Machine.execEndTake n s
  | .mcfg n f => Sys2Proof.Machine.execMcfg n f s
  | .mstagea n t => Sys2Proof.Machine.execMstagea n t s
  | .mstageb n t => Sys2Proof.Machine.execMstageb n t s
  | .mmul n f => Sys2Proof.Machine.execMmul n f s
  | .splicePartialArrival n => Sys2Proof.Machine.execSplicePartialArrival n s
  | .mmulFinish n => Sys2Proof.Machine.execMmulFinish n s
  | .mdrain n => Sys2Proof.Machine.execMdrain n s
  | .mew n f => Sys2Proof.Machine.execMew n f s
  | .spadd n f => Sys2Proof.Machine.execSpadd n f s
  | .spmerge n f => Sys2Proof.Machine.execSpmerge n f s
  | .spround n f => Sys2Proof.Machine.execSpround n f s
  | .spexport n f => Sys2Proof.Machine.execSpexport n f s
  | .spimport n f => Sys2Proof.Machine.execSpimport n f s
  | .vadd n f => Sys2Proof.Machine.execVadd n f s
  | .vmul n f => Sys2Proof.Machine.execVmul n f s
  | .vfma n f => Sys2Proof.Machine.execVfma n f s
  | .vmax n f => Sys2Proof.Machine.execVmax n f s
  | .vcmp n f => Sys2Proof.Machine.execVcmp n f s
  | .vsel n f => Sys2Proof.Machine.execVsel n f s
  | .vcvt n f => Sys2Proof.Machine.execVcvt n f s
  | .vred n f => Sys2Proof.Machine.execVred n f s
  | .vexp n f => Sys2Proof.Machine.execVexp n f s
  | .vlog n f => Sys2Proof.Machine.execVlog n f s
  | .vrsq n f => Sys2Proof.Machine.execVrsq n f s
  | .vrcp n f => Sys2Proof.Machine.execVrcp n f s
  | .vtanh n f => Sys2Proof.Machine.execVtanh n f s
  | .vsig n f => Sys2Proof.Machine.execVsig n f s
  | .vgelu n f => Sys2Proof.Machine.execVgelu n f s
  | .vsin n f => Sys2Proof.Machine.execVsin n f s
  | .vcos n f => Sys2Proof.Machine.execVcos n f s
  | .vrand n f => Sys2Proof.Machine.execVrand n f s
  | .vrowreplay n f => Sys2Proof.Machine.execVrowreplay n f s
  | .vupd n f => Sys2Proof.Machine.execVupd n f s
  | .seti n f => Sys2Proof.Machine.execSeti n f s
  | .sethi n f => Sys2Proof.Machine.execSethi n f s
  | .salu n f => Sys2Proof.Machine.execSalu n f s
  | .tadj n f => Sys2Proof.Machine.execTadj n f s
  | .setvl n a => Sys2Proof.Machine.execSetvl n a s
  | .xfer n f => Sys2Proof.Machine.execXfer n f s
  | .movg n f => Sys2Proof.Machine.execMovg n f s
  | .hash n f => Sys2Proof.Machine.execHash n f s
  | .fill n f => Sys2Proof.Machine.execFill n f s
  | .cmpm n f => Sys2Proof.Machine.execCmpm n f s
  | .swp n f => Sys2Proof.Machine.execSwp n f s
  | .burstIssue ch => Sys2Proof.Machine.execBurstIssue ch s
  | .transferComplete ch => Sys2Proof.Machine.execTransferComplete ch s
  | .pause n c => Sys2Proof.Machine.execPause n c s
  | .channelPaused n c => Sys2Proof.Machine.execChannelPaused n c s
  | .resumeTransfer n c => Sys2Proof.Machine.execResumeTransfer n c s
  | .bmvEnable b w => Sys2Proof.Machine.execBmvEnable b w s
  | .bmvDisable b w => Sys2Proof.Machine.execBmvDisable b w s
  | .bmvDescComplete b => Sys2Proof.Machine.execBmvDescComplete b s
  | .tokenDelivery k => Sys2Proof.Machine.execTokenDelivery k s
  | .stepLaunch r => Sys2Proof.Machine.execStepLaunch r s
  | .stepEnd r => Sys2Proof.Machine.execStepEnd r s
  | .completionRecord r => Sys2Proof.Machine.execCompletionRecord r s
  | .completionCoalesceTimeout r => Sys2Proof.Machine.execCompletionCoalesceTimeout r s
  | .callSheetPoll reads => Sys2Proof.Machine.execCallSheetPoll reads s
  | .resume sl w slot => Sys2Proof.Machine.execResume sl w slot s
  | .skip sl w => Sys2Proof.Machine.execSkip sl w s
  | .launchGroup r group => Sys2Proof.Machine.execLaunchGroup r group s
  | .tick g => Sys2Proof.Machine.execTick g s
  | .tcSet w => Sys2Proof.Machine.execTcSet w s
  | .reacq w => Sys2Proof.Machine.execReacq w s
  | .markerSend p => Sys2Proof.Machine.execMarkerSend p s
  | .marker p m => Sys2Proof.Machine.execMarker p m s
  | .logNote sl w => Sys2Proof.Machine.execLogNote sl w s
  | .logModeWrite sl w => Sys2Proof.Machine.execLogModeWrite sl w s
  | .logEntryWrite r => Sys2Proof.Machine.execLogEntryWrite r s
  | .replaySubmit r entries => Sys2Proof.Machine.execReplaySubmit r entries s
  | .contextEnable sl w => Sys2Proof.Machine.execContextEnable sl w s
  | .consistencyCheck sl bytes img partner => Sys2Proof.Machine.execConsistencyCheck sl bytes img partner s
  | .contextDisable sl w => Sys2Proof.Machine.execContextDisable sl w s
  | .shelve sl w => Sys2Proof.Machine.execShelve sl w s
  | .returnCtx w => Sys2Proof.Machine.execReturnCtx w s
  | .disableShelved w => Sys2Proof.Machine.execDisableShelved w s
  | .swap => Sys2Proof.Machine.execSwap s
  | .shelvingComplete r => Sys2Proof.Machine.execShelvingComplete r s
  | .returnComplete r bytes => Sys2Proof.Machine.execReturnComplete r bytes s
  | .floatingClaim r k => Sys2Proof.Machine.execFloatingClaim r k s
  | .floatTimeout r k => Sys2Proof.Machine.execFloatTimeout r k s
  | .pageAccess r va write => Sys2Proof.Machine.execPageAccess r va write s
  | .placementTimeout r va => Sys2Proof.Machine.execPlacementTimeout r va s
  | .ddrRead ch addr err copy => Sys2Proof.Machine.execDdrRead ch addr err copy s
  | .ddrRefresh ch => Sys2Proof.Machine.execDdrRefresh ch s
  | .patrolScrub ch addr err copy raced => Sys2Proof.Machine.execPatrolScrub ch addr err copy raced s
  | .ddrTraining => Sys2Proof.Machine.execDdrTraining s
  | .migrationEpoch e => Sys2Proof.Machine.execMigrationEpoch e s
  | .migrationDrain r page => Sys2Proof.Machine.execMigrationDrain r page s
  | .migrationCopy r page ok => Sys2Proof.Machine.execMigrationCopy r page ok s
  | .lenderLost dev => Sys2Proof.Machine.execLenderLost dev s
  | .alloc sl w => Sys2Proof.Machine.execAlloc sl w s
  | .free sl w => Sys2Proof.Machine.execFree sl w s
  | .setattr sl w => Sys2Proof.Machine.execSetattr sl w s
  | .clrattr sl w => Sys2Proof.Machine.execClrattr sl w s
  | .pin sl w => Sys2Proof.Machine.execPin sl w s
  | .unpin sl w => Sys2Proof.Machine.execUnpin sl w s
  | .clearPoison sl w => Sys2Proof.Machine.execClearPoison sl w s
  | .linkEnable p w => Sys2Proof.Machine.execLinkEnable p w s
  | .linkDisable p w => Sys2Proof.Machine.execLinkDisable p w s
  | .detectBurst p lanes => Sys2Proof.Machine.execDetectBurst p lanes s
  | .linkTraining p lanes => Sys2Proof.Machine.execLinkTraining p lanes s
  | .ident p info => Sys2Proof.Machine.execIdent p info s
  | .keyx p partner => Sys2Proof.Machine.execKeyx p partner s
  | .timecal p markers => Sys2Proof.Machine.execTimecal p markers s
  | .linkStateTimeout p => Sys2Proof.Machine.execLinkStateTimeout p s
  | .rekey p partner => Sys2Proof.Machine.execRekey p partner s
  | .flitReceive p head payload check => Sys2Proof.Machine.execFlitReceive p head payload check s
  | .retryTimeout p => Sys2Proof.Machine.execRetryTimeout p s
  | .laneFault p lane => Sys2Proof.Machine.execLaneFault p lane s
  | .relaneComplete p ok markers => Sys2Proof.Machine.execRelaneComplete p ok markers s
  | .lossOfSignal p => Sys2Proof.Machine.execLossOfSignal p s
  | .writePkt p pkt => Sys2Proof.Machine.execWritePkt p pkt s
  | .readReq p pkt => Sys2Proof.Machine.execReadReq p pkt s
  | .readResp p pkt => Sys2Proof.Machine.execReadResp p pkt s
  | .ack p pkt => Sys2Proof.Machine.execAck p pkt s
  | .tokenPacket p pkt => Sys2Proof.Machine.execTokenPacket p pkt s
  | .atomic p pkt => Sys2Proof.Machine.execAtomic p pkt s
  | .coll p pkt => Sys2Proof.Machine.execColl p pkt s
  | .requestResend id => Sys2Proof.Machine.execRequestResend id s
  | .requestRto id => Sys2Proof.Machine.execRequestRto id s
  | .notYetRetry id => Sys2Proof.Machine.execNotYetRetry id s
  | .notYetTimeout id => Sys2Proof.Machine.execNotYetTimeout id s
  | .routeEntryWrite w => Sys2Proof.Machine.execRouteEntryWrite w s
  | .creditFloorWrite c w => Sys2Proof.Machine.execCreditFloorWrite c w s
  | .rqWindowEnable k w => Sys2Proof.Machine.execRqWindowEnable k w s
  | .collectiveStart e r => Sys2Proof.Machine.execCollectiveStart e r s
  | .collectiveComplete e r => Sys2Proof.Machine.execCollectiveComplete e r s
  | .collectiveTimeout e r => Sys2Proof.Machine.execCollectiveTimeout e r s
  | .goSnapshot sl w => Sys2Proof.Machine.execGoSnapshot sl w s
  | .snapshotStart r => Sys2Proof.Machine.execSnapshotStart r s
  | .snapshotPageSent r => Sys2Proof.Machine.execSnapshotPageSent r s
  | .reelLoad sl w manifest => Sys2Proof.Machine.execReelLoad sl w manifest s
  | .abort sl w => Sys2Proof.Machine.execAbort sl w s
  | .commit sl w => Sys2Proof.Machine.execCommit sl w s
  | .reelStreamBind sl k w => Sys2Proof.Machine.execReelStreamBind sl k w s
  | .reelChunk r shard chunk data => Sys2Proof.Machine.execReelChunk r shard chunk data s
  | .chunkTimeout r shard chunk => Sys2Proof.Machine.execChunkTimeout r shard chunk s
  | .reelSwitch r => Sys2Proof.Machine.execReelSwitch r s
  | .coreFault n => Sys2Proof.Machine.execCoreFault n s
  | .beatTimeout n => Sys2Proof.Machine.execBeatTimeout n s
  | .retake n r => Sys2Proof.Machine.execRetake n r s
  | .mirrorCommit n r => Sys2Proof.Machine.execMirrorCommit n r s
  | .checkTake n r orig check => Sys2Proof.Machine.execCheckTake n r orig check s
  | .arbiter n r arb => Sys2Proof.Machine.execArbiter n r arb s
  | .deviceFault => Sys2Proof.Machine.execDeviceFault s
  | .pairEnable w => Sys2Proof.Machine.execPairEnable w s
  | .pairDisable w => Sys2Proof.Machine.execPairDisable w s
  | .handover w => Sys2Proof.Machine.execHandover w s
  | .promote sl w => Sys2Proof.Machine.execPromote sl w s
  | .mirrorStepCommit r acked got => Sys2Proof.Machine.execMirrorStepCommit r acked got s
  | .twinSlateExchange r slate => Sys2Proof.Machine.execTwinSlateExchange r slate s
  | .heartbeat => Sys2Proof.Machine.execHeartbeat s
  | .partnerLost resign => Sys2Proof.Machine.execPartnerLost resign s
  | .takeoverAnnounce p m => Sys2Proof.Machine.execTakeoverAnnounce p m s
  | .resync r got => Sys2Proof.Machine.execResync r got s
  | .onlineTest w => Sys2Proof.Machine.execOnlineTest w s
  | .onlineTestComplete fails => Sys2Proof.Machine.execOnlineTestComplete fails s
  | .wrapTest w => Sys2Proof.Machine.execWrapTest w s
  | .wrapTestComplete fails => Sys2Proof.Machine.execWrapTestComplete fails s
  | .healthRecord => Sys2Proof.Machine.execHealthRecord s
  | .coldStart => Sys2Proof.Machine.execColdStart s
  | .railSequenceTimeout group => Sys2Proof.Machine.execRailSequenceTimeout group s
  | .powerDown => Sys2Proof.Machine.execPowerDown s
  | .vinUndervoltage => Sys2Proof.Machine.execVinUndervoltage s
  | .vauxLoss => Sys2Proof.Machine.execVauxLoss s
  | .tcRefLoss => Sys2Proof.Machine.execTcRefLoss s
  | .powerPeriod counts => Sys2Proof.Machine.execPowerPeriod counts s
  | .powerCalibration meas => Sys2Proof.Machine.execPowerCalibration meas s
  | .capWrite src w => Sys2Proof.Machine.execCapWrite src w s
  | .retainRequest w => Sys2Proof.Machine.execRetainRequest w s
  | .retainExit w => Sys2Proof.Machine.execRetainExit w s
  | .idleEntry => Sys2Proof.Machine.execIdleEntry s
  | .frequencyStep t => Sys2Proof.Machine.execFrequencyStep t s
  | .droop t => Sys2Proof.Machine.execDroop t s
  | .droopEnd t => Sys2Proof.Machine.execDroopEnd t s
  | .fillLightTimeout n => Sys2Proof.Machine.execFillLightTimeout n s
  | .convoyAnnounce => Sys2Proof.Machine.execConvoyAnnounce s
  | .convoyReceive p m => Sys2Proof.Machine.execConvoyReceive p m s
  | .convoyExpire dev => Sys2Proof.Machine.execConvoyExpire dev s
  | .thermalStep temps => Sys2Proof.Machine.execThermalStep temps s
  | .firmwareFetch w => Sys2Proof.Machine.execFirmwareFetch w s
  | .bootCheck img => Sys2Proof.Machine.execBootCheck img s
  | .firmwareFetchTimeout => Sys2Proof.Machine.execFirmwareFetchTimeout s
  | .getCerts src req => Sys2Proof.Machine.execGetCerts src req s
  | .quote src req => Sys2Proof.Machine.execQuote src req s
  | .keyOpen src req => Sys2Proof.Machine.execKeyOpen src req s
  | .keyLoad src req => Sys2Proof.Machine.execKeyLoad src req s
  | .keyClear src req => Sys2Proof.Machine.execKeyClear src req s
  | .dbgChal src req => Sys2Proof.Machine.execDbgChal src req s
  | .token src req => Sys2Proof.Machine.execToken src req s
  | .dbgDrop src req => Sys2Proof.Machine.execDbgDrop src req s
  | .arbFuse src req => Sys2Proof.Machine.execArbFuse src req s
  | .ephemeralKeyExpire => Sys2Proof.Machine.execEphemeralKeyExpire s
  | .debugHalt n => Sys2Proof.Machine.execDebugHalt n s
  | .extest => Sys2Proof.Machine.execExtest s
  | .clamp => Sys2Proof.Machine.execClamp s
  | .highz => Sys2Proof.Machine.execHighz s
  | .testLogicReset => Sys2Proof.Machine.execTestLogicReset s
  | .warmReset => Sys2Proof.Machine.execWarmReset s
  | .rst w => Sys2Proof.Machine.execRst w s
  | .perstN => Sys2Proof.Machine.execPerstN s
  | .functionLevelReset => Sys2Proof.Machine.execFunctionLevelReset s
  | .d3hot => Sys2Proof.Machine.execD3hot s
  | .bar2Access off size data => Sys2Proof.Machine.execBar2Access off size data s
  | .ingestWrite off data => Sys2Proof.Machine.execIngestWrite off data s
  | .entdaa addr => Sys2Proof.Machine.execEntdaa addr s
  | .setdasa addr => Sys2Proof.Machine.execSetdasa addr s
  | .setnewda addr => Sys2Proof.Machine.execSetnewda addr s
  | .rstdaa => Sys2Proof.Machine.execRstdaa s
  | .getpid => Sys2Proof.Machine.execGetpid s
  | .getbcr => Sys2Proof.Machine.execGetbcr s
  | .getdcr => Sys2Proof.Machine.execGetdcr s
  | .getstatus => Sys2Proof.Machine.execGetstatus s
  | .enec mask => Sys2Proof.Machine.execEnec mask s
  | .disec mask => Sys2Proof.Machine.execDisec mask s
  | .setmwl len => Sys2Proof.Machine.execSetmwl len s
  | .getmwl => Sys2Proof.Machine.execGetmwl s
  | .setmrl len => Sys2Proof.Machine.execSetmrl len s
  | .getmrl => Sys2Proof.Machine.execGetmrl s
  | .i3cPrivateWrite bytes => Sys2Proof.Machine.execI3cPrivateWrite bytes s
  | .glbDetWrite w => Sys2Proof.Machine.execGlbDetWrite w s
  | .rcRead off size => Sys2Proof.Machine.execRcRead off size s
  | .registerWrite off size data => Sys2Proof.Machine.execRegisterWrite off size data s
  | .standStillEnd => Sys2Proof.Machine.execStandStillEnd s
  | .pairingComplete info => Sys2Proof.Machine.execPairingComplete info s
  | .answeredReport id => Sys2Proof.Machine.execAnsweredReport id s
  | .vauxPresent sl rcls => Sys2Proof.Machine.execVauxPresent sl rcls s
  | .perstNDeassert => Sys2Proof.Machine.execPerstNDeassert s
  | .pcieLinkL0 rate width ok => Sys2Proof.Machine.execPcieLinkL0 rate width ok s
  | .d3hotExit => Sys2Proof.Machine.execD3hotExit s
  | .ddrTrainingDone found => Sys2Proof.Machine.execDdrTrainingDone found s
  | .burstComplete ch k => Sys2Proof.Machine.execBurstComplete ch k s
  | .hostReadCompletion ch k read => Sys2Proof.Machine.execHostReadCompletion ch k read s
  | .scan domains => Sys2Proof.Machine.execScan domains s
  | .jtagWrite n target data => Sys2Proof.Machine.execJtagWrite n target data s
  | .chunkRequest r shard chunk dev => Sys2Proof.Machine.execChunkRequest r shard chunk dev s
  | .partnerTestRequest p => Sys2Proof.Machine.execPartnerTestRequest p s

end Sys2Proof.Machine
end

