-- ==== Sys2Proof/Machine/Step.lean ====
section
/-! DEFINITION. One step: the command at the front of the queue takes effect; with no command waiting, time passes. -/

namespace Sys2Proof.Machine

/-- The block with nothing commanded (DESIGN CHOICE, log entry 1): one period of the timecode's clock passes (R373), the
times since which contexts are blocked or runnable are noted (R431), a core that a test waits for is drained (R520), and
remote accesses that wait are tried again (R193, R494), and ports with nothing to send acknowledge what they have received
(R337). The time passes whatever clocks stand; the rest is work of the edge tiles (R40). -/
def idle (s : State) : State :=
  Sys2Proof.Machine.nextCount (if clockRuns s (edgeClock 0) then idlePorts (serveStalled (drainTest (observe s))) else s)

/-- The command at the front of the queue, run with the queue's rest; the block idles where none waits. -/
def step (s : State) : Host.Outcome State Fault Refusal :=
  match s.pending with
  | [] => .next (idle s)
  | c :: rest => exec c { s with pending := rest }

/-- The state with the command that a table word spells put at the front of the queue; the words spell none. -/
def State.withFetchWord (s : State) (nbits w : Nat) : State :=
  match decodeTableWord nbits w with
  | some c => { s with pending := c :: s.pending }
  | none => s

end Sys2Proof.Machine
end

