-- ==== Sys2Proof/Machine/Pins.lean ====
section
/-! DEFINITION. The states of the module's pins (R618, Table 20.3), which follow from the device's state. -/

namespace Sys2Proof.Machine

/-- A state of Table 20.3. -/
inductive PinState where
  | highZ | released | asserted | idle | active | low | high | selfRefresh
  deriving DecidableEq, Repr

/-- The conditions of Table 20.3. -/
inductive PinCond where
  | noVaux | off | reset | running
  deriving DecidableEq, Repr

/-- The condition the module is in. -/
def pinCond (s : State) : PinCond :=
  if !s.pins.vaux then .noVaux
  else if powerState s = 3 then .off
  else if s.pcie.resetting then .reset
  else .running

/-- The PCIe transmitters. -/
def pciePins (s : State) : PinState :=
  match pinCond s with
  | .noVaux | .off => .idle
  | .reset => if s.pins.perstN then .active else .idle
  | .running => .active

/-- The link transmitters. -/
def linkPins (s : State) : PinState :=
  if pinCond s = .running ∧ powerState s ≠ 2 then .active else .idle

/-- `PWR_OK`. -/
def pwrOkPin (s : State) : PinState :=
  match pinCond s with
  | .noVaux => .highZ
  | .off => .low
  | .reset | .running => .high

/-- An open-drain output, `ALERT_N` or `THERM_N`, at its level (R545, R593). -/
def openDrain (s : State) (level : Bool) : PinState :=
  if pinCond s = .noVaux ∨ level then .released else .asserted

/-- The I3C pins. -/
def i3cPins (s : State) : PinState := if pinCond s = .noVaux then .released else .active

/-- `TDO`. -/
def tdoPin (s : State) : PinState :=
  match pinCond s with
  | .noVaux | .off => .highZ
  | .reset | .running => .active

/-- `DDR_RESET_N` of a channel: low until training. -/
def ddrResetPin (s : State) (ch : Nat) : PinState :=
  match pinCond s with
  | .noVaux | .off => .highZ
  | .reset => .high
  | .running => if fget s F.ddrStatState 0 ch = 0 then .low else .high

/-- The other DDR signals. -/
def ddrPins (s : State) : PinState :=
  match pinCond s with
  | .noVaux | .off => .highZ
  | .reset => .selfRefresh
  | .running => if powerState s = 2 then .selfRefresh else .active

end Sys2Proof.Machine
end

