-- ==== Sys2Proof/WellFormed.lean ====
section
/-! DEFINITION. Well-formed commands: operands of the size and range that their rows give them. The device never meets
others; what fits its type is a check only where a list or a number could be too long or too large. -/

namespace Sys2Proof

/-- A write's data lie in the part of the register that it covers (R600). -/
def RegWrite.wf (w : RegWrite) : Bool :=
  match w.half with
  | .both => true
  | .low => decide (w.data.toNat < 2 ^ 32)
  | .high => decide (w.data.toNat % 2 ^ 32 = 0)

/-- A packet's fields fit the header of Table 10.5. -/
def Packet.wf (p : Packet) : Bool :=
  decide (1 ≤ p.type ∧ p.type ≤ 7 ∧ p.hops < 256 ∧ p.status < 256 ∧ p.src < 4096 ∧ p.dst < 4096 ∧ p.addr < 2 ^ 64 ∧
    p.data.length ≤ 4096 ∧ p.atom < 256 ∧ p.reqid < 2 ^ 32 ∧ p.birth < 2 ^ 32 ∧ p.ext < 2 ^ 32)

/-- An access lies in BAR0 (R596); which sizes are served is the device's business (R600). -/
def barAccess (off size : Nat) : Bool := decide (0 < size ∧ off + size ≤ 2 ^ 26)

/-- Bytes read, where they were read, have one of the sizes. -/
def sizeIn (ns : List Nat) (b : Option Bytes) : Bool :=
  match b with
  | some bs => ns.contains bs.length
  | none => true

/-- Whether a command's operands have the form its row gives them. -/
def Instr.wf (i : Instr) : Bool :=
  match i with
  | .bmvEnable _ w => w.wf
  | .bmvDisable _ w => w.wf
  | .callSheetPoll reads => reads.all fun x => x.slots.all (sizeIn [64])
  | .resume _ w slot => w.wf && sizeIn [64, 128] slot
  | .skip _ w => w.wf
  | .tcSet w => w.wf
  | .reacq w => w.wf
  | .logNote _ w => w.wf
  | .logModeWrite _ w => w.wf
  | .replaySubmit _ entries =>
    (entries.find? fun e => e.type == 1).any (fun e => [64, 128].contains e.payload.length) &&
      entries.all fun e => e.key.length == 16 && e.data.length == 16 && decide (e.payload.length < 65536)
  | .contextEnable _ w => w.wf
  | .contextDisable _ w => w.wf
  | .shelve _ w => w.wf
  | .returnCtx w => w.wf
  | .disableShelved w => w.wf
  | .pageAccess _ va _ => decide (va < 2 ^ 48)
  | .placementTimeout _ va => decide (va < 2 ^ 48)
  | .ddrRead _ _ err copy => err.length == 40 && copy.length == 40
  | .patrolScrub _ _ err copy _ => err.length == 40 && copy.length == 40
  | .alloc _ w => w.wf
  | .free _ w => w.wf
  | .setattr _ w => w.wf
  | .clrattr _ w => w.wf
  | .pin _ w => w.wf
  | .unpin _ w => w.wf
  | .clearPoison _ w => w.wf
  | .linkEnable _ w => w.wf
  | .linkDisable _ w => w.wf
  | .timecal _ markers => markers.length == 64
  | .flitReceive _ _ payload check => payload.length == 224 && check.length == 24
  | .relaneComplete _ ok markers => !ok || markers.length == 64
  | .writePkt _ pkt => pkt.wf && pkt.type == 1
  | .readReq _ pkt => pkt.wf && pkt.type == 2
  | .readResp _ pkt => pkt.wf && pkt.type == 3
  | .ack _ pkt => pkt.wf && pkt.type == 4
  | .tokenPacket _ pkt => pkt.wf && pkt.type == 5
  | .atomic _ pkt => pkt.wf && pkt.type == 6
  | .coll _ pkt => pkt.wf && pkt.type == 7
  | .routeEntryWrite w => w.wf
  | .creditFloorWrite _ w => w.wf
  | .rqWindowEnable _ w => w.wf
  | .goSnapshot _ w => w.wf
  | .reelLoad _ w _ => w.wf
  | .abort _ w => w.wf
  | .commit _ w => w.wf
  | .reelStreamBind _ _ w => w.wf
  | .reelChunk _ _ _ data => decide (data.length ≤ 65552)
  | .pairEnable w => w.wf
  | .pairDisable w => w.wf
  | .handover w => w.wf
  | .promote _ w => w.wf
  | .mirrorStepCommit _ _ got => ((got.map (·.lines)).getD []).all fun l => l.2.1.length == 256
  | .resync _ got => got.all fun p => p.data.length == 2 ^ 21
  | .onlineTest w => w.wf
  | .wrapTest w => w.wf
  | .capWrite _ w => w.wf
  | .retainRequest w => w.wf
  | .retainExit w => w.wf
  | .thermalStep temps => temps.length == 6
  | .firmwareFetch w => w.wf
  | .bootCheck img => img.header.length == 64
  | .rst w => w.wf
  | .bar2Access off size data => decide (0 < (data.map (·.length)).getD size ∧ off + (data.map (·.length)).getD size ≤ 2 ^ 34)
  | .ingestWrite off data => decide (0 < data.length ∧ off + data.length ≤ 2 ^ 34)
  | .glbDetWrite w => w.wf
  | .rcRead off size => barAccess off size
  | .registerWrite off size _ => barAccess off size
  | .pcieLinkL0 rate width _ => decide (rate ≤ 64 ∧ width ≤ 16)
  | .ddrTrainingDone found => found.length == 16
  | .bundleIssue _ | .holdEnd _ | .coreStop _ | .takeTimeout _ | .loop _ _ | .br _ _ | .brSet _ _ | .waittok _ _
  | .recvAny _ _ | .sendtok _ _ | .action _ _ | .cut _ | .fence _ _ | .slate _ _ | .trapcfg _ _ | .endTake _
  | .mcfg _ _ | .mstagea _ _ | .mstageb _ _ | .mmul _ _ | .splicePartialArrival _ | .mmulFinish _ | .mdrain _
  | .mew _ _ | .spadd _ _ | .spmerge _ _ | .spround _ _ | .spexport _ _ | .spimport _ _ | .vadd _ _ | .vmul _ _
  | .vfma _ _ | .vmax _ _ | .vcmp _ _ | .vsel _ _ | .vcvt _ _ | .vred _ _ | .vexp _ _ | .vlog _ _ | .vrsq _ _
  | .vrcp _ _ | .vtanh _ _ | .vsig _ _ | .vgelu _ _ | .vsin _ _ | .vcos _ _ | .vrand _ _ | .vrowreplay _ _
  | .vupd _ _ | .seti _ _ | .sethi _ _ | .salu _ _ | .tadj _ _ | .setvl _ _ | .xfer _ _ | .movg _ _ | .hash _ _
  | .fill _ _ | .cmpm _ _ | .swp _ _ | .burstIssue _ | .transferComplete _ | .pause _ _ | .channelPaused _ _
  | .resumeTransfer _ _ | .bmvDescComplete _ | .tokenDelivery _ | .stepLaunch _ | .stepEnd _ | .completionRecord _
  | .completionCoalesceTimeout _ | .launchGroup _ _ | .tick _ | .markerSend _ | .marker _ _ | .logEntryWrite _
  | .consistencyCheck _ _ _ _ | .swap | .shelvingComplete _ | .returnComplete _ _ | .floatingClaim _ _
  | .floatTimeout _ _ | .ddrRefresh _ | .ddrTraining | .migrationEpoch _ | .migrationDrain _ _
  | .migrationCopy _ _ _ | .lenderLost _ | .detectBurst _ _ | .linkTraining _ _ | .ident _ _ | .keyx _ _
  | .linkStateTimeout _ | .rekey _ _ | .retryTimeout _ | .laneFault _ _ | .lossOfSignal _ | .requestResend _
  | .requestRto _ | .notYetRetry _ | .notYetTimeout _ | .collectiveStart _ _ | .collectiveComplete _ _
  | .collectiveTimeout _ _ | .snapshotStart _ | .snapshotPageSent _ | .chunkTimeout _ _ _ | .reelSwitch _
  | .coreFault _ | .beatTimeout _ | .retake _ _ | .mirrorCommit _ _ | .checkTake _ _ _ _ | .arbiter _ _ _
  | .deviceFault | .twinSlateExchange _ _ | .heartbeat | .partnerLost _ | .takeoverAnnounce _ _
  | .onlineTestComplete _ | .wrapTestComplete _ | .healthRecord | .coldStart | .railSequenceTimeout _ | .powerDown
  | .vinUndervoltage | .vauxLoss | .tcRefLoss | .powerPeriod _ | .powerCalibration _ | .idleEntry
  | .frequencyStep _ | .droop _ | .droopEnd _ | .fillLightTimeout _ | .convoyAnnounce | .convoyReceive _ _
  | .convoyExpire _ | .firmwareFetchTimeout | .getCerts _ _ | .quote _ _ | .keyOpen _ _ | .keyLoad _ _
  | .keyClear _ _ | .dbgChal _ _ | .token _ _ | .dbgDrop _ _ | .arbFuse _ _ | .ephemeralKeyExpire | .debugHalt _
  | .extest | .clamp | .highz | .testLogicReset | .warmReset | .perstN | .functionLevelReset | .d3hot | .entdaa _
  | .setdasa _ | .setnewda _ | .rstdaa | .getpid | .getbcr | .getdcr | .getstatus | .enec _ | .disec _ | .setmwl _
  | .getmwl | .setmrl _ | .getmrl | .i3cPrivateWrite _ | .standStillEnd | .pairingComplete _ | .answeredReport _
  | .vauxPresent _ _ | .perstNDeassert | .d3hotExit | .burstComplete _ _ | .hostReadCompletion _ _ _ | .scan _
  | .jtagWrite _ _ _ | .chunkRequest _ _ _ _ | .partnerTestRequest _ => true

end Sys2Proof
end

