-- ==== Sys2Proof/Safety.lean ====
section
/-! DEFINITION. What the statements speak of: what no command may undo, the form of the device's memories, when a bundle
issues, the commands that stand for one instruction of a slot, the exact value of a number. -/

namespace Sys2Proof.Machine

/-! ### What lasts -/

/-- What fuses and the repair store keep (R523, R552, R561, R608, R613): the grade never changes, the anti-rollback
values, the counts of starts and of debug grants never fall, a fuse that is set stays set, an owner stays recorded, and
no repair record is lost. -/
def State.Kept (s t : State) : Prop :=
  t.chip = s.chip ∧ arbStored s ≤ arbStored t ∧ s.nv.arbF ≤ t.nv.arbF ∧ s.nv.starts ≤ t.nv.starts ∧
    s.nv.d2cnt ≤ t.nv.d2cnt ∧ (s.nv.fuseDeployed = true → t.nv.fuseDeployed = true) ∧
    (s.nv.fuseRetired = true → t.nv.fuseRetired = true) ∧ (s.nv.ownerSet = true → t.nv.ownerSet = true) ∧
    s.nv.records <+: t.nv.records

/-- The memories that lie outside cores and contexts are in canonical form: host memory as the device has written it,
the frames lent to other devices, the I3C mailbox window. -/
def State.MemOk (s : State) : Prop := memWf s.hostMem = true ∧ memWf s.ddr = true ∧ memWf s.i3c.mbdata = true

/-! ### Issue -/

/-- Whether a core with a take of key `k` issues a bundle now (R191, R220): it runs the take and no stop is on its way,
no splice escape and nothing outside the bundle holds it, the address lies in the code, no slot is illegal, and every
slot's conditions hold. -/
def ready (s : State) (n k : Nat) (b : Slots) : Bool :=
  issuer s n == some k && (core s n).hold != 1 && outerHold s n k == .ok &&
    decide ((frameOf (core s n) k).pc < codeSize (frameOf (core s n) k)) && (bundleBad s n k b).isNone &&
    bundleWait s n k b == .ok

/-- The state after a bundle whose only effects are on the frame of its take: the frame becomes `fr`, and the core has
issued. -/
def issued (s : State) (n k : Nat) (fr : Frame) : State :=
  noteUnder s n (setCore s n (countCycle (fget s F.pwrTileDuty 0 (tileOf n))
    { core s n with frames := tset (core s n).frames k fr, seq := (core s n).seq + 1 }))

/-- What an instruction of a core may touch beside its own core: the contexts' records of the step, the counts of
registers, and the open values drawn. -/
def OnlyCore (s t : State) (n : Nat) : Prop :=
  (∃ cs xs rs q, t = { s with cores := cs, ctxs := xs, regs := rs, freeCtr := q }) ∧
    ∀ m, m ≠ n → tfind t.cores m = tfind s.cores m

/-! ### The rows that are one instruction -/

/-- The row of a control instruction. -/
def ofC (n : CoreId) : CInstr → Option Instr
  | .nop => none
  | .loop f => some (.loop n f)
  | .br f => some (.br n f)
  | .brSet f => some (.brSet n f)
  | .waittok f => some (.waittok n f)
  | .recvAny f => some (.recvAny n f)
  | .sendtok f => some (.sendtok n f)
  | .action f => some (.action n f)
  | .cut => some (.cut n)
  | .fence k => some (.fence n k)
  | .slate f => some (.slate n f)
  | .trapcfg b => some (.trapcfg n b)
  | .endStep => some (.endTake n)

/-- The row of a matrix-slot instruction. -/
def ofM (n : CoreId) : MInstr → Option Instr
  | .nop => none
  | .mcfg f => some (.mcfg n f)
  | .mstagea t => some (.mstagea n t)
  | .mstageb t => some (.mstageb n t)
  | .mmul f => some (.mmul n f)
  | .mdrain => some (.mdrain n)
  | .mew f => some (.mew n f)
  | .spadd f => some (.spadd n f)
  | .spmerge f => some (.spmerge n f)
  | .spround f => some (.spround n f)
  | .spexport f => some (.spexport n f)
  | .spimport f => some (.spimport n f)

/-- The row of a vector instruction of the common layout. -/
def ofVop (n : CoreId) (f : VecF) : VOp → Instr
  | .vadd => .vadd n f
  | .vmul => .vmul n f
  | .vfma => .vfma n f
  | .vmax => .vmax n f
  | .vcmp => .vcmp n f
  | .vsel => .vsel n f
  | .vcvt => .vcvt n f
  | .vred => .vred n f
  | .vexp => .vexp n f
  | .vlog => .vlog n f
  | .vrsq => .vrsq n f
  | .vrcp => .vrcp n f
  | .vtanh => .vtanh n f
  | .vsig => .vsig n f
  | .vgelu => .vgelu n f
  | .vsin => .vsin n f
  | .vcos => .vcos n f
  | .vrand => .vrand n f
  | .vrowreplay => .vrowreplay n f

/-- The row of a vector-slot instruction. -/
def ofV (n : CoreId) : VInstr → Option Instr
  | .nop => none
  | .vec op f => some (ofVop n f op)
  | .vupd f => some (.vupd n f)

/-- The row of a transfer instruction. -/
def ofMove (n : CoreId) (f : XferF) : MKind → Instr
  | .xfer => .xfer n f
  | .movg => .movg n f
  | .hash => .hash n f
  | .fill => .fill n f
  | .cmpm => .cmpm n f
  | .swp => .swp n f

/-- The row of a mover-slot instruction. -/
def ofD (n : CoreId) : DInstr → Option Instr
  | .nop => none
  | .move k f => some (ofMove n f k)
  | .seti f => some (.seti n f)
  | .sethi f => some (.sethi n f)
  | .salu f => some (.salu n f)
  | .tadj f => some (.tadj n f)
  | .setvl a => some (.setvl n a)

/-! ### Exact values -/

/-- The exact value of `m × 2^e`. -/
def dyVal (v : Dy) : ℚ := (v.m : ℚ) * (2 : ℚ) ^ v.e

/-- The exact value of a finite number, and of no other. -/
def numVal : Num → Option ℚ
  | .fin neg m e => some ((if neg then -(m : ℚ) else (m : ℚ)) * (2 : ℚ) ^ e)
  | _ => none

end Sys2Proof.Machine
end

