-- ==== Sys2Proof/Certificates/Slice0/Obligations.lean ====
section
/-! DEFINITION. The statements for the provers. Each cites the rules of the manual it rests on. -/

open Sys2Proof Sys2Proof.Machine

/-- Log entry 1 (DESIGN CHOICE: the queue is the model's own). The command at the front of the queue is run with the
queue's rest, and the step answers what it answers. -/
def Obligations.StepRunsTheFrontCommand : Prop :=
  ∀ (c : Instr) (rest : List Instr) (s : State), s.pending = c :: rest → step s = exec c { s with pending := rest }

/-- Log entry 1 (DESIGN CHOICE: what an empty queue does). With nothing commanded and nothing to drain, to note, to try
again, to send or to acknowledge, one step counts one nanosecond of the timecode while the device is powered and its count does not stand still, and no slew
is made (R373, R381); it changes nothing else. -/
def Obligations.IdleCountsTheTimecode : Prop :=
  ∀ s : State, s.pending = [] → s.ctxs = [] → s.test.online = none → s.fab.stalled = [] →
    (∀ p, (port s p).nakOwed = false ∧ (port s p).ackOwed = false ∧ (port s p).owed = [] ∧ (port s p).out = []) →
    (Sys2Proof.Machine.countRuns s = true → s.time.slew = 0 → step s = .next { s with tcount := s.tcount + 1 }) ∧
    (Sys2Proof.Machine.countRuns s = false → step s = .next s)

/-- R609, R611 (derived): every well-formed command runs to a next state in every state, but the three whose data come
from outside with a length that the device's own state fixes (a host-bus read, a `READ_RESP`, an image); these stop at
most with the fault that names that operand. No command is refused. -/
def Obligations.EveryWellFormedCommandCompletes : Prop :=
  ∀ (i : Instr) (s : State), i.wf = true →
    (∃ t, exec i s = .next t) ∨
    (((∃ ch k r, i = .hostReadCompletion ch k r) ∨ (∃ p k, i = .readResp p k) ∨ (∃ sl b g q, i = .consistencyCheck sl b g q)) ∧
      ∃ w, exec i s = .fault (.badOperand w))

/-- R552, R561, R608 (derived): what fuses and the repair store keep lasts through every step: no command lowers an
anti-rollback value or a count, clears a fuse, forgets an owner or a repair record, or changes the grade. -/
def Obligations.StepKeepsFusesAndStore : Prop :=
  ∀ s t : State, step s = .next t → State.Kept s t

/-- The memories outside cores and contexts stay in canonical form through every step, so that equal memories are
equal data and a read finds what was written last (the model's form of a memory; log entry 6). -/
def Obligations.StepKeepsMemoriesCanonical : Prop :=
  ∀ s t : State, s.MemOk → step s = .next t → t.MemOk

/-- R16, R531 (derived): at reset every register field reads its cold value, the device is OFF with its rails down, no
memory lists a byte, nothing is registered and nothing waits; the memories are in canonical form. Log entries 2 to 8
and 10 name the values that the spec does not give. -/
def Obligations.ResetIsCold : Prop :=
  (∀ (f : Fld) (i j : Nat), fget State.reset f i j = f.cold) ∧ powerState State.reset = 3 ∧
    State.reset.power.railsUp = false ∧ State.reset.MemOk ∧ State.reset.pending = [] ∧ State.reset.ctxs = [] ∧
    State.reset.cores = [] ∧ (∀ n, (core State.reset n).scratch = [] ∧ (core State.reset n).istore = [])

/-! ### Bundles and the rows of one instruction -/

/-- R191, R220: where a core issues a bundle of one control instruction, the row answers the state after its issue:
the instruction's effect, where the program goes, the cycle counted, and for `CUT` and `END` the cut or the end of the
part. Rows: `LOOP`, `BR`, `BR_SET`, `WAITTOK`, `RECV_ANY`, `SENDTOK`, `ACTION`, `CUT`, `FENCE`, `SLATE`, `TRAPCFG`,
`END`; and `BUNDLE_ISSUE` for the bundle the core would fetch. -/
def Obligations.ControlSlotIssues : Prop :=
  ∀ (s : State) (n : CoreId) (k : Nat),
    (∀ (i : CInstr) (c : Instr), ofC n i = some c → ready s n.val k (onlyC i) = true →
      exec c s = .next (noteUnder s n.val (issueOk s n.val k (onlyC i)))) ∧
    (ready s n.val k (nextSlots s n.val) = true →
      exec (.bundleIssue n) s = .next (noteUnder s n.val (issueOk s n.val k (nextSlots s n.val))))

/-- R191, R220: the same for the matrix and splice slot. Rows: `MCFG`, `MSTAGEA`, `MSTAGEB`, `MMUL`, `MDRAIN`, `MEW`,
`SPADD`, `SPMERGE`, `SPROUND`, `SPEXPORT`, `SPIMPORT`. The core shows neither a hold nor a wait, the issue applies the instruction's
own effect `effM`, and then the frame of the take goes to the next bundle. R191, R220: the same for the vector slot. Rows: the nineteen of the
common layout (`VADD` to `VROWREPLAY`) and `VUPD`, through the effect `effV` of each. Under a hold duty d of its tile a
core that has issued in 64 - 8d cycles is held next (R537; log entry 92, DESIGN CHOICE: the model counts issued cycles). -/
def Obligations.ArraySlotIssues : Prop :=
  (∀ (s : State) (n : CoreId) (k : Nat) (i : MInstr) (c : Instr), ofM n i = some c →
      ready s n.val k (onlyM i) = true →
      let u := unheld s n.val
      exec c s = .next (noteUnder s n.val (modCore
        (modFrame (effM u (slotCx n.val k (core u n.val) 1) i) n.val k (stepFrame (frameOf (core s n.val) k) .nop)) n.val
        fun c => { c with seq := c.seq + 1 }))) ∧
  (∀ (s : State) (n : CoreId) (k : Nat) (i : VInstr) (c : Instr), ofV n i = some c →
      ready s n.val k (onlyV i) = true →
      let u := unheld s n.val
      exec c s = .next (noteUnder s n.val (modCore
        (modFrame (effV u (slotCx n.val k (core u n.val) 2) i) n.val k (stepFrame (frameOf (core s n.val) k) .nop)) n.val
        fun c => { c with seq := c.seq + 1 }))) ∧
  (∀ (s : State) (n : Nat),
      let duty := fget s F.pwrTileDuty 0 (tileOf n)
      let cycle := (core s n).cycle + 1
      unheld s n = setCore s n { core s n with
        hold := 0, wait := false, unlit := none, cycle := cycle,
        throttled := (core s n).throttled || (duty != 0 && cycle % (64 - 8 * duty) == 0) })

/-- R255, R256: the same for the transfer instructions of the mover slot. Rows: `XFER`, `MOVG`, `HASH`, `FILL`,
`CMPM`, `SWP`: a descriptor that passes its check makes its channel active on that descriptor, at the class declared
for it, and nothing else of the channel changes but the page manager's pause request (R273), which stands where the
transfer meets a page that migrates. -/
def Obligations.TransferInstructionsStartTheChannel : Prop :=
  ∀ (s : State) (n : CoreId) (k : Nat) (kd : MKind) (f : XferF),
    let u := unheld s n.val
    let x := slotCx n.val k (core u n.val) 3
    let d := moveDesc x f
    let y := xferNew d x.fr.pc k (((keyStep s n.val k).map (·.id)).getD 0)
    ready s n.val k (onlyD (.move kd f)) = true →
    lowest (descCodes s (some (n.val, k)) none (chanClass s x f.ch) (kindCode kd) d) = none →
    exec (ofMove n f kd) s = .next (noteUnder s n.val (modCore
      (modFrame
        (modChan u n.val f.ch.toNat fun h =>
          { h with cls := BitVec.ofNat 2 (chanClass s x f.ch), paused := false, intPause := meetsMove s y, xfer := some y })
        n.val k (stepFrame x.fr .nop)) n.val
      fun c => { c with seq := c.seq + 1 }))

/-- R254: the register forms of `MOV`. `SETI` writes s[d] with the immediate extended with its sign; `SETHI` writes
the upper half of s[d] and leaves the lower; `SALU` writes s[a] OP s[b], each of the eight operations modulo 2^32;
`TADJ` writes one field of descriptor tn with s[a], or with the field and s[a] added, modulo the field's width, and
leaves every other bit, and is never illegal for the descriptor it makes; `SETVL` writes `vl`, and is illegal exactly
for a value above 65,536. Nothing but the take's frame and the issue of the core changes. -/
def Obligations.MovRegisterForms : Prop :=
  (∀ (s : State) (n : CoreId) (k : Nat),
    let fr := frameOf (core s n.val) k
    let go := stepFrame fr .nop
    (∀ f : SetiF, ready s n.val k (onlyD (.seti f)) = true →
      exec (.seti n f) s = .next (issued s n.val k (go { fr with s := tset fr.s f.d.toNat (f.imm.signExtend 32) }))) ∧
    (∀ f : SetiF, ready s n.val k (onlyD (.sethi f)) = true →
      exec (.sethi n f) s = .next (issued s n.val k (go { fr with
        s := tset fr.s f.d.toNat (f.imm ++ (sreg fr f.d.toNat).extractLsb' 0 16) }))) ∧
    (∀ (f : SaluF) (v : BitVec 32), ready s n.val k (onlyD (.salu f)) = true →
      let a := sreg fr f.a.toNat
      let b := sreg fr f.b.toNat
      (f.op = 0 → v = a + b) → (f.op = 1 → v = a - b) → (f.op = 2 → v = a * b) → (f.op = 3 → v = a <<< (b &&& 31)) →
      (f.op = 4 → v = a >>> (b &&& 31)) → (f.op = 5 → v = a &&& b) → (f.op = 6 → v = a ||| b) →
      (f.op = 7 → v = a ^^^ b) →
      exec (.salu n f) s = .next (issued s n.val k (go { fr with s := tset fr.s f.d.toNat v }))) ∧
    (∀ f : TadjF, ready s n.val k (onlyD (.tadj f)) = true →
      let p := tadjField f.fld
      let d := tget fr.t f.n.toNat 0
      let a := (sreg fr f.a.toNat).toNat
      exec (.tadj n f) s = .next (issued s n.val k (go { fr with
        t := tset fr.t f.n.toNat (putField d p.1 p.2 (if f.set then a else bitsOf d.toNat p.1 p.2 + a)) }))) ∧
    (∀ a : BitVec 5, ready s n.val k (onlyD (.setvl a)) = true →
      exec (.setvl n a) s = .next (issued s n.val k (go { fr with vl := (sreg fr a.toNat).setWidth 17 })) ∧
        ((sreg fr a.toNat).setWidth 17).toNat = (sreg fr a.toNat).toNat)) ∧
  (tadjField 0 = (0, 20) ∧ tadjField 1 = (128, 32) ∧ tadjField 2 = (96, 20) ∧ tadjField 3 = (32, 16)) ∧
  (∀ (d : BitVec 256) (fld : BitVec 2) (v j : Nat),
    let p := tadjField fld
    bitsOf (putField d p.1 p.2 v).toNat p.1 p.2 = v % 2 ^ p.2 ∧
      (j < p.1 ∨ p.1 + p.2 ≤ j → (putField d p.1 p.2 v).getLsbD j = d.getLsbD j)) ∧
  (∀ (s : State) (x : Cx) (f : TadjF) (a : BitVec 5), dCauses s x (.tadj f) = [] ∧
    (dCauses s x (.setvl a) ≠ [] ↔ 65536 < (sreg x.fr a.toNat).toNat))

/-- R224, R226, R232, R234: where the program goes. A taken branch goes to its target, any other bundle past itself
through the loops it closes; a loop with a count above 0 opens its body, one with a count of 0 skips it; `FENCE`
writes nothing; `TRAPCFG` sets the trap enable. Nothing else changes but the issue of the core. -/
def Obligations.BranchesAndLoops : Prop :=
  ∀ (s : State) (n : CoreId) (k : Nat),
    let fr := frameOf (core s n.val) k
    let go (p : List LoopSt × Nat) (fr' : Frame) : State :=
      issued s n.val k { fr' with loops := p.1, pc := p.2, takecyc := fr.takecyc + 1, fresh := false }
    (∀ f : BrF, ready s n.val k (onlyC (.br f)) = true →
      exec (.br n f) s = .next (if (f.p == 0 || fr.p.getLsbD f.p.toNat) != f.inv then go (fr.loops, f.target.toNat) fr
        else go (closeLoops fr.loops fr.pc) fr)) ∧
    (∀ f : LoopF, ready s n.val k (onlyC (.loop f)) = true →
      let c := if f.imm then f.cnt.toNat + 1 else (sreg fr f.cnt.toNat).toNat
      exec (.loop n f) s = .next (if c = 0 then go (closeLoops fr.loops f.last.toNat) fr
        else go (⟨f.n, fr.pc + 1, f.last.toNat, c⟩ :: fr.loops, fr.pc + 1) fr)) ∧
    (∀ kind : BitVec 2, ready s n.val k (onlyC (.fence kind)) = true →
      exec (.fence n kind) s = .next (go (closeLoops fr.loops fr.pc) fr)) ∧
    (∀ nan : Bool, ready s n.val k (onlyC (.trapcfg nan)) = true →
      exec (.trapcfg n nan) s = .next (go (closeLoops fr.loops fr.pc) { fr with trapNan := nan }))

/-- R227: the set form of `BR` writes P := (s[SA] COND s[SB]), for the seven comparisons; the eighth code is reserved,
and a bundle with it is illegal. The set form never branches: the program goes on past the bundle, through the loops
it closes. `p0` reads 1 and is not written (Table 6.1), and no other predicate changes. -/
def Obligations.BranchSetWritesItsPredicate : Prop :=
  (∀ (s : State) (n : CoreId) (k : Nat) (f : BrSetF) (v : Bool),
    let fr := frameOf (core s n.val) k
    let a := sreg fr f.sa.toNat
    let b := sreg fr f.sb.toNat
    let next := closeLoops fr.loops fr.pc
    ready s n.val k (onlyC (.brSet f)) = true →
    (f.cond = 0 → v = decide (a = b)) → (f.cond = 1 → v = decide (a ≠ b)) → (f.cond = 2 → v = decide (a.toInt < b.toInt)) →
    (f.cond = 3 → v = decide (a.toInt ≤ b.toInt)) → (f.cond = 4 → v = decide (a.toNat < b.toNat)) →
    (f.cond = 5 → v = decide (a.toNat ≤ b.toNat)) → (f.cond = 6 → v = decide (a &&& b ≠ 0)) →
    exec (.brSet n f) s = .next (issued s n.val k { setPred fr f.p v with
      loops := next.1, pc := next.2, takecyc := fr.takecyc + 1, fresh := false })) ∧
  (∀ (s : State) (n : CoreId) (k : Nat) (f : BrSetF), f.cond = 7 → ready s n.val k (onlyC (.brSet f)) = false) ∧
  (∀ (fr : Frame) (v : Bool), setPred fr 0 v = fr ∧ pred fr 0 = true) ∧
  (∀ (fr : Frame) (p q : BitVec 3) (v : Bool), p ≠ 0 →
    pred (setPred fr p v) q = if q = p then v else pred fr q)

/-- R220, R221: a bundle with an illegal slot stops the core, whichever row it is: the record names the first such
slot in the order C, M, V, D and its lowest cause, the pc stays on the bundle, and nothing of the bundle takes effect.
R192, R195, R196: a legal bundle that waits for something outside the core holds it: the lowest cause is shown, those of
the core's own holds among them, the hold cycle is counted, nothing of the bundle takes effect. One that waits for the
core's own work counts a wait cycle instead. R93, R194: a core that a splice escape holds stands still. R191, R564
(derived): a core that runs no take, that a stop awaits, that is fenced, or whose clock stands issues nothing: every row
of one instruction leaves the state as it is. -/
def Obligations.BundlesThatDoNotIssue : Prop :=
  (∀ (s : State) (n k : Nat) (b : Slots), issuer s n = some k → (core s n).hold ≠ 1 →
      let c := core s n
      let fr := frameOf c k
      let heldBy (e : Nat) : State := kickCore (setCore s n { c with
        holdCyc := min (2 ^ 64 - 1) (c.holdCyc + 1), hold := BitVec.ofNat 4 e, wait := false, cycle := c.cycle + 1 }) n
      (∀ slot e, outerHold s n k = .ok → fr.pc < codeSize fr → bundleBad s n k b = some (slot, e) →
        issueCycle s n b = setCore s n { c with
          stop := mergeStop c.stop ⟨2, slot, e, fr.pc, 0xFFFFFFFF, 0xFFFF, 0xFFFF, 0xFF, 4 * c.seq⟩ }) ∧
      (outerHold s n k = .ok → fr.pc < codeSize fr → bundleBad s n k b = none →
        (∀ e, bundleWait s n k b = .hold e → issueCycle s n b = heldBy e) ∧
        (bundleWait s n k b = .issue → issueCycle s n b = setCore s n { c with
          waitCyc := min (2 ^ 64 - 1) (c.waitCyc + 1), hold := 0, wait := true, cycle := c.cycle + 1,
          frames := tset c.frames k { fr with takecyc := fr.takecyc + 1 } })) ∧
      (∀ d, outerHold s n k = .hold d → bundleBad s n k b = none →
        issueCycle s n b = heldBy (match bundleWait s n k b with | .hold e => min d e | _ => d))) ∧
  (∀ (s : State) (n : Nat) (b : Slots), (core s n).hold = 1 → issueCycle s n b = s) ∧
  (∀ (s : State) (n : CoreId), issuer s n.val = none →
      (∀ i c, ofC n i = some c → exec c s = .next s) ∧
      (∀ i c, ofM n i = some c → exec c s = .next s) ∧
      (∀ i c, ofV n i = some c → exec c s = .next s) ∧
      (∀ i c, ofD n i = some c → exec c s = .next s))

/-! ### A core's own events -/

/-- R130, R131, R194, R206, R631: what becomes of a core by itself. `HOLD_END` shows no hold once nothing holds the
next bundle; the oldest partial enters its accumulator, or its FAST running value, and the oldest finish writes its tile
while no hold freezes the units, and with each the finishes of the vector engine that have come to the head are done and
the array is fed; a take of 500,000 cycles begins to stop; a core at rest with a stop cause finishes its stop. R631: the stop of
a core that has a trap area writes the trap record of its virtual core there, empties the splice accumulators and the
staging queues, and ends the core's part; one without a trap area writes nothing to host memory. -/
def Obligations.CoreEventsTakeEffect : Prop :=
  (∀ (s : State) (n : CoreId) (k : Nat), clockRuns s (coreClock n.val) = true → (core s n.val).running = some k →
      (∀ w, w ≠ 7 → (core s n.val).hold = w → (∀ e, nextWait s n.val k ≠ .hold e) →
        exec (.holdEnd n) s = .next (noteUnder s n.val (setCore s n.val { core s n.val with hold := 0 }))) ∧
      (∀ mm fast p t, (core s n.val).hold = 0 → (core s n.val).flight = .part mm fast p :: t →
        let fr := frameOf (core s n.val) k
        let c := { core s n.val with flight := t }
        let c := if fast then { c with fast := fastAdd c.fast p }
          else accAdd c fr ((wideOf s n.val k).getD 0) p.acc (partAddend p)
        exec (.splicePartialArrival n) s =
          .next (runVfins (t.length + 1) (setCore s n.val (if mm then arrayNext c fr p else c)) n.val k)) ∧
      (∀ f t, (core s n.val).hold = 0 → (core s n.val).flight = .mfin f :: t →
        exec (.mmulFinish n) s = .next (runVfins (t.length + 1)
          (finishMmul (setCore s n.val { core s n.val with flight := t }) n.val k f) n.val k)) ∧
      (500000 ≤ (frameOf (core s n.val) k).takecyc →
        exec (.takeTimeout n) s = .next (setCore s n.val { core s n.val with
          stop := mergeStop (core s n.val).stop ⟨4, 0xFF, 0, (frameOf (core s n.val) k).pc, 0xFFFFFFFF, 0xFFFF, 0xFFFF, 0xFF,
            4 * (core s n.val).seq⟩ })) ∧
      (∀ t, (core s n.val).stop = some t → coreQuiet (core s n.val) k = true →
        exec (.coreStop n) s = .next (finishStop s n.val k t))) ∧
  (∀ (s : State) (n k r vx vy : Nat) (st : Step) (t : StopRec),
      keyCtx s k = some r → keyStep s n k = some st → keyPlace s n k = some (vx, vy) →
      let base := cget s r F.ctxTrapBaseAddr 0
      let w := ((ctx s r).img.map (·.width)).getD 0
      let u := if base = 0 then s
        else hostWrite s (base + 64 * (vy * w + vx)) (trapRecord s r st.id (frameOf (core s n) k).take vx vy t)
      finishStop s n k t = endPart
        (modKeyStep (setCore u n { core u n with acc := [], qa := [], qb := [], stop := none }) n k fun st =>
          noteOutcome (stopOutcome t) { st with trapped := st.trapped + 1, contribs := contribsAt vx vy false st.contribs })
        n k .stopped)

/-! ### Exact addition -/

/-- R91, R92, R95, R96: an addition to a splice accumulator is exact. Whatever the order and whichever form the
accumulator has (EMPTY, a window, the wide form), the value held afterwards is the value held before plus the addend,
where the sum is a whole number of the wide form's units within its 768 bits, and the wide form's 96 bytes lie in the
view on granules of their own. -/
def Obligations.AccumulatorAdditionIsExact : Prop :=
  ∀ (c : Core) (fr : Frame) (wide a : Nat) (d : Addend) (t : Int),
    memWf c.scratch = true → fr.gran.Nodup → wideAt wide a + 96 ≤ viewLen fr →
    inUnits (dyAdd (accVal c fr wide a) d.v) (-480) = some t → fits 768 t = true →
    dyVal (accVal (accAdd c fr wide a d) fr wide a) = dyVal (accVal c fr wide a) + dyVal d.v

/-- R100 to R104: an exact partial says all it stands for. What is read back from the canonical XP of a value that the
wide form can hold, followed by anything, is the value, its class, its poison, its domain and its tag, and its length.
-/
def Obligations.ExactPartialRoundTrip : Prop :=
  ∀ (v : Dy) (cls : BitVec 2) (poison int : Bool) (tag : BitVec 8) (rest : Bytes) (t : Int),
    inUnits v (-480) = some t → fits 768 t = true →
    let r := xpRead (xpBytes v cls poison int tag ++ rest)
    dyVal r.1.v = dyVal v ∧ r.1.cls = cls ∧ r.1.poison = poison ∧ r.1.int = int ∧ r.1.tag = tag ∧
      r.2 = (xpBytes v cls poison int tag).length

/-- R154: addition and multiplication of finite numbers are exact, in every rounding mode; the one rounding comes
after (R59). R48, R59: rounding the value of a finite code of a floating-point format into that format gives the code
back, in every mode and for every random word, and replaces nothing by a limit. -/
def Obligations.ArithmeticIsExactUpToRounding : Prop :=
  (∀ (rm : RMode) (a b : Sys2Proof.Num) (x y : ℚ), numVal a = some x → numVal b = some y →
      numVal (numAdd rm a b) = some (x + y) ∧ numVal (numMul a b) = some (x * y)) ∧
  (∀ (f : Fmt) (rm : RMode) (u code : Nat) (x : ℚ), f ∈ [Fmt.fp32, .bf16, .fp16, .e4m3, .e5m2] → code < 2 ^ fmtBits f →
      numVal (decodeElem f code 0) = some x →
      (roundTo f rm u (decodeElem f code 0)).code = code ∧ (roundTo f rm u (decodeElem f code 0)).sat = false)

/-- R151 to R154: a vector instruction that writes elements or a mask (`VADD`, `VMUL`, `VFMA`, `VMAX`, `VCMP`, `VSEL`,
`VCVT`, the nine transcendentals, `VRAND`, `VUPD`) changes no scratchpad byte but those of its destination, its mask
destination and its status word, and no register of the frame but the count of result rows. -/
def Obligations.VectorInstructionFrame : Prop :=
  ∀ (s : State) (n k : Nat) (i : VInstr),
    let x := slotCx n k (core s n) 2
    let fr := frameOf (core s n) k
    (∀ f, i ≠ .vec .vred f ∧ i ≠ .vec .vrowreplay f) → lowest (vCauses s x i) = none →
    (∀ p, (∀ r ∈ vWrites x i, ∀ j, j < r.2 → vphys fr (r.1 + j) ≠ p) →
      mget (core (effV s x i) n).scratch p = mget (core s n).scratch p) ∧
    (∃ q, frameOf (core (effV s x i) n) k = { fr with rowsTot := q }) ∧ OnlyCore s (effV s x i) n

/-! ### Movers -/

/-- R265 to R270 (Table 8.3): a burst. A released burst of a running `FILL` is under way with its pattern; one of
another kind is under way with the bytes its source answers (of a compare, those of both regions), or without any where
the answer is still to come; one whose source faults faults its channel. A burst that has its data lands in its destination,
`HASH` and `CMPM` keep it instead; of a host-bus input the burst whose read ended last lands once the
input's entry is made (R395). A completed host-bus read gives its burst the data. -/
def Obligations.BurstsMoveData : Prop :=
  ∀ (s : State) (ch : ChanRef) (x : Xfer), clockRuns s (chanClock ch) = true → chXfer s ch = some x →
    let d := x.desc
    let off := x.issued * xfBurst d
    let n := min (xfBurst d) (xfLen d - off)
    (x.issued < xfBursts d → x.failed = false → chHeld s ch = false → released s ch x x.issued = true →
      (xfKind d = 4 → exec (.burstIssue ch) s = .next (chMod s ch fun x => { x with
        issued := x.issued + 1, starved := false,
        flight := x.flight ++ [⟨x.issued, off, n, some ((List.replicate (n / 8) (leBytes 8 (xfAux d))).flatten), [], []⟩] })) ∧
      (∀ t bs bad, xfKind d ≠ 4 → xfKind d ≠ 5 →
        spaceRead s ch x x.issued (xfSsp d) (xfSrc d + off) n = (t, .data bs bad) →
        exec (.burstIssue ch) s = .next (chMod t ch fun y => { y with
          issued := x.issued + 1, starved := false, flight := y.flight ++ [⟨x.issued, off, n, some bs, bad, []⟩] })) ∧
      (∀ t u as bad bs bad', xfKind d = 5 →
        spaceRead s ch x x.issued (xfSsp d) (xfSrc d + off) n = (t, .data as bad) →
        spaceRead t ch x (x.issued + halfBurst) (xfSsp d) (xfAux d + off) n = (u, .data bs bad') →
        exec (.burstIssue ch) s = .next (chMod u ch fun y => { y with
          issued := x.issued + 1, starved := false,
          flight := y.flight ++ [⟨x.issued, off, n, some (as ++ bs), bad ++ bad'.map (n + ·), []⟩] })) ∧
      (∀ t, xfKind d ≠ 4 → (xfKind d = 5 → xfSsp d = 4) →
        spaceRead s ch x x.issued (xfSsp d) (xfSrc d + off) n = (t, .later) →
        exec (.burstIssue ch) s = .next (chMod t ch fun y => { y with
          issued := x.issued + 1, starved := false, flight := y.flight ++ [⟨x.issued, off, n, none, [], []⟩] })) ∧
      (∀ t u, xfKind d = 5 → xfSsp d ≠ 4 →
        spaceRead s ch x x.issued (xfSsp d) (xfSrc d + off) n = (t, .later) →
        spaceRead t ch x (x.issued + halfBurst) (xfSsp d) (xfAux d + off) n = (u, .later) →
        exec (.burstIssue ch) s = .next (chMod u ch fun y => { y with
          issued := x.issued + 1, starved := false, flight := y.flight ++ [⟨x.issued, off, n, none, [], []⟩] })) ∧
      (∀ t e, xfKind d ≠ 4 → spaceRead s ch x x.issued (xfSsp d) (xfSrc d + off) n = (t, .fault e) →
        exec (.burstIssue ch) s = .next (moverFault t ch x.issued e))) ∧
    (∀ b bs, x.flight.find? (fun y => y.k == b.k) = some b → b.data = some bs →
      ((xfKind d = 3 ∨ xfKind d = 5) → exec (.burstComplete ch b.k) s = .next (landBurst (chMod s ch fun x =>
        { keepBurst x b with poison := x.poison || !b.poison.isEmpty }) ch b.k)) ∧
      (xfKind d ≠ 3 → xfKind d ≠ 5 → reqOut s ch b.k = false →
        (lastRead x b.k = true → inputHeld s ch x = false) →
        exec (.burstComplete ch b.k) s = .next (landWrite s ch x b bs))) ∧
    (∀ b bs, x.flight.find? (fun y => y.k == b.k && y.data.isNone) = some b → xfSsp d = 4 →
      bs.length = (if xfKind d = 5 then 2 * b.len else b.len) →
      exec (.hostReadCompletion ch b.k (.data bs false)) s = .next (burstData s ch b.k bs []))

/-- R255, R269 to R274: a core channel whose bursts have landed becomes idle at the end of its regions, a digest or a
record written last while no request to pause stands; `PAUSE` sets
the request, a pausing channel with nothing under way and a write left to do is PAUSED, and a resumed one goes on unless the internal request
holds it. Every other channel and every other part of the state stays. R277 to R279, R611: a bulk channel. An enable
that its check passes takes the other fields of the write first, starts the descriptor and reads 1 (on a device that a
fault has stopped, R495, it starts nothing and `EN` stays 0: log entry 147, DESIGN CHOICE); one that fails
leaves `EN` at 0 and records the code; the last descriptor of a chain ends in DONE with `EN` cleared; a disable leaves
the channel idle with `EN` at 0. -/
def Obligations.ChannelsRun : Prop :=
  (∀ (s : State) (n : CoreId) (c : Fin 4), clockRuns s (coreClock n.val) = true →
      (∀ x, chXfer s (.core n c) = some x → allLanded x = true → inputHeld s (.core n c) x = false →
        (chanOf (core s n.val) c.val).paused = false →
        (xfKind x.desc ≠ 3 → xfKind x.desc ≠ 5 →
          exec (.transferComplete (.core n c)) s = .next (modChan s n.val c.val fun h => { h with
            xfer := none, paused := false, src := BitVec.ofNat 64 (xfSrc x.desc + xfLen x.desc),
            dst := BitVec.ofNat 64 (xfDst x.desc + xfLen x.desc), rem := 0 })) ∧
        (∀ t lines, (chanOf (core s n.val) c.val).pause = false → (chanOf (core s n.val) c.val).intPause = false →
          lastWrite s (.core n c) x = (t, .done lines) →
          exec (.transferComplete (.core n c)) s = .next (modChan t n.val c.val fun h => { h with
            xfer := none, paused := false, src := BitVec.ofNat 64 (xfSrc x.desc + xfLen x.desc),
            dst := BitVec.ofNat 64 (xfOut x.desc + xfOutLen x.desc), rem := 0 }))) ∧
      exec (.pause n c) s = .next (modChan s n.val c.val fun h => { h with pause := true }) ∧
      (∀ x, (chanOf (core s n.val) c.val).xfer = some x →
        ((chanOf (core s n.val) c.val).pause || (chanOf (core s n.val) c.val).intPause) = true → x.flight = [] →
        (xfKind x.desc = 3 ∨ xfKind x.desc = 5 ∨ allLanded x = false) →
        exec (.channelPaused n c) s = .next (modChan s n.val c.val fun h => { h with paused := true })) ∧
      exec (.resumeTransfer n c) s = .next (modChan s n.val c.val fun h =>
        { h with pause := false, paused := h.paused && h.intPause })) ∧
  (∀ (s : State) (b : BulkId) (w : RegWrite),
      (writeOpen s false = true → fbit s F.bmvCtlEn b.val 0 = false → w.data.getLsbD 0 = true → w.half ≠ .high →
        let t := fset (fset (fset (fset (fset s F.bmvCtlClass b.val 0 (bitsOf w.data.toNat 1 2)) F.bmvCtlOwner b.val 0
          (bitsOf w.data.toNat 3 6)) F.bmvCtlFwown b.val 0 (bitsOf w.data.toNat 9 1)) F.bmvCtlIrq b.val 0
          (bitsOf w.data.toNat 10 8)) F.bmvCtlIrqen b.val 0 (bitsOf w.data.toNat 18 1)
        (∀ e, bulkCheck t b.val (bulkDesc t b.val) = some e →
          exec (.bmvEnable b w) s = .next (refuse (fset t F.bmvStatReason b.val 0 e) 2 b.val e)) ∧
        (bulkCheck t b.val (bulkDesc t b.val) = none →
          (s.faulted = true → exec (.bmvEnable b w) s = .next t) ∧
          (s.faulted = false →
            let u := fset (fset (fset (endWaits (wake t []) (.chan (.bulk b))) F.bmvCtlEn b.val 0 1) F.bmvStatState b.val 0 1)
              F.bmvStatDesccnt b.val 0 0
            exec (.bmvEnable b w) s = .next
              { u with bulk := tset u.bulk b.val (xferNew (bulkDesc t b.val) 0 0 (bulkStep u b.val)) }))) ∧
      (∀ x, writeOpen s false = true → w.data.getLsbD 0 = false → w.half ≠ .high → tfind s.bulk b.val = some x →
        exec (.bmvDisable b w) s = .next (bulkStop s b) ∧ tfind (bulkStop s b).bulk b.val = none ∧
          fget (bulkStop s b) F.bmvCtlEn b.val 0 = 0 ∧ fget (bulkStop s b) F.bmvStatState b.val 0 = 0) ∧
      (∀ x, clockRuns s (edgeClock (b.val / 32)) = true → tfind s.bulk b.val = some x → allLanded x = true →
        inputHeld s (.bulk b) x = false → x.counted = false → xfKind x.desc ≠ 3 → xfKind x.desc ≠ 5 → xfNext x.desc = 0 →
        exec (.bmvDescComplete b) s = .next (bulkSignal (fset (fset (fset
          (fcount { s with bulk := tdel s.bulk b.val } F.bmvStatDesccnt b.val 0 1) F.bmvStatState b.val 0 2)
          F.bmvStatDone b.val 0 1) F.bmvCtlEn b.val 0 0) b.val)))

/-! ### Tokens and time -/

/-- R202, R425: a token on its way that its channel takes is delivered and is on its way no more; one that may not be
taken yet stays, and one that is refused is dropped. R375, R381: a write of `TC_SET` sets the count of the master in FREE to the value written; a value
below the current count leaves it, and so does a write on a device that is not the master or in another state. Nothing
else changes. R387: the total of an enabled tick generator is the number of its instants, one every `PERIOD` counts from
`START`, that the count has reached since the generator was enabled, modulo 2^32, and nothing else changes; a generator
that is not enabled does nothing. -/
def Obligations.TokensAndTicks : Prop :=
  (∀ (s : State) (k : Nat) (m : TokenMove) (t : State), s.tokens[k]? = some m →
      clockRuns s (tokenClock s m) = true →
      (deliverToken s m.ctx.val m.vx m.vy m.ch m.step m.val = (t, .taken) →
        exec (.tokenDelivery k) s = .next { t with tokens := t.tokens.eraseIdx k }) ∧
      (deliverToken s m.ctx.val m.vx m.vy m.ch m.step m.val = (t, .refused) →
        exec (.tokenDelivery k) s = .next { t with tokens := t.tokens.eraseIdx k }) ∧
      (deliverToken s m.ctx.val m.vx m.vy m.ch m.step m.val = (t, .notYet) → exec (.tokenDelivery k) s = .next t)) ∧
  (∀ (s : State) (w : RegWrite), writeOpen s true = true →
      (w.half = .both → fbit s F.tcCfgMaster 0 0 = true → fget s F.tcStatState 0 0 = 0 → s.tcount ≤ w.data.toNat →
        exec (.tcSet w) s = .next { s with tcount := w.data.toNat }) ∧
      ((w.data.toNat < s.tcount ∨ fbit s F.tcCfgMaster 0 0 = false ∨ fget s F.tcStatState 0 0 ≠ 0) →
        exec (.tcSet w) s = .next s)) ∧
  (∀ (s : State) (g : Fin 4),
      (fbit s F.tcTickCfgEn 0 g.val = true → 0 < fget s F.tcTickCfgPeriod 0 g.val →
        ∃ t, exec (.tick g) s = .next t ∧
          fget t F.tcTickTotTotal 0 g.val = ((List.range (s.tcount + 1)).filter fun c =>
            decide (tget s.time.ticks g.val 0 < c ∧ fget s F.tcTickStartCount 0 g.val ≤ c ∧
              (c - fget s F.tcTickStartCount 0 g.val) % fget s F.tcTickCfgPeriod 0 g.val = 0)).length % 2 ^ 32 ∧
          (∀ (f : Fld) (i j : Nat), f.key i j ≠ F.tcTickTotTotal.key 0 g.val → fget t f i j = fget s f i j) ∧
          t = { s with regs := t.regs }) ∧
      (fbit s F.tcTickCfgEn 0 g.val = false → exec (.tick g) s = .next s))

/-- R376 to R381: markers. A port in UP sends its stamp (the count, with the fraction of the instant, a free value), its master and
its stratum, and the stamps of the latest marker it has heard; what a marker says is kept for its port, with the stamp
this device puts on its arrival, and the upstream's marker disciplines a device that is not the
master. `REACQ` enters ACQUIRE on a device that is not the master while no context is enabled; the count goes on at
the end of a standstill. -/
def Obligations.MarkersAndAcquisition : Prop :=
  ∀ (s : State) (p : PortId) (came : Marker) (w : RegWrite),
    let m := { came with t4 := 16 * s.tcount + (came.t4 % 16).toNat }
    (clockRuns s (portClock p.val) = true → fget s F.lnkStatState p.val 0 = 6 →
      exec (.markerSend p) s = .next (portMsg (drawFree s).2 p.val msgMarker ([16 * s.tcount + (drawFree s).1 % 16,
        (ownMaster s).1, (ownMaster s).2] ++
        (match tfind s.time.heard p.val with
         | some h => [h.sent.toNat, h.came.toNat]
         | none => []))) ∧
      (fbit s F.tcCfgMaster 0 0 = false →
        let t := follow { s with time := { s.time with
          heard := tset s.time.heard p.val ⟨m.master, m.stratum, m.t3, m.t4⟩ } }
        exec (.marker p came) s = .next (match pickUp t with
          | some (u, _) => if u = p.val then upMarker t (tget t.time.delay p.val 0) m else t
          | none => t))) ∧
    (writeOpen s true = true → wbit w F.tcCtlReacq = true → noneEnabled s = true → fbit s F.tcCfgMaster 0 0 = false →
      exec (.reacq w) s = .next { fset (fset s F.tcStatBehind 0 0 0) F.tcStatState 0 0 1 with
        time := { s.time with first := true, good := 0, slew := 0 } }) ∧
    exec .standStillEnd s = .next (fset s F.tcStatBehind 0 0 0)

/-! ### Steps, launches, the log -/

/-- R383 to R385, R402, R420: a step at the head of a resident context's queue launches when it has no launch time, or
its time has come; one with a time and no request pending asks for its launch, 200 counts ahead at the least. A launch
group's entries start when its target has come. R394, R397: in REPLAY every entry bound to the step has been read by
then. -/
def Obligations.StepsLaunch : Prop :=
  ∀ (s : State) (r : CtxId),
    (∀ st, (ctx s r.val).queue.head? = some st → mayLaunch s r.val = true → logRead s r.val st.id = true →
      (st.launchAt = none → exec (.stepLaunch r) s = .next (launchNow s r.val st)) ∧
      (∀ t l, st.launchAt = some t → pendingFor s r.val .home = some l → l.target ≤ s.tcount →
        exec (.stepLaunch r) s = .next (launchNow s r.val st)) ∧
      (∀ t, st.launchAt = some t → pendingFor s r.val .home = none → s.tcount + 200 ≤ t.toNat →
        exec (.stepLaunch r) s = .next { s with time := { s.time with
          launches := s.time.launches ++ [⟨r, .home, t.toNat⟩] } })) ∧
    (∀ group l st g, pendingFor s r.val (.group group) = some l →
      l.target ≤ s.tcount → (ctx s r.val).st = .resident → (ctx s r.val).step = some st →
      (ctx s r.val).img.bind (fun i => i.groups.find? (fun g => g.group == group.toNat)) = some g →
      exec (.launchGroup r group) s =
        .next (g.cores.foldl (fun s e => launchEntryAt s r.val st e) (takeLaunch s r.val (.group group))))

/-- R385: a request whose target is earlier than the current timecode + 200 has the current timecode + 200 as its
target, and `TC_LAUNCH.LATE` counts it; any other keeps its target and is not counted. (A request for a step or a group
that has one pending is ignored, R383, and is no part of this.) The launch of a step that carries a launch timecode asks so. -/
def Obligations.LateLaunchRequests : Prop :=
  ∀ (s : State) (r : CtxId) (what : LaunchOf) (target : Nat), pendingFor s r.val what = none →
    ((askLaunch s r.val what target).time.launches = s.time.launches ++ [⟨r, what, max target (s.tcount + 200)⟩] ∧
      fget (askLaunch s r.val what target) F.tcLaunchLate 0 0 =
        (if target < s.tcount + 200 then min (2 ^ 32 - 1) (fget s F.tcLaunchLate 0 0 + 1) else fget s F.tcLaunchLate 0 0) ∧
      askLaunch s r.val what target = { s with
        time := { s.time with launches := s.time.launches ++ [⟨r, what, max target (s.tcount + 200)⟩] },
        regs := (askLaunch s r.val what target).regs }) ∧
    (∀ st t, (ctx s r.val).queue.head? = some st → mayLaunch s r.val = true → logRead s r.val st.id = true →
      st.launchAt = some t → what = .home →
      exec (.stepLaunch r) s = .next (askLaunch s r.val .home t.toNat))

/-- R400 to R406, R439, R586, R587: the end of a step and its record. A step whose parts and transfers are over leaves
its context, gives its cores back and waits for its record; the record of the oldest ended step is written once its
twin, its checks and the ring allow it, after its slate and its log entry. R586: the record of a step is 128 bytes at
slot `HEAD` mod the ring's size of the completion queue, and `HEAD` and the context's step count advance by one. -/
def Obligations.StepsEndAndAreRecorded : Prop :=
  (∀ (s : State) (r : CtxId),
      (∀ st k, (ctx s r.val).slot.map (·.val) = some k → (ctx s r.val).step = some st → stepOver s r.val k st = true →
        exec (.stepEnd r) s =
          .next (closeStep (modCtx (st.cores.foldl (freePart k) s) r.val fun c => { c with step := none }) r.val st)) ∧
      (∀ st, (ctx s r.val).ended.head? = some st → recordReady s r.val st = true →
        exec (.completionRecord r) s = .next (settleDisable (signalRecord (writeRecord
          (logPut (writeSlate s r.val st) r.val (completeEntry s r.val st)) r.val st) r.val) r.val)) ∧
      ((ctx s r.val).coalesce = true → exec (.completionCoalesceTimeout r) s =
        .next (signal (modCtx s r.val fun c => { c with coalesce := false })
          (cget (modCtx s r.val fun c => { c with coalesce := false }) r.val F.ctxCqCfgIrqen 0 == 1)
          (cget (modCtx s r.val fun c => { c with coalesce := false }) r.val F.ctxCqCfgIrq 0)))) ∧
  (∀ (s : State) (r : Nat) (sl : Fin 8) (st : Step), (ctx s r).slot = some sl →
      cget s r F.ctxCqHeadCount 0 < 2 ^ 64 - 1 →
      let j := cget s r F.ctxCqHeadCount 0
      let size := 2 ^ cget s r F.ctxCqCfgSizelog2 0
      let t := writeRecord s r st
      (completionBytes st ((j / size + 1) % 2)).length = 128 ∧
        t.hostMem = mwrite s.hostMem (cget s r F.ctxCqBaseAddr 0 + 128 * (j % size)) (completionBytes st ((j / size + 1) % 2)) ∧
        cget t r F.ctxCqHeadCount 0 = j + 1 ∧
        cget t r F.ctxAcctStepsCount 0 = min (2 ^ 64 - 1) (cget s r F.ctxAcctStepsCount 0 + 1) ∧
        (ctx t r).ended = (ctx s r).ended.tail)

/-- R580 to R585: the call sheets. A poll takes each report in turn while the device is ready and the host link is up;
`RESUME` after a tail the device could not use only takes the polling up again, `SKIP` passes the refused submission.
R395, R397 to R399, R408: the log. A note of an enabled context whose log is LIVE becomes a `NOTE` entry and is
counted; a write of `CTX_LOG_CFG` of a free slot takes its fields and, with `MODE` in range, starts the log again at
0; the oldest entry that waits is written once the ring has room; a replay reads the entries that the host has made valid,
the head going past each, and accepts the submissions among them in order, but those of steps that it has completed
before. -/
def Obligations.CallSheetsAndLog : Prop :=
  (∀ (s : State) (sl : SlotId) (w : RegWrite) (r : Nat),
      (∀ reads : List SheetRead, (∀ rd ∈ reads, ∀ b ∈ rd.slots, ∀ bs, b = some bs → bs.length = 64) →
        fbit s F.hostStatReady 0 0 = true → hostUp s = true → powerState s ≠ 2 → s.faulted = false →
        exec (.callSheetPoll reads) s = .next (reads.foldl pollOne s)) ∧
      (∀ n slot, writeOpen s false = true → slotCtx s sl.val = some r → (ctx s r).badSlot = some n →
        (wbit w F.ctxCsCtlResume = true → cget s r F.ctxCsStatBadcode 0 = 1 →
          exec (.resume sl w slot) s = .next (modCtx s r fun c => { c with badSlot := none })) ∧
        (∀ b : Bytes, wbit w F.ctxCsCtlResume = true → cget s r F.ctxCsStatBadcode 0 ≠ 1 → b.length = 64 →
          exec (.resume sl w (some b)) s = .next (takeSlots 1 [some b] (modCtx s r fun c => { c with badSlot := none }) r
            (cget s r F.ctxCsHeadCount 0 + 1))) ∧
        (wbit w F.ctxCsCtlSkip = true →
          exec (.skip sl w) s = .next (headBy (modCtx s r fun c => { c with badSlot := none }) r n)))) ∧
  (∀ (s : State) (sl : SlotId) (w : RegWrite) (r : CtxId),
      (∀ q, writeOpen s false = true → slotCtx s sl.val = some q → logLive s q = true → registered (ctx s q) = true →
        w.half = .both →
        exec (.logNote sl w) s = .next (cset (logFor s q none 7 (cget s q F.logNotes 0) w.data.toNat []) q F.logNotes 0
          (cget s q F.logNotes 0 + 1))) ∧
      (writeOpen s false = true → slotBusy s sl.val = false → covered w.half F.ctxLogCfgMode = true →
        wval w F.ctxLogCfgMode ≤ 2 →
        ∃ t, exec (.logModeWrite sl w) s = .next t ∧ fget t F.ctxLogCfgMode sl.val 0 = wval w F.ctxLogCfgMode ∧
          fget t F.ctxLogHeadCount sl.val 0 = 0 ∧ fget t F.ctxReplayMismatch sl.val 0 = 0 ∧
          fget t F.ctxReplayDiverge sl.val 0 = 0 ∧ t = { s with regs := t.regs }) ∧
      (writeOpen s false = true → slotBusy s sl.val = true → exec (.logModeWrite sl w) s = .next s) ∧
      (∀ e q, (ctx s r.val).log.q = e :: q → logRoom s r.val e = true → hostUp s = true →
        exec (.logEntryWrite r) s =
          .next (settleDisable (logWrite (modCtx s r.val fun c => { c with log := { c.log with q := q } }) r.val e) r.val)) ∧
      (∀ entries : List LogRec, replayOpen s r.val = true →
        (∀ e ∈ entries, e.type = 1 → e.payload.length = 64 ∨ e.payload.length = 128) →
        let u := readRing entries s r.val
        exec (.replaySubmit r entries) s = .next (acceptDue (ctx u r.val).log.due.length u r.val)) ∧
      (∀ e es, ringAhead s r.val < recLen e → readRing (e :: es) s r.val = s) ∧
      (∀ e, recLen e ≤ ringAhead s r.val →
        cget (readRing [e] s r.val) r.val F.ctxLogHeadCount 0 = (cget s r.val F.ctxLogHeadCount 0 + recLen e) % 2 ^ 64 ∧
        (ctx (readRing [e] s r.val) r.val).log.due =
          if e.type = 1 ∧ (ctx s r.val).log.done.contains e.stepId = false then (ctx s r.val).log.due ++ [e]
          else (ctx s r.val).log.due))

/-! ### Contexts -/

/-- R416 to R418, R611: a context is enabled in a free slot: the other fields of the write are taken, and the slot is
CHECKING. An image that fails its check leaves the enable at 0, with the code recorded; one that passes registers the
context, resident in the slot. A disable begins at once for a resident or shelved context, and after the copy for one
that is being shelved or returned; while CHECKING it is ignored. -/
def Obligations.ContextsAreEnabledAndDisabled : Prop :=
  ∀ (s : State) (sl : SlotId) (w : RegWrite),
    (writeOpen s false = true → wbit w F.ctxCtlEn = true → slotBusy s sl.val = false →
      exec (.contextEnable sl w) s =
        .next (fset (writeFields s w [F.ctxCtlRegnum, F.ctxCtlPrio] sl.val 0) F.ctxStatState sl.val 0 1)) ∧
    (∀ bytes img partner, slotChecking s sl.val = true →
      (∀ b, bytes = some b → b.length = fget s F.ctxImagelenBytes sl.val 0) →
      (∀ g, checkCode s sl.val bytes img partner = none → img = some g →
        exec (.consistencyCheck sl bytes img partner) s = .next (admitContext s sl g)) ∧
      (∀ code, checkCode s sl.val bytes img partner = some code →
        exec (.consistencyCheck sl bytes img partner) s = .next (refuseContext s sl.val code partner))) ∧
    (∀ r, writeOpen s false = true → slotCtx s sl.val = some r → covered w.half F.ctxCtlEn = true →
      wbit w F.ctxCtlEn = false →
      let t := writeFields s w [F.ctxCtlPrio] sl.val 0
      ((ctx s r).st = .resident → exec (.contextDisable sl w) s = .next (beginDisable t r)) ∧
      (((ctx s r).st = .shelving ∨ (ctx s r).st = .returning) →
        exec (.contextDisable sl w) s =
          .next (modCtx t r fun c => { c with res := { c.res with disableReq := true } }))) ∧
    (writeOpen s false = true → slotChecking s sl.val = true → slotCtx s sl.val = none →
      exec (.contextDisable sl w) s = .next (writeFields s w [F.ctxCtlPrio] sl.val 0)) ∧
    (writeOpen s false = true → wbit w F.schedDirctlDisable = true →
      (ctx s (fget s F.schedDirselRegnum 0 0)).st = .shelved →
      exec (.disableShelved w) s = .next (beginDisable s (fget s F.schedDirselRegnum 0 0)))

/-- R434 to R438: shelving and return. `SHELVE` notes the request, and shelves at once a context that may be shelved
now; the end of the copies frees the slot and keeps the block and the cores' contents; `RETURN` notes its request and
begins where a slot and the home set are free. -/
def Obligations.ContextsAreShelvedAndReturn : Prop :=
  ∀ (s : State) (sl : SlotId) (w : RegWrite) (r : CtxId),
    (∀ q, writeOpen s false = true → wbit w F.ctxCtlShelve = true → slotCtx s sl.val = some q →
      let t := modCtx (fset (writeFields s w [F.ctxCtlPrio] sl.val 0) F.ctxCtlShelve sl.val 0 1) q
        fun c => { c with res := { c.res with shelveReq := true } }
      exec (.shelve sl w) s = .next (if mayShelve t q then beginShelve t q else t)) ∧
    (clockRuns s (edgeClock 0) = true → (ctx s r.val).st = .shelving → s.fab.reqs.any (fun q => q.ctx == some r) = false →
      exec (.shelvingComplete r) s = .next (completeShelve s r.val)) ∧
    (∀ (k : Fin 8), (ctx s r.val).slot = some k → (ctx s r.val).res.disableReq = false →
      (ctx (completeShelve s r.val) r.val).st = .shelved ∧ (ctx (completeShelve s r.val) r.val).slot = none) ∧
    (writeOpen s false = true → wbit w F.schedDirctlReturn = true →
      (ctx s (fget s F.schedDirselRegnum 0 0)).st = .shelved →
      let q := fget s F.schedDirselRegnum 0 0
      let t := modCtx s q fun c => { c with res := { c.res with returnReq := true } }
      exec (.returnCtx w) s = .next (if canReturn t q && !copying t then beginReturn t q else t)) ∧
    (∀ bytes, clockRuns s (edgeClock 0) = true → (ctx s r.val).st = .returning →
      exec (.returnComplete r bytes) s = .next (completeReturn s r.val bytes))

/-- R431 to R433, R426 to R430: the swap rule takes the best of the contexts that wait and the best of the blocked
residents that make room for it, counts the swap, and shelves the victim, once its floating steps are over where it has any; a floating step claims the first idle cores
in placement order, one each in the serpentine order of its grid, where it carries a launch timecode once that has come (R383); a step that can never claim its cores, or has waited for them for `FLOATTO` ms, is given up. -/
def Obligations.SwapAndFloatingSteps : Prop :=
  ∀ (s : State) (r : CtxId) (k : Nat),
    (∀ inc v, clockRuns s (edgeClock 0) = true → fbit s F.schedCfgAuto 0 0 = true → copying s = false →
      ((s.ctxs.map (·.1)).any fun r => (ctx s r).res.decided) = false →
      (((s.ctxs.map (·.1)).filter (fun r => (ctx s r).st == .resident)).all (blockedLong s)) = true →
      ((s.ctxs.map (·.1)).filter (fun r => runnable s r && !canReturn s r)).foldl (better (inBefore s)) none = some inc →
      (((s.ctxs.map (·.1)).filter (fun r => (ctx s r).st == .resident)).filter (victimFor s inc)).foldl
        (better (outBefore s)) none = some v →
      let t := modCtx (fcount s F.schedStatSwaps 0 0 1) inc fun c => { c with res := { c.res with returnReq := true } }
      ((ctx t v).floats.any (·.launched) = false → exec .swap s = .next (beginShelve t v)) ∧
      ((ctx t v).floats.any (·.launched) = true → exec .swap s = .next (modCtx t v fun c =>
        { c with res := { c.res with shelveReq := true, decided := true } }))) ∧
    (∀ st cs, (ctx s r.val).floats[k]? = some st → stepImage (ctx s r.val) st = cs → st.launched = false →
      (ctx s r.val).st = .resident → (ctx s r.val).res.decided = false → cget s r.val F.ctxRelstatLost 0 = 0 →
      neverFits s (ctx s r.val) st = false → s.faulted = false → powerState s ≠ 2 → renewing s r.val = false →
      (ctx s r.val).snap = none → logRead s r.val st.id = true →
      cs.length ≤ (placementOrder.filter (claimable s (cget s r.val F.ctxCtlPrio 0) (floatGranules cs))).length →
      let ps := (placementOrder.filter (claimable s (cget s r.val F.ctxCtlPrio 0) (floatGranules cs))).zip (gridSerpentine cs)
      (st.launchAt = none → exec (.floatingClaim r k) s = .next (startFloat s r.val st ps)) ∧
      (∀ t, st.launchAt = some t → pendingFor s r.val (.float st.id) = none →
        exec (.floatingClaim r k) s = .next (askLaunch s r.val (.float st.id) t.toNat)) ∧
      (∀ t l, st.launchAt = some t → pendingFor s r.val (.float st.id) = some l →
        exec (.floatingClaim r k) s = .next (if l.target ≤ s.tcount
          then startFloat (takeLaunch s r.val (.float st.id)) r.val st ps else s))) ∧
    (∀ st, (ctx s r.val).floats[k]? = some st → st.launched = false →
      (neverFits s (ctx s r.val) st = true → exec (.floatingClaim r k) s = .next (killFloat r.val stCore s st)) ∧
      (fget s F.schedCfgFloatto 0 0 ≠ 0 →
        max st.acceptTc ((st.launchAt.map (·.toNat)).getD 0) + 1000000 * fget s F.schedCfgFloatto 0 0 ≤ s.tcount →
        exec (.floatTimeout r k) s = .next (killFloat r.val stTimeout s st)))

/-! ### Pages and DDR -/

/-- R303, R305, R306: an access to a page that is there counts the access, where the page lets it on. An access to an
unmapped page maps it: with all attributes and `KEYSLOT` 0, in a frame of the page's parity that was free where a
local frame may be had; beyond the quota nothing is mapped. Every other page of the context stays as it is. R306: the
accesses that have waited for a place for too long, where the page still has none, are given up: a mover's faults its
channel with `MV_UNMAPPED`, and none of them waits any more. (R301: the page manager of the page's parity does this, while its clock runs.) -/
def Obligations.PageAccessesMapOrFault : Prop :=
  (∀ (s : State) (r : CtxId) (va : Nat) (write : Bool), registered (ctx s r.val) = true → va < 2 ^ 48 →
      clockRuns s (pageClock (pageOf va)) = true → tsorted s.frames = true →
      let pg := pageOf va
      let ps := (ctx s r.val).vs.pages
      (∀ p, tfind ps pg = some p → pageAllows s r.val p write = .ok →
        exec (.pageAccess r va write) s = .next (setPage s r.val pg { p with accesses := p.accesses + 1 })) ∧
      (tfind ps pg = none → cget s r.val F.ctxPgquotaQuota 0 ≤ ps.length → exec (.pageAccess r va write) s = .next s) ∧
      (tfind ps pg = none → ps.length < cget s r.val F.ctxPgquotaQuota 0 → localFree s r.val (pg % 2) = true →
        ∃ (t : State) (f : Nat), exec (.pageAccess r va write) s = .next t ∧ f % 2 = pg % 2 ∧
          (tfind s.frames f = none ∨ tfind s.frames f = some .free) ∧ tfind t.frames f = some (.page r pg) ∧
          tfind (ctx t r.val).vs.pages pg =
            some ⟨.local_, f, BitVec.ofNat 12 (ownDev s), false, false, false, false, false, 0, none, 1, false⟩ ∧
          ∀ q, q ≠ pg → tfind (ctx t r.val).vs.pages q = tfind ps q)) ∧
  (∀ (s : State) (r : CtxId) (va : Nat), clockRuns s (pageClock (pageOf va)) = true →
      let t := modCtx s r.val fun c => { c with vs := { c.vs with waits := c.vs.waits.filter (fun w => w.1 != pageOf va) } }
      (tfind (ctx s r.val).vs.pages (pageOf va) = none → exec (.placementTimeout r va) s =
        .next ((((ctx s r.val).vs.waits.filter (fun w => w.1 == pageOf va)).map (·.2)).foldl
          (fun s w => placeFail s r.val (pageOf va) w) t)) ∧
      ((tfind (ctx s r.val).vs.pages (pageOf va)).isSome = true → exec (.placementTimeout r va) s = .next t)) ∧
  (∀ (s : State) (r pg : Nat) (ch : ChanRef), (chXfer s ch).isSome = true →
      placeFail s r pg (.chan ch) = moverFault s ch (waitingBurst s ch pg) 0x1A)

/-- R315, R316, R331 (Table 9.5): `GO` runs the command of a resident slot page by page and stops at the first that
fails. `RESULT`, `DONEPAGES` and `DONE` tell how it ended, and `GO` reads 0; a `CLEARPOISON` that meets a page being
printed waits there, with `GO` at 1 and the pages done in `DONEPAGES` (Table 13.4). Rows: `ALLOC`, `FREE`, `SETATTR`,
`CLRATTR`, `PIN`, `UNPIN`, `CLEARPOISON`. A reserved code or no page is refused with 0x2, a command not allowed while
a step runs with 0x3. R314, R315 (Table 9.5): what each command does to one page: `ALLOC` leaves a mapped page, and
needs the key of a protected one and the quota; `FREE` unmaps a page that is not being shipped and frees its frame;
`SETATTR` and `CLRATTR` set and clear `MIRROR`; `PIN` and `UNPIN` set and clear `PIN`; `CLEARPOISON` writes zeros over
every poisoned line and clears the marks. -/
def Obligations.PageCommandsRunPageByPage : Prop :=
  (∀ (s : State) (sl : SlotId) (w : RegWrite) (r : Nat) (c : Instr),
      c ∈ [Instr.alloc sl w, .free sl w, .setattr sl w, .clrattr sl w, .pin sl w, .unpin sl w, .clearPoison sl w] →
      writeOpen s false = true → fbit s F.ctxPgcmdGo sl.val 0 = false → wbit w F.ctxPgcmdGo = true →
      slotCtx s sl.val = some r →
      let t := writeFields s w [F.ctxPgcmdOp, F.ctxPgcmdAttr, F.ctxPgcmdKeyslot] sl.val 0
      let op := fget t F.ctxPgcmdOp sl.val 0
      let n := fget t F.ctxPgcntPages sl.val 0
      let first := pageOf (fget t F.ctxPgvaVa sl.val 0)
      let barred := (op = 1 ∨ op = 2 ∨ op = 7) ∧ stepsOpen (ctx s r) = true
      let e : State × Option Nat × Nat := if op = 0 ∨ 7 < op ∨ n = 0 then (t, some 2, 0) else if barred then (t, some 3, 0)
        else pgRun n t r op (fget t F.ctxPgcmdAttr sl.val 0) (BitVec.ofNat 4 (fget t F.ctxPgcmdKeyslot sl.val 0)) first 0
      (∀ result, e.2.1 = some result → ∃ u, exec c s = .next u ∧ fget u F.ctxPgstatResult sl.val 0 = result ∧
        fget u F.ctxPgstatDonepages sl.val 0 = e.2.2 % 2 ^ 32 ∧ fget u F.ctxPgstatDone sl.val 0 = 1 ∧
        fget u F.ctxPgcmdGo sl.val 0 = 0 ∧ (op ≠ 7 → u.ctxs = e.1.ctxs ∧ u.frames = e.1.frames)) ∧
      (e.2.1 = none → ∃ u, exec c s = .next u ∧ fget u F.ctxPgcmdGo sl.val 0 = 1 ∧
        fget u F.ctxPgstatDonepages sl.val 0 = e.2.2 % 2 ^ 32 ∧ u.ctxs = e.1.ctxs ∧
        pgWaits e.1 r op (first + e.2.2) = true)) ∧
  (∀ (s : State) (r pg : Nat) (attr : Nat) (key : BitVec 4) (p : Page), pg < 2 ^ 27 →
      let ps := (ctx s r).vs.pages
      (attr.testBit 0 = true → keyEmpty s r key = true → pgOne s r 1 attr key pg = .error 4) ∧
      (tfind ps pg = none → (attr.testBit 0 && keyEmpty s r key) = false → cget s r F.ctxPgquotaQuota 0 ≤ ps.length →
        pgOne s r 1 attr key pg = .error 1) ∧
      (tfind ps pg = some p →
        ((attr.testBit 0 && keyEmpty s r key) = false → pgOne s r 1 attr key pg = .ok s) ∧
        (p.printing = true → pgOne s r 2 attr key pg = .error 6) ∧
        (p.printing = false → ∃ t, pgOne s r 2 attr key pg = .ok t ∧ tfind (ctx t r).vs.pages pg = none ∧
          (p.loc = .local_ → tfind t.frames p.frame = none)) ∧
        (attr.testBit 1 = true → pgOne s r 3 attr key pg = .ok (setPage s r pg { p with mirror := true }) ∧
          pgOne s r 4 attr key pg = .ok (setPage s r pg { p with mirror := false })) ∧
        (p.move = none → p.loc = .local_ → pgOne s r 5 attr key pg = .ok (setPage s r pg { p with pin := true })) ∧
        pgOne s r 6 attr key pg = .ok (setPage s r pg { p with pin := false }) ∧
        (memWf (ctx s r).vs.mem = true → ∃ t q, pgOne s r 7 attr key pg = .ok t ∧
          tfind (ctx t r).vs.pages pg = some q ∧ q.poisoned = false ∧
          ∀ l, l / 32768 = pg → tget (ctx t r).vs.poison l false = false ∧
            (tget (ctx s r).vs.poison l false = true → ∀ o, o < 64 → vsGet (ctx t r).vs (64 * l + o) = 0))))

/-- R309, R310, R330: at the end of an epoch a page manager begins to move no page that is pinned, being shipped or
poisoned, clears the access counters of its tile where migration is on, and takes over what `MEM_MIG`, `MEM_LEND` and
`MEM_PEERk` hold by now. R308, R311, R312 (Table 9.4): the accesses to the old frame of a migrating page drain; a copy
that succeeds switches the entry and frees the old frame (R309: where a promotion of this epoch waits for one, it may take
it), one that fails leaves the entry as it was and frees the new
place. When a lender is lost, every page on its frames is poisoned whole and nowhere, and keeps no migration. (The copies and
the loss are stated of a context without a page command under way, which would go on with the page, R315; a copy to or
from the host waits while the host takes no transfers, R572.) -/
def Obligations.MigrationsKeepTheirRules : Prop :=
  (∀ (s : State) (e : EdgeId), clockRuns s (edgeClock e.val) = true → tsorted s.ctxs = true →
      (∀ x ∈ s.ctxs, tsorted x.2.vs.pages = true) →
      ∃ t, exec (.migrationEpoch e) s = .next t ∧
        (∀ f ∈ epochFields, fget t (inForce e.val f.1) 0 f.2 = fget s f.1 0 f.2 % 2 ^ f.1.w) ∧
        (∀ r pg p, tfind (ctx s r).vs.pages pg = some p → (p.pin || p.printing || p.poisoned) = true →
          ∃ a, tfind (ctx t r).vs.pages pg = some { p with accesses := a }) ∧
        (fbit s (inForce e.val F.memMigEn) 0 0 = true → ∀ x ∈ t.ctxs, ∀ p ∈ x.2.vs.pages, p.1 % 2 = e.val → p.2.accesses = 0)) ∧
  (∀ (s : State) (r : CtxId) (pg : Nat) (p : Page) (m : PageMove), tfind (ctx s r.val).vs.pages pg = some p →
      (clockRuns s (pageClock pg) = true → p.move = some m → exec (.migrationDrain r pg) s =
        .next (setPage s r.val pg { p with move := some { m with drained := true } })) ∧
      (clockRuns s (pageClock pg) = true → p.move = some m → m.drained = true → cget s r.val F.ctxPgcmdGo 0 = 0 →
        ((m.loc = .host ∨ p.loc = .host) → hostUp s = true) →
        let due := (tget s.promote (pg % 2) (0, [])).2
        ((r, pg) ∉ due → ∃ t, exec (.migrationCopy r pg true) s = .next t ∧ tfind (ctx t r.val).vs.pages pg =
            some { p with loc := m.loc, frame := m.frame, dev := m.dev, move := none } ∧
          (p.loc = .local_ → m.loc = .local_ ∨ due = [] → tfind t.frames p.frame = none)) ∧
        (∃ t, exec (.migrationCopy r pg false) s = .next t ∧
          tfind (ctx t r.val).vs.pages pg = some { p with move := none } ∧ t.regs = s.regs)) ∧
      (∀ dev, clockRuns s (edgeClock 0) = true → cget s r.val F.ctxPgcmdGo 0 = 0 → p.loc = .lent → p.dev = dev → ∃ t q, exec (.lenderLost dev) s = .next t ∧
        tfind (ctx t r.val).vs.pages pg = some q ∧ q.loc = .none ∧ q.poisoned = true ∧ q.move = none ∧
        ∀ o, o < 32768 → tget (ctx t r.val).vs.poison (pg * 32768 + o) false = true))

/-- R293, R317, R318, R320, R321: a line read. One that comes back as it was written changes nothing; a corrected line
is counted and recorded; an uncorrectable line of a page is counted, recorded and poisoned. Patrol scrub, while it is
on, does the same, and writes nothing back where another write has reached the line. Refresh changes durations only.
R290 to R292, R296, R628: DDR training. It puts every channel in training; its end brings up each channel that trains
and is not retired, and gives the usable capacity; a bad population, or fewer than six channels in a tile, fails it.
-/
def Obligations.DdrTrainsAndReads : Prop :=
  (∀ (s : State) (ch : Fin 16) (addr : Nat) (err copy : List (BitVec 16)), clockRuns s (ddrClock ch.val) = true →
      channelUp s ch.val = true →
      let p := physOf s ch.val addr
      let ce := fget s F.ddrCeCount ch.val 0
      let ue := fget s F.ddrUeCount ch.val 0
      exec (.ddrRefresh ch) s = .next s ∧
      (err = List.replicate 40 0 → exec (.ddrRead ch addr err copy) s = .next s) ∧
      (fbit s F.memScrubEn 0 0 = true → exec (.patrolScrub ch addr err copy false) s = exec (.ddrRead ch addr err copy) s) ∧
      (fbit s F.memScrubEn 0 0 = false → ∀ raced, exec (.patrolScrub ch addr err copy raced) s = .next s) ∧
      (inSystemArea s p = false →
        (∀ b es, es ≠ [] → lineDecode err (linePoisoned s p) = (b, some es) →
          ∃ t, exec (.ddrRead ch addr err copy) s = .next t ∧ fget t F.ddrCeCount ch.val 0 = min (2 ^ 32 - 1) (ce + 1) ∧
            fget t F.ddrUeCount ch.val 0 = ue ∧ fget t F.ddrElogAddr ch.val 0 = addr % 2 ^ 42 ∧
            fget t F.ddrElogKind ch.val 0 = 1) ∧
        (∀ b, lineDecode err (linePoisoned s p) = (b, none) →
          (∃ t, exec (.ddrRead ch addr err copy) s = .next t ∧ fget t F.ddrUeCount ch.val 0 = min (2 ^ 32 - 1) (ue + 1) ∧
            fget t F.ddrCeCount ch.val 0 = ce ∧ fget t F.ddrElogAddr ch.val 0 = addr % 2 ^ 42 ∧
            fget t F.ddrElogKind ch.val 0 = 2 ∧
            (∀ r pg, tfind s.frames (pageOf p) = some (.page r pg) → linePoisoned t p = true)) ∧
          (fbit s F.memScrubEn 0 0 = true → ∃ t, exec (.patrolScrub ch addr err copy true) s = .next t ∧
            t.ctxs = s.ctxs ∧ t.ddr = s.ddr ∧ fget t F.ddrUeCount ch.val 0 = min (2 ^ 32 - 1) (ue + 1))))) ∧
  (∀ (s : State) (found : List DdrModule),
      (trainBegun s = false → fget s F.memStatInit 0 0 = 0 → fget s F.secStatBoot 0 0 = 2 →
        ∃ t, exec .ddrTraining s = .next t ∧ ∀ ch, ch < 16 → fget t F.ddrStatState ch 0 = 1) ∧
      (found.length = 16 → (∀ ch, ch < 16 → fget s F.ddrStatState ch 0 = 1) →
        let ok (ch : Nat) : Bool := !channelRetired s ch && (found.getD ch ⟨0, 0, 0, false⟩).trains
        let n (tile : Nat) : Nat := ((List.range 8).filter fun k => ok (8 * tile + k)).length
        (populationOk found = false → ∃ t, exec (.ddrTrainingDone found) s = .next t ∧ fget t F.memStatInit 0 0 = 2 ∧
          fget t F.memStatFailcode 0 0 = 1) ∧
        (populationOk found = true → ∃ t, exec (.ddrTrainingDone found) s = .next t ∧
          (∀ ch, ch < 16 → fget t F.ddrStatState ch 0 = if ok ch then 2 else 3) ∧
          (n 0 < 6 ∨ n 1 < 6 → fget t F.memStatInit 0 0 = 2 ∧ fget t F.memStatFailcode 0 0 = 2) ∧
          (6 ≤ n 0 → 6 ≤ n 1 → fget t F.memStatInit 0 0 = 1 ∧ fget t F.memStatCapgib 0 0 =
            2 * (min (n 0) (n 1) * moduleGib (found.headD ⟨0, 0, 0, false⟩).capCode.toNat)))))

/-! ### Links -/

/-- R340, R346, R611 (Table 10.3): `EN`. An enable takes the other fields first; one that the check refuses records
its code in `REASON`, leaves `EN` at 0 and is counted as a refusal; one that passes reads 1 and is in DETECT. A
disable takes the port to OFF, but not a retired one. -/
def Obligations.LinkEnableAndDisable : Prop :=
  ∀ (s : State) (p : PortId) (w : RegWrite), writeOpen s false = true →
    let t := putLink s p.val w
    (fbit s F.lnkCtlEn p.val 0 = false → wbit w F.lnkCtlEn = true →
      (∀ code, linkCheck t p.val = some code →
        exec (.linkEnable p w) s = .next (refuse (fset t F.lnkStatReason p.val 0 code) 3 p.val code)) ∧
      (linkCheck t p.val = none → ∃ u, exec (.linkEnable p w) s = .next u ∧ fget u F.lnkStatState p.val 0 = 1 ∧
        fget u F.lnkCtlEn p.val 0 = 1)) ∧
    (covered w.half F.lnkCtlEn = true → wbit w F.lnkCtlEn = false → portState t p.val ≠ 9 →
      ∃ u, exec (.linkDisable p w) s = .next u ∧ fget u F.lnkStatState p.val 0 = 0 ∧ fget u F.lnkCtlEn p.val 0 = 0 ∧
        fget u F.lnkStatLanes p.val 0 = 0 ∧ fget u F.lnkPartnerValid p.val 0 = 0)

/-- R339 to R341, R377 (Table 10.3): a port comes up. DETECT leaves for TRAIN on signal on enough lanes; TRAIN for
IDENT with the agreed lanes, back to DETECT on a failure, and for FAILED with `PT_TRAIN` on the third in succession;
IDENT for KEYX, with the partner in `LNK_PARTNER`, or for FAILED with the code of the check; KEYX for TIMECAL,
with the direction keys of the exchange in force and the packet counters at 0 (R342), or FAILED; TIMECAL for UP, with the delay of the link and `UPEVT`. R343, R345, R346: lanes and ports that vanish. A lane
that fails on a port in UP is retired: the port goes on in RELANE on the lanes left, or fails with `PT_LANES` where
these are too few; RELANE ends in UP with the delay measured anew, or in a failure (R346: lanes written during it bring
on a second one, and R338: an eighth replay fails the port). A port that loses signal on every
lane counts the episode and returns to DETECT, or to OFF with `EN` cleared, and records no reason. -/
def Obligations.PortsComeUpAndVanish : Prop :=
  (∀ (s : State) (p : PortId), clockRuns s (portClock p.val) = true →
      let failed (code : Nat) (o : Host.Outcome State Fault Refusal) : Prop :=
        ∃ u, o = .next u ∧ fget u F.lnkStatState p.val 0 = 8 ∧ fget u F.lnkStatReason p.val 0 = code ∧
          fget u F.lnkStatFailevt p.val 0 = 1
      (∀ lanes : BitVec 8, portState s p.val = 1 → powerState s ≠ 2 → (port s p.val).testing = false →
        fget s F.lnkCtlMinlanes p.val 0 ≤ laneCount (usableLanes s p.val lanes.toNat) →
        ∃ u, exec (.detectBurst p lanes) s = .next u ∧ fget u F.lnkStatState p.val 0 = 2) ∧
      (portState s p.val = 2 →
        (∀ lanes : BitVec 8, fget s F.lnkCtlMinlanes p.val 0 ≤ laneCount (usableLanes s p.val lanes.toNat) →
          ∃ u, exec (.linkTraining p (some lanes)) s = .next u ∧ fget u F.lnkStatState p.val 0 = 3 ∧
            fget u F.lnkStatLanes p.val 0 = usableLanes s p.val lanes.toNat) ∧
        (∀ c ∈ [Instr.linkTraining p none, .linkStateTimeout p],
          ((port s p.val).fails < 2 → ∃ u, exec c s = .next u ∧ fget u F.lnkStatState p.val 0 = 1) ∧
          (2 ≤ (port s p.val).fails → failed 0x23 (exec c s)))) ∧
      (portState s p.val = 3 →
        (∀ i, identCode s p.val i = none → ∃ u, exec (.ident p (some i)) s = .next u ∧ fget u F.lnkStatState p.val 0 = 4 ∧
          fget u F.lnkPartnerDev p.val 0 = i.dev.toNat ∧ fget u F.lnkPartnerPort p.val 0 = i.port.toNat ∧
          fget u F.lnkPartnerValid p.val 0 = 1) ∧
        (∀ i code, identCode s p.val i = some code → failed code (exec (.ident p (some i)) s)) ∧
        failed 0x25 (exec (.ident p none) s) ∧ failed 0x25 (exec (.linkStateTimeout p) s)) ∧
      (portState s p.val = 4 →
        (∀ partner : Bytes, (∃ u, exec (.keyx p (some partner)) s = .next u ∧ fget u F.lnkStatState p.val 0 = 5 ∧
            (port u p.val).keys = some (linkKeys s p.val partner) ∧ (port u p.val).rxKeys = some (linkKeys s p.val partner) ∧
            (port u p.val).txCount = 0 ∧ (port u p.val).rxCount = 0) ∧
          failed 0x26 (exec (.keyx p none) s)) ∧
          failed 0x26 (exec (.linkStateTimeout p) s)) ∧
      (portState s p.val = 5 →
        (∀ ms : List Marker, ms.length = 64 → ∃ u, exec (.timecal p ms) s = .next u ∧ fget u F.lnkStatState p.val 0 = 6 ∧
          fget u F.lnkStatUpevt p.val 0 = 1 ∧ tget u.time.delay p.val 0 = linkDelay ms) ∧
        ∃ u, exec (.linkStateTimeout p) s = .next u ∧ fget u F.lnkStatState p.val 0 = 1)) ∧
  (∀ (s : State) (p : PortId), clockRuns s (portClock p.val) = true →
      (∀ lane : Fin 8, (portState s p.val = 6 ∨ portState s p.val = 7) →
        (fget s F.lnkStatLanes p.val 0).testBit lane.val = true → (port s p.val).bad.getLsbD lane.val = false →
        let left := maskOut (fget s F.lnkStatLanes p.val 0) (2 ^ lane.val)
        ∃ u, exec (.laneFault p lane) s = .next u ∧ fget u F.lnkStatLaneevt p.val 0 = 1 ∧
          (fget s F.lnkCtlMinlanes p.val 0 ≤ laneCount left → portState u p.val = 7 ∧ fget u F.lnkStatLanes p.val 0 = left ∧
            (port u p.val).bad = (port s p.val).bad ||| BitVec.ofNat 8 (2 ^ lane.val)) ∧
          (laneCount left < fget s F.lnkCtlMinlanes p.val 0 → portState u p.val = 8 ∧
            fget u F.lnkStatReason p.val 0 = 0x29)) ∧
      (∀ ms : List Marker, portState s p.val = 7 → ms.length = 64 →
        ((port s p.val).again = 0 → (flitsOut (port s p.val) = 0 ∨ (port s p.val).replays < 7) →
          ∃ u, exec (.relaneComplete p true ms) s = .next u ∧ portState u p.val = 6 ∧
            tget u.time.delay p.val 0 = linkDelay ms) ∧
        (∃ u, exec (.relaneComplete p false ms) s = .next u ∧ portState u p.val = 8 ∧
          fget u F.lnkStatReason p.val 0 = 0x29)) ∧
      (2 ≤ portState s p.val → portState s p.val ≤ 7 → ∃ u, exec (.lossOfSignal p) s = .next u ∧
        fget u F.lnkStatLoscnt p.val 0 = min (2 ^ 16 - 1) (fget s F.lnkStatLoscnt p.val 0 + 1) ∧
        fget u F.lnkStatDownevt p.val 0 = 1 ∧ fget u F.lnkStatReason p.val 0 = fget s F.lnkStatReason p.val 0 ∧
        (fbit s F.lnkCtlAuto p.val 0 = true → portState u p.val = 1) ∧
        (fbit s F.lnkCtlAuto p.val 0 = false → portState u p.val = 0 ∧ fget u F.lnkCtlEn p.val 0 = 0)))

/-- R335 to R338, R342 (Table 10.2): a port that carries traffic. Corrections are counted. A flit with a bad CRC or
out of order is discarded, with a `NAK` owed; the next flit in order is taken: the next one is expected and an
acknowledgement owed, its `ACKSEQ` and the credits it returns are taken over, what it acknowledges leaves the replay
buffer, and its payload goes to the packet stream; the partner's announcement of new keys switches the keys and the
counter of what comes in; a packet that fails its GCM check fails the port with `PT_AUTH`. A
`NAK` is counted and has the buffer sent again; the eighth replay of one `SEQ` fails the port with `PT_RETRY`, and so do
flits out that stay unacknowledged. A new exchange of keys on a port in UP is announced, and once the announcement has left
the packets that go out use the new keys from counter 0 on, while those that come in keep the old ones; in RELANE it waits. (The
clauses about one flit are about a flit without corrections; the first is about any.) -/
def Obligations.FlitsAreReceived : Prop :=
  ∀ (s : State) (p : PortId) (head : BitVec 64) (payload check partner : Bytes), clockRuns s (portClock p.val) = true →
    (portState s p.val = 6 ∨ portState s p.val = 7) →
    let f := flitDecode (leBytes 8 head.toNat ++ payload ++ check)
    let q := port s p.val
    let turn := f.ctrl && f.payload.head? == some (BitVec.ofNat 8 (msgSwitch + 1)) && q.agreed.isSome
    let w := { q with
      expect := q.expect + 1, ackOwed := true, ackseq := f.ackseq, buf := q.buf.drop (f.ackseq - q.ackseq).toNat,
      replays := if f.ackseq = q.ackseq then q.replays else 0,
      credits := tset q.credits f.crcls.toNat (tget q.credits f.crcls.toNat 0 - f.crcnt.toNat),
      rxKeys := if turn then q.agreed else q.rxKeys, rxCount := if turn then 0 else q.rxCount,
      stream := if f.ctrl then q.stream else q.stream ++ f.payload }
    let base := fcount (fcount s F.lnkFecCorr p.val 0 0) F.lnkFecUncorr p.val 0 f.uncorr
    let v := ctrlFreed (modPort { base with dailies := { base.dailies with
      fec := tset base.dailies.fec p.val (tget base.dailies.fec p.val 0) } } p.val fun _ => w) p.val f
    (∃ u, exec (.flitReceive p head payload check) s = .next u ∧
      fget u F.lnkFecCorr p.val 0 = min (2 ^ 32 - 1) (fget s F.lnkFecCorr p.val 0 + f.fixed.length) ∧
      fget u F.lnkFecUncorr p.val 0 = min (2 ^ 32 - 1) (fget s F.lnkFecUncorr p.val 0 + f.uncorr)) ∧
    (f.fixed = [] → (f.crcOk = false ∨ f.seq ≠ q.expect) → ∃ u, exec (.flitReceive p head payload check) s = .next u ∧
      port u p.val = { q with nakOwed := true } ∧ portState u p.val = portState s p.val) ∧
    (f.ctrl = false → port v p.val = w) ∧ (∃ n, port v p.val = { w with owed := n }) ∧
    (f.fixed = [] → f.crcOk = true → f.seq = q.expect →
      (∀ x, rxPackets (w.stream.length / 8 + 1) v p.val = some x → f.nak = false →
        exec (.flitReceive p head payload check) s = .next (drainPort x p.val)) ∧
      (f.nak = false → w.stream = [] → q.queue = [] → q.msgs = [] →
        ∃ u, exec (.flitReceive p head payload check) s = .next u ∧ port u p.val = port v p.val) ∧
      (rxPackets (w.stream.length / 8 + 1) v p.val = none → ∃ u, exec (.flitReceive p head payload check) s = .next u ∧
        portState u p.val = 8 ∧ fget u F.lnkStatReason p.val 0 = 0x27) ∧
      (f.nak = true → w.stream = [] → ∃ u, exec (.flitReceive p head payload check) s = .next u ∧
        fget u F.lnkRetryNaks p.val 0 = min (2 ^ 32 - 1) (fget s F.lnkRetryNaks p.val 0 + 1) ∧
        (flitsOut w ≠ 0 → 7 ≤ w.replays → portState u p.val = 8 ∧ fget u F.lnkStatReason p.val 0 = 0x28) ∧
        (flitsOut w ≠ 0 → w.replays < 7 → q.queue = [] → q.msgs = [] → (port u p.val).replays = w.replays + 1))) ∧
    (flitsOut q ≠ 0 → ∃ u, exec (.retryTimeout p) s = .next u ∧ portState u p.val = 8 ∧
      fget u F.lnkStatReason p.val 0 = 0x28) ∧
    (portState s p.val = 6 → q.queue = [] → ∃ u, exec (.rekey p (some partner)) s = .next u ∧
      (port u p.val).rxKeys = q.rxKeys ∧ (port u p.val).rxCount = q.rxCount ∧ portState u p.val = 6 ∧
      (port u p.val).agreed = some (linkKeys (beginKeyx s p.val) p.val partner) ∧
      ((port u p.val).msgs = [] → (port u p.val).txCount = 0 ∧
        (port u p.val).keys = some (linkKeys (beginKeyx s p.val) p.val partner))) ∧
    (portState s p.val = 6 → ∃ u, exec (.rekey p none) s = .next u ∧ portState u p.val = 8 ∧
      fget u F.lnkStatReason p.val 0 = 0x26) ∧
    (portState s p.val = 7 → exec (.rekey p (some partner)) s = .next s)

/-- R336, R337: a flit is read as it was sent, whatever its payload, with no symbol corrected. The check bytes of a
codeword are those for which its eight syndromes are 0. -/
def Obligations.FlitsReadAsSent : Prop :=
  ∀ raw : Bytes, raw.length = 256 → rsSyndromes gfFlit (flitWord raw 0) = List.replicate 8 0 →
    rsSyndromes gfFlit (flitWord raw 1) = List.replicate 8 0 →
    let f := flitDecode raw
    let h := leNat (raw.take 8)
    f.fixed = [] ∧ f.uncorr = 0 ∧ f.seq.toNat = bitsOf h 0 12 ∧ f.ackseq.toNat = bitsOf h 12 12 ∧
      f.nak = decide (bitsOf h 24 1 = 1) ∧ f.ctrl = decide (bitsOf h 25 1 = 1) ∧ f.crcls.toNat = bitsOf h 26 4 ∧
      f.crcnt.toNat = bitsOf h 30 11 ∧ f.crcOk = decide (crc64 (raw.take 232) = leNat ((raw.drop 232).take 8))

/-! ### Packets -/

/-- R349, R356 to R358: a request packet on a port in UP. One for this device is served and answered: `WRITE` and
`ATOMIC` done or refused, `READ_REQ` with its data, a TOKEN done, refused or not yet; one for another device goes on
with one hop less, or is dropped; an expired packet is dropped and counted. One that meets a fenced core or a pending
line waits; the credits of one that leaves the port's buffer are owed to the partner (R353). Rows: `WRITE`, `READ_REQ`, `TOKEN_PACKET`,
`ATOMIC`. -/
def Obligations.RequestPacketsAreServed : Prop :=
  ∀ (s t : State) (p : PortId) (pk : Packet), clockRuns s (portClock p.val) = true → pk.data.length ≤ 4096 →
    (∀ (c : Instr) (ty : Nat),
      (c, ty) ∈ [(Instr.writePkt p pk, 1), (.readReq p pk, 2), (.tokenPacket p pk, 5), (.atomic p pk, 6)] → pk.type = ty →
      (inbound s p.val pk = (t, true) → exec c s = .next (serve t p.val pk)) ∧
      (inbound s p.val pk = (t, false) → exec c s = .next t)) ∧
    (pktStalled t pk = true →
      serve t p.val pk = { t with fab := { t.fab with stalled := t.fab.stalled ++ [(p.val, pk)] } }) ∧
    (pktStalled t pk = false →
      let v := freed t p.val pk
      (pk.type = 1 → aliasSpace0 v pk = false → serve t p.val pk =
        match takeWrite v pk with
        | some u => answer u pk 4 0 [] []
        | none => answer v pk 4 1 [] []) ∧
      (pk.type = 2 → aliasSpace0 v pk = false → 0 < pk.ext → pk.ext ≤ 4096 → serve t p.val pk =
        match globalRead v (pktAsker pk) pk.addr pk.ext with
        | some r => answer v pk 3 0 r.1 r.2
        | none => answer v pk 3 1 [] []) ∧
      (pk.type = 6 → aliasSpace0 v pk = false → serve t p.val pk =
        match takeAtomic v pk with
        | some u => answer u pk 4 0 [] []
        | none => answer v pk 4 1 [] []) ∧
      (∀ u, pk.type = 5 → (takeToken v pk = (u, .taken) → serve t p.val pk = answer u pk 4 0 [] []) ∧
        (takeToken v pk = (u, .notYet) → serve t p.val pk = answer u pk 4 2 [] []) ∧
        (takeToken v pk = (u, .refused) → serve t p.val pk = answer u pk 4 1 [] []))) ∧
    (portState s p.val = 6 → pairUp s p.val = false →
      let u := freed s p.val pk
      (tooOld s pk = true → inbound s p.val pk = (fcount u F.fabDropLife 0 0 1, false)) ∧
      (tooOld s pk = false → aliasOf s pk.dst ≠ ownDev s →
        (pk.hops ≤ 1 → inbound s p.val pk = (fcount u F.fabDropNoroute 0 0 1, false)) ∧
        (∀ v, 1 < pk.hops → sendFrom s (some p.val) { pk with hops := pk.hops - 1 } = some v →
          inbound s p.val pk = (v, false)) ∧
        (1 < pk.hops → sendFrom s (some p.val) { pk with hops := pk.hops - 1 } = none →
          inbound s p.val pk = (fcount u F.fabDropNoroute 0 0 1, false)))) ∧
    (let pool := portPool s p.val pk
     freed s p.val pk = modPort s p.val fun q => { q with owed := tset q.owed pool (tget q.owed pool 0 + pktFlits pk) })

/-- R351, R352, R356: answers. One that belongs to no outstanding request is ignored; a `READ_RESP` gives its data to
the transfer that asked; an `ACK` of status 0 ends its request, of status 2 makes a TOKEN or COLL wait to be sent
again, and of status 1 ends it as refused. R351, R352: requests without an answer. One silent for `LIFETIME` is sent
again with a new `BIRTH`, an ATOMIC never; one silent until `RTO`, an ATOMIC until `LIFETIME`, ends with `MV_REMOTE`
or `FAILED_LINK`; one answered not yet is sent again, and ends with `FAILED_TIMEOUT` once that has gone on for
`COLLTO`. -/
def Obligations.RequestsEnd : Prop :=
  (∀ (s v : State) (p : PortId) (pk : Packet), clockRuns s (portClock p.val) = true → inbound s p.val pk = (v, true) →
      let t := freed v p.val pk
      (pk.type = 3 → answerFor t p.val pk [2] = none → exec (.readResp p pk) s = .next t) ∧
      (∀ q, pk.type = 3 → answerFor t p.val pk [2] = some q → (pk.status = 0 → pk.data.length = q.pkt.ext) →
        exec (.readResp p pk) s = .next (readDone (dropReq (reportAnswer t q) q.id) q pk)) ∧
      (pk.type = 4 → answerFor t p.val pk [1, 5, 6, 7] = none → exec (.ack p pk) s = .next t) ∧
      (∀ q, pk.type = 4 → answerFor t p.val pk [1, 5, 6, 7] = some q →
        (∀ ch k, pk.status = 0 → q.chan = some (ch, k) →
          exec (.ack p pk) s = .next (landBurst (dropReq (reportAnswer t q) q.id) ch k)) ∧
        (pk.status = 0 → q.chan = none → q.snap = none → exec (.ack p pk) s = .next (dropReq (reportAnswer t q) q.id)) ∧
        (∀ n, pk.status = 0 → q.chan = none → q.snap = some n → ∀ r, q.ctx = some r →
          exec (.ack p pk) s = .next (settleDisable (dropReq (reportAnswer t q) q.id) r.val)) ∧
        (pk.status = 2 → q.pkt.type = 5 ∨ q.pkt.type = 7 → exec (.ack p pk) s = .next (modReq t q.id fun x =>
          { x with held := true, first := t.tcount, notYet := some (x.notYet.getD t.tcount) })) ∧
        (pk.status = 1 → exec (.ack p pk) s = .next (endRequest t q 0x16 stLink 3)))) ∧
  (∀ (s : State) (id : Nat) (q : Req), reqOf s id = some q →
      let life := 1000 * fget s F.fabTimersLifetime 0 0
      (q.held = false → q.pkt.type ≠ 6 → heldBack s id = false →
        life ≤ (s.tcount % 2 ^ 32 + 2 ^ 32 - q.pkt.birth) % 2 ^ 32 →
        ∀ t, sendPkt s { q.pkt with birth := s.tcount % 2 ^ 32 } = some t →
          exec (.requestResend id) s =
            .next (modReq t q.id fun x => { x with pkt := { q.pkt with birth := s.tcount % 2 ^ 32 }, held := false })) ∧
      (q.pkt.type = 6 → exec (.requestResend id) s = .next s) ∧
      (q.held = false → heldBack s id = false →
        q.first + (if q.pkt.type = 6 then life else 10000 * fget s F.fabTimersRto 0 0) ≤ s.tcount →
        exec (.requestRto id) s = .next (endRequest s q 0x1B stLink 4)) ∧
      (q.held = true → ∀ t, sendPkt s { q.pkt with birth := s.tcount % 2 ^ 32 } = some t →
        exec (.notYetRetry id) s =
          .next (modReq t q.id fun x => { x with pkt := { q.pkt with birth := s.tcount % 2 ^ 32 }, held := false })) ∧
      (∀ since, q.notYet = some since → since + 1000000 * fget s F.fabTimersCollto 0 0 ≤ s.tcount →
        exec (.notYetTimeout id) s = .next (endRequest s q 0x1B stTimeout 4)))

/-- R354, R359, R371: fabric registers. A write of `FAB_RTDATA` stores the entry that `ENTRY` names, which then
advances; a class floor is taken where the floors sum to at most 1,856 and refused with `PT_CREDIT` otherwise; a
window that is enabled begins at a total of 0. -/
def Obligations.FabricRegisterWrites : Prop :=
  ∀ (s : State) (w : RegWrite), writeOpen s false = true →
    (w.half = .both → ∃ t, exec (.routeEntryWrite w) s = .next t ∧
      tget t.fab.routes (fget s F.fabRtidxEntry 0 0) 0 =
        BitVec.ofNat 64 (wval w F.fabRtdataPorts + wval w F.fabRtdataValid * 2 ^ 63) ∧
      (∀ e, e ≠ fget s F.fabRtidxEntry 0 0 → tget t.fab.routes e 0 = tget s.fab.routes e 0) ∧
      fget t F.fabRtidxEntry 0 0 = (fget s F.fabRtidxEntry 0 0 + 1) % 2 ^ 12) ∧
    (∀ c : Fin 8, covered w.half F.fabCrfloorFloor = true →
      let v := wval w F.fabCrfloorFloor
      let sum := ((List.range 8).map fun k => if k = c.val then v else fget s F.fabCrfloorFloor 0 k).sum
      (sum ≤ 1856 → exec (.creditFloorWrite c w) s = .next (fset s F.fabCrfloorFloor 0 c.val v)) ∧
      (1856 < sum → ∃ t, exec (.creditFloorWrite c w) s = .next t ∧ fget t F.fabStatReason 0 0 = 0x2A ∧
        fget t F.fabCrfloorFloor 0 c.val = fget s F.fabCrfloorFloor 0 c.val)) ∧
    (∀ k : Fin 32, wbit w F.fabRqcfgEn = true → fbit s F.fabRqcfgEn 0 k.val = false →
      ∃ t, exec (.rqWindowEnable k w) s = .next t ∧ fget t F.fabRqcfgEn 0 k.val = 1 ∧ fget t F.fabRqcfgTotal 0 k.val = 0 ∧
        ∀ u, (tfind t.fab.rqUnits (k.val * 2 ^ 32 + u)).isSome = true → 2 ^ 32 ≤ u)

/-! ### Collectives, snapshots, reels -/

/-- R364: every segment of a collective belongs to exactly one share of the group. R88, R95, R365: the sum that a rank
sends on is exact, has the class and the poison of either input, and the tag of rank 0's input once rank 0 has added;
inputs that differ in tag or domain give the NaN class. -/
def Obligations.CollectiveSharesAndSums : Prop :=
  (∀ (d : Bytes) (seg q : Nat), 0 < cG d → seg < cS d → q < cG d →
      (shareOf d seg = q ↔ q * cS d / cG d ≤ seg ∧ seg < (q + 1) * cS d / cG d)) ∧
  (∀ (rank : Nat) (a b : Addend),
      let c := xpAdd rank a b
      dyVal c.v = dyVal a.v + dyVal b.v ∧ c.poison = (a.poison || b.poison) ∧ (rank = 0 → c.tag = b.tag) ∧
        (rank ≠ 0 → c.tag = a.tag) ∧ (a.tag ≠ b.tag ∨ a.int ≠ b.int → c.cls = 3) ∧
        (a.tag = b.tag → a.int = b.int → xpOver c.v = false → c.cls = a.cls ||| b.cls))

/-- R360, R361, R366 to R368: collectives. One starts where the token total has reached the next entry, fewer than 16
run in the engine and nothing has failed. A COLL packet for an identifier that has not started is answered not yet;
one that brings a part of a segment is taken in and acknowledged: the bytes of a gather or a broadcast stand in the
destination, the exact partials of a reduce are added to this rank's own and, once the segment is whole, go on to the
next rank; one that repeats a part is acknowledged and changes nothing, one that differs from the descriptor fails the
collective; the oldest collective that is done is reported; one without progress for `COLLTO` fails. -/
def Obligations.CollectivesRun : Prop :=
  ∀ (s b : State) (e : EdgeId) (r : CtxId), clockRuns s (edgeClock e.val) = true →
    let q := tget (ctx s r.val).colls e.val collInit
    (q.dead = none → q.head < q.start.toNat → engineLoad s e.val < 16 → (ctx s r.val).slot.isSome = true →
      s.faulted = false → exec (.collectiveStart e r) s = .next (startColl s e r.val q)) ∧
    (q.start.toNat ≤ q.head → exec (.collectiveStart e r) s = .next s) ∧
    (∀ x rest, q.running = x :: rest → collDone x = true →
      let f := if e.val = 0 then F.ctxCollstatDone0 else F.ctxCollstatDone1
      ∃ u, exec (.collectiveComplete e r) s = .next u ∧
        cget u r.val f 0 = (cget s r.val f 0 + 1) % 2 ^ f.w ∧
        tget (ctx u r.val).colls e.val collInit =
          { q with running := rest, past := q.past ++ [(cCid x.desc, x.parts)] } ∧
        ∃ m, u.tokens = s.tokens ++ [m] ∧ m.ctx = r ∧ m.vx = bitsOf (cNotify x.desc) 0 6 ∧
          m.vy = bitsOf (cNotify x.desc) 6 5 ∧ m.ch = bitsOf (cNotify x.desc) 11 3 ∧
          m.val = BitVec.ofNat 32 (x.idx + 1)) ∧
    (∀ x, q.running.find? (fun x => !collDone x && decide (x.since + 1000000 * fget s F.fabTimersCollto 0 0 ≤ s.tcount)) =
        some x → exec (.collectiveTimeout e r) s = .next (collFail s e.val r.val x.idx stTimeout)) ∧
    (∀ (p : PortId) (pk : Packet), clockRuns s (portClock p.val) = true → pk.type = 7 → pk.data.length ≤ 4096 →
      inbound s p.val pk = (b, true) →
      let t := freed b p.val pk
      (collFor t pk = none → collPast t pk = false → exec (.coll p pk) s = .next (answer t pk 4 2 [] [])) ∧
      (∀ c k x, collFor t pk = some (c, k, x) →
        (pkOp pk ≠ cOp x.desc ∨ pk.reqid ≠ cS x.desc + (cG x.desc - 1) * 2 ^ 16 →
          exec (.coll p pk) s = .next (answer (collFail t k c x.idx stLink) pk 4 1 [] [])) ∧
        (pkOp pk = cOp x.desc → pk.reqid = cS x.desc + (cG x.desc - 1) * 2 ^ 16 → partOk x pk = true →
          x.parts.contains (pkSeg pk, pkPass pk, pk.ext) = true → exec (.coll p pk) s = .next (answer t pk 4 0 [] [])) ∧
        (pkOp pk = cOp x.desc → pk.reqid = cS x.desc + (cG x.desc - 1) * 2 ^ 16 → partOk x pk = true →
          x.parts.contains (pkSeg pk, pkPass pk, pk.ext) = false →
          (cXp x.desc = false →
            let va := cDst x.desc + pkSeg pk * cSegn x.desc + 64 * pk.ext
            lineShips t c va pk.data.length = false →
            (∀ pg ∈ pagesOf va pk.data.length, ∃ g, tfind (ctx t c).vs.pages pg = some g ∧ pageAllows t c g true = .ok) →
            memWf (ctx t c).vs.mem = true →
            ∃ v, exec (.coll p pk) s = .next (answer v pk 4 0 [] []) ∧ vsRead (ctx v c).vs va pk.data.length = pk.data) ∧
          (cXp x.desc = true → pkPass pk = 0 → ∀ u own,
            ownXps t c x.desc (pkSeg pk) (.coll (Fin.ofNat 2 k) x.idx) = (u, .ok, own) →
            let sums := (pkXps pk).zipIdx.map fun a =>
              addendXp (xpAdd (cRank x.desc) a.1 (own.getD (pk.ext + a.2) a.1))
            let y := { x with
              data := sums.zipIdx.foldl (fun m a => tset m (partKey 0 (pkSeg pk) (pk.ext + a.2)) a.1) x.data,
              parts := x.parts ++ [(pkSeg pk, 0, pk.ext)], since := t.tcount }
            (wholeSeg y 0 (pkSeg pk) = none →
              exec (.coll p pk) s = .next (answer (putRun u (k % 2) c y) pk 4 0 [] [])) ∧
            (∀ xs, wholeSeg y 0 (pkSeg pk) = some xs → shareOf x.desc (pkSeg pk) ≠ cRank x.desc → cOp x.desc = 1 →
              exec (.coll p pk) s = .next (answer (sendXps (putRun (putRun u (k % 2) c y) (k % 2) c y) (Fin.ofNat 2 k) c y 0
                (pkSeg pk) xs) pk 4 0 [] []))))))

/-- R462 to R464, R466, R467 (Table 13.5): snapshots. `GO` arms a snapshot whose range lies in the address space and is
mapped and whose destination table can be read and names targets of other devices, and ends any other with `FAIL` and
its result, marking no page; at the first instant without a step in progress it starts: every page of the range is
`PRINTING` and leaves for its target, or the snapshot fails with 0x4 where no route leads there; a page whose writes
have been acknowledged is so no more and counts in `SENT`, and the last one sets `DONE`. -/
def Obligations.SnapshotsShip : Prop :=
  ∀ (s : State) (sl : SlotId) (w : RegWrite) (r : Nat),
    (writeOpen s false = true → wbit w F.ctxPrintctlGo = true → fbit s F.ctxPrintctlGo sl.val 0 = false →
      slotCtx s sl.val = some r → (ctx s r).slot = some sl →
      let va := cget s r F.ctxPrintvaVa 0
      let n := cget s r F.ctxPrintcntPages 0
      let tbl := cget s r F.ctxPrinttblVa 0
      let range := (List.range n).map (pageOf va + ·)
      let entry (i : Nat) : Nat := leNat (vsRead (ctx s r).vs (tbl + 8 * i) 8)
      let refused (code : Nat) : Prop := ∃ v, exec (.goSnapshot sl w) s = .next v ∧ cget v r F.ctxPrintstatFail 0 = 1 ∧
        cget v r F.ctxPrintstatResult 0 = code ∧ (ctx v r).snap = (ctx s r).snap
      (n = 0 ∨ 2 ^ 48 < va + n * 2 ^ 21 ∨ 2 ^ 48 < tbl + 8 * n → refused 1) ∧
      (n ≠ 0 → va + n * 2 ^ 21 ≤ 2 ^ 48 → tbl + 8 * n ≤ 2 ^ 48 → reelHole s r tbl (8 * n) = false →
        (∀ pg ∈ pagesOf tbl (8 * n), ∃ g, tfind (ctx s r).vs.pages pg = some g ∧ pageAllows s r g false = .ok) →
        ((∃ i, i < n ∧ destOk s (entry i) = false) → refused 1) ∧
        ((∀ i, i < n → destOk s (entry i) = true) → (∃ pg ∈ range, tfind (ctx s r).vs.pages pg = none) → refused 2) ∧
        ((∀ i, i < n → destOk s (entry i) = true) → (∀ pg ∈ range, (tfind (ctx s r).vs.pages pg).isSome = true) →
          ∃ v, exec (.goSnapshot sl w) s = .next v ∧
            (ctx v r).snap = some ⟨false, range, (List.range n).map entry, [], 0⟩ ∧ cget v r F.ctxPrintctlGo 0 = 1 ∧
            cget v r F.ctxPrintstatState 0 = 1 ∧ cget v r F.ctxPrintstatSent 0 = 0 ∧ (ctx v r).vs.mem = (ctx s r).vs.mem))) ∧
    (∀ (c : CtxId) p, clockRuns s (edgeClock 0) = true → (ctx s c.val).snap = some p → p.started = false → (ctx s c.val).step = none →
      (ctx s c.val).floats.any (·.launched) = false →
      ((∀ d ∈ p.dests, routePorts s (gDev d) ≠ []) →
        ∃ t, exec (.snapshotStart c) s = .next t ∧ cget t c.val F.ctxPrintstatState 0 = 2 ∧
          (∃ root, (ctx t c.val).snap = some { p with started := true, digest := root }) ∧
          ∀ pg ∈ p.pages, ∀ e, tfind (ctx s c.val).vs.pages pg = some e →
            tfind (ctx t c.val).vs.pages pg = some { e with printing := true }) ∧
      (∀ pg d rest, p.pages.zip p.dests = (pg, d) :: rest → routePorts s (gDev d) = [] →
        passiveFor s c.val = false →
        ∃ t, exec (.snapshotStart c) s = .next t ∧ (ctx t c.val).snap = none ∧ cget t c.val F.ctxPrintstatFail 0 = 1 ∧
          cget t c.val F.ctxPrintstatResult 0 = 4 ∧ cget t c.val F.ctxPrintctlGo 0 = 0)) ∧
    (∀ (c : CtxId) p pg e, clockRuns s (edgeClock 0) = true → (ctx s c.val).snap = some p → p.started = true →
      p.pages.find? (fun pg => !p.sent.contains pg && !pageFlies s c pg) = some pg →
      tfind (ctx s c.val).vs.pages pg = some e →
      (∀ k, (ctx s c.val).slot = some k → fbit s F.ctxPgcmdGo k.val 0 = false) →
      ∃ t, exec (.snapshotPageSent c) s = .next t ∧
        tfind (ctx t c.val).vs.pages pg = some { e with printing := false } ∧
        cget t c.val F.ctxPrintstatSent 0 = min (2 ^ 32 - 1) (cget s c.val F.ctxPrintstatSent 0 + 1) ∧
        (p.sent.length + 1 ≠ p.pages.length → (ctx t c.val).snap = some { p with sent := p.sent ++ [pg] }) ∧
        (p.sent.length + 1 = p.pages.length → (ctx t c.val).snap = none ∧
          cget t c.val F.ctxPrintstatDone 0 = 1 ∧ cget t c.val F.ctxPrintctlGo 0 = 0))

/-- R476, R479, R484, R490 (Table 14.5): `GO` starts a load whose manifest passes its check and ends any other with
`FAIL` and the result of Table 14.5; a load while `STATE` is not IDLE is refused with 0x3; `ABORT` ends a load with
0x7, frees its staging pages and makes `STATE` IDLE; `COMMIT` is taken as written. -/
def Obligations.ReelLoadsStart : Prop :=
  ∀ (s : State) (sl : SlotId) (w : RegWrite) (r : Nat) (m : Option Bytes), writeOpen s false = true →
    slotCtx s sl.val = some r → (ctx s r).slot = some sl →
    let t := writeFields s w [F.ctxReelctlCommit, F.ctxReelctlIrq] sl.val 0
    (wbit w F.ctxReelctlGo = true → wbit w F.ctxReelctlAbort = false →
      (fget s F.ctxReelstatState sl.val 0 ≠ 0 → exec (.reelLoad sl w m) s = .next (reelRefuse t r 3)) ∧
      (fget s F.ctxReelstatState sl.val 0 = 0 →
        (∀ code, reelCheck t r m = .error code → exec (.reelLoad sl w m) s = .next (reelRefuse t r code)) ∧
        (∀ l, reelCheck t r m = .ok l → l.shards ≠ [] → ∃ u, exec (.reelLoad sl w m) s = .next u ∧
          fget u F.ctxReelgenStggen sl.val 0 = l.gen.toNat ∧ fget u F.ctxReelstatState sl.val 0 = 1 ∧
          (ctx u r).reel = some l))) ∧
    (wbit w F.ctxReelctlAbort = true → wbit w F.ctxReelctlGo = false → ∀ l, (ctx s r).reel = some l →
      streaming t r = false → waitsForReel t r = false →
      ∃ u, exec (.abort sl w) s = .next u ∧ (ctx u r).reel = none ∧ fget u F.ctxReelstatState sl.val 0 = 0 ∧
        fget u F.ctxReelstatFail sl.val 0 = 1 ∧ fget u F.ctxReelstatResult sl.val 0 = 7 ∧
        (switched t r l = false →
          ∀ h ∈ l.shards, ∀ pg ∈ shardPages h, tfind (ctx u r).vs.pages (pg + stagePages s r) = none)) ∧
    (wbit w F.ctxReelctlAbort = false → wbit w F.ctxReelctlGo = false → exec (.commit sl w) s = .next t ∧
      (covered w.half F.ctxReelctlCommit = true →
        fget t F.ctxReelctlCommit sl.val 0 = wval w F.ctxReelctlCommit))

/-- R475, R478, R481: chunks. A chunk whose turn has come and whose tag holds is taken in: its plaintext stands
in the staging range, its leaf is recorded, and it goes on as it came. One that fails, or is missing `CHUNKTO` ms after it was
expected, counts a failure and is requested from upstream, then from the alternate root; the third failure fails the reel. One
before its turn stays with its sender. A chunk that this device holds, of its load or of the reel it serves, is given to the
device that asks. A repeated chunk is discarded. R475 (derived): a chunk sealed for
a load opens as the plaintext it was sealed from, where the key is loaded. -/
def Obligations.ReelChunksAreTaken : Prop :=
  (∀ (s : State) (r : CtxId) (shard i : Nat) (data : Bytes) (l : ReelLoad) (h : Shard),
      loadShard (ctx s r.val).reel shard = some (l, h) → clockRuns s (edgeClock (chunkTile s r.val l h i)) = true →
      (chunkThere l shard i = true → exec (.reelChunk r shard i data) s = .next s ∧
        exec (.chunkTimeout r shard i) s = .next s ∧
        (∀ (dev : BitVec 12) k, tfind s.keys.transport h.keyid = some k →
          exec (.chunkRequest r shard i dev) s = .next (sendChunk s dev.toNat l.gen.toNat h.id i
            (gcmSeal (digestBytes k) (chunkIv h i) (chunkAad l h)
              (vsRead (ctx s r.val).vs (chunkVa s r.val l h i) (min 65536 (h.bytes - 65536 * i))))))) ∧
      (chunkDue s r.val l h i = false → exec (.reelChunk r shard i data) s = .next s ∧
        exec (.chunkTimeout r shard i) s = .next s) ∧
      (i < shardChunks h → chunkThere l shard i = false → chunkDue s r.val l h i = true →
        (∀ pt, openChunk s l h i data = some pt → exec (.reelChunk r shard i data) s = .next (takeChunk s r.val l h i pt data)) ∧
        (openChunk s l h i data = none → exec (.reelChunk r shard i data) s = .next (chunkFail 1 r.val h s i)) ∧
        (chunkSince s r.val l h i + 1000000 * cget s r.val F.ctxReelcfgChunkto 0 ≤ s.tcount →
          exec (.chunkTimeout r shard i) s = .next (chunkFail 2 r.val h s i)))) ∧
  (∀ (s : State) (r : CtxId) (shard i : Nat) (dev : BitVec 12) (l : ReelLoad) (h : Shard) (k : BitVec 256),
      loadShard (ctx s r.val).reel shard = none → loadShard (ctx s r.val).served shard = some (l, h) →
      chunkThere l shard i = true → tfind s.keys.transport h.keyid = some k →
      let va := h.va + 65536 * i
      clockRuns s (edgeClock (pageOf va % 2)) = true →
      exec (.chunkRequest r shard i dev) s = .next (sendChunk s dev.toNat l.gen.toNat h.id i
        (gcmSeal (digestBytes k) (chunkIv h i) (chunkAad l h)
          (vsRead (ctx s r.val).vs va (min 65536 (h.bytes - 65536 * i)))))) ∧
  (∀ (s : State) (l : ReelLoad) (h : Shard) (i : Nat) (k : BitVec 256) (pt : Bytes),
      tfind s.keys.transport h.keyid = some k → pt.length = min 65536 (h.bytes - 65536 * i) →
      openChunk s l h i (gcmSeal (digestBytes k) (chunkIv h i) (chunkAad l h) pt) = some pt)

/-- R485, R486: the switch. Where a launch waits for it, no floating step runs and no page of the ranges is on the
move, the shards' pages are exchanged with their staging pages, `ACTGEN` takes the generation, and `STGGEN`, `COMMIT`
and, unless the load streams, `STATE` become 0. Where it is not due nothing happens. R488: a weight-stream line is
bound to a layer, with the units of that layer that the load has by then as its total, unless another context holds it;
a write with `EN` 0 ends the binding. -/
def Obligations.ReelSwitchesAndStreams : Prop :=
  (∀ (s : State) (r : CtxId) (l : ReelLoad), clockRuns s (edgeClock 0) = true → (ctx s r.val).reel = some l →
      (switchReady s r.val l = false → exec (.reelSwitch r) s = .next s) ∧
      (waitsForReel s r.val = true → (ctx s r.val).step = none → (ctx s r.val).floats.any (·.launched) = false →
        (cget s r.val F.ctxReelstatState 0 = 2 ∨
          (cget s r.val F.ctxReelstatState 0 = 1 ∧ cget s r.val F.ctxReelcfgStream 0 = 1)) →
        let off := stagePages s r.val
        let pgs := (l.shards.map shardPages).flatten
        (∀ pg ∈ pgs ++ pgs.map (· + off), ∀ g, tfind (ctx s r.val).vs.pages pg = some g → g.move = none) →
        ∃ t, exec (.reelSwitch r) s = .next t ∧
        (pgs.Nodup → (∀ pg ∈ pgs, pg + off ∉ pgs) → ∀ pg ∈ pgs,
          tfind (ctx t r.val).vs.pages pg = tfind (ctx s r.val).vs.pages (pg + off) ∧
          tfind (ctx t r.val).vs.pages (pg + off) = none) ∧
        cget t r.val F.ctxReelgenActgen 0 = l.gen.toNat ∧ cget t r.val F.ctxReelgenStggen 0 = 0 ∧
        cget t r.val F.ctxReelctlCommit 0 = 0 ∧ (ctx t r.val).actDigest = l.digest ∧
        (cget s r.val F.ctxReelstatState 0 = 2 → cget t r.val F.ctxReelstatState 0 = 0 ∧ (ctx t r.val).reel = none) ∧
        (cget s r.val F.ctxReelstatState 0 = 1 → cget t r.val F.ctxReelstatState 0 = 1))) ∧
  (∀ (s : State) (sl : SlotId) (k : Fin 4) (w : RegWrite), writeOpen s false = true →
      (wbit w F.ctxReelstrmEn = false →
        exec (.reelStreamBind sl k w) s = .next (writeFields s w [F.ctxReelstrmLayer, F.ctxReelstrmEn] sl.val k.val)) ∧
      (wbit w F.ctxReelstrmEn = true → lineHeld s sl.val k.val = true → exec (.reelStreamBind sl k w) s = .next s) ∧
      (wbit w F.ctxReelstrmEn = true → lineHeld s sl.val k.val = false → ∃ t, exec (.reelStreamBind sl k w) s = .next t ∧
        fget t F.ctxReelstrmEn sl.val k.val = 1 ∧
        (covered w.half F.ctxReelstrmLayer = true →
          fget t F.ctxReelstrmLayer sl.val k.val = wval w F.ctxReelstrmLayer) ∧
        ((∀ r, slotCtx s sl.val = some r → (ctx s r).reel = none) → tget t.fab.lineTot k.val 1 = 0) ∧
        (∀ r l, slotCtx s sl.val = some r → (ctx s r).slot = some sl → (ctx s r).reel = some l →
          tget t.fab.lineTot k.val 1 = BitVec.ofNat 32 (streamUnits l
            (l.shards.filter fun h => h.layer == fget t F.ctxReelstrmLayer sl.val k.val)))))

/-! ### Faults, retakes, checks and tests -/

/-- R492 to R495, R502 to R504: core faults. A core that faults, or sends no beat while it runs a context, is fenced
and empty, is recorded as retired in service, and gets its fault record; a fenced core faults no more. A device fault
sets `DEVFAULT` of `REL_STAT` and `MG_ALERT` and its interrupt, and a device that has failed fails no more. A retake
takes the virtual core from its mirror to the first candidate, with the counts its senders recover (R201), as a retake
where its part runs. -/
def Obligations.CoreFaultsAndRetakes : Prop :=
  ∀ (s : State) (n : CoreId) (r : CtxId),
    ((core s n.val).fenced = true → exec (.coreFault n) s = .next s) ∧
    ((core s n.val).fenced = false →
      let t := fence s n.val
      let homes := ((core s n.val).vmap.map (·.1)).filter (fun k => (heldPart s n.val k).isSome)
      (core t n.val).fenced = true ∧ (core t n.val).use = 2 ∧ (core t n.val).running = none ∧ (core t n.val).takes = [] ∧
        (core t n.val).flight = [] ∧ (∀ m, m ≠ n.val → core t m = core s m) ∧
      exec (.coreFault n) s = .next (coreFault s n.val) ∧
      (homes.all (retakable s n.val) = true → (core s n.val).frames.all (fun e => decide (e.1 < 8)) = true →
        coreFault s n.val = faultRecord (addRepair (loseMirrors t n.val) 4 2 n.val 0 0) (1, n.val) 1
          (if !homes.isEmpty then 1 else if !(stepsOn s n.val).isEmpty then 2 else 3) (stepsOn s n.val))) ∧
    (clockRuns s (coreClock n.val) = true → ((core s n.val).vmap ≠ [] ∨ (core s n.val).running.isSome = true) →
      exec (.beatTimeout n) s = .next (coreFault s n.val)) ∧
    ((core s n.val).vmap = [] → (core s n.val).running = none → exec (.beatTimeout n) s = .next s) ∧
    (s.faulted = false → ∃ t, exec .deviceFault s = .next t ∧ t.faulted = true ∧ fget t F.relStatDevfault 0 0 = 1 ∧
      fget t F.mgAlertDevfault 0 0 = 1 ∧ fget t F.glbIrqstatDevfault 0 0 = 1) ∧
    (s.faulted = true → exec .deviceFault s = .next s) ∧
    (∀ sl img p q ic mir im m, clockRuns s (coreClock n.val) = true → (ctx s r.val).slot = some sl → (ctx s r.val).img = some img →
      (ctx s r.val).map.find? (fun p => p.1 == n) = some p → heldPart s n.val sl.val = some (q, ic) →
      tfind (core s n.val).mirrors sl.val = some mir → mir.image = some im → (core s n.val).fenced = true →
      cget s r.val F.ctxRelstatLost 0 = 0 →
      (heirOrder n.val).find? (fun m => heir s sl.val ic m && idleFor s (cget s r.val F.ctxCtlPrio 0) m) = some m →
      let e := mirrorShelf m ic (core s n.val) sl.val im mir
      let u := modFrame (turnBuddy (rehome s r.val sl.val n.val m img e) r.val m ic mir.buddy) m sl.val fun f =>
        { f with takecyc := 0, occ := 0, fresh := true }
      let u := recoverCounts u r.val sl.val m p.2.1 p.2.2
      (partRuns s r.val n.val = true →
        exec (.retake n r) s = .next (serveStalled (addTake (noteRetake u r.val p.2.1 p.2.2 im) m sl.val))) ∧
      (partRuns s r.val n.val = false → exec (.retake n r) s = .next (serveStalled (replaceHome u m sl.val r.val))))

/-- R400, R499, R506 to R509 (Table 15.5): commits and checks. A commit that has arrived takes the place of the one
before. A check take is counted; one whose digest and contributions agree with the original's frees its slot, one that
differs is counted as a mismatch and waits for its arbiter. Where the arbiter agrees with the original, the checking
core is suspect and the step is unaffected; else the step meets `FAILED_DIGEST`, and the original core is suspect, or
both are. The check runs on the first core in placement order that may be claimed, but for the original's, and the arbiter on
the first but for both (R428). (Log entry 41: the digests of takes are the commands' operands.) -/
def Obligations.ChecksOfTakes : Prop :=
  (∀ (s : State) (n : CoreId) (r : CtxId) (orig : Digest) (check arb : TakeRun), clockRuns s (coreClock n.val) = true →
    (∀ sl m i, (ctx s r.val).slot = some sl → tfind (core s n.val).mirrors sl.val = some m →
      m.coming = some i → ∃ t b, exec (.mirrorCommit n r) s = .next t ∧
        tfind (core t n.val).mirrors sl.val = some ⟨some b, some i, none⟩ ∧
        t = { s with cores := t.cores } ∧ ∀ m, m ≠ n.val → core t m = core s m) ∧
    (∀ k, (ctx s r.val).checks.find? (fun k => k.closed && k.differ.isNone &&
        checkCore s r.val n.val [k.core] (checkImage s r.val k)) = some k →
      ∃ t, exec (.checkTake n r orig check) s = .next t ∧ t.dailies.checks = s.dailies.checks + 1 ∧
        (sameRun ⟨orig, k.made⟩ check = true → t.dailies.misses = s.dailies.misses ∧
          (ctx t r.val).checks.length + 1 = (ctx s r.val).checks.length) ∧
        (sameRun ⟨orig, k.made⟩ check = false → t.dailies.misses = s.dailies.misses + 1 ∧
          { k with differ := some (n, ⟨orig, k.made⟩, check), since := s.tcount } ∈ (ctx t r.val).checks)) ∧
    (∀ k m o c, (ctx s r.val).checks.find? (fun k =>
        k.differ.any fun d => checkCore s r.val n.val [k.core, d.1] (checkImage s r.val k)) = some k → k.differ = some (m, o, c) →
      let u := dropCheck s r.val (fun k => k.differ.any fun d => checkCore s r.val n.val [k.core, d.1] (checkImage s r.val k))
      let f := failStep u r.val k.step stDigest
      (sameRun arb o = true → exec (.arbiter n r arb) s = .next (autoTest (suspect r.val k.step u m))) ∧
      (sameRun arb o = false → sameRun arb c = true →
        exec (.arbiter n r arb) s = .next (autoTest (suspect r.val k.step f k.core))) ∧
      (sameRun arb o = false → sameRun arb c = false →
        exec (.arbiter n r arb) s = .next (autoTest (suspect r.val k.step (suspect r.val k.step f k.core) m))))) ∧
  (∀ a b : TakeRun, (a.digest ≠ b.digest → sameRun a b = false) ∧ sameRun a a = true ∧
    (∀ p d e, a.contribs = [(p, d)] → b.contribs = [(p, e)] → d ≠ e → sameRun a b = false))

/-- R520 to R522 (Tables 15.9 and 15.14): tests. While one runs another is busy; an idle core without virtual cores is
under test at once, and a core that passes is a spare; a port that a partner tests goes to DETECT. The wrap test is
refused while a context is enabled or a bulk channel runs, and ends with `STATE` done and the count of failing blocks.
R523, R525, R526: records. A repair record is 16 bytes, the last four of them the CRC of the others, and is appended
to a store that is not full; a full store sets `RSFULL`. A dailies record has a length that is a multiple of 64 and
advances `HEAD` by it where it does not straddle the ring's end and fits; one that does not fit is dropped and
counted. A health record takes the next number and starts the counts again. -/
def Obligations.TestsAndRecords : Prop :=
  (∀ (s : State) (w : RegWrite) (p : PortId),
      (writeOpen s false = true →
        let u := writeFields (clearBits s w [F.relOtestDone] 0 0) w [F.relOtestKind, F.relOtestIndex, F.relOtestLane] 0 0
        let n := fget u F.relOtestIndex 0 0
        wbit w F.relOtestGo = true →
        (s.test.online.isSome = true → ∃ t, exec (.onlineTest w) s = .next t ∧ fget t F.relOtestResult 0 0 = 3 ∧
          t.test = s.test) ∧
        (s.test.online = none → fget u F.relOtestKind 0 0 = 0 → (1344 ≤ n ∨ 2 ≤ (core s n).use.toNat ∨ (core s n).fenced) →
          ∃ t, exec (.onlineTest w) s = .next t ∧ fget t F.relOtestResult 0 0 = 4 ∧ fget t F.relOtestDone 0 0 = 1 ∧
            fget t F.relOtestGo 0 0 = 0) ∧
        (s.test.online = none → fget u F.relOtestKind 0 0 = 0 → n < 1344 → (core s n).use.toNat < 2 →
          (core s n).fenced = false → (core s n).vmap = [] → (core s n).running = none → runsFloat (core s n) = false →
          ∃ t, exec (.onlineTest w) s = .next t ∧ (core t n).use = 3 ∧ fget t F.relOtestGo 0 0 = 1 ∧
            ∃ l, t.test.online = some (0, n, l))) ∧
      (∀ n l, s.test.online = some (0, n, l) → s.test.queue = [] → (core s n).use = 3 →
        ∃ t, exec (.onlineTestComplete []) s = .next t ∧ (core t n).use = 1 ∧ fget t F.relOtestResult 0 0 = 0 ∧
          fget t F.relOtestDone 0 0 = 1 ∧ fget t F.relOtestGo 0 0 = 0 ∧ t.test.online = none) ∧
      (∀ kind q l fails, s.test.online = some (kind + 1, q, l) → exec (.onlineTestComplete fails) s =
        .next (autoTest (portTestDone s (kind + 1) q l fails))) ∧
      (clockRuns s (portClock p.val) = true → portState s p.val = 6 →
        exec (.partnerTestRequest p) s = .next (toDetect s p.val)) ∧
      (writeOpen s false = true → wbit w F.relWrapGo = true → fget s F.relWrapState 0 0 = 0 →
        ((noneEnabled s = false ∨ s.bulk ≠ []) → exec (.wrapTest w) s = .next (fset s F.relWrapState 0 0 3)) ∧
        (noneEnabled s = true → s.bulk = [] → ∃ t, exec (.wrapTest w) s = .next t ∧ fget t F.relWrapState 0 0 = 1 ∧
          fget t F.relWrapGo 0 0 = 1 ∧ fget t F.relWrapFails 0 0 = 0 ∧ t = { s with regs := t.regs })) ∧
      (∀ fails, fget s F.relWrapState 0 0 = 1 → ∃ t, exec (.wrapTestComplete fails) s = .next t ∧
        fget t F.relWrapState 0 0 = 2 ∧ fget t F.relWrapGo 0 0 = 0 ∧
        fget t F.relWrapFails 0 0 = min 255 ((fails.map failBlock).eraseDups).length)) ∧
  (∀ (s : State) (kind source unit sub place : Nat) (item : Bytes),
      (4096 ≤ s.nv.records.length → addRepair s kind source unit sub place = fset s F.relStatRsfull 0 0 1) ∧
      (s.nv.records.length < 4096 → ∃ b : RepairRec,
        (addRepair s kind source unit sub place).nv = { s.nv with records := s.nv.records ++ [b] } ∧
        b.length = 16 ∧ recordOk b = true ∧ recKind b = kind % 256 ∧ recUnit b = unit % 65536 ∧ recSub b = sub % 256 ∧
        recPlace b = place % 65536) ∧
      (dailyRecord item).length % 64 = 0 ∧ item.length + 4 ≤ (dailyRecord item).length ∧
      (let size := 2 ^ fget s F.relDlcfgSizelog2 0 0
       let h := fget s F.relDlheadCount 0 0
       let rec_ := dailyRecord item
       let free := size - (h + 2 ^ 64 - fget s F.relDltailCount 0 0) % 2 ^ 64
       (free < rec_.length → dailyRing s rec_ = fcount s F.relStatDldrop 0 0 1) ∧
       (rec_.length ≤ free → rec_.length ≤ size - h % size → hostUp s = true →
        let t := dailyRing s rec_
        t.hostMem = mwrite s.hostMem (fget s F.relDlbaseAddr 0 0 + h % size) rec_ ∧
          fget t F.relDlheadCount 0 0 = (h + rec_.length) % 2 ^ 64)) ∧
      (fget s F.relDlcfgPeriod 0 0 ≠ 0 → fbit s F.relDlcfgEn 0 0 = true → ∃ t, exec .healthRecord s = .next t ∧
        t.dailies = ⟨s.dailies.seq + 1, [], [], 0, 0, 0, 0, 0⟩) ∧
      (fget s F.relDlcfgPeriod 0 0 = 0 ∨ fbit s F.relDlcfgEn 0 0 = false → exec .healthRecord s = .next s))

/-! ### The stand-in pair -/

/-- R510, R512, R518, R528, R611 (Table 15.6): the pairing. An enable with a port to the partner is PAIRING until the
partner's pairing is known, and is refused with `PR_BUSY`, `PR_NO_PORT` or `PR_PARTNER` otherwise; it ends PAIRED with
the lower device number active, or refused with its code. Where a twin served alone it goes on serving (of two, that with the
lower number, R513) until every twin context is resynced, and then is the active one. A disable ends the pairing. A handover makes the renewed
twin RENEWING. `PROMOTE` turns a stand-in into a context of its own. -/
def Obligations.PairingBeginsAndEnds : Prop :=
  ∀ (s : State) (w : RegWrite) (sl : SlotId),
    (writeOpen s false = true → covered w.half F.pairCtlEn = true →
      (wbit w F.pairCtlHandover = false → wbit w F.pairCtlEn = true → fbit s F.pairCtlEn 0 0 = false →
        let port := (List.range 48).any fun p => pairUp s p && fget s F.lnkPartnerDev p 0 == partner s
        (pairState s ≠ 0 → pairState s ≠ 3 →
          exec (.pairEnable w) s = .next (pairRefuse (pairEnd s) 0x32)) ∧
        ((pairState s = 0 ∨ pairState s = 3) →
          (port = false → exec (.pairEnable w) s = .next (pairRefuse s 0x30)) ∧
          (port = true → partner s = ownDev s → exec (.pairEnable w) s = .next (pairRefuse s 0x31)) ∧
          (port = true → partner s ≠ ownDev s → ∃ t, exec (.pairEnable w) s = .next t ∧ pairState t = 1 ∧
            t.pair.solo = (pairState s == 3)))) ∧
      (wbit w F.pairCtlHandover = false → wbit w F.pairCtlEn = false → pairState s ≠ 0 →
        exec (.pairDisable w) s = .next (pairEnd s)) ∧
      (wbit w F.pairCtlHandover = true → pairState s = 2 → ∃ t, exec (.handover w) s = .next t ∧ pairState t = 4 ∧
        fget t F.pairStatActive 0 0 = 0)) ∧
    (pairState s = 1 →
      exec (.pairingComplete none) s = .next (pairRefuse s 0x31) ∧
      (∀ x c, pairCode s x = some c → exec (.pairingComplete (some x)) s = .next (pairRefuse s c)) ∧
      (∀ x, pairCode s x = none → s.pair.solo = false → x.solo = false →
        ∃ t, exec (.pairingComplete (some x)) s = .next t ∧ pairState t = 2 ∧ fget t F.pairCtlEn 0 0 = 1 ∧
          (fget t F.pairStatActive 0 0 = 1 ↔ ownDev s < partner s) ∧
          t = { s with regs := t.regs, pair := { s.pair with renewed := false } }) ∧
      (∀ x, pairCode s x = none → (s.pair.solo || x.solo) = true →
        let serves := s.pair.solo && (!x.solo || decide (ownDev s < partner s))
        ∃ t, exec (.pairingComplete (some x)) s = .next t ∧ fget t F.pairCtlEn 0 0 = 1 ∧
          fget t F.pairStatActive 0 0 = bitNat serves ∧
          pairState t = if (twinCtxs s).all (resynced s) then 2 else if serves then 3 else 5)) ∧
    (∀ c, c < 256 → pairState (pairRefuse s c) = 0 ∧ fget (pairRefuse s c) F.pairCtlEn 0 0 = 0 ∧
      fget (pairRefuse s c) F.pairStatReason 0 0 = c ∧ fget (pairRefuse s c) F.glbRefuseCode 0 0 = c) ∧
    (writeOpen s false = true → wbit w F.ctxRelctlPromote = true → (slotCtx s sl.val).isSome = true →
      fget s F.ctxRelcfgPair sl.val 0 = 2 → exec (.promote sl w) s = .next (fset s F.ctxRelcfgPair sl.val 0 0))

/-- R511, R514 to R516: what twins and mirrors exchange. An acknowledged commit lets the oldest step of a mirror
primary go on; a commit that has come is applied by its stand-in, which holds its step identifier. Slates that agree
let the step go on, slates that differ count a mismatch and fail it. A heartbeat goes out on every PAIR port in UP of
a pairing; an answered packet is held no more. R516 to R518 (Tables 15.7 and 15.8): takeover and renewal. A partner
that is lost is counted; the survivor serves alone, and a passive one announces itself for every alias of the pair. A
twin that the partner's announcement on a PAIR port names serves alone; an active twin, paired or serving alone, that
hears of its partner as active (R517) ends the work of its twin contexts. A renewed twin takes the pages that come, the one that serves ships its
own. -/
def Obligations.TwinsExchangeAndTakeOver : Prop :=
  (∀ (s : State) (r : CtxId) (st : Step),
      (waitsPair s r.val = some st →
        (∀ got, clockRuns s (edgeClock 0) = true → cget s r.val F.ctxRelcfgPair 0 = 1 → exec (.mirrorStepCommit r true got) s =
          .next (modCtx s r.val fun x =>
            { x with ended := x.ended.map (fun e => if e.id = st.id then { e with pairWait := false } else e)
                     vs := { x.vs with shipping := x.vs.shipping.filter (fun l => l.1 != st.id.toNat) } })) ∧
        (∀ slate, twinCtx s r.val = true →
          let u := modCtx s r.val fun x =>
            { x with ended := x.ended.map fun e => if e.id = st.id then { e with pairWait := false } else e }
          (slate = st.slate → exec (.twinSlateExchange r slate) s = .next u) ∧
          (slate ≠ st.slate → ∃ t, exec (.twinSlateExchange r slate) s = .next t ∧
            fget t F.pairStatSlatemiss 0 0 = min (2 ^ 16 - 1) (fget s F.pairStatSlatemiss 0 0 + 1) ∧
            t.dailies.slates = s.dailies.slates + 1 ∧ t.ctxs = (failEnded u r.val st.id stDigest).ctxs))) ∧
      (∀ (c : Commit) acked, clockRuns s (edgeClock 0) = true → cget s r.val F.ctxRelcfgPair 0 = 2 → registered (ctx s r.val) = true →
        ∃ t, exec (.mirrorStepCommit r acked (some c)) s = .next t ∧
          cget t r.val F.ctxRelmirStepId 0 = c.step.toNat ∧
          (ctx t r.val).vs = (ctx (c.lines.foldl (fun u l => putText u r.val l.1 l.2.1 l.2.2) s) r.val).vs) ∧
      (pairState s ≠ 0 → exec .heartbeat s = .next (onPorts s pairUp msgHeartbeat [])) ∧
      (pairState s = 0 → exec .heartbeat s = .next s) ∧
      (∀ id, exec (.answeredReport id) s =
        .next { s with pair := { s.pair with held := s.pair.held.filter (fun h => pktName h.2 != id) } })) ∧
  (∀ (s : State) (p : PortId) (m : AliasMsg) (r : CtxId) (got : List PageCopy) (resign : Bool),
      (pairState s = 2 →
        let u := fcount (fset s F.pairStatLostevt 0 0 1) F.pairStatLosses 0 0 1
        let v := { u with dailies := { u.dailies with losses := u.dailies.losses + 1 } }
        let steps := (openSteps s).filter (fun q => twinCtx s q.1)
        (passiveTwin s = true → exec (.partnerLost resign) s = .next (glbIrq
          (faultRecord (serveAlone (announce v (ownDev v) fabricUp)) (6, 0) 9 4 steps) F.glbIrqstatPair)) ∧
        (passiveTwin s = false → exec (.partnerLost resign) s = .next (glbIrq
          (faultRecord (serveAlone v) (6, 0) 9 0 steps) F.glbIrqstatPair))) ∧
      (pairState s ≠ 2 → pairState s ≠ 5 → exec (.partnerLost resign) s = .next s) ∧
      (clockRuns s (portClock p.val) = true →
        let u := (List.range 16).foldl (takeAlias p.val m) s
        let mine := (pairAliases s).any fun k =>
          fget s F.pairAliasAlias 0 k == m.aliasDev.toNat && decide (fget s F.pairAliasEpoch 0 k < m.epoch.toNat)
        (pairUp s p.val = true → m.active.toNat = ownDev s → pairState s = 2 → activeTwin s = true →
          exec (.takeoverAnnounce p m) s = .next (serveAlone u)) ∧
        (pairUp s p.val = true → m.active.toNat = ownDev s → pairState s = 2 → activeTwin s = false →
          exec (.takeoverAnnounce p m) s = .next (glbIrq (serveAlone u) F.glbIrqstatPair)) ∧
        (m.active.toNat ≠ ownDev s → mine = true → fbit s F.pairStatActive 0 0 = true → (pairState s = 2 ∨ pairState s = 3) →
          m.active.toNat = partner s →
          ∃ t, exec (.takeoverAnnounce p m) s = .next t ∧ pairState t = 3 ∧ fget t F.pairStatActive 0 0 = 0) ∧
        (m.active.toNat ≠ ownDev s → mine = false → exec (.takeoverAnnounce p m) s = .next u)) ∧
      (clockRuns s (edgeClock 0) = true → twinCtx s r.val = true → (ctx s r.val).step = none → s.pair.synced.contains r = false →
        (pairState s = 5 → exec (.resync r got) s = .next (synced (got.foldl (takeCopy r.val) s) r 0)) ∧
        (pairState s = 3 → s.pair.solo = true → exec (.resync r got) s = .next (synced
          (((ctx s r.val).vs.pages.map (·.1)).foldl (fun t pg => onPorts t pairUp msgResync (copyNats s r.val pg)) s) r 1))))

/-! ### Supplies, resets, power -/

/-- R16, R524, R531, R569, R608, R617, R618, R622 (Tables 17.8, 20.3 and 20.6): supplies. With `VAUX` present and `PWR_EN`
low a cold start ends in ACTIVE: every register field but `PWR_STAT.STATE` and the states of ports has its cold value, the
timecode is 0, there is no context, token, request or key, the start is counted, a core is out of use where the repair store
retires it or its spares run out and as at reset otherwise, and a port that the store retires is RETIRED. With `VAUX` absent,
or `PWR_EN` high, none begins. A rail group that fails as the rails come up, or an undervoltage while `PWR_EN` is high and they
are up, ends in OFF with `SEQFAIL` in `PWR_STAT` and `MG_ALERT`; so the rails are off, with no context, no key, and what the
repair store, the fuses and the host hold as before. `PWR_EN` that falls ends in OFF likewise, at debug level D0. The loss of
`VAUX` leaves every register at its cold value, no context, no key and debug level D0. `VAUX` that comes samples the straps. A
lost `TC_REF` while the rails are up is a device fault. The output pins that the model has are in the states of Table 20.3. -/
def Obligations.SupplyEvents : Prop :=
  ∀ s : State,
    (s.pins.vaux = true → s.pins.pwrEn = false → ∃ t, exec .coldStart s = .next t ∧ powerState t = 0 ∧ t.tcount = 0 ∧
      (∀ (f : Fld) (i j : Nat), f.key i j ≠ F.pwrStatState.key 0 0 → (∀ p, f.key i j ≠ F.lnkStatState.key p 0) →
        fget t f i j = f.cold) ∧
      t.ctxs = [] ∧ t.tokens = [] ∧ t.fab.reqs = [] ∧
      t.keys.page = [] ∧ t.keys.transport = [] ∧ t.keys.ephemeral = none ∧ t.pins.pwrEn = true ∧ t.hostMem = s.hostMem ∧
      t.nv = { s.nv with starts := t.nv.starts } ∧ (s.nv.starts < 2 ^ 32 - 1 → t.nv.starts = s.nv.starts + 1) ∧
      (∀ n, n < 1344 → (core t n).use = if coreRetired s n || sparesOut s n then 2 else (core State.reset n).use) ∧
      (∀ p, p < 48 → portState t p = if portRetired s p then 9 else F.lnkStatState.cold)) ∧
    ((s.pins.vaux = false ∨ s.pins.pwrEn = true) → exec .coldStart s = .next s) ∧
    (let off (o : Host.Outcome State Fault Refusal) (failed : Bool) : Prop := ∃ t, o = .next t ∧ powerState t = 3 ∧
        (failed = true → fget t F.pwrStatSeqfail 0 0 = 1 ∧ fget t F.mgAlertSeqfail 0 0 = 1) ∧ (failed = false → t.sec.dbg = 0) ∧
        t.power.railsUp = false ∧ t.pins.pwrOk = false ∧ t.pins.pwrEn = failed ∧ t.ctxs = [] ∧ t.tokens = [] ∧
        t.keys.page = [] ∧ t.keys.transport = [] ∧ t.keys.ephemeral = none ∧ t.nv = s.nv ∧ t.hostMem = s.hostMem
     (∀ g : BitVec 3, s.pins.vaux = true → s.power.railsUp = false → g.toNat ≤ 4 →
        off (exec (.railSequenceTimeout g) s) true) ∧
     (s.pins.pwrEn = true → s.power.railsUp = true → off (exec .vinUndervoltage s) true) ∧
     (s.pins.pwrEn = true → off (exec .powerDown s) false)) ∧
    (∃ t, exec .vauxLoss s = .next t ∧ t.pins.vaux = false ∧ (∀ (f : Fld) (i j : Nat), fget t f i j = f.cold) ∧ t.ctxs = [] ∧
      t.keys.page = [] ∧ t.keys.transport = [] ∧ t.keys.ephemeral = none ∧ t.sec.dbg = 0 ∧ t.nv = s.nv ∧
      t.hostMem = s.hostMem) ∧
    (∀ sl rcls, s.pins.vaux = false → exec (.vauxPresent sl rcls) s =
      .next { s with pins := { s.pins with vaux := true, slot := sl, rcls := rcls } }) ∧
    (s.power.railsUp = true →
      exec .tcRefLoss s = .next (deviceFault { s with pins := { s.pins with tcRef := false } })) ∧
    (∀ ch level,
      (s.pins.vaux = false → [pciePins s, linkPins s, pwrOkPin s, openDrain s level, i3cPins s, tdoPin s,
        ddrResetPin s ch, ddrPins s] = [.idle, .idle, .highZ, .released, .released, .highZ, .highZ, .highZ]) ∧
      (s.pins.vaux = true → openDrain s level = (if level then .released else .asserted) ∧ i3cPins s = .active ∧
        (powerState s = 3 → [pciePins s, linkPins s, pwrOkPin s, tdoPin s, ddrResetPin s ch, ddrPins s] =
          [.idle, .idle, .low, .highZ, .highZ, .highZ]) ∧
        (powerState s ≠ 3 → pwrOkPin s = .high ∧ tdoPin s = .active ∧
          (s.pcie.resetting = true → pciePins s = (if s.pins.perstN then .active else .idle) ∧ linkPins s = .idle ∧
            ddrResetPin s ch = .high ∧ ddrPins s = .selfRefresh) ∧
          (s.pcie.resetting = false → pciePins s = .active ∧
            (powerState s = 2 → linkPins s = .idle ∧ ddrPins s = .selfRefresh) ∧
            (powerState s ≠ 2 → linkPins s = .active ∧ ddrPins s = .active) ∧
            (fget s F.ddrStatState 0 ch = 0 → ddrResetPin s ch = .low) ∧
            (fget s F.ddrStatState 0 ch ≠ 0 → ddrResetPin s ch = .high)))))

/-- R43, R443, R568, R572, R578, R588 to R590 (Table 18.7): resets and the link. A warm reset leaves no token, no
request on its way, no key and no device fault, and the SMC wants firmware where the link is in L0; `RST` and a
Function Level Reset are warm resets. `PERST_N` resets and takes the link down; a link that trains into a supported
configuration is up. `EXTEST`, `CLAMP` and `HIGHZ` hold the device until Test-Logic-Reset. -/
def Obligations.ResetsAndTheLink : Prop :=
  ∀ (s : State) (w : RegWrite),
    (powerState s ≠ 3 → ∃ t, exec .warmReset s = .next t ∧ t.tokens = [] ∧ t.fab.reqs = [] ∧ t.time.launches = [] ∧
      t.keys.page = [] ∧ t.keys.transport = [] ∧ t.keys.ephemeral = none ∧ t.faulted = false ∧
      fget t F.hostStatReady 0 0 = 0 ∧ fget t F.secStatBoot 0 0 = 0 ∧
      (s.pcie.link = true → s.jtag.held = false → fget t F.hostStatFwwant 0 0 = 1 ∧ t.pcie.resetting = false)) ∧
    (powerState s = 3 → exec .warmReset s = .next s) ∧
    (writeOpen s false = true → wbit w F.glbCtlRst = true → exec (.rst w) s = exec .warmReset s) ∧
    (s.pcie.link = true → exec .functionLevelReset s = exec .warmReset s) ∧
    (s.pins.pwrEn = true → powerState s ≠ 3 → ∃ t, exec .perstN s = .next t ∧ t.pcie.link = false ∧
      t.pins.perstN = false ∧ t.tokens = [] ∧ t.keys.page = []) ∧
    (∃ t, exec .perstNDeassert s = .next t ∧ t.pins.perstN = true ∧
      (s.pins.pwrOk = true → s.pcie.link = false → t.pcie.training = true)) ∧
    (s.pcie.training = true → ∀ rate width ok,
      (ok = true → rate = 64 ∨ rate = 32 → width = 16 ∨ width = 8 → ∃ t, exec (.pcieLinkL0 rate width ok) s = .next t ∧
        t.pcie.link = true ∧ fget t F.hostStatRate 0 0 = rate / 32 ∧ fget t F.hostStatWidth 0 0 = width ∧
        (s.jtag.held = false → fget t F.hostStatFwwant 0 0 = 1)) ∧
      ((ok = false ∨ (rate ≠ 64 ∧ rate ≠ 32) ∨ (width ≠ 16 ∧ width ≠ 8)) →
        ∃ t, exec (.pcieLinkL0 rate width ok) s = .next t ∧ fget t F.hostStatUnsuplink 0 0 = 1)) ∧
    (s.pcie.link = true → exec .d3hot s = .next { s with pcie := { s.pcie with d3 := true } }) ∧
    exec .d3hotExit s = .next { s with pcie := { s.pcie with d3 := false } } ∧
    (∀ c ∈ [Instr.extest, .clamp, .highz], powerState s ≠ 3 → ∃ t, exec c s = .next t ∧ t.jtag.held = true ∧
      t.keys.page = [] ∧ t.keys.transport = [] ∧ t.tokens = []) ∧
    (s.jtag.held = true →
      exec .testLogicReset s = .next (wantFirmware { s with jtag := { s.jtag with held := false } }))

/-- R533 to R535, R538, R539, R541, R543 to R545, R569: power, convoys and heat. But in OFF, a period reports the estimates of
links and compute, their sum with memory and fixed power, and whether a class is throttled; a calibration reports the
measurement, starts the next millisecond, and leaves the gain between a half and two where there was an estimate. A cap of 600
to 2,400 W that is not below the floors is taken; another is refused, with `CAPREF` set and the old one kept. RETAIN, asked for
in ACTIVE or IDLE, waits for a mailbox command, is refused with `REQREF` to a device with a step in progress or accepted or an
activity of the IDLE row, and is entered by another; it is left for ACTIVE. A device with no such activity goes from ACTIVE to
IDLE. A tile's clock moves one step of 25 MHz toward its target (log entry 120, DESIGN CHOICE: from 0, to `FMIN`), and does not
move at it. A droop stretches the tile's clock and counts, until its end. Fill-light that has run too long is off for that
wait. In ACTIVE a slowdown of compute that has lasted 200 µs is announced on every FABRIC port in UP and counted, and again
every 100 µs. An announcement by another device is passed on on the other ports and kept, one heard again within 50 µs does
nothing, and one is dropped when it has not come again for 500 µs. A thermal step below 110 °C reports the temperatures;
`THERM_N` asserts at 105 °C, releases below 100 °C and stays between; 110 °C turns the rails off, with a device fault. -/
def Obligations.PowerConvoysAndHeat : Prop :=
  (∀ (s : State) (w : RegWrite) (t4 : TileId) (n : CoreId),
      (∀ counts, powerState s ≠ 3 → ∃ t, exec (.powerPeriod counts) s = .next t ∧
        fget t F.pwrEstLinks 0 0 = min 65535 (classPower s counts 0 / 10000000) ∧
        fget t F.pwrEstCompute 0 0 = min 65535 (classPower s counts 2 / 10000000) ∧
        fget t F.pwrEstTotal 0 0 = min 65535
          ((classPower s counts 0 + classPower s counts 1 + classPower s counts 2 + fixedPower s) / 10000000) ∧
        fget t F.pwrStatCapped 0 0 = bitNat (capped t)) ∧
      (∀ meas, powerState s ≠ 3 → ∃ t, exec (.powerCalibration meas) s = .next t ∧ t.power.ms = [] ∧
        fget t F.pwrMeasVin 0 0 = bitsOf meas 0 16 ∧ fget t F.pwrMeasIin 0 0 = bitsOf meas 16 16 ∧
        fget t F.pwrMeasWatts 0 0 = bitsOf meas 32 16 ∧
        (s.power.ms.sum ≠ 0 → 2048 ≤ fget t F.pwrEstGain 0 0 ∧ fget t F.pwrEstGain 0 0 ≤ 8192)) ∧
      (∀ src, (src = MbSrc.pcie → writeOpen s true = true) → (src = MbSrc.i3c → s.pins.vaux = true ∧ powerState s ≠ 3) →
        covered w.half F.pwrCapWatts = true →
        let v := wval w F.pwrCapWatts
        (600 ≤ v → v ≤ 2400 → floorSum s ≤ v → exec (.capWrite src w) s = .next (fset s F.pwrCapWatts 0 0 v)) ∧
        ((v < 600 ∨ 2400 < v ∨ v < floorSum s) → ∃ t, exec (.capWrite src w) s = .next t ∧
          fbit t F.pwrStatCapref 0 0 = true ∧ fget t F.pwrCapWatts 0 0 = fget s F.pwrCapWatts 0 0)) ∧
      (writeOpen s true = true → covered w.half F.pwrCtlReq = true →
        (wval w F.pwrCtlReq = 1 → powerState s ≤ 1 →
          (mbBusy s = true → exec (.retainRequest w) s = .next (fset s F.pwrCtlReq 0 0 1)) ∧
          (mbBusy s = false → (deviceBusy s = true ∨ s.ctxs.any (fun e => queued e.2 != 0) = true) →
            ∃ t, exec (.retainRequest w) s = .next t ∧ fbit t F.pwrStatReqref 0 0 = true ∧ powerState t = powerState s) ∧
          (mbBusy s = false → deviceBusy s = false → s.ctxs.any (fun e => queued e.2 != 0) = false →
            ∃ t, exec (.retainRequest w) s = .next t ∧ powerState t = 2)) ∧
        (wval w F.pwrCtlReq = 2 → powerState s = 2 → ∃ t, exec (.retainExit w) s = .next t ∧ powerState t = 0)) ∧
      (powerState s = 0 → deviceBusy s = false → exec .idleEntry s = .next (fset s F.pwrStatState 0 0 1)) ∧
      (powerState s < 2 →
        (tileFreq s t4.val < freqTarget s t4.val →
          exec (.frequencyStep t4) s = .next (fset s F.pwrTileFreq 0 t4.val (max (tileFreq s t4.val + 1) (fMin s)))) ∧
        (freqTarget s t4.val < tileFreq s t4.val →
          exec (.frequencyStep t4) s = .next (fset s F.pwrTileFreq 0 t4.val (tileFreq s t4.val - 1))) ∧
        (freqTarget s t4.val = tileFreq s t4.val → exec (.frequencyStep t4) s = .next s) ∧
        (tget s.power.stretch t4.val false = false → ∃ t, exec (.droop t4) s = .next t ∧
          tget t.power.stretch t4.val false = true ∧
          fget t F.pwrThrotDroops 0 0 = min (2 ^ 16 - 1) (fget s F.pwrThrotDroops 0 0 + 1))) ∧
      exec (.droopEnd t4) s = .next { s with power := { s.power with stretch := tdel s.power.stretch t4.val } } ∧
      (clockRuns s (coreClock n.val) = true → fillLevel s n.val ≠ 0 →
        exec (.fillLightTimeout n) s = .next (modCore s n.val fun c => { c with unlit := some (c.running, c.cycle) }))) ∧
  (∀ (s : State) (p : PortId) (m : Convoy) (dev : BitVec 12),
      (fbit s F.pwrConvoyAnnounce 0 0 = true → powerState s = 0 → ∀ since, s.power.capSince = some since →
        let u := onPorts s fabricUp msgConvoy (convoyNats (ownConvoy s false))
        let sent := fcount { u with power := { u.power with announced := some u.tcount } } F.pwrThrotAnnounces 0 0 1
        (s.power.announced = none →
          (since + 200000 ≤ s.tcount → exec .convoyAnnounce s = .next sent) ∧
          (s.tcount < since + 200000 → exec .convoyAnnounce s = .next s)) ∧
        (∀ last, s.power.announced = some last →
          (last + 100000 ≤ s.tcount → exec .convoyAnnounce s = .next sent) ∧
          (s.tcount < last + 100000 → exec .convoyAnnounce s = .next s))) ∧
      (clockRuns s (portClock p.val) = true → fabricUp s p.val = true → m.dev.toNat ≠ ownDev s →
        let rate := if m.release then 0 else m.rate
        (∀ g r last, tfind s.power.heard m.dev.toNat = some (g, r, last) → g = m.group → r = rate →
          s.tcount < last + 50000 → exec (.convoyReceive p m) s = .next s) ∧
        ((∀ g r last, tfind s.power.heard m.dev.toNat = some (g, r, last) → g ≠ m.group ∨ r ≠ rate ∨ last + 50000 ≤ s.tcount) →
          let u := onPorts s (fun s q => fabricUp s q && q != p.val) msgConvoy (convoyNats m)
          exec (.convoyReceive p m) s = .next (showConvoy
            { u with power := { u.power with heard := tset u.power.heard m.dev.toNat (m.group, rate, u.tcount) } }))) ∧
      (∀ g rate last, tfind s.power.heard dev.toNat = some (g, rate, last) →
        (s.tcount < last + 500000 → exec (.convoyExpire dev) s = .next s) ∧
        (last + 500000 ≤ s.tcount → exec (.convoyExpire dev) s =
          .next (showConvoy { s with power := { s.power with heard := tdel s.power.heard dev.toNat } }))) ∧
      (∀ temps : List Nat, temps.length = 6 → (∀ x ∈ temps, x < 128) → powerState s ≠ 3 →
        ((∀ x ∈ temps, x < 110) → ∃ t, exec (.thermalStep temps) s = .next t ∧
          (∀ k, k < 4 → fget t F.pwrTileTemp 0 k = temps.getD (k + 1) 0) ∧
          fget t F.mgTempTemp 0 0 = leNat (temps.map (BitVec.ofNat 8)) ∧
          ((∃ x ∈ temps, 105 ≤ x) → t.pins.thermN = false) ∧ ((∀ x ∈ temps, x < 100) → t.pins.thermN = true) ∧
          ((∀ x ∈ temps, x < 105) → (∃ x ∈ temps, 100 ≤ x) → t.pins.thermN = s.pins.thermN)) ∧
        ((∃ x ∈ temps, 110 ≤ x) → ∃ t, exec (.thermalStep temps) s = .next t ∧ powerState t = 3 ∧ t.power.railsUp = false ∧
          t.pins.thermN = false ∧ (s.faulted = false → fget t F.mgAlertDevfault 0 0 = 1))))

/-! ### Security -/

/-- R550 to R552, R578: boot. A fetch asked for while the SMC wants it reads `GO` as 1; an image that passes the
checks runs, and raises the minimum where it commits; one that fails, or none within 1 s, is rejected with its code.
-/
def Obligations.BootChecks : Prop :=
  ∀ (s : State) (w : RegWrite) (img : FwImage),
    (writeOpen s false = true → wbit w F.hostFwctlGo = true → fbit s F.hostStatFwwant 0 0 = true →
      ∃ t, exec (.firmwareFetch w) s = .next t ∧ fget t F.hostFwctlGo 0 0 = 1 ∧
        (covered w.half F.hostFwctlBytes = true → fget t F.hostFwctlBytes 0 0 = wval w F.hostFwctlBytes) ∧
        t = { s with regs := t.regs }) ∧
    (fbit s F.hostFwctlGo 0 0 = true → fbit s F.hostStatFwwant 0 0 = true →
      (∀ c, bootCode s img = some c → ∃ t, exec (.bootCheck img) s = .next t ∧ fget t F.secStatBoot 0 0 = 3 ∧
        fget t F.secStatBooterr 0 0 = c ∧ fget t F.mgAlertBootrej 0 0 = 1 ∧ t.sec = s.sec ∧ t.nv = s.nv) ∧
      (bootCode s img = none → ∃ t, exec (.bootCheck img) s = .next t ∧ fget t F.secStatBoot 0 0 = 2 ∧
        fget t F.hostFwctlGo 0 0 = 0 ∧ fget t F.hostStatFwwant 0 0 = 0 ∧ t.sec.running = some img.header ∧
        arbStored s ≤ arbStored t ∧ t.nv.arbF = s.nv.arbF ∧
        (xf img.header 13 1 = 1 → arbStored t = max (arbStored s) (xf img.header 4 4)) ∧
        (xf img.header 13 1 = 0 → t.nv = s.nv))) ∧
    (fget s F.secStatBoot 0 0 = 0 → fbit s F.hostStatFwwant 0 0 = true → ∃ t, exec .firmwareFetchTimeout s = .next t ∧
      fget t F.secStatBoot 0 0 = 3 ∧ fget t F.secStatBooterr 0 0 = 7) ∧
    (∀ c, bootCode s img = some c → c ∈ [1, 2, 3, 4, 5, 6])

/-- R555, R557, R559, R561 to R566 (Tables 17.3 to 17.7): mailbox commands. A command whose request is well formed and
allowed ends with result 0 and its response; one that is not allowed ends with 0x03. Rows: `GET_CERTS`, `QUOTE`,
`KEY_OPEN`, `KEY_LOAD`, `KEY_CLEAR`, `DBG_CHAL`, `TOKEN`, `DBG_DROP`, `ARB_FUSE`. -/
def Obligations.MailboxCommands : Prop :=
  ∀ (s : State) (src : MbSrc) (req : Bytes), mbReady s src = true →
    exec (.getCerts src []) s = .next (mbDone s src 0 Config.certs) ∧
    (req.length = 32 → exec (.quote src req) s = .next (mbDone (drawFree s).2 src 0 (quoteOf s req []))) ∧
    (keysShut s = false → req.length = 32 → exec (.keyOpen src req) s = .next (mbDone
      { (drawFree s).2 with keys := { s.keys with ephemeral := some (s.freeCtr,
        sha3 (quoteBody s req (sha3 (ephemeralPub s.freeCtr)))) } } src 0
      (quoteOf s req (sha3 (ephemeralPub s.freeCtr)) ++ ephemeralPub s.freeCtr))) ∧
    (keysShut s = true → exec (.keyOpen src req) s = .next (mbDone s src 3 [])) ∧
    (∀ kr : KeyRecord,
      (keysShut s = true → exec (.keyLoad src kr) s = .next (mbDone s src 3 [])) ∧
      (∀ tgt, keysShut s = false → keyTarget kr.head = some tgt → kr.pub.length = 32 → kr.kem.length = 1088 →
        kr.sealed.length = tgt.size + 16 →
        (s.keys.ephemeral = none → exec (.keyLoad src kr) s = .next (mbDone s src 4 [])) ∧
        ∀ e, s.keys.ephemeral = some e →
          (unwrap e kr = none → exec (.keyLoad src kr) s = .next (mbDone s src 2 [])) ∧
          ∀ key, gcmOpen (wrapKey e kr) (List.replicate 12 0) kr.head kr.sealed = some key →
            (∀ k, tgt = .page k → exec (.keyLoad src kr) s =
              .next (mbDone (putPageKey s k (BitVec.ofNat 512 (leNat key))) src 0 [])) ∧
            (∀ id, tgt = .transport id →
              ((tfind s.keys.transport id).isSome = true ∨ s.keys.transport.length < 64 →
                exec (.keyLoad src kr) s = .next (mbDone { s with keys := { s.keys with
                  transport := tset s.keys.transport id (BitVec.ofNat 256 (leNat key)) } } src 0 [])) ∧
              (tfind s.keys.transport id = none → 64 ≤ s.keys.transport.length →
                exec (.keyLoad src kr) s = .next (mbDone s src 6 []))))) ∧
    (powerState s ≠ 3 →
      (∀ k, keyTarget req = some (.page k) → exec (.keyClear src req) s = .next (mbDone (dropPageKeys s (· == k)) src 0 [])) ∧
      (∀ id, keyTarget req = some (.transport id) → exec (.keyClear src req) s =
        .next (mbDone { s with keys := { s.keys with transport := tdel s.keys.transport id } } src 0 [])) ∧
      exec (.dbgChal src []) s = .next (mbDone { (drawFree s).2 with keys :=
        { s.keys with nonce := some (BitVec.ofNat 256 (drawFree s).1) } } src 0
        (leBytes 32 (BitVec.ofNat 256 (drawFree s).1).toNat)) ∧
      (req.length = 1 → xf req 0 1 < s.sec.dbg.toNat → exec (.dbgDrop src req) s =
        .next (mbDone (lowerDebug s (xf req 0 1)) src 0 [])) ∧
      (lifeNow s = 1 → exec (.arbFuse src []) s =
        .next (mbDone { s with nv := { s.nv with arbF := max s.nv.arbF (runSvn s / 2 ^ 26) } } src 0 []))) ∧
    (∀ tk : TokenMsg,
      (tokenCode s tk = none → exec (.token src tk) s = .next (mbDone (tokenApply s tk.body) src 0 [])) ∧
      (∀ c, tokenCode s tk = some c → c ≠ 5 → exec (.token src tk) s = .next (mbDone s src c [])) ∧
      (tokenCode s tk = some 5 → exec (.token src tk) s =
        .next (mbDone { s with keys := { s.keys with nonce := none } } src 5 []))) ∧
    (powerState s = 3 → exec (.keyClear src req) s = .next (mbDone s src 3 []) ∧
      exec (.dbgChal src req) s = .next (mbDone s src 3 []) ∧ exec (.dbgDrop src req) s = .next (mbDone s src 3 []) ∧
      exec (.arbFuse src req) s = .next (mbDone s src 3 []))

/-- R559, R564, R566: debug access and keys. A grant of D2 empties every key and raises `DBGMAX`; the ephemeral pair
expires; at D2 a core is halted and a halted core's stores are written, and a scan stops its domains; below D2 none of
these does anything. -/
def Obligations.DebugAccess : Prop :=
  ∀ (s : State) (n : CoreId) (domains : List ScanDomain) (data : Bytes),
    (s.sec.dbg.toNat < 2 → let t := grantDebug s 2
      t.keys.page = [] ∧ t.keys.transport = [] ∧ t.keys.ephemeral = none ∧ t.sec.dbg = 2 ∧
        fget t F.secStatDbgmax 0 0 = 2) ∧
    exec .ephemeralKeyExpire s = .next { s with keys := { s.keys with ephemeral := none } } ∧
    (invasive s = false → ∀ tgt, exec (.debugHalt n) s = .next s ∧ exec (.scan domains) s = .next s ∧
      exec (.jtagWrite n tgt data) s = .next s) ∧
    (invasive s = true →
      (∃ t, exec (.debugHalt n) s = .next t ∧ (core t n.val).dbgHalt = true ∧ ∀ m, m ≠ n.val → core t m = core s m) ∧
      (∃ t, exec (.scan domains) s = .next t ∧ t = { s with jtag := t.jtag } ∧ t.jtag.held = s.jtag.held ∧
        ∀ d, d ∈ t.jtag.scanned ↔ d ∈ s.jtag.scanned ∨ d ∈ domains) ∧
      ((core s n.val).dbgHalt = true →
        (∀ a, a + data.length ≤ 24 * 32768 →
          exec (.jtagWrite n (.scratch a) data) s = .next (modCore s n.val (scratchPut · a data))) ∧
        (∀ b, data.length % 16 = 0 → b + data.length / 16 ≤ 4096 →
          exec (.jtagWrite n (.istore b) data) s = .next (modCore s n.val (istorePut · b data))))) ∧
    (∀ a, memWf (core s n.val).scratch = true →
      ∀ x, (x < a ∨ a + data.length ≤ x) →
        mget (scratchPut (core s n.val) a data).scratch x = mget (core s n.val).scratch x)

/-! ### The host's accesses and I3C -/

/-- R574 to R577: BAR2. A read of a segment that is off returns ones; a context's space is read through its pages, and
a write lands there; what is not allowed is refused and counted; a window takes precedence over its segment. -/
def Obligations.HostAccessesBar2 : Prop :=
  ∀ (s : State) (off size : Nat) (bs : Bytes), writeOpen s false = true → off + size ≤ 2 ^ 34 → 0 < size →
    off + bs.length ≤ 2 ^ 34 → bs ≠ [] →
    let seg := off / 2 ^ 31
    let mode := fget s F.hostB2mapMode 0 seg
    let r := fget s F.hostB2mapRegnum 0 seg
    let a := fget s F.hostB2mapBase 0 seg * 2 ^ 21 + off % 2 ^ 31
    (windowAt s off = none →
      (mode = 0 → exec (.bar2Access off size none) s = .next (busRead s (List.replicate size 0xFF#8)) ∧
        exec (.bar2Access off size (some bs)) s = .next s) ∧
      (∀ t, mode = 1 → registered (ctx s r) = true → a + size ≤ 2 ^ 48 → touchesProt s r a size = false →
        reelHole s r a size = false → touchPages (pagesOf a size) s r false (.host size false) = (t, .ok) →
        exec (.bar2Access off size none) s = .next (busRead t (vsRead (ctx t r).vs a size))) ∧
      (∀ t, mode = 1 → registered (ctx s r) = true → a + bs.length ≤ 2 ^ 48 → touchesProt s r a bs.length = false →
        reelHole s r a bs.length = false → lineShips s r a bs.length = false →
        touchPages (pagesOf a bs.length) s r true (.host bs.length true) = (t, .ok) →
        exec (.bar2Access off size (some bs)) s = .next (putText t r a bs [])) ∧
      (mode = 1 → touchesProt s r a size = true → exec (.bar2Access off size none) s = .next (b2Refuse s size false)) ∧
      (mode = 2 → exec (.bar2Access off size (some bs)) s = .next (b2Refuse s bs.length true) ∧
        exec (.bar2Access off size none) s = .next (b2Physical s a size))) ∧
    (∀ k, windowAt s off = some k →
      exec (.bar2Access off size (some bs)) s = .next (ingWrite s k off bs) ∧
      exec (.ingestWrite off bs) s = .next (ingWrite s k off bs) ∧
      exec (.bar2Access off size none) s = .next (b2Refuse s size false)) ∧
    fget (b2Refuse s size false) F.hostStatB2refused 0 0 = min (2 ^ 16 - 1) (fget s F.hostStatB2refused 0 0 + 1)

/-- R591 to R593 (Table 18.8): the I3C target, while `VAUX` is present. An address is taken by `ENTDAA` and `SETDASA`
where there is none, changed by `SETNEWDA`, dropped by `RSTDAA`; the lengths are read back as set; bit 0 of `ENEC` and
`DISEC` opens and closes in-band interrupts; a private write of `MG_CAP` acts as one of `PWR_CAP`. -/
def Obligations.ManagementTarget : Prop :=
  ∀ (s : State) (addr : BitVec 7) (mask : BitVec 8) (len : BitVec 16), s.pins.vaux = true →
    let with_ (f : I3c → I3c) : State := { s with i3c := f s.i3c }
    (∀ c ∈ [Instr.entdaa addr, .setdasa addr],
      exec c s = .next (with_ fun x => { x with addr := some (s.i3c.addr.getD addr) })) ∧
    exec (.setnewda addr) s = .next (with_ fun x => { x with addr := s.i3c.addr.map fun _ => addr }) ∧
    exec .rstdaa s = .next (with_ fun x => { x with addr := none }) ∧
    exec (.enec mask) s = .next (with_ fun x => { x with ibi := s.i3c.ibi || mask.getLsbD 0 }) ∧
    exec (.disec mask) s = .next (with_ fun x => { x with ibi := s.i3c.ibi && !mask.getLsbD 0 }) ∧
    exec (.setmwl len) s = .next (with_ fun x => { x with mwl := len }) ∧
    exec (.setmrl len) s = .next (with_ fun x => { x with mrl := len }) ∧
    (s.i3c.addr.isSome = true →
      (∃ a b, exec .getmwl s = .next (emit s (.i3c [a, b])) ∧ a.toNat * 256 + b.toNat = s.i3c.mwl.toNat) ∧
      (∃ a b c, exec .getmrl s = .next (emit s (.i3c [a, b, c])) ∧ a.toNat * 256 + b.toNat = s.i3c.mrl.toNat) ∧
      (∀ q ∈ [(Instr.getpid, 6), (.getbcr, 1), (.getdcr, 1), (.getstatus, 2)],
        ∃ bs, exec q.1 s = .next (emit (drawFree s).2 (.i3c bs)) ∧ bs.length = q.2)) ∧
    (∀ lo hi : Byte, powerState s ≠ 3 →
      let v := (lo.toNat + 256 * hi.toNat) % 4096
      600 ≤ v → v ≤ 2400 → floorSum s ≤ v → ∃ t, exec (.i3cPrivateWrite [0x28, 0, lo, hi]) s = .next t ∧
        fget t F.pwrCapWatts 0 0 = v ∧ t.i3c.off = 0x28 ∧ t.i3c.mbdata = s.i3c.mbdata) ∧
    (∀ b : Byte, ∃ t, exec (.i3cPrivateWrite [0x10, 0, b]) s = .next t ∧
      (b.getLsbD 0 = true → fget t F.mgAlertDevfault 0 0 = 0) ∧
      (b.getLsbD 0 = false → fget t F.mgAlertDevfault 0 0 = fget s F.mgAlertDevfault 0 0) ∧
      (b.getLsbD 1 = true → fget t F.mgAlertSeqfail 0 0 = 0) ∧
      (b.getLsbD 2 = true → fget t F.mgAlertBootrej 0 0 = 0) ∧
      (b.getLsbD 3 = true → fget t F.mgAlertThermal 0 0 = 0))

/-! ### Registers -/

/-- R597, R600 to R606, R610, R613: reads and writes of BAR0. A read answers the register's word, or the half read,
and clears the `RC` fields that lie within it; a write of a register without a row of its own takes its fields; a
locked one is ignored and counted; a refused access is counted, and reads ones; a reserved offset reads 0 and ignores
writes. A field that a write does not cover keeps its value. -/
def Obligations.RegisterAccesses : Prop :=
  ∀ (s : State) (off : Nat) (data : BitVec 64) (w : RegWrite),
    (barOpen s = true → powerState s ≠ 2 →
      (accessOk off 8 = false → exec (.rcRead off 8) s = .next (readBack (fcount s F.glbErrBadacc 0 0 1) off (2 ^ 64 - 1))) ∧
      (accessOk off 8 = true → findReg (off / 8 * 8) = none → exec (.rcRead off 8) s = .next (readBack s off 0)) ∧
      (∀ r k j, findReg (off / 8 * 8) = some (r, k, j) →
        (off % 8 = 0 → exec (.rcRead off 8) s = .next (readBack (readClears s r k j .both) off (regWord s r k j))) ∧
        (off % 8 = 0 →
          exec (.rcRead off 4) s = .next (readBack (readClears s r k j .low) off (regWord s r k j % 2 ^ 32))) ∧
        (off % 8 = 4 →
          exec (.rcRead off 4) s = .next (readBack (readClears s r k j .high) off (regWord s r k j / 2 ^ 32))))) ∧
    (writeOpen s (alwaysOn off) = true →
      (∀ size, accessOk off size = false → exec (.registerWrite off size data) s = .next (fcount s F.glbErrBadacc 0 0 1)) ∧
      (∀ size, accessOk off size = true → findReg (off / 8 * 8) = none → exec (.registerWrite off size data) s = .next s) ∧
      (∀ size r k j, accessOk off size = true → findReg (off / 8 * 8) = some (r, k, j) →
        (∀ q ∈ [R.ctxCtl, R.bmvCtl, R.cmvCtl, R.schedDirctl, R.tcSet, R.tcCtl, R.ctxLogNote, R.ctxLogCfg, R.ctxPgcmd,
          R.lnkCtl, R.fabRtdata, R.fabCrfloor, R.fabRqcfg, R.ctxPrintctl, R.ctxReelctl, R.ctxReelstrm, R.pairCtl,
          R.ctxRelctl, R.relOtest, R.relWrap, R.pwrCap, R.pwrCtl, R.hostFwctl, R.glbCtl, R.glbDet, R.ctxCsCtl],
          r.off ≠ q.off) →
        exec (.registerWrite off size data) s = .next (writeReg s r k j (placed off size data)) ∧
        (∀ l, lockOf r = some l → fbit s l 0 0 = true → r.fields.any (fun f => f.acc == .rwl &&
          covered (halfOf off size) f) = true →
          exec (.registerWrite off size data) s = .next (fcount s F.glbErrLocked 0 0 1)))) ∧
    (∀ f k j, covered w.half f = false → takeField s w k j s f = s) ∧
    (writeOpen s false = true → w.half ≠ .high → noneEnabled s = true → ∃ t, exec (.glbDetWrite w) s = .next t ∧
      fget t F.glbDetEnf 0 0 = wval w F.glbDetEnf ∧
      (wval w F.glbDetNrseen = 1 → fget t F.glbDetNrseen 0 0 = 0) ∧
      (wval w F.glbDetNrseen = 0 → fget t F.glbDetNrseen 0 0 = fget s F.glbDetNrseen 0 0 % 2)) ∧
    (writeOpen s false = true → w.half ≠ .high → noneEnabled s = false → ∃ t, exec (.glbDetWrite w) s = .next t ∧
      fget t F.glbDetEnf 0 0 = fget s F.glbDetEnf 0 0)
end

