-- ==== Sys2Proof/Laws/Crypto.lean ====
section
/-! SUPPORT. Lengths of digests, cipher blocks and tags, and that opening a sealed text gives the text back. -/

namespace Sys2Proof.Machine

theorem leBytes_length : ∀ (n v : Nat), (leBytes n v).length = n
  | 0, _ => rfl
  | n + 1, v => by simp [leBytes, leBytes_length n]

theorem xorBytes_length (a b : Bytes) : (xorBytes a b).length = min a.length b.length := by
  simp [xorBytes]

/-- What one sequence XORed in puts in, the same one takes out. -/
theorem xorBytes_twice : ∀ a k : Bytes, a.length ≤ k.length → xorBytes (xorBytes a k) k = a
  | [], _, _ => rfl
  | x :: a, [], h => by simp at h
  | x :: a, y :: k, h => by
    have := xorBytes_twice a k (by simpa using h)
    simp only [xorBytes] at this ⊢
    simp [this]

/-! ### Digests -/

theorem keccakRound_length (a : List Nat) (rc : Nat) : (keccakRound a rc).length = 25 := by
  have h : (keccakChi (keccakRhoPi (keccakTheta a))).length = 25 := by simp [keccakChi]
  unfold keccakRound
  split
  · next e => simp [e] at h
  · next e => simpa [e] using h

theorem rounds_length : ∀ (rcs : List Nat) (a : List Nat), a.length = 25 → (rcs.foldl keccakRound a).length = 25
  | [], _, h => h
  | rc :: rcs, a, _ => rounds_length rcs _ (keccakRound_length a rc)

theorem absorb_length (a : List Nat) (blk : Bytes) : (absorb a blk).length = 25 :=
  rounds_length _ _ (by simp)

theorem absorbAll_length : ∀ (n : Nat) (a : List Nat) (bs : Bytes), a.length = 25 → (absorbAll n a bs).length = 25
  | 0, _, _, h => h
  | n + 1, a, bs, _ => absorbAll_length n _ _ (absorb_length a (bs.take 136))

/-- A digest is 32 bytes. -/
theorem sha3_length (bs : Bytes) : (sha3 bs).length = 32 := by
  have h := absorbAll_length ((sha3Pad bs).length / 136) (List.replicate 25 0) (sha3Pad bs) (by simp)
  simp only [sha3]
  generalize absorbAll _ _ _ = a at h
  match a, h with
  | x :: y :: z :: w :: _, _ => simp [leBytes_length]

/-! ### Blocks and tags -/

/-- Every word of the key schedule is 4 bytes, and `n` steps add `n` words. -/
theorem keyWords_words : ∀ (n : Nat) (ws : List Bytes), ws.length = 8 → (∀ w ∈ ws, w.length = 4) →
    (keyWords n ws).length = n + 8 ∧ ∀ w ∈ keyWords n ws, w.length = 4
  | 0, ws, h8, h4 => ⟨by simp [keyWords, h8], by simpa [keyWords] using h4⟩
  | n + 1, ws, h8, h4 => by
    obtain ⟨hl, hw⟩ := keyWords_words n ws h8 h4
    simp only [keyWords]
    generalize keyWords n ws = v at hl hw
    match v, hl with
    | a :: b :: c :: d :: e :: f :: g :: i :: rest, hl =>
      have ha : a.length = 4 := hw a (by simp)
      have hi : i.length = 4 := hw i (by simp)
      refine ⟨by simp at hl ⊢; omega, ?_⟩
      intro w hmem
      rcases List.mem_cons.1 hmem with rfl | hmem
      · split_ifs <;> simp [xorBytes_length, ha, hi]
      · exact hw w hmem

/-- The last round key of a 32-byte key is 16 bytes. -/
theorem lastKey_length (key : Bytes) (h : key.length = 32) : ((roundKeys key).getD 14 []).length = 16 := by
  obtain ⟨hl, hw⟩ := keyWords_words 52 ((List.range 8).map fun i => (key.drop (4 * (7 - i))).take 4) (by simp)
    (by simp [h]; omega)
  simp only [roundKeys]
  generalize keyWords 52 _ = v at hl hw
  have e : ((v.reverse.drop 56).take 4).length = 4 := by simp [hl]
  have m : ∀ w ∈ (v.reverse.drop 56).take 4, w.length = 4 := fun w h =>
    hw w (List.mem_reverse.1 (List.mem_of_mem_drop (List.mem_of_mem_take h)))
  simp only [List.getD_eq_getElem?_getD, List.getElem?_map, List.getElem?_range (show 14 < 15 by decide), Option.map_some,
    Option.getD_some]
  show ((v.reverse.drop 56).take 4).flatten.length = 16
  generalize (v.reverse.drop 56).take 4 = l at e m
  match l, e with
  | [a, b, c, d], _ => simp [m a (by simp), m b (by simp), m c (by simp), m d (by simp)]

/-- A block encrypted under a 32-byte key is 16 bytes. -/
theorem aesEnc_length (key blk : Bytes) (h : key.length = 32) : (aesEnc key blk).length = 16 := by
  simp only [aesEnc, xorBytes_length, lastKey_length key h, shiftRows, List.length_map, List.length_range, Nat.min_self]

/-- A tag under a 32-byte key is 16 bytes. -/
theorem gcmTag_length (key iv aad ct : Bytes) (h : key.length = 32) : (gcmTag key iv aad ct).length = 16 := by
  simp [gcmTag, xorBytes_length, aesEnc_length _ _ h, beOf, leBytes_length]

/-- What a 32-byte key opens of a ciphertext followed by its tag. -/
theorem gcmOpen_tagged (key iv aad ct : Bytes) (h : key.length = 32) :
    gcmOpen key iv aad (ct ++ gcmTag key iv aad ct) = some (gcmCrypt key iv ct) := by
  have e := gcmTag_length key iv aad ct h
  simp [gcmOpen, e]

theorem blocks_length (key iv : Bytes) (h : key.length = 32) :
    ∀ l : List Nat, ((l.map fun i => aesEnc key (iv ++ beOf 4 (i + 2))).flatten).length = 16 * l.length
  | [] => rfl
  | i :: l => by
    have := blocks_length key iv h l
    simp only [List.map_cons, List.flatten_cons, List.length_append, aesEnc_length _ _ h, this, List.length_cons]
    omega

theorem gcmCrypt_length (key iv bs : Bytes) (h : key.length = 32) : (gcmCrypt key iv bs).length = bs.length := by
  simp only [gcmCrypt, xorBytes_length, blocks_length key iv h, List.length_range]
  omega

theorem gcmCrypt_twice (key iv bs : Bytes) (h : key.length = 32) : gcmCrypt key iv (gcmCrypt key iv bs) = bs := by
  have hl := gcmCrypt_length key iv bs h
  have : gcmCrypt key iv (gcmCrypt key iv bs) =
      xorBytes (gcmCrypt key iv bs) (((List.range ((bs.length + 15) / 16)).map fun i => aesEnc key (iv ++ beOf 4 (i + 2))).flatten) := by
    rw [gcmCrypt, hl]
  rw [this, gcmCrypt, xorBytes_twice]
  rw [blocks_length key iv h, List.length_range]
  omega

/-- A text sealed under a 32-byte key opens to itself. -/
theorem gcmOpen_gcmSeal (key iv aad pt : Bytes) (h : key.length = 32) :
    gcmOpen key iv aad (gcmSeal key iv aad pt) = some pt := by
  simp only [gcmSeal, gcmOpen_tagged _ _ _ _ h, gcmCrypt_twice _ _ _ h]

end Sys2Proof.Machine
end

