-- ==== Sys2Proof/Laws/State.lean ====
section
/-! SUPPORT. One lemma per field of the state and update: what each named update leaves, and what it writes. -/

namespace Sys2Proof.Machine

/-! ### `fset` -/

@[simp] theorem fset_pending (s : State) (f : Fld) (i j v : Nat) : (fset s f i j v).pending = s.pending := rfl
@[simp] theorem fset_regs (s : State) (f : Fld) (i j v : Nat) : (fset s f i j v).regs = tset s.regs (f.key i j) (v % 2 ^ f.w) := rfl
@[simp] theorem fset_tcount (s : State) (f : Fld) (i j v : Nat) : (fset s f i j v).tcount = s.tcount := rfl
@[simp] theorem fset_time (s : State) (f : Fld) (i j v : Nat) : (fset s f i j v).time = s.time := rfl
@[simp] theorem fset_cores (s : State) (f : Fld) (i j v : Nat) : (fset s f i j v).cores = s.cores := rfl
@[simp] theorem fset_ctxs (s : State) (f : Fld) (i j v : Nat) : (fset s f i j v).ctxs = s.ctxs := rfl
@[simp] theorem fset_tokens (s : State) (f : Fld) (i j v : Nat) : (fset s f i j v).tokens = s.tokens := rfl
@[simp] theorem fset_frames (s : State) (f : Fld) (i j v : Nat) : (fset s f i j v).frames = s.frames := rfl
@[simp] theorem fset_fab (s : State) (f : Fld) (i j v : Nat) : (fset s f i j v).fab = s.fab := rfl
@[simp] theorem fset_bulk (s : State) (f : Fld) (i j v : Nat) : (fset s f i j v).bulk = s.bulk := rfl
@[simp] theorem fset_keys (s : State) (f : Fld) (i j v : Nat) : (fset s f i j v).keys = s.keys := rfl
@[simp] theorem fset_nv (s : State) (f : Fld) (i j v : Nat) : (fset s f i j v).nv = s.nv := rfl
@[simp] theorem fset_sec (s : State) (f : Fld) (i j v : Nat) : (fset s f i j v).sec = s.sec := rfl
@[simp] theorem fset_power (s : State) (f : Fld) (i j v : Nat) : (fset s f i j v).power = s.power := rfl
@[simp] theorem fset_pins (s : State) (f : Fld) (i j v : Nat) : (fset s f i j v).pins = s.pins := rfl
@[simp] theorem fset_i3c (s : State) (f : Fld) (i j v : Nat) : (fset s f i j v).i3c = s.i3c := rfl
@[simp] theorem fset_pcie (s : State) (f : Fld) (i j v : Nat) : (fset s f i j v).pcie = s.pcie := rfl
@[simp] theorem fset_pair (s : State) (f : Fld) (i j v : Nat) : (fset s f i j v).pair = s.pair := rfl
@[simp] theorem fset_test (s : State) (f : Fld) (i j v : Nat) : (fset s f i j v).test = s.test := rfl
@[simp] theorem fset_dailies (s : State) (f : Fld) (i j v : Nat) : (fset s f i j v).dailies = s.dailies := rfl
@[simp] theorem fset_jtag (s : State) (f : Fld) (i j v : Nat) : (fset s f i j v).jtag = s.jtag := rfl
@[simp] theorem fset_chip (s : State) (f : Fld) (i j v : Nat) : (fset s f i j v).chip = s.chip := rfl
@[simp] theorem fset_ddr (s : State) (f : Fld) (i j v : Nat) : (fset s f i j v).ddr = s.ddr := rfl
@[simp] theorem fset_ddrPoison (s : State) (f : Fld) (i j v : Nat) : (fset s f i j v).ddrPoison = s.ddrPoison := rfl
@[simp] theorem fset_hostMem (s : State) (f : Fld) (i j v : Nat) : (fset s f i j v).hostMem = s.hostMem := rfl
@[simp] theorem fset_out (s : State) (f : Fld) (i j v : Nat) : (fset s f i j v).out = s.out := rfl
@[simp] theorem fset_freeCtr (s : State) (f : Fld) (i j v : Nat) : (fset s f i j v).freeCtr = s.freeCtr := rfl

/-! ### `setCore` -/

@[simp] theorem setCore_pending (s : State) (n : Nat) (c : Core) : (setCore s n c).pending = s.pending := rfl
@[simp] theorem setCore_regs (s : State) (n : Nat) (c : Core) : (setCore s n c).regs = s.regs := rfl
@[simp] theorem setCore_tcount (s : State) (n : Nat) (c : Core) : (setCore s n c).tcount = s.tcount := rfl
@[simp] theorem setCore_time (s : State) (n : Nat) (c : Core) : (setCore s n c).time = s.time := rfl
@[simp] theorem setCore_cores (s : State) (n : Nat) (c : Core) : (setCore s n c).cores = tset s.cores n c := rfl
@[simp] theorem setCore_ctxs (s : State) (n : Nat) (c : Core) : (setCore s n c).ctxs = s.ctxs := rfl
@[simp] theorem setCore_tokens (s : State) (n : Nat) (c : Core) : (setCore s n c).tokens = s.tokens := rfl
@[simp] theorem setCore_frames (s : State) (n : Nat) (c : Core) : (setCore s n c).frames = s.frames := rfl
@[simp] theorem setCore_fab (s : State) (n : Nat) (c : Core) : (setCore s n c).fab = s.fab := rfl
@[simp] theorem setCore_bulk (s : State) (n : Nat) (c : Core) : (setCore s n c).bulk = s.bulk := rfl
@[simp] theorem setCore_keys (s : State) (n : Nat) (c : Core) : (setCore s n c).keys = s.keys := rfl
@[simp] theorem setCore_nv (s : State) (n : Nat) (c : Core) : (setCore s n c).nv = s.nv := rfl
@[simp] theorem setCore_sec (s : State) (n : Nat) (c : Core) : (setCore s n c).sec = s.sec := rfl
@[simp] theorem setCore_power (s : State) (n : Nat) (c : Core) : (setCore s n c).power = s.power := rfl
@[simp] theorem setCore_pins (s : State) (n : Nat) (c : Core) : (setCore s n c).pins = s.pins := rfl
@[simp] theorem setCore_i3c (s : State) (n : Nat) (c : Core) : (setCore s n c).i3c = s.i3c := rfl
@[simp] theorem setCore_pcie (s : State) (n : Nat) (c : Core) : (setCore s n c).pcie = s.pcie := rfl
@[simp] theorem setCore_pair (s : State) (n : Nat) (c : Core) : (setCore s n c).pair = s.pair := rfl
@[simp] theorem setCore_test (s : State) (n : Nat) (c : Core) : (setCore s n c).test = s.test := rfl
@[simp] theorem setCore_dailies (s : State) (n : Nat) (c : Core) : (setCore s n c).dailies = s.dailies := rfl
@[simp] theorem setCore_jtag (s : State) (n : Nat) (c : Core) : (setCore s n c).jtag = s.jtag := rfl
@[simp] theorem setCore_chip (s : State) (n : Nat) (c : Core) : (setCore s n c).chip = s.chip := rfl
@[simp] theorem setCore_ddr (s : State) (n : Nat) (c : Core) : (setCore s n c).ddr = s.ddr := rfl
@[simp] theorem setCore_ddrPoison (s : State) (n : Nat) (c : Core) : (setCore s n c).ddrPoison = s.ddrPoison := rfl
@[simp] theorem setCore_hostMem (s : State) (n : Nat) (c : Core) : (setCore s n c).hostMem = s.hostMem := rfl
@[simp] theorem setCore_out (s : State) (n : Nat) (c : Core) : (setCore s n c).out = s.out := rfl
@[simp] theorem setCore_freeCtr (s : State) (n : Nat) (c : Core) : (setCore s n c).freeCtr = s.freeCtr := rfl

/-! ### `setCtx` -/

@[simp] theorem setCtx_pending (s : State) (r : Nat) (c : Ctx) : (setCtx s r c).pending = s.pending := rfl
@[simp] theorem setCtx_regs (s : State) (r : Nat) (c : Ctx) : (setCtx s r c).regs = s.regs := rfl
@[simp] theorem setCtx_tcount (s : State) (r : Nat) (c : Ctx) : (setCtx s r c).tcount = s.tcount := rfl
@[simp] theorem setCtx_time (s : State) (r : Nat) (c : Ctx) : (setCtx s r c).time = s.time := rfl
@[simp] theorem setCtx_cores (s : State) (r : Nat) (c : Ctx) : (setCtx s r c).cores = s.cores := rfl
@[simp] theorem setCtx_ctxs (s : State) (r : Nat) (c : Ctx) : (setCtx s r c).ctxs = tset s.ctxs r c := rfl
@[simp] theorem setCtx_tokens (s : State) (r : Nat) (c : Ctx) : (setCtx s r c).tokens = s.tokens := rfl
@[simp] theorem setCtx_frames (s : State) (r : Nat) (c : Ctx) : (setCtx s r c).frames = s.frames := rfl
@[simp] theorem setCtx_fab (s : State) (r : Nat) (c : Ctx) : (setCtx s r c).fab = s.fab := rfl
@[simp] theorem setCtx_bulk (s : State) (r : Nat) (c : Ctx) : (setCtx s r c).bulk = s.bulk := rfl
@[simp] theorem setCtx_keys (s : State) (r : Nat) (c : Ctx) : (setCtx s r c).keys = s.keys := rfl
@[simp] theorem setCtx_nv (s : State) (r : Nat) (c : Ctx) : (setCtx s r c).nv = s.nv := rfl
@[simp] theorem setCtx_sec (s : State) (r : Nat) (c : Ctx) : (setCtx s r c).sec = s.sec := rfl
@[simp] theorem setCtx_power (s : State) (r : Nat) (c : Ctx) : (setCtx s r c).power = s.power := rfl
@[simp] theorem setCtx_pins (s : State) (r : Nat) (c : Ctx) : (setCtx s r c).pins = s.pins := rfl
@[simp] theorem setCtx_i3c (s : State) (r : Nat) (c : Ctx) : (setCtx s r c).i3c = s.i3c := rfl
@[simp] theorem setCtx_pcie (s : State) (r : Nat) (c : Ctx) : (setCtx s r c).pcie = s.pcie := rfl
@[simp] theorem setCtx_pair (s : State) (r : Nat) (c : Ctx) : (setCtx s r c).pair = s.pair := rfl
@[simp] theorem setCtx_test (s : State) (r : Nat) (c : Ctx) : (setCtx s r c).test = s.test := rfl
@[simp] theorem setCtx_dailies (s : State) (r : Nat) (c : Ctx) : (setCtx s r c).dailies = s.dailies := rfl
@[simp] theorem setCtx_jtag (s : State) (r : Nat) (c : Ctx) : (setCtx s r c).jtag = s.jtag := rfl
@[simp] theorem setCtx_chip (s : State) (r : Nat) (c : Ctx) : (setCtx s r c).chip = s.chip := rfl
@[simp] theorem setCtx_ddr (s : State) (r : Nat) (c : Ctx) : (setCtx s r c).ddr = s.ddr := rfl
@[simp] theorem setCtx_ddrPoison (s : State) (r : Nat) (c : Ctx) : (setCtx s r c).ddrPoison = s.ddrPoison := rfl
@[simp] theorem setCtx_hostMem (s : State) (r : Nat) (c : Ctx) : (setCtx s r c).hostMem = s.hostMem := rfl
@[simp] theorem setCtx_out (s : State) (r : Nat) (c : Ctx) : (setCtx s r c).out = s.out := rfl
@[simp] theorem setCtx_freeCtr (s : State) (r : Nat) (c : Ctx) : (setCtx s r c).freeCtr = s.freeCtr := rfl

/-! ### `emit` -/

@[simp] theorem emit_pending (s : State) (o : Out) : (emit s o).pending = s.pending := rfl
@[simp] theorem emit_regs (s : State) (o : Out) : (emit s o).regs = s.regs := rfl
@[simp] theorem emit_tcount (s : State) (o : Out) : (emit s o).tcount = s.tcount := rfl
@[simp] theorem emit_time (s : State) (o : Out) : (emit s o).time = s.time := rfl
@[simp] theorem emit_cores (s : State) (o : Out) : (emit s o).cores = s.cores := rfl
@[simp] theorem emit_ctxs (s : State) (o : Out) : (emit s o).ctxs = s.ctxs := rfl
@[simp] theorem emit_tokens (s : State) (o : Out) : (emit s o).tokens = s.tokens := rfl
@[simp] theorem emit_frames (s : State) (o : Out) : (emit s o).frames = s.frames := rfl
@[simp] theorem emit_fab (s : State) (o : Out) : (emit s o).fab = s.fab := rfl
@[simp] theorem emit_bulk (s : State) (o : Out) : (emit s o).bulk = s.bulk := rfl
@[simp] theorem emit_keys (s : State) (o : Out) : (emit s o).keys = s.keys := rfl
@[simp] theorem emit_nv (s : State) (o : Out) : (emit s o).nv = s.nv := rfl
@[simp] theorem emit_sec (s : State) (o : Out) : (emit s o).sec = s.sec := rfl
@[simp] theorem emit_power (s : State) (o : Out) : (emit s o).power = s.power := rfl
@[simp] theorem emit_pins (s : State) (o : Out) : (emit s o).pins = s.pins := rfl
@[simp] theorem emit_i3c (s : State) (o : Out) : (emit s o).i3c = s.i3c := rfl
@[simp] theorem emit_pcie (s : State) (o : Out) : (emit s o).pcie = s.pcie := rfl
@[simp] theorem emit_pair (s : State) (o : Out) : (emit s o).pair = s.pair := rfl
@[simp] theorem emit_test (s : State) (o : Out) : (emit s o).test = s.test := rfl
@[simp] theorem emit_dailies (s : State) (o : Out) : (emit s o).dailies = s.dailies := rfl
@[simp] theorem emit_jtag (s : State) (o : Out) : (emit s o).jtag = s.jtag := rfl
@[simp] theorem emit_chip (s : State) (o : Out) : (emit s o).chip = s.chip := rfl
@[simp] theorem emit_ddr (s : State) (o : Out) : (emit s o).ddr = s.ddr := rfl
@[simp] theorem emit_ddrPoison (s : State) (o : Out) : (emit s o).ddrPoison = s.ddrPoison := rfl
@[simp] theorem emit_hostMem (s : State) (o : Out) : (emit s o).hostMem = s.hostMem := rfl
@[simp] theorem emit_out (s : State) (o : Out) : (emit s o).out = s.out ++ [o] := rfl
@[simp] theorem emit_freeCtr (s : State) (o : Out) : (emit s o).freeCtr = s.freeCtr := rfl

/-! ### `hostWrite` -/

@[simp] theorem hostWrite_pending (s : State) (a : Nat) (bs : Bytes) : (hostWrite s a bs).pending = s.pending := rfl
@[simp] theorem hostWrite_regs (s : State) (a : Nat) (bs : Bytes) : (hostWrite s a bs).regs = s.regs := rfl
@[simp] theorem hostWrite_tcount (s : State) (a : Nat) (bs : Bytes) : (hostWrite s a bs).tcount = s.tcount := rfl
@[simp] theorem hostWrite_time (s : State) (a : Nat) (bs : Bytes) : (hostWrite s a bs).time = s.time := rfl
@[simp] theorem hostWrite_cores (s : State) (a : Nat) (bs : Bytes) : (hostWrite s a bs).cores = s.cores := rfl
@[simp] theorem hostWrite_ctxs (s : State) (a : Nat) (bs : Bytes) : (hostWrite s a bs).ctxs = s.ctxs := rfl
@[simp] theorem hostWrite_tokens (s : State) (a : Nat) (bs : Bytes) : (hostWrite s a bs).tokens = s.tokens := rfl
@[simp] theorem hostWrite_frames (s : State) (a : Nat) (bs : Bytes) : (hostWrite s a bs).frames = s.frames := rfl
@[simp] theorem hostWrite_fab (s : State) (a : Nat) (bs : Bytes) : (hostWrite s a bs).fab = s.fab := rfl
@[simp] theorem hostWrite_bulk (s : State) (a : Nat) (bs : Bytes) : (hostWrite s a bs).bulk = s.bulk := rfl
@[simp] theorem hostWrite_keys (s : State) (a : Nat) (bs : Bytes) : (hostWrite s a bs).keys = s.keys := rfl
@[simp] theorem hostWrite_nv (s : State) (a : Nat) (bs : Bytes) : (hostWrite s a bs).nv = s.nv := rfl
@[simp] theorem hostWrite_sec (s : State) (a : Nat) (bs : Bytes) : (hostWrite s a bs).sec = s.sec := rfl
@[simp] theorem hostWrite_power (s : State) (a : Nat) (bs : Bytes) : (hostWrite s a bs).power = s.power := rfl
@[simp] theorem hostWrite_pins (s : State) (a : Nat) (bs : Bytes) : (hostWrite s a bs).pins = s.pins := rfl
@[simp] theorem hostWrite_i3c (s : State) (a : Nat) (bs : Bytes) : (hostWrite s a bs).i3c = s.i3c := rfl
@[simp] theorem hostWrite_pcie (s : State) (a : Nat) (bs : Bytes) : (hostWrite s a bs).pcie = s.pcie := rfl
@[simp] theorem hostWrite_pair (s : State) (a : Nat) (bs : Bytes) : (hostWrite s a bs).pair = s.pair := rfl
@[simp] theorem hostWrite_test (s : State) (a : Nat) (bs : Bytes) : (hostWrite s a bs).test = s.test := rfl
@[simp] theorem hostWrite_dailies (s : State) (a : Nat) (bs : Bytes) : (hostWrite s a bs).dailies = s.dailies := rfl
@[simp] theorem hostWrite_jtag (s : State) (a : Nat) (bs : Bytes) : (hostWrite s a bs).jtag = s.jtag := rfl
@[simp] theorem hostWrite_chip (s : State) (a : Nat) (bs : Bytes) : (hostWrite s a bs).chip = s.chip := rfl
@[simp] theorem hostWrite_ddr (s : State) (a : Nat) (bs : Bytes) : (hostWrite s a bs).ddr = s.ddr := rfl
@[simp] theorem hostWrite_ddrPoison (s : State) (a : Nat) (bs : Bytes) : (hostWrite s a bs).ddrPoison = s.ddrPoison := rfl
@[simp] theorem hostWrite_hostMem (s : State) (a : Nat) (bs : Bytes) : (hostWrite s a bs).hostMem = mwrite s.hostMem a bs := rfl
@[simp] theorem hostWrite_out (s : State) (a : Nat) (bs : Bytes) : (hostWrite s a bs).out = s.out := rfl
@[simp] theorem hostWrite_freeCtr (s : State) (a : Nat) (bs : Bytes) : (hostWrite s a bs).freeCtr = s.freeCtr := rfl

/-! ### `clearFields` -/

@[simp] theorem clearFields_pending (s : State) (fs : List Fld) (i j : Nat) : (clearFields s fs i j).pending = s.pending := rfl
@[simp] theorem clearFields_tcount (s : State) (fs : List Fld) (i j : Nat) : (clearFields s fs i j).tcount = s.tcount := rfl
@[simp] theorem clearFields_time (s : State) (fs : List Fld) (i j : Nat) : (clearFields s fs i j).time = s.time := rfl
@[simp] theorem clearFields_cores (s : State) (fs : List Fld) (i j : Nat) : (clearFields s fs i j).cores = s.cores := rfl
@[simp] theorem clearFields_ctxs (s : State) (fs : List Fld) (i j : Nat) : (clearFields s fs i j).ctxs = s.ctxs := rfl
@[simp] theorem clearFields_tokens (s : State) (fs : List Fld) (i j : Nat) : (clearFields s fs i j).tokens = s.tokens := rfl
@[simp] theorem clearFields_frames (s : State) (fs : List Fld) (i j : Nat) : (clearFields s fs i j).frames = s.frames := rfl
@[simp] theorem clearFields_fab (s : State) (fs : List Fld) (i j : Nat) : (clearFields s fs i j).fab = s.fab := rfl
@[simp] theorem clearFields_bulk (s : State) (fs : List Fld) (i j : Nat) : (clearFields s fs i j).bulk = s.bulk := rfl
@[simp] theorem clearFields_keys (s : State) (fs : List Fld) (i j : Nat) : (clearFields s fs i j).keys = s.keys := rfl
@[simp] theorem clearFields_nv (s : State) (fs : List Fld) (i j : Nat) : (clearFields s fs i j).nv = s.nv := rfl
@[simp] theorem clearFields_sec (s : State) (fs : List Fld) (i j : Nat) : (clearFields s fs i j).sec = s.sec := rfl
@[simp] theorem clearFields_power (s : State) (fs : List Fld) (i j : Nat) : (clearFields s fs i j).power = s.power := rfl
@[simp] theorem clearFields_pins (s : State) (fs : List Fld) (i j : Nat) : (clearFields s fs i j).pins = s.pins := rfl
@[simp] theorem clearFields_i3c (s : State) (fs : List Fld) (i j : Nat) : (clearFields s fs i j).i3c = s.i3c := rfl
@[simp] theorem clearFields_pcie (s : State) (fs : List Fld) (i j : Nat) : (clearFields s fs i j).pcie = s.pcie := rfl
@[simp] theorem clearFields_pair (s : State) (fs : List Fld) (i j : Nat) : (clearFields s fs i j).pair = s.pair := rfl
@[simp] theorem clearFields_test (s : State) (fs : List Fld) (i j : Nat) : (clearFields s fs i j).test = s.test := rfl
@[simp] theorem clearFields_dailies (s : State) (fs : List Fld) (i j : Nat) : (clearFields s fs i j).dailies = s.dailies := rfl
@[simp] theorem clearFields_jtag (s : State) (fs : List Fld) (i j : Nat) : (clearFields s fs i j).jtag = s.jtag := rfl
@[simp] theorem clearFields_chip (s : State) (fs : List Fld) (i j : Nat) : (clearFields s fs i j).chip = s.chip := rfl
@[simp] theorem clearFields_ddr (s : State) (fs : List Fld) (i j : Nat) : (clearFields s fs i j).ddr = s.ddr := rfl
@[simp] theorem clearFields_ddrPoison (s : State) (fs : List Fld) (i j : Nat) : (clearFields s fs i j).ddrPoison = s.ddrPoison := rfl
@[simp] theorem clearFields_hostMem (s : State) (fs : List Fld) (i j : Nat) : (clearFields s fs i j).hostMem = s.hostMem := rfl
@[simp] theorem clearFields_out (s : State) (fs : List Fld) (i j : Nat) : (clearFields s fs i j).out = s.out := rfl
@[simp] theorem clearFields_freeCtr (s : State) (fs : List Fld) (i j : Nat) : (clearFields s fs i j).freeCtr = s.freeCtr := rfl

/-! ### `fcount` -/

@[simp] theorem fcount_pending (s : State) (f : Fld) (i j n : Nat) : (fcount s f i j n).pending = s.pending := rfl
@[simp] theorem fcount_tcount (s : State) (f : Fld) (i j n : Nat) : (fcount s f i j n).tcount = s.tcount := rfl
@[simp] theorem fcount_time (s : State) (f : Fld) (i j n : Nat) : (fcount s f i j n).time = s.time := rfl
@[simp] theorem fcount_cores (s : State) (f : Fld) (i j n : Nat) : (fcount s f i j n).cores = s.cores := rfl
@[simp] theorem fcount_ctxs (s : State) (f : Fld) (i j n : Nat) : (fcount s f i j n).ctxs = s.ctxs := rfl
@[simp] theorem fcount_tokens (s : State) (f : Fld) (i j n : Nat) : (fcount s f i j n).tokens = s.tokens := rfl
@[simp] theorem fcount_frames (s : State) (f : Fld) (i j n : Nat) : (fcount s f i j n).frames = s.frames := rfl
@[simp] theorem fcount_fab (s : State) (f : Fld) (i j n : Nat) : (fcount s f i j n).fab = s.fab := rfl
@[simp] theorem fcount_bulk (s : State) (f : Fld) (i j n : Nat) : (fcount s f i j n).bulk = s.bulk := rfl
@[simp] theorem fcount_keys (s : State) (f : Fld) (i j n : Nat) : (fcount s f i j n).keys = s.keys := rfl
@[simp] theorem fcount_nv (s : State) (f : Fld) (i j n : Nat) : (fcount s f i j n).nv = s.nv := rfl
@[simp] theorem fcount_sec (s : State) (f : Fld) (i j n : Nat) : (fcount s f i j n).sec = s.sec := rfl
@[simp] theorem fcount_power (s : State) (f : Fld) (i j n : Nat) : (fcount s f i j n).power = s.power := rfl
@[simp] theorem fcount_pins (s : State) (f : Fld) (i j n : Nat) : (fcount s f i j n).pins = s.pins := rfl
@[simp] theorem fcount_i3c (s : State) (f : Fld) (i j n : Nat) : (fcount s f i j n).i3c = s.i3c := rfl
@[simp] theorem fcount_pcie (s : State) (f : Fld) (i j n : Nat) : (fcount s f i j n).pcie = s.pcie := rfl
@[simp] theorem fcount_pair (s : State) (f : Fld) (i j n : Nat) : (fcount s f i j n).pair = s.pair := rfl
@[simp] theorem fcount_test (s : State) (f : Fld) (i j n : Nat) : (fcount s f i j n).test = s.test := rfl
@[simp] theorem fcount_dailies (s : State) (f : Fld) (i j n : Nat) : (fcount s f i j n).dailies = s.dailies := rfl
@[simp] theorem fcount_jtag (s : State) (f : Fld) (i j n : Nat) : (fcount s f i j n).jtag = s.jtag := rfl
@[simp] theorem fcount_chip (s : State) (f : Fld) (i j n : Nat) : (fcount s f i j n).chip = s.chip := rfl
@[simp] theorem fcount_ddr (s : State) (f : Fld) (i j n : Nat) : (fcount s f i j n).ddr = s.ddr := rfl
@[simp] theorem fcount_ddrPoison (s : State) (f : Fld) (i j n : Nat) : (fcount s f i j n).ddrPoison = s.ddrPoison := rfl
@[simp] theorem fcount_hostMem (s : State) (f : Fld) (i j n : Nat) : (fcount s f i j n).hostMem = s.hostMem := rfl
@[simp] theorem fcount_out (s : State) (f : Fld) (i j n : Nat) : (fcount s f i j n).out = s.out := rfl
@[simp] theorem fcount_freeCtr (s : State) (f : Fld) (i j n : Nat) : (fcount s f i j n).freeCtr = s.freeCtr := rfl

/-! ### `modCore` -/

@[simp] theorem modCore_pending (s : State) (n : Nat) (f : Core → Core) : (modCore s n f).pending = s.pending := rfl
@[simp] theorem modCore_regs (s : State) (n : Nat) (f : Core → Core) : (modCore s n f).regs = s.regs := rfl
@[simp] theorem modCore_tcount (s : State) (n : Nat) (f : Core → Core) : (modCore s n f).tcount = s.tcount := rfl
@[simp] theorem modCore_time (s : State) (n : Nat) (f : Core → Core) : (modCore s n f).time = s.time := rfl
@[simp] theorem modCore_cores (s : State) (n : Nat) (f : Core → Core) : (modCore s n f).cores = tset s.cores n (f (core s n)) := rfl
@[simp] theorem modCore_ctxs (s : State) (n : Nat) (f : Core → Core) : (modCore s n f).ctxs = s.ctxs := rfl
@[simp] theorem modCore_tokens (s : State) (n : Nat) (f : Core → Core) : (modCore s n f).tokens = s.tokens := rfl
@[simp] theorem modCore_frames (s : State) (n : Nat) (f : Core → Core) : (modCore s n f).frames = s.frames := rfl
@[simp] theorem modCore_fab (s : State) (n : Nat) (f : Core → Core) : (modCore s n f).fab = s.fab := rfl
@[simp] theorem modCore_bulk (s : State) (n : Nat) (f : Core → Core) : (modCore s n f).bulk = s.bulk := rfl
@[simp] theorem modCore_keys (s : State) (n : Nat) (f : Core → Core) : (modCore s n f).keys = s.keys := rfl
@[simp] theorem modCore_nv (s : State) (n : Nat) (f : Core → Core) : (modCore s n f).nv = s.nv := rfl
@[simp] theorem modCore_sec (s : State) (n : Nat) (f : Core → Core) : (modCore s n f).sec = s.sec := rfl
@[simp] theorem modCore_power (s : State) (n : Nat) (f : Core → Core) : (modCore s n f).power = s.power := rfl
@[simp] theorem modCore_pins (s : State) (n : Nat) (f : Core → Core) : (modCore s n f).pins = s.pins := rfl
@[simp] theorem modCore_i3c (s : State) (n : Nat) (f : Core → Core) : (modCore s n f).i3c = s.i3c := rfl
@[simp] theorem modCore_pcie (s : State) (n : Nat) (f : Core → Core) : (modCore s n f).pcie = s.pcie := rfl
@[simp] theorem modCore_pair (s : State) (n : Nat) (f : Core → Core) : (modCore s n f).pair = s.pair := rfl
@[simp] theorem modCore_test (s : State) (n : Nat) (f : Core → Core) : (modCore s n f).test = s.test := rfl
@[simp] theorem modCore_dailies (s : State) (n : Nat) (f : Core → Core) : (modCore s n f).dailies = s.dailies := rfl
@[simp] theorem modCore_jtag (s : State) (n : Nat) (f : Core → Core) : (modCore s n f).jtag = s.jtag := rfl
@[simp] theorem modCore_chip (s : State) (n : Nat) (f : Core → Core) : (modCore s n f).chip = s.chip := rfl
@[simp] theorem modCore_ddr (s : State) (n : Nat) (f : Core → Core) : (modCore s n f).ddr = s.ddr := rfl
@[simp] theorem modCore_ddrPoison (s : State) (n : Nat) (f : Core → Core) : (modCore s n f).ddrPoison = s.ddrPoison := rfl
@[simp] theorem modCore_hostMem (s : State) (n : Nat) (f : Core → Core) : (modCore s n f).hostMem = s.hostMem := rfl
@[simp] theorem modCore_out (s : State) (n : Nat) (f : Core → Core) : (modCore s n f).out = s.out := rfl
@[simp] theorem modCore_freeCtr (s : State) (n : Nat) (f : Core → Core) : (modCore s n f).freeCtr = s.freeCtr := rfl

/-! ### `modCtx` -/

@[simp] theorem modCtx_pending (s : State) (r : Nat) (f : Ctx → Ctx) : (modCtx s r f).pending = s.pending := rfl
@[simp] theorem modCtx_regs (s : State) (r : Nat) (f : Ctx → Ctx) : (modCtx s r f).regs = s.regs := rfl
@[simp] theorem modCtx_tcount (s : State) (r : Nat) (f : Ctx → Ctx) : (modCtx s r f).tcount = s.tcount := rfl
@[simp] theorem modCtx_time (s : State) (r : Nat) (f : Ctx → Ctx) : (modCtx s r f).time = s.time := rfl
@[simp] theorem modCtx_cores (s : State) (r : Nat) (f : Ctx → Ctx) : (modCtx s r f).cores = s.cores := rfl
@[simp] theorem modCtx_ctxs (s : State) (r : Nat) (f : Ctx → Ctx) : (modCtx s r f).ctxs = tset s.ctxs r (f (ctx s r)) := rfl
@[simp] theorem modCtx_tokens (s : State) (r : Nat) (f : Ctx → Ctx) : (modCtx s r f).tokens = s.tokens := rfl
@[simp] theorem modCtx_frames (s : State) (r : Nat) (f : Ctx → Ctx) : (modCtx s r f).frames = s.frames := rfl
@[simp] theorem modCtx_fab (s : State) (r : Nat) (f : Ctx → Ctx) : (modCtx s r f).fab = s.fab := rfl
@[simp] theorem modCtx_bulk (s : State) (r : Nat) (f : Ctx → Ctx) : (modCtx s r f).bulk = s.bulk := rfl
@[simp] theorem modCtx_keys (s : State) (r : Nat) (f : Ctx → Ctx) : (modCtx s r f).keys = s.keys := rfl
@[simp] theorem modCtx_nv (s : State) (r : Nat) (f : Ctx → Ctx) : (modCtx s r f).nv = s.nv := rfl
@[simp] theorem modCtx_sec (s : State) (r : Nat) (f : Ctx → Ctx) : (modCtx s r f).sec = s.sec := rfl
@[simp] theorem modCtx_power (s : State) (r : Nat) (f : Ctx → Ctx) : (modCtx s r f).power = s.power := rfl
@[simp] theorem modCtx_pins (s : State) (r : Nat) (f : Ctx → Ctx) : (modCtx s r f).pins = s.pins := rfl
@[simp] theorem modCtx_i3c (s : State) (r : Nat) (f : Ctx → Ctx) : (modCtx s r f).i3c = s.i3c := rfl
@[simp] theorem modCtx_pcie (s : State) (r : Nat) (f : Ctx → Ctx) : (modCtx s r f).pcie = s.pcie := rfl
@[simp] theorem modCtx_pair (s : State) (r : Nat) (f : Ctx → Ctx) : (modCtx s r f).pair = s.pair := rfl
@[simp] theorem modCtx_test (s : State) (r : Nat) (f : Ctx → Ctx) : (modCtx s r f).test = s.test := rfl
@[simp] theorem modCtx_dailies (s : State) (r : Nat) (f : Ctx → Ctx) : (modCtx s r f).dailies = s.dailies := rfl
@[simp] theorem modCtx_jtag (s : State) (r : Nat) (f : Ctx → Ctx) : (modCtx s r f).jtag = s.jtag := rfl
@[simp] theorem modCtx_chip (s : State) (r : Nat) (f : Ctx → Ctx) : (modCtx s r f).chip = s.chip := rfl
@[simp] theorem modCtx_ddr (s : State) (r : Nat) (f : Ctx → Ctx) : (modCtx s r f).ddr = s.ddr := rfl
@[simp] theorem modCtx_ddrPoison (s : State) (r : Nat) (f : Ctx → Ctx) : (modCtx s r f).ddrPoison = s.ddrPoison := rfl
@[simp] theorem modCtx_hostMem (s : State) (r : Nat) (f : Ctx → Ctx) : (modCtx s r f).hostMem = s.hostMem := rfl
@[simp] theorem modCtx_out (s : State) (r : Nat) (f : Ctx → Ctx) : (modCtx s r f).out = s.out := rfl
@[simp] theorem modCtx_freeCtr (s : State) (r : Nat) (f : Ctx → Ctx) : (modCtx s r f).freeCtr = s.freeCtr := rfl

/-! ### `modFrame` -/

@[simp] theorem modFrame_pending (s : State) (n k : Nat) (f : Frame → Frame) : (modFrame s n k f).pending = s.pending := rfl
@[simp] theorem modFrame_regs (s : State) (n k : Nat) (f : Frame → Frame) : (modFrame s n k f).regs = s.regs := rfl
@[simp] theorem modFrame_tcount (s : State) (n k : Nat) (f : Frame → Frame) : (modFrame s n k f).tcount = s.tcount := rfl
@[simp] theorem modFrame_time (s : State) (n k : Nat) (f : Frame → Frame) : (modFrame s n k f).time = s.time := rfl
@[simp] theorem modFrame_ctxs (s : State) (n k : Nat) (f : Frame → Frame) : (modFrame s n k f).ctxs = s.ctxs := rfl
@[simp] theorem modFrame_tokens (s : State) (n k : Nat) (f : Frame → Frame) : (modFrame s n k f).tokens = s.tokens := rfl
@[simp] theorem modFrame_frames (s : State) (n k : Nat) (f : Frame → Frame) : (modFrame s n k f).frames = s.frames := rfl
@[simp] theorem modFrame_fab (s : State) (n k : Nat) (f : Frame → Frame) : (modFrame s n k f).fab = s.fab := rfl
@[simp] theorem modFrame_bulk (s : State) (n k : Nat) (f : Frame → Frame) : (modFrame s n k f).bulk = s.bulk := rfl
@[simp] theorem modFrame_keys (s : State) (n k : Nat) (f : Frame → Frame) : (modFrame s n k f).keys = s.keys := rfl
@[simp] theorem modFrame_nv (s : State) (n k : Nat) (f : Frame → Frame) : (modFrame s n k f).nv = s.nv := rfl
@[simp] theorem modFrame_sec (s : State) (n k : Nat) (f : Frame → Frame) : (modFrame s n k f).sec = s.sec := rfl
@[simp] theorem modFrame_power (s : State) (n k : Nat) (f : Frame → Frame) : (modFrame s n k f).power = s.power := rfl
@[simp] theorem modFrame_pins (s : State) (n k : Nat) (f : Frame → Frame) : (modFrame s n k f).pins = s.pins := rfl
@[simp] theorem modFrame_i3c (s : State) (n k : Nat) (f : Frame → Frame) : (modFrame s n k f).i3c = s.i3c := rfl
@[simp] theorem modFrame_pcie (s : State) (n k : Nat) (f : Frame → Frame) : (modFrame s n k f).pcie = s.pcie := rfl
@[simp] theorem modFrame_pair (s : State) (n k : Nat) (f : Frame → Frame) : (modFrame s n k f).pair = s.pair := rfl
@[simp] theorem modFrame_test (s : State) (n k : Nat) (f : Frame → Frame) : (modFrame s n k f).test = s.test := rfl
@[simp] theorem modFrame_dailies (s : State) (n k : Nat) (f : Frame → Frame) : (modFrame s n k f).dailies = s.dailies := rfl
@[simp] theorem modFrame_jtag (s : State) (n k : Nat) (f : Frame → Frame) : (modFrame s n k f).jtag = s.jtag := rfl
@[simp] theorem modFrame_chip (s : State) (n k : Nat) (f : Frame → Frame) : (modFrame s n k f).chip = s.chip := rfl
@[simp] theorem modFrame_ddr (s : State) (n k : Nat) (f : Frame → Frame) : (modFrame s n k f).ddr = s.ddr := rfl
@[simp] theorem modFrame_ddrPoison (s : State) (n k : Nat) (f : Frame → Frame) : (modFrame s n k f).ddrPoison = s.ddrPoison := rfl
@[simp] theorem modFrame_hostMem (s : State) (n k : Nat) (f : Frame → Frame) : (modFrame s n k f).hostMem = s.hostMem := rfl
@[simp] theorem modFrame_out (s : State) (n k : Nat) (f : Frame → Frame) : (modFrame s n k f).out = s.out := rfl
@[simp] theorem modFrame_freeCtr (s : State) (n k : Nat) (f : Frame → Frame) : (modFrame s n k f).freeCtr = s.freeCtr := rfl

/-! ### `modChan` -/

@[simp] theorem modChan_pending (s : State) (n i : Nat) (f : CoreChan → CoreChan) : (modChan s n i f).pending = s.pending := rfl
@[simp] theorem modChan_regs (s : State) (n i : Nat) (f : CoreChan → CoreChan) : (modChan s n i f).regs = s.regs := rfl
@[simp] theorem modChan_tcount (s : State) (n i : Nat) (f : CoreChan → CoreChan) : (modChan s n i f).tcount = s.tcount := rfl
@[simp] theorem modChan_time (s : State) (n i : Nat) (f : CoreChan → CoreChan) : (modChan s n i f).time = s.time := rfl
@[simp] theorem modChan_ctxs (s : State) (n i : Nat) (f : CoreChan → CoreChan) : (modChan s n i f).ctxs = s.ctxs := rfl
@[simp] theorem modChan_tokens (s : State) (n i : Nat) (f : CoreChan → CoreChan) : (modChan s n i f).tokens = s.tokens := rfl
@[simp] theorem modChan_frames (s : State) (n i : Nat) (f : CoreChan → CoreChan) : (modChan s n i f).frames = s.frames := rfl
@[simp] theorem modChan_fab (s : State) (n i : Nat) (f : CoreChan → CoreChan) : (modChan s n i f).fab = s.fab := rfl
@[simp] theorem modChan_bulk (s : State) (n i : Nat) (f : CoreChan → CoreChan) : (modChan s n i f).bulk = s.bulk := rfl
@[simp] theorem modChan_keys (s : State) (n i : Nat) (f : CoreChan → CoreChan) : (modChan s n i f).keys = s.keys := rfl
@[simp] theorem modChan_nv (s : State) (n i : Nat) (f : CoreChan → CoreChan) : (modChan s n i f).nv = s.nv := rfl
@[simp] theorem modChan_sec (s : State) (n i : Nat) (f : CoreChan → CoreChan) : (modChan s n i f).sec = s.sec := rfl
@[simp] theorem modChan_power (s : State) (n i : Nat) (f : CoreChan → CoreChan) : (modChan s n i f).power = s.power := rfl
@[simp] theorem modChan_pins (s : State) (n i : Nat) (f : CoreChan → CoreChan) : (modChan s n i f).pins = s.pins := rfl
@[simp] theorem modChan_i3c (s : State) (n i : Nat) (f : CoreChan → CoreChan) : (modChan s n i f).i3c = s.i3c := rfl
@[simp] theorem modChan_pcie (s : State) (n i : Nat) (f : CoreChan → CoreChan) : (modChan s n i f).pcie = s.pcie := rfl
@[simp] theorem modChan_pair (s : State) (n i : Nat) (f : CoreChan → CoreChan) : (modChan s n i f).pair = s.pair := rfl
@[simp] theorem modChan_test (s : State) (n i : Nat) (f : CoreChan → CoreChan) : (modChan s n i f).test = s.test := rfl
@[simp] theorem modChan_dailies (s : State) (n i : Nat) (f : CoreChan → CoreChan) : (modChan s n i f).dailies = s.dailies := rfl
@[simp] theorem modChan_jtag (s : State) (n i : Nat) (f : CoreChan → CoreChan) : (modChan s n i f).jtag = s.jtag := rfl
@[simp] theorem modChan_chip (s : State) (n i : Nat) (f : CoreChan → CoreChan) : (modChan s n i f).chip = s.chip := rfl
@[simp] theorem modChan_ddr (s : State) (n i : Nat) (f : CoreChan → CoreChan) : (modChan s n i f).ddr = s.ddr := rfl
@[simp] theorem modChan_ddrPoison (s : State) (n i : Nat) (f : CoreChan → CoreChan) : (modChan s n i f).ddrPoison = s.ddrPoison := rfl
@[simp] theorem modChan_hostMem (s : State) (n i : Nat) (f : CoreChan → CoreChan) : (modChan s n i f).hostMem = s.hostMem := rfl
@[simp] theorem modChan_out (s : State) (n i : Nat) (f : CoreChan → CoreChan) : (modChan s n i f).out = s.out := rfl
@[simp] theorem modChan_freeCtr (s : State) (n i : Nat) (f : CoreChan → CoreChan) : (modChan s n i f).freeCtr = s.freeCtr := rfl

/-! ### `rangeErr` -/

@[simp] theorem rangeErr_pending (s : State) : (rangeErr s).pending = s.pending := rfl
@[simp] theorem rangeErr_tcount (s : State) : (rangeErr s).tcount = s.tcount := rfl
@[simp] theorem rangeErr_time (s : State) : (rangeErr s).time = s.time := rfl
@[simp] theorem rangeErr_cores (s : State) : (rangeErr s).cores = s.cores := rfl
@[simp] theorem rangeErr_ctxs (s : State) : (rangeErr s).ctxs = s.ctxs := rfl
@[simp] theorem rangeErr_tokens (s : State) : (rangeErr s).tokens = s.tokens := rfl
@[simp] theorem rangeErr_frames (s : State) : (rangeErr s).frames = s.frames := rfl
@[simp] theorem rangeErr_fab (s : State) : (rangeErr s).fab = s.fab := rfl
@[simp] theorem rangeErr_bulk (s : State) : (rangeErr s).bulk = s.bulk := rfl
@[simp] theorem rangeErr_keys (s : State) : (rangeErr s).keys = s.keys := rfl
@[simp] theorem rangeErr_nv (s : State) : (rangeErr s).nv = s.nv := rfl
@[simp] theorem rangeErr_sec (s : State) : (rangeErr s).sec = s.sec := rfl
@[simp] theorem rangeErr_power (s : State) : (rangeErr s).power = s.power := rfl
@[simp] theorem rangeErr_pins (s : State) : (rangeErr s).pins = s.pins := rfl
@[simp] theorem rangeErr_i3c (s : State) : (rangeErr s).i3c = s.i3c := rfl
@[simp] theorem rangeErr_pcie (s : State) : (rangeErr s).pcie = s.pcie := rfl
@[simp] theorem rangeErr_pair (s : State) : (rangeErr s).pair = s.pair := rfl
@[simp] theorem rangeErr_test (s : State) : (rangeErr s).test = s.test := rfl
@[simp] theorem rangeErr_dailies (s : State) : (rangeErr s).dailies = s.dailies := rfl
@[simp] theorem rangeErr_jtag (s : State) : (rangeErr s).jtag = s.jtag := rfl
@[simp] theorem rangeErr_chip (s : State) : (rangeErr s).chip = s.chip := rfl
@[simp] theorem rangeErr_ddr (s : State) : (rangeErr s).ddr = s.ddr := rfl
@[simp] theorem rangeErr_ddrPoison (s : State) : (rangeErr s).ddrPoison = s.ddrPoison := rfl
@[simp] theorem rangeErr_hostMem (s : State) : (rangeErr s).hostMem = s.hostMem := rfl
@[simp] theorem rangeErr_out (s : State) : (rangeErr s).out = s.out := rfl
@[simp] theorem rangeErr_freeCtr (s : State) : (rangeErr s).freeCtr = s.freeCtr := rfl

/-! ### `stopCore` -/

@[simp] theorem stopCore_pending (s : State) (n : Nat) (r : StopRec) : (stopCore s n r).pending = s.pending := rfl
@[simp] theorem stopCore_regs (s : State) (n : Nat) (r : StopRec) : (stopCore s n r).regs = s.regs := rfl
@[simp] theorem stopCore_tcount (s : State) (n : Nat) (r : StopRec) : (stopCore s n r).tcount = s.tcount := rfl
@[simp] theorem stopCore_time (s : State) (n : Nat) (r : StopRec) : (stopCore s n r).time = s.time := rfl
@[simp] theorem stopCore_ctxs (s : State) (n : Nat) (r : StopRec) : (stopCore s n r).ctxs = s.ctxs := rfl
@[simp] theorem stopCore_tokens (s : State) (n : Nat) (r : StopRec) : (stopCore s n r).tokens = s.tokens := rfl
@[simp] theorem stopCore_frames (s : State) (n : Nat) (r : StopRec) : (stopCore s n r).frames = s.frames := rfl
@[simp] theorem stopCore_fab (s : State) (n : Nat) (r : StopRec) : (stopCore s n r).fab = s.fab := rfl
@[simp] theorem stopCore_bulk (s : State) (n : Nat) (r : StopRec) : (stopCore s n r).bulk = s.bulk := rfl
@[simp] theorem stopCore_keys (s : State) (n : Nat) (r : StopRec) : (stopCore s n r).keys = s.keys := rfl
@[simp] theorem stopCore_nv (s : State) (n : Nat) (r : StopRec) : (stopCore s n r).nv = s.nv := rfl
@[simp] theorem stopCore_sec (s : State) (n : Nat) (r : StopRec) : (stopCore s n r).sec = s.sec := rfl
@[simp] theorem stopCore_power (s : State) (n : Nat) (r : StopRec) : (stopCore s n r).power = s.power := rfl
@[simp] theorem stopCore_pins (s : State) (n : Nat) (r : StopRec) : (stopCore s n r).pins = s.pins := rfl
@[simp] theorem stopCore_i3c (s : State) (n : Nat) (r : StopRec) : (stopCore s n r).i3c = s.i3c := rfl
@[simp] theorem stopCore_pcie (s : State) (n : Nat) (r : StopRec) : (stopCore s n r).pcie = s.pcie := rfl
@[simp] theorem stopCore_pair (s : State) (n : Nat) (r : StopRec) : (stopCore s n r).pair = s.pair := rfl
@[simp] theorem stopCore_test (s : State) (n : Nat) (r : StopRec) : (stopCore s n r).test = s.test := rfl
@[simp] theorem stopCore_dailies (s : State) (n : Nat) (r : StopRec) : (stopCore s n r).dailies = s.dailies := rfl
@[simp] theorem stopCore_jtag (s : State) (n : Nat) (r : StopRec) : (stopCore s n r).jtag = s.jtag := rfl
@[simp] theorem stopCore_chip (s : State) (n : Nat) (r : StopRec) : (stopCore s n r).chip = s.chip := rfl
@[simp] theorem stopCore_ddr (s : State) (n : Nat) (r : StopRec) : (stopCore s n r).ddr = s.ddr := rfl
@[simp] theorem stopCore_ddrPoison (s : State) (n : Nat) (r : StopRec) : (stopCore s n r).ddrPoison = s.ddrPoison := rfl
@[simp] theorem stopCore_hostMem (s : State) (n : Nat) (r : StopRec) : (stopCore s n r).hostMem = s.hostMem := rfl
@[simp] theorem stopCore_out (s : State) (n : Nat) (r : StopRec) : (stopCore s n r).out = s.out := rfl
@[simp] theorem stopCore_freeCtr (s : State) (n : Nat) (r : StopRec) : (stopCore s n r).freeCtr = s.freeCtr := rfl

end Sys2Proof.Machine
end

