-- ==== Sys2Proof/Laws/Tables.lean ====
section
/-! SUPPORT. Tables and memories: what is read after a write, and the canonical form that every write keeps. -/

namespace Sys2Proof.Machine

/-! ### Tables -/

variable {α : Type}

/-- The entry set is the entry found. -/
@[simp] theorem tfind_tset_same (t : Tbl α) (k : Nat) (v : α) : tfind (tset t k v) k = some v := by
  induction t with
  | nil => simp [tset, tfind]
  | cons e t ih =>
    obtain ⟨j, b⟩ := e
    simp only [tset]
    split
    · simp [tfind]
    · split
      · simp [tfind]
      · rename_i _ h
        simp [tfind, Ne.symm h, ih]

/-- Setting an entry leaves the others. -/
theorem tfind_tset_ne (t : Tbl α) {k m : Nat} (v : α) (h : k ≠ m) : tfind (tset t k v) m = tfind t m := by
  induction t with
  | nil => simp [tset, tfind, h]
  | cons e t ih =>
    obtain ⟨j, b⟩ := e
    simp only [tset]
    split
    · simp [tfind, h]
    · split
      · rename_i _ hk
        subst hk
        simp [tfind, h]
      · simp only [tfind]
        split <;> simp_all

/-- The entry set, read with a default. -/
@[simp] theorem tget_tset_same (t : Tbl α) (k : Nat) (v d : α) : tget (tset t k v) k d = v := by
  simp [tget]

/-- The others, read with a default. -/
theorem tget_tset_ne (t : Tbl α) {k m : Nat} (v d : α) (h : k ≠ m) : tget (tset t k v) m d = tget t m d := by
  simp [tget, tfind_tset_ne t v h]

/-- Of two settings of one entry the later stays. -/
@[simp] theorem tset_tset (t : Tbl α) (k : Nat) (v w : α) : tset (tset t k v) k w = tset t k w := by
  induction t with
  | nil => simp [tset]
  | cons e t ih =>
    obtain ⟨j, b⟩ := e
    simp only [tset]
    split
    · simp [tset]
    · split
      · simp [tset]
      · rename_i h1 h2
        simp [tset, h1, h2, ih]

/-- Every key of a table lies above `lo`. -/
def above (lo : Nat) (t : Tbl α) : Prop := ∀ e ∈ t, lo < e.1

/-- Keys rise from the first on. -/
theorem tsorted_cons {j : Nat} {b : α} {t : Tbl α} :
    tsorted ((j, b) :: t) = true ↔ above j t ∧ tsorted t = true := by
  induction t generalizing j b with
  | nil => simp [tsorted, above]
  | cons e t ih =>
    obtain ⟨k, c⟩ := e
    simp only [tsorted, Bool.and_eq_true, decide_eq_true_eq]
    constructor
    · rintro ⟨h, hs⟩
      refine ⟨?_, hs⟩
      intro x hx
      rcases List.mem_cons.1 hx with rfl | hx
      · exact h
      · exact lt_trans h ((ih.1 hs).1 x hx)
    · rintro ⟨h, hs⟩
      exact ⟨h _ (List.mem_cons_self ..), hs⟩

/-- An entry above a bound keeps the table above it. -/
theorem above_tset {lo k : Nat} {v : α} {t : Tbl α} (h : above lo t) (hk : lo < k) : above lo (tset t k v) := by
  induction t with
  | nil => simpa [tset, above] using hk
  | cons e t ih =>
    obtain ⟨j, b⟩ := e
    have ht : above lo t := fun x hx => h x (List.mem_cons_of_mem _ hx)
    have hj : lo < j := h _ (List.mem_cons_self ..)
    simp only [tset]
    split
    · intro x hx
      rcases List.mem_cons.1 hx with rfl | hx
      · exact hk
      · exact h x hx
    · split
      · intro x hx
        rcases List.mem_cons.1 hx with rfl | hx
        · exact hk
        · exact ht x hx
      · intro x hx
        rcases List.mem_cons.1 hx with rfl | hx
        · exact hj
        · exact ih ht x hx

/-- Setting an entry keeps the keys rising. -/
theorem tsorted_tset {k : Nat} {v : α} {t : Tbl α} (h : tsorted t = true) : tsorted (tset t k v) = true := by
  induction t with
  | nil => simp [tset, tsorted]
  | cons e t ih =>
    obtain ⟨j, b⟩ := e
    obtain ⟨ha, hs⟩ := tsorted_cons.1 h
    simp only [tset]
    split
    · rename_i hk
      refine tsorted_cons.2 ⟨?_, h⟩
      intro x hx
      rcases List.mem_cons.1 hx with rfl | hx
      · exact hk
      · exact lt_trans hk (ha x hx)
    · split
      · rename_i hk
        subst hk
        exact tsorted_cons.2 ⟨ha, hs⟩
      · rename_i h1 h2
        exact tsorted_cons.2 ⟨above_tset ha (by omega), ih hs⟩

/-! ### Memories -/

/-- A memory's keys rise, and its bytes are not 0. -/
theorem memWf_iff {m : Mem} : memWf m = true ↔ tsorted m = true ∧ ∀ c ∈ m, c.2 ≠ 0 := by
  simp [memWf]

/-- What the head and the tail of a memory in canonical form are. -/
theorem memWf_cons {j : Nat} {b : Byte} {t : Mem} :
    memWf ((j, b) :: t) = true ↔ b ≠ 0 ∧ above j t ∧ memWf t = true := by
  simp only [memWf_iff, tsorted_cons, List.mem_cons, forall_eq_or_imp]
  tauto

/-- A byte above a bound keeps the memory above it. -/
theorem above_mset {lo k : Nat} {v : Byte} {m : Mem} (h : above lo m) (hk : lo < k) : above lo (mset m k v) := by
  induction m with
  | nil =>
    simp only [mset]
    split
    · exact h
    · simpa [above] using hk
  | cons e t ih =>
    obtain ⟨j, b⟩ := e
    have ht : above lo t := fun x hx => h x (List.mem_cons_of_mem _ hx)
    simp only [mset]
    split
    · split
      · exact h
      · intro x hx
        rcases List.mem_cons.1 hx with rfl | hx
        · exact hk
        · exact h x hx
    · split
      · split
        · exact ht
        · intro x hx
          rcases List.mem_cons.1 hx with rfl | hx
          · exact hk
          · exact ht x hx
      · intro x hx
        rcases List.mem_cons.1 hx with rfl | hx
        · exact h _ (List.mem_cons_self ..)
        · exact ih ht x hx

/-- A write of one byte keeps the canonical form. -/
theorem memWf_mset {k : Nat} {v : Byte} {m : Mem} (h : memWf m = true) : memWf (mset m k v) = true := by
  induction m with
  | nil =>
    simp only [mset]
    split
    · exact h
    · rename_i hv
      simpa [memWf, tsorted] using hv
  | cons e t ih =>
    obtain ⟨j, b⟩ := e
    obtain ⟨hb, ha, ht⟩ := memWf_cons.1 h
    simp only [mset]
    split
    · rename_i hk
      split
      · exact h
      · rename_i hv
        refine memWf_cons.2 ⟨hv, ?_, h⟩
        intro x hx
        rcases List.mem_cons.1 hx with rfl | hx
        · exact hk
        · exact lt_trans hk (ha x hx)
    · split
      · rename_i hk
        subst hk
        split
        · exact ht
        · rename_i hv
          exact memWf_cons.2 ⟨hv, ha, ht⟩
      · exact memWf_cons.2 ⟨hb, above_mset ha (by omega), ih ht⟩

/-- Writes of bytes keep the canonical form. -/
theorem memWf_mwrite {m : Mem} {a : Nat} {bs : Bytes} (h : memWf m = true) : memWf (mwrite m a bs) = true := by
  induction bs generalizing m a with
  | nil => exact h
  | cons b bs ih => exact ih (memWf_mset h)

/-- Reading below every key finds nothing. -/
theorem tfind_above {lo : Nat} {t : Tbl α} (h : above lo t) : tfind t lo = none := by
  induction t with
  | nil => rfl
  | cons e t ih =>
    obtain ⟨j, b⟩ := e
    have hj : lo < j := h _ (List.mem_cons_self ..)
    simp only [tfind]
    rw [if_neg (by omega)]
    exact ih fun x hx => h x (List.mem_cons_of_mem _ hx)

/-- The byte written is the byte read, in a memory in canonical form. -/
theorem mget_mset_same {m : Mem} {k : Nat} {v : Byte} (h : memWf m = true) : mget (mset m k v) k = v := by
  induction m with
  | nil =>
    simp only [mset]
    split <;> simp_all [mget, tget, tfind]
  | cons e t ih =>
    obtain ⟨j, b⟩ := e
    obtain ⟨hb, ha, ht⟩ := memWf_cons.1 h
    simp only [mset]
    split
    · rename_i hk
      split
      · rename_i hv
        have hn : tfind t k = none := tfind_above fun x hx => lt_trans hk (ha x hx)
        simp [mget, tget, tfind, hn, hv, show ¬j = k by omega]
      · simp [mget, tget, tfind]
    · split
      · rename_i hk
        subst hk
        split
        · rename_i hv
          simp [mget, tget, tfind_above ha, hv]
        · simp [mget, tget, tfind]
      · rename_i h1 h2
        have := ih ht
        simp only [mget, tget, tfind] at this ⊢
        rw [if_neg (by omega)]
        exact this

/-- A write of one byte leaves the others. -/
theorem mget_mset_ne {m : Mem} {k a : Nat} {v : Byte} (h : k ≠ a) : mget (mset m k v) a = mget m a := by
  induction m with
  | nil =>
    simp only [mset]
    split <;> simp [mget, tget, tfind, h]
  | cons e t ih =>
    obtain ⟨j, b⟩ := e
    simp only [mset]
    split
    · split <;> simp [mget, tget, tfind, h]
    · split
      · rename_i _ hk
        subst hk
        split <;> simp [mget, tget, tfind, h]
      · simp only [mget, tget, tfind] at ih ⊢
        split
        · rfl
        · exact ih

/-- Writes of bytes leave the addresses outside them. -/
theorem mget_mwrite_ne {m : Mem} {a x : Nat} {bs : Bytes} (h : x < a ∨ a + bs.length ≤ x) :
    mget (mwrite m a bs) x = mget m x := by
  induction bs generalizing m a with
  | nil => rfl
  | cons b bs ih =>
    simp only [List.length_cons] at h
    simp only [mwrite]
    rw [ih (by omega), mget_mset_ne (by omega)]

end Sys2Proof.Machine
end

