-- ==== Sys2Proof/Laws/Registers.lean ====
section
/-! SUPPORT. Register fields: what is read after a write of the same field and of another, counters, writes in parts, and
the two conditions under which a command reaches the device: its clock runs, and BAR0 is served. -/

namespace Sys2Proof.Machine

/-- A field reads the value written, cut to its width. -/
@[simp] theorem fget_fset_same (s : State) (f : Fld) (i j v : Nat) : fget (fset s f i j v) f i j = v % 2 ^ f.w := by
  simp [fget, fset]

/-- A write of a field leaves every field kept in another place. -/
theorem fget_fset_ne {s : State} {f g : Fld} {i j a b v : Nat} (h : f.key i j ≠ g.key a b) :
    fget (fset s f i j v) g a b = fget s g a b := by
  simp [fget, fset, tget_tset_ne _ _ _ h]

/-- A field is read from the register file alone. -/
theorem fget_congr {s t : State} (h : s.regs = t.regs) (f : Fld) (i j : Nat) : fget s f i j = fget t f i j := by
  simp [fget, h]

/-- A one-bit field is read from the register file alone. -/
theorem fbit_congr {s t : State} (h : s.regs = t.regs) (f : Fld) (i j : Nat) : fbit s f i j = fbit t f i j := by
  simp [fbit, fget, h]

/-- A counter reads the raised value, or its largest. -/
theorem fget_fcount_same (s : State) (f : Fld) (i j n : Nat) :
    fget (fcount s f i j n) f i j = min (2 ^ f.w - 1) (fget s f i j + n) := by
  have h : 0 < 2 ^ f.w := Nat.two_pow_pos _
  simp only [fcount, fget_fset_same]
  exact Nat.mod_eq_of_lt (by omega)

/-- A counter leaves every field kept in another place. -/
theorem fget_fcount_ne {s : State} {f g : Fld} {i j a b n : Nat} (h : f.key i j ≠ g.key a b) :
    fget (fcount s f i j n) g a b = fget s g a b := fget_fset_ne h

/-- The register file of a field write. -/
theorem fset_regs' (s : State) (f : Fld) (i j v : Nat) : (fset s f i j v).regs = tset s.regs (f.key i j) (v % 2 ^ f.w) := rfl

/-- A field outside the half of a write is left. -/
theorem writeField_uncovered {w : RegWrite} {f : Fld} (h : covered w.half f = false) (s : State) (i j : Nat) :
    writeField w i j s f = s := by
  simp [writeField, h]

/-- A covered field takes the value, where it is in range. -/
theorem writeField_taken {w : RegWrite} {f : Fld} (hc : covered w.half f = true) (hr : rangeOk f (wval w f) = true)
    (s : State) (i j : Nat) : writeField w i j s f = fset s f i j (wval w f) := by
  simp [writeField, hc, hr]

/-- A covered field out of range is left, and counted. -/
theorem writeField_range {w : RegWrite} {f : Fld} (hc : covered w.half f = true) (hr : rangeOk f (wval w f) = false)
    (s : State) (i j : Nat) : writeField w i j s f = rangeErr s := by
  simp [writeField, hc, hr]

/-- The three things a write can do to a field. -/
theorem writeField_cases (w : RegWrite) (i j : Nat) (s : State) (f : Fld) :
    writeField w i j s f = s ∨ writeField w i j s f = fset s f i j (wval w f) ∨ writeField w i j s f = rangeErr s := by
  simp only [writeField]
  split
  · exact .inl rfl
  · split
    · exact .inr (.inl rfl)
    · exact .inr (.inr rfl)

/-- A write that BAR0 takes is the write. -/
theorem onBar_open {aon : Bool} {s : State} (h : writeOpen s aon = true)
    (f : State → Host.Outcome State Fault Refusal) : onBar aon s f = f s := by
  simp [onBar, h]

/-- A write that BAR0 does not take changes nothing. -/
theorem onBar_shut {aon : Bool} {s : State} (h : writeOpen s aon = false)
    (f : State → Host.Outcome State Fault Refusal) : onBar aon s f = .next s := by
  simp [onBar, h]

/-- A command whose clock runs takes effect. -/
theorem onClock_runs {s : State} {d : ScanDomain} (h : clockRuns s d = true)
    (f : State → Host.Outcome State Fault Refusal) : onClock s d f = f s := by
  simp [onClock, h]

/-- Nothing steps while its clock stands. -/
theorem onClock_stands {s : State} {d : ScanDomain} (h : clockRuns s d = false)
    (f : State → Host.Outcome State Fault Refusal) : onClock s d f = .next s := by
  simp [onClock, h]

end Sys2Proof.Machine
end

