-- ==== Sys2Proof/Laws/Records.lean ====
section
/-! SUPPORT. Cores, contexts and what the shared operations over them can do: a record read after an update of the same
record and of another, what a refusal, an interrupt and a stop change. -/

namespace Sys2Proof.Machine

/-- The core that was set is the core read. -/
@[simp] theorem core_setCore_same (s : State) (n : Nat) (c : Core) : core (setCore s n c) n = c := by
  simp [core]

/-- Setting a core leaves the others. -/
theorem core_setCore_ne {s : State} {n m : Nat} {c : Core} (h : n ≠ m) : core (setCore s n c) m = core s m := by
  simp [core, tget_tset_ne _ _ _ h]

/-- The core that was updated. -/
@[simp] theorem core_modCore_same (s : State) (n : Nat) (f : Core → Core) : core (modCore s n f) n = f (core s n) := by
  simp [modCore]

/-- An update of a core leaves the others. -/
theorem core_modCore_ne {s : State} {n m : Nat} {f : Core → Core} (h : n ≠ m) : core (modCore s n f) m = core s m :=
  core_setCore_ne h

/-- Two updates of one core are one. -/
@[simp] theorem setCore_setCore (s : State) (n : Nat) (c d : Core) : setCore (setCore s n c) n d = setCore s n d := by
  simp [setCore]

/-- A core does not depend on the registers. -/
@[simp] theorem core_fset (s : State) (f : Fld) (i j v n : Nat) : core (fset s f i j v) n = core s n := rfl

/-- A field does not depend on the cores. -/
@[simp] theorem fget_setCore (s : State) (n : Nat) (c : Core) (f : Fld) (i j : Nat) :
    fget (setCore s n c) f i j = fget s f i j := rfl

/-- A field does not depend on the contexts. -/
@[simp] theorem fget_setCtx (s : State) (r : Nat) (x : Ctx) (f : Fld) (i j : Nat) :
    fget (setCtx s r x) f i j = fget s f i j := rfl

/-- The context that was set is the context read. -/
@[simp] theorem ctx_setCtx_same (s : State) (r : Nat) (x : Ctx) : ctx (setCtx s r x) r = x := by
  simp [ctx]

/-- Setting a context leaves the others. -/
theorem ctx_setCtx_ne {s : State} {r q : Nat} {x : Ctx} (h : r ≠ q) : ctx (setCtx s r x) q = ctx s q := by
  simp [ctx, tget_tset_ne _ _ _ h]

/-- The frame that was updated. -/
@[simp] theorem frameOf_modFrame_same (s : State) (n k : Nat) (f : Frame → Frame) :
    frameOf (core (modFrame s n k f) n) k = f (frameOf (core s n) k) := by
  simp [modFrame, frameOf]

/-- An interrupt summary sets its bit and may send one message. -/
theorem glbIrq_cases (s : State) (f : Fld) :
    glbIrq s f = fset s f 0 0 1 ∨
      glbIrq s f = emit (fset s f 0 0 1) (.msix (BitVec.ofNat 8 (fget s F.glbIrqcfgIrq 0 0))) := by
  simp only [glbIrq, signal]
  split
  · exact .inr rfl
  · exact .inl rfl

/-- A refusal touches the registers and the messages sent, and nothing else. -/
theorem refuse_frame (s : State) (source index code : Nat) :
    ∃ rs o, refuse s source index code = { s with regs := rs, out := o } := by
  simp only [refuse, glbIrq, signal]
  split
  · exact ⟨_, _, rfl⟩
  · exact ⟨_, _, rfl⟩

/-- A stop met by a core is kept beside it, and changes nothing else of the core. -/
theorem stopCore_core (s : State) (n : Nat) (r : StopRec) :
    core (stopCore s n r) n = { core s n with stop := mergeStop (core s n).stop r } := by
  simp [stopCore]

end Sys2Proof.Machine
end

