-- ==== Sys2Proof/Tests/Slice0.lean ====
section
/-! SUPPORT. Tests: ill-formed commands, a state that meets the hypotheses of each statement, and one step of some
commands with the results the manual gives. -/

open Sys2Proof Sys2Proof.Machine

namespace Sys2Proof.Tests

set_option Elab.async false

/-! ### States to test on -/

/-- Power up, the host link in L0, ready. -/
def up : State :=
  fset (fset { State.reset with
    pins := { State.reset.pins with vaux := true, pwrEn := true, perstN := true, pwrOk := true }
    power := { State.reset.power with railsUp := true }
    pcie := ⟨false, true, false, false⟩ } F.pwrStatState 0 0 0) F.hostStatReady 0 0 1

/-- A write of a whole register. -/
def wr (v : Nat) : RegWrite := ⟨.both, BitVec.ofNat 64 v⟩

/-- A tensor descriptor of `rows` by 1 elements of a format, rows 32 bytes apart, its mask at byte 512. -/
def td (base fmt rows : Nat) (mask : Bool := false) : BitVec 256 :=
  BitVec.ofNat 256 (base + fmt * 2 ^ 20 + (if mask then 2 ^ 25 else 0) + rows * 2 ^ 32 + 32 * 2 ^ 64 + 512 * 2 ^ 96)

/-- The image of one virtual core with a wide-form area, a receive channel 0 and a send channel 1. -/
def ci : CoreImage where
  vx := 0
  vy := 0
  granules := 5
  segments := 1
  wide := some 2
  classes := [0, 1, 2, 2]
  entries := [(0, 0)]
  code := []
  descs := []
  chans := [.recv false, .send (.core none none 0 0 0)]
  data := []
  mailboxes := []
  carried := []

def img : Image where
  width := 1
  height := 1
  profile := 1
  cores := [ci]
  groups := [⟨3, [(0, 0, 0)]⟩]
  splits := []
  fast := false
  fpAtomics := false
  entropy := false
  recvAny := false
  deadline := false
  keySlots := []
  mirror := false
  powerFloor := 0
  floats := [(1, [ci])]
  fallbacks := []

/-- A step that has launched on core 0. -/
def stp : Step where
  id := 9
  num := 0
  entry := 0
  gen := 0
  floating := false
  args := []
  reqid := 0
  remain := 0
  deadline := 0
  launchAt := none
  count := 0
  acceptTc := 0
  launched := true
  begun := true
  launchTc := 0
  seed := 0
  nonrepro := false
  fallback := none
  reelGen := 0
  reelDig := 0
  cores := [⟨0, 0, 0, .running⟩]
  outcomes := []
  diverged := false
  trapped := 0
  poisoned := 0
  retakes := 0
  contribs := []
  logged := []
  slate := 0
  result := 0
  status := 0
  endTc := 0
  pairWait := false

/-- The frame of the take: five granules, one code segment; descriptors of FP32 tiles, s1 and s2 name one accumulator
each, s3 a stream, s5 a mover descriptor, s30 and s31 the status words. -/
def fr0 : Frame :=
  { frameInit with
    gran := [0, 1, 2, 3, 4], segs := [0], vl := 1
    t := [(0, td 0 0 1), (1, td 64 0 1), (2, td 128 0 1), (3, td 192 0 1 true), (4, td 256 1 1), (5, td 320 1 1),
          (6, td 384 1 1), (7, td 448 1 1), (8, td 544 1 1), (9, td 608 1 1), (10, td 672 0 1), (11, td 736 0 1)]
    s := [(1, 1024), (2, 1025), (3, 4096), (5, 8192), (6, 70000), (19, 1024), (27, 1024), (30, 1024), (31, 2048)] }

/-- Core 0 with the take of slot 0. -/
def c0 : Core :=
  { coreInit ⟨1, 0xB0⟩ 0 with
    running := some 0, vmap := [(0, (0, 0))], frames := [(0, fr0)], recv := [(0, 1)]
    granOwner := (List.range 5).map fun g => (g, 0), segOwner := [(0, 0)] }

/-- Context 0 in slot 0 with the step in progress on core 0. -/
def x0 : Ctx := { ctxInit with st := .resident, slot := some 0, img := some img, map := [(0, 0, 0)], step := some stp }

/-- A device that runs one take. -/
def run : State := { up with cores := [(0, c0)], ctxs := [(0, x0)] }

/-- The same outside determinism enforcement. -/
def runFree : State := fset run F.glbDetEnf 0 0 0

/-- A mover descriptor for one line: kind, the byte of spaces, addresses. -/
def md (kind spaces src dst aux : Nat) (rec : Nat := 0) : Bytes :=
  leBytes 8 (kind + spaces * 2 ^ 8 + 64 * 2 ^ 32) ++ leBytes 8 src ++ leBytes 8 dst ++ leBytes 8 aux ++ leBytes 8 0 ++
    leBytes 8 0 ++ leBytes 8 rec ++ leBytes 8 0

/-- The device with a mover descriptor at view address 8192, which s5 names. -/
def runMove (d : Bytes) : State := modCore run 0 fun c => vwrite c fr0 8192 d

/-- The device with a staged tile in each queue. -/
def runStaged : State :=
  let s := effStage run (slotCx 0 0 (Machine.core run 0) 1) false 1
  effStage s (slotCx 0 0 (Machine.core s 0) 1) true 2

/-! ### Ill-formed commands, one for each kind of check -/

/-- A packet with every field 0 but its type. -/
def pk (type : Nat) : Packet := ⟨type, 0, 0, 0, 0, 0, 0, [], 0, 0, 0, 0, 0⟩

theorem wf_rejects_writes :
    (Instr.tcSet ⟨.low, 0x1_0000_0000⟩).wf = false ∧ (Instr.tcSet ⟨.high, 1⟩).wf = false ∧
    (Instr.resume 0 ⟨.high, 1⟩ none).wf = false ∧ (Instr.resume 0 (wr 1) (some [0])).wf = false ∧
    (Instr.reelLoad 0 ⟨.high, 1⟩ none).wf = false ∧ (Instr.capWrite .pcie ⟨.high, 1⟩).wf = false ∧
    (Instr.rcRead 0 0).wf = false ∧ (Instr.rcRead (2 ^ 26 - 4) 8).wf = false ∧
    (Instr.registerWrite (2 ^ 26) 4 0).wf = false ∧ (Instr.bar2Access (2 ^ 34) 1 none).wf = false ∧
    (Instr.bar2Access 0 0 none).wf = false ∧ (Instr.ingestWrite 0 []).wf = false ∧
    (Instr.ingestWrite (2 ^ 34) [0]).wf = false := by
  decide

theorem wf_rejects_lengths :
    (Instr.callSheetPoll [⟨0, none, [some []]⟩]).wf = false ∧ (Instr.replaySubmit 0 []).wf = false ∧
    (Instr.replaySubmit 0 [⟨1, 0, 0, 0, [], [], List.replicate 64 0⟩]).wf = false ∧
    (Instr.ddrRead 0 0 [] []).wf = false ∧ (Instr.patrolScrub 0 0 (List.replicate 40 0) [] false).wf = false ∧
    (Instr.timecal 0 []).wf = false ∧ (Instr.relaneComplete 0 true []).wf = false ∧
    (Instr.flitReceive 0 0 [] []).wf = false ∧ (Instr.ddrTrainingDone []).wf = false ∧
    (Instr.thermalStep [0]).wf = false ∧ (Instr.bootCheck ⟨[], [], [], true, true⟩).wf = false ∧
    (Instr.mirrorStepCommit 0 true (some ⟨0, [(0, [], [])]⟩)).wf = false ∧ (Instr.resync 0 [⟨0, [], []⟩]).wf = false := by
  decide

theorem wf_rejects_longer :
    (Instr.flitReceive 0 0 (List.replicate 224 0) (List.replicate 23 0)).wf = false ∧
    (Instr.reelChunk 0 0 0 (List.replicate 65553 0)).wf = false := by
  decide +kernel

theorem wf_rejects_numbers :
    (Instr.pageAccess 0 (2 ^ 48) false).wf = false ∧ (Instr.placementTimeout 0 (2 ^ 48)).wf = false ∧
    (Instr.writePkt 0 (pk 2)).wf = false ∧ (Instr.readReq 0 (pk 1)).wf = false ∧ (Instr.readResp 0 (pk 4)).wf = false ∧
    (Instr.ack 0 (pk 3)).wf = false ∧ (Instr.tokenPacket 0 (pk 1)).wf = false ∧ (Instr.atomic 0 (pk 7)).wf = false ∧
    (Instr.coll 0 (pk 6)).wf = false ∧ (Instr.coll 0 { pk 7 with dst := 4096 }).wf = false ∧
    (Instr.pcieLinkL0 128 16 true).wf = false := by
  decide

theorem wf_accepts :
    (Instr.tcSet ⟨.low, 0xFFFF_FFFF⟩).wf = true ∧ (Instr.pageAccess 0 (2 ^ 48 - 1) true).wf = true ∧
    (Instr.coll 0 { pk 7 with dst := 4095 }).wf = true ∧ (Instr.rcRead (2 ^ 26 - 8) 8).wf = true := by
  decide

/-! ### The queue (StepRunsTheFrontCommand, IdleCountsTheTimecode, the invariants) -/

theorem wit_front : ({ up with pending := [.heartbeat, .warmReset] } : State).pending = .heartbeat :: [.warmReset] := rfl

theorem wit_idle :
    up.pending = [] ∧ up.ctxs = [] ∧ up.test.online = none ∧ countRuns up = true ∧ up.time.slew = 0 ∧
    countRuns State.reset = false ∧ up.fab.stalled = [] ∧ up.fab.ports = [] ∧ portInit.nakOwed = false ∧
    portInit.ackOwed = false ∧ portInit.owed = [] ∧ portInit.out = [] := by decide

theorem wit_completes : (Instr.heartbeat).wf = true := rfl

theorem wit_kept : ∃ t, step up = .next t := ⟨_, rfl⟩

theorem wit_memOk : up.MemOk := ⟨by decide, by decide, by decide⟩

theorem test_idle : (match step up with | .next t => t.tcount | _ => 0) = 1 := by decide

/-! ### Bundles -/

theorem wit_control_ready :
    ([.loop ⟨0, true, 1, 3⟩, .br ⟨false, 0, 255⟩, .brSet ⟨1, 6, 1, 2⟩, .waittok ⟨0, true, 1⟩, .recvAny ⟨4, 1⟩,
      .sendtok ⟨1, true, 1⟩, .action ⟨3, 4⟩, .cut, .fence 0, .slate ⟨0, 3⟩, .trapcfg false, .endStep] : List CInstr).all
      (fun i => (ofC 0 i).isSome && ready runFree 0 0 (onlyC i)) = true ∧
    ready run 0 0 (nextSlots run 0) = true := by decide +kernel

theorem wit_matrix_ready :
    ([.mcfg ⟨0, 0, 0, 0, false⟩, .mstagea 1, .mstageb 1, .mdrain, .mew ⟨4, 5, 6, 0, 0⟩, .spadd ⟨1, 1⟩,
      .spmerge ⟨1, 2, false⟩, .spround ⟨0, 1, 0, true⟩, .spexport ⟨3, 1, false⟩, .spimport ⟨3, 1⟩] : List MInstr).all
      (fun i => (ofM 0 i).isSome && ready run 0 0 (onlyM i)) = true ∧
    ready runStaged 0 0 (onlyM (.mmul ⟨false, 0, 0⟩)) = true ∧
    ready runStaged 0 0 (onlyM (.mmul ⟨true, 0, 0⟩)) = true := by decide +kernel

/-- The operands of a vector instruction: t0 := op (t1, t2). -/
def vz : VecF := ⟨0, 1, 2, 0, false, 0, false⟩

theorem wit_vector_ready :
    ([(.vadd, vz), (.vmul, vz), (.vfma, { vz with x := 1 }), (.vmax, vz), (.vcmp, { vz with t := 3 }),
      (.vsel, { vz with x := 3 }), (.vcvt, { vz with b := 0 }), (.vred, { vz with b := 1 }), (.vexp, { vz with b := 0 }),
      (.vlog, { vz with b := 0 }), (.vrsq, { vz with b := 0 }), (.vrcp, { vz with b := 0 }), (.vtanh, { vz with b := 0 }),
      (.vsig, { vz with b := 0 }), (.vgelu, { vz with b := 0 }), (.vsin, { vz with b := 0 }), (.vcos, { vz with b := 0 }),
      (.vrand, { vz with x := 1, a := 0, b := 0 }), (.vrowreplay, { vz with x := 4, b := 0 })] : List (VOp × VecF)).all
      (fun p => ready run 0 0 (onlyV (.vec p.1 p.2)) &&
        (lowest (vCauses run (slotCx 0 0 (Machine.core run 0) 2) (.vec p.1 p.2))).isNone) = true ∧
    ready run 0 0 (onlyV (.vupd ⟨8, 4, 8, false, false⟩)) = true ∧
    lowest (vCauses run (slotCx 0 0 (Machine.core run 0) 2) (.vupd ⟨8, 4, 8, false, false⟩)) = none := by decide +kernel

/-- Each transfer instruction on its channel with a descriptor of its kind. -/
theorem wit_transfers_start :
    ([(.xfer, md 1 0 12288 16384 0, 0), (.movg, md 2 0x18 12288 0 0, 0), (.hash, md 3 0 12288 16384 0, 0),
      (.fill, md 4 0 0 16384 7, 2), (.cmpm, md 5 0 12288 0 20480 16384, 2), (.swp, md 6 0x10 12288 0 0, 1)] :
        List (MKind × Bytes × BitVec 2)).all
      (fun p => ready (runMove p.2.1) 0 0 (onlyD (.move p.1 ⟨p.2.2, 5⟩)) &&
        (lowest (descCodes (runMove p.2.1) (some (0, 0)) none
          (chanClass (runMove p.2.1) (slotCx 0 0 (Machine.core (runMove p.2.1) 0) 3) p.2.2) (kindCode p.1) p.2.1)).isNone) = true := by
  decide +kernel

theorem wit_register_forms :
    ([.seti ⟨4, 0x8000⟩, .sethi ⟨31, 1⟩, .salu ⟨7, 4, 5, 6⟩, .tadj ⟨0, 3, true, 5⟩, .setvl 5] : List DInstr).all
      (fun i => ready run 0 0 (onlyD i)) = true ∧ 65536 < (sreg fr0 6).toNat := by decide +kernel

theorem wit_branches :
    (brTaken fr0 ⟨false, 0, 3⟩ = true) ∧ (brTaken fr0 ⟨true, 0, 3⟩ = false) ∧
    ready run 0 0 (onlyC (.br ⟨true, 0, 3⟩)) = true ∧ ready run 0 0 (onlyC (.loop ⟨3, false, 0, 1⟩)) = true ∧
    ready run 0 0 (onlyC (.trapcfg false)) = true ∧ ready run 0 0 (onlyC (.brSet ⟨7, 6, 1, 2⟩)) = true := by
  decide +kernel

/-- A bundle with a reserved comparison, one that waits for a token, one that waits for a staged tile. -/
theorem wit_no_issue :
    issuer run 0 = some 0 ∧ outerHold run 0 0 = .ok ∧
    (frameOf c0 0).pc < codeSize (frameOf c0 0) ∧
    bundleBad run 0 0 (onlyC (.brSet ⟨1, 7, 0, 0⟩)) = some (0, 2) ∧
    bundleBad run 0 0 (onlyC (.waittok ⟨0, true, 2⟩)) = none ∧
    bundleWait run 0 0 (onlyC (.waittok ⟨0, true, 2⟩)) = .hold 4 ∧
    bundleBad runStaged 0 0 (onlyM (.mcfg ⟨0, 0, 0, 0, false⟩)) = none ∧
    bundleWait runStaged 0 0 (onlyM (.mcfg ⟨0, 0, 0, 0, false⟩)) = .issue ∧
    issuer up 0 = none := by decide +kernel

/-! ### A core's own events -/

/-- The device with core 0 changed. -/
def withCore (f : Core → Core) : State := modCore run 0 f

/-- A stop cause: an illegal instruction. -/
def badStop : StopRec := ⟨2, 0, 2, 0, 0xFFFFFFFF, 0xFFFF, 0xFFFF, 0xFF, 0⟩

theorem wit_core_events :
    clockRuns run (coreClock 0) = true ∧ (Machine.core run 0).running = some 0 ∧
    (Machine.core (withCore fun c => { c with hold := 4 }) 0).hold = 4 ∧ nextWait (withCore fun c => { c with hold := 4 }) 0 0 = .ok ∧
    (Machine.core (withCore fun c => { c with flight := [.part true false ⟨1023, 54, 1, 0, false, 0, false, true, 0, 0⟩] }) 0).hold = 0 ∧
    500000 ≤ (frameOf (Machine.core (withCore fun c =>
      { c with frames := [(0, { fr0 with takecyc := 500000 })] }) 0) 0).takecyc ∧
    coreQuiet (Machine.core (withCore fun c => { c with stop := some badStop }) 0) 0 = true ∧
    keyCtx run 0 = some 0 ∧ (keyStep run 0 0).isSome = true ∧ keyPlace run 0 0 = some (0, 0) := by decide +kernel

/-! ### Numbers -/

theorem wit_sums :
    inUnits ⟨3, 0⟩ (-480) = some (3 * 2 ^ 480) ∧ fits 768 (3 * 2 ^ 480) = true ∧
    numVal (.fin false 3 0) = some (3 * 2 ^ (0 : Int)) := by
  refine ⟨by decide +kernel, by decide +kernel, ?_⟩
  simp [numVal]

/-- A core whose accumulator 0 holds 1 in a window. -/
theorem wit_accumulator :
    memWf c0.scratch = true ∧ fr0.gran.Nodup ∧ wideAt 2 1023 + 96 ≤ viewLen fr0 ∧
    inUnits (dyAdd (accVal c0 fr0 2 1023) ⟨-1, -480⟩) (-480) = some (-1) ∧ fits 768 (-1) = true ∧
    fits 768 (2 ^ 767 - 1) = true ∧ fits 768 (2 ^ 767) = false := by decide +kernel

theorem wit_round_trip : (3 : Nat) < 2 ^ fmtBits .e5m2 ∧ (numVal (decodeElem .e5m2 3 0)).isSome = true ∧
    (numVal (decodeElem .fp32 0x7F7FFFFF 0)).isSome = true := by
  refine ⟨by decide, by decide, by decide⟩

theorem wit_vector_frame :
    lowest (vCauses run (slotCx 0 0 (Machine.core run 0) 2) (.vec .vadd vz)) = none ∧
    (∀ r ∈ vWrites (slotCx 0 0 (Machine.core run 0) 2) (.vec .vadd vz), ∀ j, j < r.2 → vphys fr0 (r.1 + j) ≠ 32767) := by
  decide +kernel

/-! ### Movers -/

/-- Channel 2 of core 0 with a transfer of a kind, some bursts issued, some under way. -/
def runChan (d : Bytes) (issued : Nat) (landed : List Nat) (flight : List Burst) : State :=
  modCore run 0 fun c => { c with chans := [(2, { chanInit with
    xfer := some { xferNew d 0 0 9 with issued := issued, landed := landed, flight := flight } })] }

/-- The channel of `runChan`. -/
def ch2 : ChanRef := .core 0 2

theorem wit_burst_issue :
    clockRuns run (chanClock ch2) = true ∧
    (let s := runChan (md 4 0 0 16384 7) 0 [] []
     (chXfer s ch2).any (fun x => decide (x.issued < xfBursts x.desc) && !chHeld s ch2 && released s ch2 x 0) = true) ∧
    (let s := runChan (md 1 0 12288 16384 0) 0 [] []
     (chXfer s ch2).any (fun x => decide (x.issued < xfBursts x.desc) && released s ch2 x 0 &&
       (match spaceRead s ch2 x 0 0 12288 64 with | (_, .data bs _) => bs.length == 64 | _ => false)) = true) := by
  decide +kernel

theorem wit_burst_land :
    ((chXfer (runChan (md 1 0 12288 16384 0) 1 [] [⟨0, 0, 64, some (List.replicate 64 1), [], []⟩]) ch2).any fun x =>
      x.flight.any (fun y => y.k == 0 && y.data.isSome) && x.landed.length + 1 == xfBursts x.desc &&
        !inputHeld run ch2 x && !reqOut run ch2 0) = true ∧
    ((chXfer (runChan (md 3 0 12288 16384 0) 1 [] [⟨0, 0, 64, some (List.replicate 64 1), [], []⟩]) ch2).any fun x =>
      xfKind x.desc == 3 && x.flight.any (fun y => y.data.isSome)) = true ∧
    ((chXfer (runChan (md 1 4 0 16384 0) 1 [] [⟨0, 0, 64, none, [], []⟩]) ch2).any fun x =>
      xfSsp x.desc == 4 && (x.flight.find? (fun y => y.k == 0 && y.data.isNone)).any (fun b => b.len == 64)) = true := by
  decide +kernel

theorem wit_channel :
    ((chXfer (runChan (md 1 0 12288 16384 0) 1 [0] []) ch2).any fun x =>
      allLanded x && !inputHeld run ch2 x && xfKind x.desc != 3 && xfKind x.desc != 5 && x.flight.isEmpty) = true ∧
    (chanOf (Machine.core (modChan (runChan (md 1 0 12288 16384 0) 0 [] []) 0 2 fun h => { h with pause := true }) 0) 2).pause = true := by
  decide +kernel

/-- A bulk descriptor: one line from virtual space to virtual space, owned by context 0. -/
def runBulk : State :=
  fset (fset run F.bmvDescData 0 0 (1 + 18 * 2 ^ 8 + 64 * 2 ^ 32)) F.bmvDescData 0 2 0x200000

theorem wit_bulk :
    writeOpen runBulk false = true ∧ fbit runBulk F.bmvCtlEn 0 0 = false ∧ (wr 1).data.getLsbD 0 = true ∧
    bulkCheck run 0 (bulkDesc run 0) ≠ none ∧ bulkCheck runBulk 0 (bulkDesc runBulk 0) = none ∧ powerState runBulk = 0 := by
  decide +kernel

theorem wit_bulk_running :
    (let s := { run with bulk := [(0, { xferNew (md 1 18 0 0x200000 0) 0 0 0 with issued := 1, landed := [0] })] }
     (tfind s.bulk 0).any (fun x => allLanded x && !inputHeld s (.bulk 0) x && xfNext x.desc == 0) &&
       clockRuns s (edgeClock 0)) = true := by decide +kernel

/-! ### Tokens and time -/

/-- A delivery to channel 0 of the running step, and one for a step not heard of. -/
def tokTaken : TokenMove := ⟨0, 0, 0, 0, 2, some 9⟩
def tokEarly : TokenMove := ⟨0, 0, 0, 0, 2, some 10⟩

theorem wit_tokens :
    (match deliverToken run 0 0 0 0 (some 9) 2 with | (_, .taken) => true | _ => false) = true ∧
    (match deliverToken run 0 0 0 0 (some 10) 2 with | (_, .notYet) => true | _ => false) = true := by decide +kernel

theorem test_token_taken :
    (match exec (.tokenDelivery 0) { run with tokens := [tokTaken] } with
     | .next t => t.tokens == [] && recvOf (Machine.core t 0) 0 0 == 2
     | _ => false) = true := by decide +kernel

theorem test_token_early :
    (match exec (.tokenDelivery 0) { run with tokens := [tokEarly] } with
     | .next t => t.tokens == [tokEarly]
     | _ => false) = true := by decide +kernel

theorem wit_tcSet :
    writeOpen up true = true ∧ fbit (fset up F.tcCfgMaster 0 0 1) F.tcCfgMaster 0 0 = true ∧
    fget (fset up F.tcStatState 0 0 0) F.tcStatState 0 0 = 0 ∧ ({ up with tcount := 5 } : State).tcount ≤ (wr 5).data.toNat ∧
    (wr 4).data.toNat < ({ up with tcount := 5 } : State).tcount ∧ fbit up F.tcCfgMaster 0 0 = false := by decide +kernel

theorem wit_tick :
    (let s := { fset (fset up F.tcTickCfgEn 0 3 1) F.tcTickStartCount 0 3 7 with tcount := 7 }
     fbit s F.tcTickCfgEn 0 3 && decide (fget s F.tcTickStartCount 0 3 ≤ s.tcount)) = true ∧
    (let s := { fset (fset up F.tcTickCfgEn 0 3 1) F.tcTickStartCount 0 3 8 with tcount := 7 }
     decide (s.tcount < fget s F.tcTickStartCount 0 3)) = true := by decide +kernel

theorem wit_markers :
    clockRuns up (portClock 47) = true ∧ fget (fset up F.lnkStatState 47 0 6) F.lnkStatState 47 0 = 6 ∧
    fbit up F.tcCfgMaster 0 0 = false ∧ writeOpen up true = true ∧ wbit (wr 1) F.tcCtlReacq = true ∧
    noneEnabled up = true := by decide +kernel

/-! ### Steps and logs -/

/-- The device with context 0 changed. -/
def withCtx (f : Ctx → Ctx) : State := modCtx run 0 f

/-- A step that waits for its launch. -/
def waiting : Step := { stp with launched := false, cores := [] }

/-- The device with `st` at the head of the queue and no step in progress, at timecode 1000. -/
def queuedWith (st : Step) (ls : List PendLaunch) : State :=
  { withCtx (fun c => { c with step := none, queue := [st] }) with tcount := 1000, time := { up.time with launches := ls } }

theorem wit_launch :
    mayLaunch (queuedWith waiting []) 0 = true ∧
    (ctx (queuedWith waiting []) 0).queue.head? = some waiting ∧
    (pendingFor (queuedWith { waiting with launchAt := some 1000 } [⟨0, .home, 1000⟩]) 0 .home).map (·.target) = some 1000 ∧
    pendingFor (queuedWith { waiting with launchAt := some 1200 } []) 0 .home = none ∧
    logRead (queuedWith waiting []) 0 waiting.id = true ∧ 1000 + 200 ≤ (1200#64).toNat := by
  decide +kernel

theorem wit_group :
    pendingFor { run with time := { up.time with launches := [⟨0, .group 3, 0⟩] } } 0 (.group 3) = some ⟨0, .group 3, 0⟩ ∧
    (ctx run 0).st = .resident ∧ (ctx run 0).step = some stp ∧
    (ctx run 0).img.bind (fun i => i.groups.find? (fun g => g.group == 3)) = some ⟨3, [(0, 0, 0)]⟩ := by decide +kernel

theorem wit_late :
    pendingFor (queuedWith { waiting with launchAt := some 1199 } []) 0 .home = none := by
  decide +kernel

/-- A request at 1199 from timecode 1000 is one count too early: it is moved to 1200 and counted; one at 1200 is not. -/
theorem test_late_launch :
    (match exec (.stepLaunch 0) (queuedWith { waiting with launchAt := some 1199 } []) with
     | .next t => t.time.launches.map (·.target) == [1200] && fget t F.tcLaunchLate 0 0 == 1
     | _ => false) = true ∧
    (match exec (.stepLaunch 0) (queuedWith { waiting with launchAt := some 1200 } []) with
     | .next t => t.time.launches.map (·.target) == [1200] && fget t F.tcLaunchLate 0 0 == 0
     | _ => false) = true := by decide +kernel

/-- The device whose step has finished on its core, and one whose step has ended and may be recorded. -/
def overStep : State := withCtx fun c => { c with step := some { stp with cores := [⟨0, 0, 0, .finished⟩] } }
def endedStep : State := fset (withCtx fun c => { c with step := none, ended := [stp] }) F.ctxCqCfgSizelog2 0 0 4

theorem wit_step_end :
    ((ctx overStep 0).step.any fun st => stepOver overStep 0 0 st) = true ∧
    (ctx endedStep 0).ended.head? = some stp ∧ recordReady endedStep 0 stp = true ∧ (ctx endedStep 0).slot = some 0 ∧
    cget endedStep 0 F.ctxCqHeadCount 0 < 2 ^ 64 - 1 ∧ (ctx (withCtx fun c => { c with coalesce := true }) 0).coalesce = true := by
  decide +kernel

theorem wit_call_sheet :
    fbit run F.hostStatReady 0 0 = true ∧ hostUp run = true ∧ powerState run ≠ 2 ∧ run.faulted = false ∧
    slotCtx (withCtx fun c => { c with badSlot := some 1 }) 0 = some 0 ∧
    (ctx (withCtx fun c => { c with badSlot := some 1 }) 0).badSlot = some 1 ∧
    wbit (wr 1) F.ctxCsCtlResume = true ∧ wbit (wr 2) F.ctxCsCtlSkip = true ∧ cget run 0 F.ctxCsStatBadcode 0 ≠ 1 ∧
    cget (cset run 0 F.ctxCsStatBadcode 0 1) 0 F.ctxCsStatBadcode 0 = 1 := by decide +kernel

/-- A replayed submission. -/
def sub : LogRec := ⟨1, 0, 9, 0, List.replicate 16 0, List.replicate 16 0, List.replicate 64 0⟩
/-- The device whose log is in a mode, with a ring of 64 KiB. -/
def logged (mode : Nat) : State :=
  fset (fset (fset (fset (withCtx fun c => { c with step := none }) F.ctxLogCfgMode 0 0 mode) F.ctxLogCfgSizelog2 0 0 16)
    F.ctxLogBaseAddr 0 0 0x10000) F.ctxCqBaseAddr 0 0 0x1000
/-- An entry that waits for room. -/
def note : LogEnt := ⟨7, 0, 0, 0, 0, 0, 0, []⟩

theorem wit_log :
    logLive (logged 1) 0 = true ∧ registered (ctx (logged 1) 0) = true ∧ slotBusy up 7 = false ∧ slotBusy run 0 = true ∧
    wval (wr 2) F.ctxLogCfgMode = 2 ∧ logRoom (modCtx (logged 1) 0 fun c => { c with log := { c.log with q := [note] } }) 0 note = true ∧
    replayOpen (logged 2) 0 = true ∧ sub.payload.length = 64 ∧ paceOk (startClock (logged 2) 0 0) 0 0 = true := by
  decide +kernel

/-! ### Contexts -/

/-- A slot in CHECKING for an image of 64 zero bytes, with another digest than theirs. -/
def checking : State := fset (fset up F.ctxStatState 0 0 1) F.ctxImagelenBytes 0 0 64

/-- A context of the device in another state of Table 12.1. -/
def inState (st : CtxSt) : State := withCtx fun c => { c with st := st, step := none }
/-- A context on the shelf. -/
def shelved : State := modCtx (withCtx fun c => { c with step := none }) 0 fun c => { c with st := .shelved, slot := none }

theorem wit_enable :
    writeOpen up false = true ∧ wbit (wr 1) F.ctxCtlEn = true ∧ slotBusy up 0 = false ∧ slotChecking checking 0 = true ∧
    (List.replicate 64 (0 : Byte)).length = fget checking F.ctxImagelenBytes 0 0 ∧
    checkCode checking 0 none none none = some 0x0C ∧ slotCtx checking 0 = none := by decide +kernel

theorem wit_disable :
    slotCtx run 0 = some 0 ∧ covered (wr 0).half F.ctxCtlEn = true ∧ wbit (wr 0) F.ctxCtlEn = false ∧
    (ctx run 0).st = .resident ∧ (ctx (inState .shelving) 0).st = .shelving ∧ slotCtx (inState .returning) 0 = some 0 ∧
    wbit (wr 2) F.schedDirctlDisable = true ∧ (ctx shelved (fget shelved F.schedDirselRegnum 0 0)).st = .shelved := by
  decide +kernel

theorem wit_shelve :
    wbit (wr 0x401) F.ctxCtlShelve = true ∧ slotCtx run 0 = some 0 ∧ (ctx (inState .shelving) 0).st = .shelving ∧
    (inState .shelving).fab.reqs.any (fun q => q.ctx == some 0) = false ∧ (ctx (inState .shelving) 0).slot = some 0 ∧
    (ctx (inState .shelving) 0).res.disableReq = false ∧ wbit (wr 1) F.schedDirctlReturn = true ∧
    (ctx (inState .returning) 0).st = .returning := by decide +kernel

/-- Context 1 on the shelf with an accepted step; context 0 holds every granule of core 0 and has long been blocked. -/
def swapReady : State :=
  let full (s : State) : State := modCore s 0 fun c => { c with granOwner := (List.range 24).map fun g => (g, 0) }
  let s := withCtx fun c => { c with step := none, res := { c.res with blockedAt := some 0 } }
  let own : Ctx := { x0 with st := .shelved, slot := none, step := none, queue := [{ stp with launched := false }] }
  let s := cset (setCtx (full s) 1 own) 1 F.ctxLnkcrClass 0 1
  { s with tcount := 2000001 }

theorem wit_swap :
    (let s := swapReady
     let ins := (s.ctxs.map (·.1)).filter (fun r => runnable s r && !canReturn s r)
     let res := (s.ctxs.map (·.1)).filter (fun r => (ctx s r).st == .resident)
     fbit s F.schedCfgAuto 0 0 && !copying s && !(s.ctxs.map (·.1)).any (fun r => (ctx s r).res.decided) &&
       !(ctx s 0).floats.any (·.launched) && res.all (blockedLong s) && ins.foldl (better (inBefore s)) none == some 1 &&
       (res.filter (victimFor s 1)).foldl (better (outBefore s)) none == some 0) = true := by decide +kernel

/-- A floating step that waits; its program is declared for entry 1. -/
def floating : Step := { waiting with floating := true, entry := 1 }
def withFloat : State := withCtx fun c => { c with floats := [floating] }

theorem wit_float :
    (ctx withFloat 0).floats[0]? = some floating ∧ stepImage (ctx withFloat 0) floating = [ci] ∧
    (ctx withFloat 0).res.decided = false ∧ (ctx withFloat 0).snap = none ∧
    cget withFloat 0 F.ctxRelstatLost 0 = 0 ∧ neverFits withFloat (ctx withFloat 0) floating = false ∧
    powerState withFloat ≠ 2 ∧ renewing withFloat 0 = false ∧ fget withFloat F.schedCfgFloatto 0 0 ≠ 0 := by decide +kernel

/-- One that has waited for `FLOATTO`, and one whose program wants more granules than a core has. -/
def late : State := { withFloat with tcount := 1000000 * fget withFloat F.schedCfgFloatto 0 0 }
def tooWide : State := modCtx withFloat 0 fun c => { c with img := some { img with floats := [(1, [{ ci with granules := 25 }])] } }

theorem wit_float_ends :
    max floating.acceptTc ((floating.launchAt.map (·.toNat)).getD 0) + 1000000 * fget late F.schedCfgFloatto 0 0 ≤ late.tcount ∧
    (ctx late 0).floats[0]? = some floating ∧ neverFits tooWide (ctx tooWide 0) floating = true ∧
    (ctx tooWide 0).floats[0]? = some floating := by decide +kernel

theorem wit_float_core : claimable withFloat 0 5 1 = true ∧ placementOrder.contains 1 = true := by decide +kernel

/-! ### Pages and DDR -/

/-- A mapped page, unlocked, in frame 4. -/
def page0 : Page := ⟨.local_, 4, 0, false, false, false, false, false, 0, none, 0, false⟩
/-- The device whose context has a quota, and the page at address 0. -/
def paged (p : Page) : State :=
  { fset (withCtx fun c => { c with vs := { c.vs with pages := [(0, p)] } }) F.ctxPgquotaQuota 0 0 8 with
    frames := [(4, .page 0 0)] }

theorem wit_page_access :
    registered (ctx (paged page0) 0) = true ∧ tsorted (paged page0).frames = true ∧
    (match pageAllows (paged page0) 0 page0 true with | .ok => true | _ => false) = true ∧
    tfind (ctx (paged page0) 0).vs.pages 1 = none ∧ (ctx (paged page0) 0).vs.pages.length < cget (paged page0) 0 F.ctxPgquotaQuota 0 ∧
    cget run 0 F.ctxPgquotaQuota 0 ≤ (ctx run 0).vs.pages.length := by decide +kernel

/-- A transfer of core 0 waits for the page at address 0, which has no place. -/
def placeless : State :=
  modCtx (runChan (md 1 2 0 16384 0) 0 [] []) 0 fun c => { c with vs := { c.vs with waits := [(0, .chan ch2)] } }

theorem wit_placement :
    tfind (ctx placeless 0).vs.pages (pageOf 0) = none ∧ (tfind (ctx (paged page0) 0).vs.pages (pageOf 0)).isSome = true ∧
    (chXfer placeless ch2).isSome = true ∧ (ctx placeless 0).vs.waits ≠ [] := by decide +kernel

/-- Both tiles have frames once training is over. -/
def trained : State := fset (fset (paged page0) F.memStatInit 0 0 1) F.memStatCapgib 0 0 1024

theorem wit_page_local : localFree trained 0 1 = true := by decide +kernel

theorem wit_page_command :
    writeOpen run false = true ∧ fbit run F.ctxPgcmdGo 0 0 = false ∧ wbit (wr (2 ^ F.ctxPgcmdGo.lo)) F.ctxPgcmdGo = true ∧
    slotCtx run 0 = some 0 ∧ pgWaits run 0 0 0 = false := by
  decide +kernel

theorem wit_page_effects :
    keyEmpty (paged page0) 0 3 = true ∧ page0.printing = false ∧ page0.move = none ∧ page0.loc = .local_ ∧
    memWf (ctx (paged page0) 0).vs.mem = true ∧ tfind (ctx (paged page0) 0).vs.pages 0 = some page0 := by decide +kernel

theorem wit_migration :
    clockRuns (paged page0) (edgeClock 1) = true ∧ tsorted (paged page0).ctxs = true ∧
    (∀ x ∈ (paged page0).ctxs, tsorted x.2.vs.pages = true) ∧
    fbit (fset run (inForce 1 F.memMigEn) 0 0 1) (inForce 1 F.memMigEn) 0 0 = true ∧
    tfind (ctx (paged { page0 with pin := true }) 0).vs.pages 0 = some { page0 with pin := true } ∧
    (tfind (ctx (paged { page0 with move := some ⟨.local_, 6, 0, true⟩ }) 0).vs.pages 0).isSome = true ∧
    (tfind (ctx (paged { page0 with loc := .lent, dev := 5 }) 0).vs.pages 0).isSome = true ∧
    clockRuns (paged page0) (edgeClock 0) = true ∧ cget (paged page0) 0 F.ctxPgcmdGo 0 = 0 ∧ hostUp (paged page0) = true ∧
    (tget (paged page0).promote 0 (0, [])).2 = [] := by decide +kernel

/-- A device whose DDR channel 0 is up. -/
def ddrUp : State := fset trained F.ddrStatState 0 0 2

theorem wit_ddr :
    clockRuns ddrUp (ddrClock 0) = true ∧ channelUp ddrUp 0 = true ∧ inSystemArea ddrUp (physOf ddrUp 0 0) = false ∧
    fbit (fset ddrUp F.memScrubEn 0 0 1) F.memScrubEn 0 0 = true ∧ fbit (fset ddrUp F.memScrubEn 0 0 0) F.memScrubEn 0 0 = false ∧
    trainBegun up = false ∧ fget up F.memStatInit 0 0 = 0 ∧ fget (fset up F.secStatBoot 0 0 2) F.secStatBoot 0 0 = 2 := by
  decide +kernel

/-- One symbol in error is corrected; five equal ones are not. -/
theorem wit_ddr_corrected :
    (match lineDecode (1#16 :: List.replicate 39 0#16) true with | (_, some es) => !es.isEmpty | _ => false) = true := by
  decide +kernel

theorem wit_ddr_uncorrectable :
    (match lineDecode (List.replicate 5 1#16 ++ List.replicate 35 0#16) true with | (_, none) => true | _ => false) = true := by
  decide +kernel

/-- Sixteen modules of one kind, of which some train. -/
def modules (n : Nat) : List DdrModule := (List.range 16).map fun k => ⟨1, 0, 0, decide (k % 8 < n)⟩

theorem wit_population :
    populationOk (modules 6) = true ∧ populationOk (modules 5) = true ∧ (modules 6).length = 16 ∧
    populationOk (⟨2, 0, 0, true⟩ :: (modules 8).tail) = false := by decide +kernel

/-! ### Links -/

/-- A device with a port in a state of Table 10.3, on lanes 0 to 7. -/
def linked (st : Nat) : State := fset (fset up F.lnkStatState 47 0 st) F.lnkStatLanes 47 0 0xFF

theorem wit_link_enable :
    writeOpen up false = true ∧ fbit (putLink up 47 (wr 1)) F.lnkCtlEn 47 0 = false ∧ wbit (wr 1) F.lnkCtlEn = true ∧
    linkCheck (putLink up 47 (wr 1)) 47 ≠ none ∧ covered (wr 0).half F.lnkCtlEn = true ∧
    portState (putLink up 47 (wr 0)) 47 ≠ 9 := by decide +kernel

theorem wit_link_up :
    clockRuns up (portClock 47) = true ∧ portState (linked 1) 47 = 1 ∧ (port (linked 1) 47).testing = false ∧
    fget (linked 1) F.lnkCtlMinlanes 47 0 ≤ laneCount (usableLanes (linked 1) 47 0xFF) ∧ portState (linked 2) 47 = 2 ∧
    (port (linked 2) 47).fails < 2 ∧ 2 ≤ (port (modPort (linked 2) 47 fun q => { q with fails := 2 }) 47).fails ∧
    portState (linked 3) 47 = 3 ∧ portState (linked 4) 47 = 4 ∧ portState (linked 5) 47 = 5 := by decide +kernel

theorem wit_ident :
    identCode (linked 3) 47 ⟨5, 0, 0, 0, true, [], [], []⟩ ≠ none := by decide +kernel

theorem wit_lanes :
    portState (linked 6) 47 = 6 ∧ (fget (linked 6) F.lnkStatLanes 47 0).testBit 7 = true ∧
    fget (linked 6) F.lnkCtlMinlanes 47 0 ≤ laneCount (maskOut 0xFF (2 ^ 7)) ∧
    laneCount (maskOut 0xFF (2 ^ 7)) < fget (fset (linked 6) F.lnkCtlMinlanes 47 0 8) F.lnkCtlMinlanes 47 0 ∧
    portState (linked 7) 47 = 7 ∧ 2 ≤ portState (linked 2) 47 ∧ portState (linked 7) 47 ≤ 7 ∧
    fbit (fset up F.lnkCtlAuto 47 0 1) F.lnkCtlAuto 47 0 = true ∧ fbit (fset up F.lnkCtlAuto 47 0 0) F.lnkCtlAuto 47 0 = false := by
  decide +kernel

set_option maxRecDepth 100000 in
/-- A flit of zeros is a codeword, its CRC is 0, and it is the one expected first. -/
theorem wit_flit :
    (flitDecode (List.replicate 256 0)).crcOk = true ∧ (flitDecode (List.replicate 256 0)).seq = (port (linked 6) 47).expect ∧
    (flitDecode (List.replicate 256 0)).nak = false ∧ (flitDecode (List.replicate 256 0)).fixed = [] ∧
    (flitDecode (List.replicate 256 0)).ctrl = false ∧ (port (linked 6) 47).queue = [] ∧ (port (linked 6) 47).msgs = [] ∧
    (port (linked 6) 47).stream = [] ∧ portState (linked 7) 47 = 7 := by decide +kernel

set_option maxRecDepth 100000 in
/-- The partner's announcement of new keys, to a port that has agreed on them. -/
theorem wit_key_switch :
    (let f := flitDecode (flitEncode (flitHeader 0 4095 false true 0 0) [BitVec.ofNat 8 (msgSwitch + 1)])
     f.ctrl && f.payload.head? == some (BitVec.ofNat 8 (msgSwitch + 1)) && f.crcOk && f.fixed.isEmpty && f.seq == 0 &&
       (port (modPort (linked 6) 47 fun q => { q with agreed := some ⟨true, 0, 0, 0⟩ }) 47).agreed.isSome) = true := by
  decide +kernel

set_option maxRecDepth 100000 in
theorem wit_flit_discard :
    (flitDecode (List.replicate 256 0)).seq ≠ (port (modPort (linked 6) 47 fun q => { q with expect := 1 }) 47).expect ∧
    flitsOut { port (linked 6) 47 with seq := 1 } ≠ 0 := by decide +kernel

set_option maxRecDepth 100000 in
theorem wit_codeword :
    rsSyndromes gfFlit (flitWord (List.replicate 256 0) 0) = List.replicate 8 0 ∧
    rsSyndromes gfFlit (flitWord (List.replicate 256 0) 1) = List.replicate 8 0 := by decide +kernel

/-! ### Packets -/

/-- Port 47 in UP on a running device. -/
def runLinked : State := fset run F.lnkStatState 47 0 6

theorem wit_requests :
    clockRuns runLinked (portClock 47) = true ∧ portState runLinked 47 = 6 ∧ pairUp runLinked 47 = false ∧
    pktStalled runLinked (pk 1) = false ∧ aliasSpace0 runLinked (pk 1) = false ∧ tooOld runLinked (pk 1) = false ∧
    tooOld { runLinked with tcount := 2 ^ 31 - 1 } (pk 1) = true ∧
    (inbound runLinked 47 (pk 1)).2 = true ∧ aliasOf runLinked 4095 ≠ ownDev runLinked ∧
    (inbound runLinked 47 { pk 1 with dst := 4095 }).2 = false := by decide +kernel

theorem wit_tokens_taken :
    (takeToken runLinked { pk 5 with addr := 9 * 2 ^ 32, data := [1, 0, 0, 0] }).2 = .taken ∧
    (takeToken runLinked { pk 5 with addr := 10 * 2 ^ 32 }).2 = .notYet ∧
    (takeToken runLinked { pk 5 with addr := 2 * 2 ^ 11 }).2 = .refused := by decide +kernel

/-- An outstanding request of a type, first sent at timecode 0. -/
def req (type : Nat) (held : Bool) : Req := ⟨3, { pk type with dst := 5, reqid := 3 }, 0, none, held, none, none, some 0, none⟩
/-- The device with a request outstanding, at a timecode. -/
def asked (type : Nat) (held : Bool) (t : Nat) : State :=
  { runLinked with tcount := t, fab := { run.fab with reqs := [req type held] } }

theorem wit_answers :
    answerFor (asked 1 false 0) 47 { pk 4 with reqid := 3, src := 5 } [1, 5, 6, 7] = some (req 1 false) ∧
    answerFor (asked 2 false 0) 47 { pk 3 with reqid := 3, src := 5 } [2] = some (req 2 false) ∧
    answerFor (asked 5 false 0) 47 { pk 4 with reqid := 3, src := 5, status := 2 } [1, 5, 6, 7] = some (req 5 false) ∧
    answerFor (asked 1 false 0) 47 { pk 4 with reqid := 4, src := 5 } [1, 5, 6, 7] = none ∧
    answerFor (asked 1 false 0) 47 { pk 3 with reqid := 3 } [2] = none ∧
    (let a := { pk 4 with reqid := 3, src := 5 }
     let i := inbound (asked 1 false 0) 47 a
     i.2 = true ∧ answerFor (freed i.1 47 a) 47 a [1, 5, 6, 7] = some (req 1 false)) := by decide +kernel

/-- A burst's write and a page of a snapshot, each with its acknowledgement. -/
theorem wit_acknowledged :
    (let burst : Req := { req 1 false with chan := some (ch2, 0), ctx := none }
     let page : Req := { req 1 false with snap := some 0 }
     ([burst, page].all fun q =>
       let s := { runLinked with fab := { run.fab with reqs := [q] } }
       let a := { pk 4 with reqid := 3, src := 5 }
       let i := inbound s 47 a
       i.2 && answerFor (freed i.1 47 a) 47 a [1, 5, 6, 7] == some q)) = true := by decide +kernel

theorem wit_unanswered :
    reqOf (asked 1 false 0) 3 = some (req 1 false) ∧ heldBack (asked 1 false 0) 3 = false ∧
    (let s := asked 1 false (1000 * fget up F.fabTimersLifetime 0 0)
     1000 * fget s F.fabTimersLifetime 0 0 ≤ (s.tcount % 2 ^ 32 + 2 ^ 32 - (req 1 false).pkt.birth) % 2 ^ 32) ∧
    (let s := asked 1 false (10000 * fget up F.fabTimersRto 0 0)
     (req 1 false).first + 10000 * fget s F.fabTimersRto 0 0 ≤ s.tcount) ∧
    (reqOf (asked 5 true 0) 3).any (·.held) = true ∧ (reqOf (asked 6 false 0) 3).map (·.pkt.type) = some 6 := by decide +kernel

theorem wit_fabric_writes :
    wval (wr 1856) F.fabCrfloorFloor = 1856 ∧ covered (wr 1856).half F.fabCrfloorFloor = true ∧
    wbit (wr (2 ^ F.fabRqcfgEn.lo)) F.fabRqcfgEn = true ∧ fbit up F.fabRqcfgEn 0 31 = false := by decide +kernel

/-! ### Collectives -/

/-- A collective descriptor that declares a group of 2 and 4 segments would stand at these fields. -/
theorem wit_shares : (∃ d : Bytes, 0 < cG d ∧ 0 < cS d) :=
  ⟨List.replicate 64 1, by decide, by decide⟩

/-- A collective of context 0 in engine 0, done or not. -/
def coll (parts : List (Nat × Nat × Nat)) : CollRun := ⟨0, List.replicate 64 1, [], parts, [], [], 0⟩
def withColl (q : CollQ) : State := withCtx fun c => { c with colls := [(0, q)] }

theorem wit_collectives :
    clockRuns run (edgeClock 0) = true ∧
    (let s := withColl ⟨1, 0, [], [], none⟩
     let q := tget (ctx s 0).colls 0 collInit
     q.dead.isNone && decide (q.head < q.start.toNat) && decide (engineLoad s 0 < 16) && (ctx s 0).slot.isSome &&
       !s.faulted) = true ∧
    (tget (ctx (withColl ⟨1, 1, [], [], none⟩) 0).colls 0 collInit).start.toNat ≤ 1 ∧
    collFor (withColl ⟨1, 1, [coll []], [], none⟩) (pk 7) = none ∧ collPast (withColl ⟨1, 1, [coll []], [], none⟩) (pk 7) = false ∧
    (let s := { withColl ⟨1, 1, [coll []], [], none⟩ with tcount := 1000000 * fget up F.fabTimersCollto 0 0 }
     !collDone (coll []) && decide ((coll []).since + 1000000 * fget s F.fabTimersCollto 0 0 ≤ s.tcount)) = true := by
  decide +kernel

/-! ### Snapshots and reels -/

theorem wit_snapshot :
    writeOpen run false = true ∧ wbit (wr 1) F.ctxPrintctlGo = true ∧ fbit run F.ctxPrintctlGo 0 0 = false ∧
    slotCtx run 0 = some 0 ∧ (ctx run 0).slot = some 0 ∧
    (match (printCheck run 0).2 with | .error c => decide (c < 16) | .ok _ => false) = true ∧
    (let s := withCtx fun c => { c with step := none, snap := some ⟨false, [0], [0x1000], [], 0⟩ }
     (ctx s 0).step.isNone && !(ctx s 0).floats.any (·.launched)) = true ∧
    (let s := modCtx (paged { page0 with printing := true }) 0 fun c => { c with snap := some ⟨true, [0], [0x1000], [], 0⟩ }
     (ctx s 0).snap.any (fun p => p.pages.find? (fun pg => !p.sent.contains pg && !pageFlies s 0 pg) == some 0) &&
       !fbit s F.ctxPgcmdGo 0 0) = true := by decide +kernel

/-- A reel load of one shard of 64 bytes with transport key 1. -/
def shard : Shard := ⟨0, 0, 0, 0, 1, 0, 64, none, none, 0⟩
def load (got : List (Nat × Nat × Bytes)) (verified : List Nat) : ReelLoad := ⟨2, 0, [shard], got, [], verified, [], []⟩
def reeling (l : ReelLoad) (st : Nat) : State :=
  fset { withCtx (fun c => { c with step := none, reel := some l }) with keys := { up.keys with transport := [(1, 7)] } }
    F.ctxReelstatState 0 0 st

theorem wit_reel_load :
    wbit (wr 1) F.ctxReelctlGo = true ∧ wbit (wr 1) F.ctxReelctlAbort = false ∧ fget (reeling (load [] []) 1) F.ctxReelstatState 0 0 ≠ 0 ∧
    fget run F.ctxReelstatState 0 0 = 0 ∧ (match reelCheck run 0 none with | .error _ => true | .ok _ => false) = true ∧
    wbit (wr (2 ^ F.ctxReelctlAbort.lo)) F.ctxReelctlAbort = true ∧ (ctx (reeling (load [] []) 1) 0).reel = some (load [] []) ∧
    streaming (reeling (load [] []) 1) 0 = false ∧ waitsForReel (reeling (load [] []) 1) 0 = false ∧
    switched (reeling (load [] []) 1) 0 (load [] []) = false := by decide +kernel

theorem wit_chunks :
    loadShard (ctx (reeling (load [] []) 1) 0).reel 0 = some (load [] [], shard) ∧ chunkThere (load [] []) 0 0 = false ∧
    chunkThere (load [(0, 0, [])] []) 0 0 = true ∧ 0 < shardChunks shard ∧ tfind (reeling (load [] []) 1).keys.transport shard.keyid = some 7 ∧
    openChunk (reeling (load [] []) 1) (load [] []) shard 0 [] = none ∧ (List.replicate 64 (0 : Byte)).length = min 65536 (shard.bytes - 65536 * 0) := by
  decide +kernel

/-- Two chunks of one shard for the tiles' loaders, a device that serves them, and one whose next chunk is missing. -/
def shard2 : Shard := { shard with bytes := 65600 }
def load2 (got : List (Nat × Nat × Bytes)) : ReelLoad := { load got [] with shards := [shard2] }
def serving : State := withCtx fun c => { c with reel := none, served := some (load [(0, 0, [])] [0]) }
def missing : State :=
  let s := reeling (load [] []) 1
  { s with tcount := 1000000 * cget s 0 F.ctxReelcfgChunkto 0 }

theorem wit_chunk_turns :
    (let s := reeling (load2 []) 1
     chunkDue s 0 (load2 []) shard2 0 = true ∧ chunkDue s 0 (load2 []) shard2 1 = false ∧ 1 < shardChunks shard2 ∧
       clockRuns s (edgeClock (chunkTile s 0 (load2 []) shard2 1)) = true ∧ loadShard (ctx s 0).reel 0 = some (load2 [], shard2)) ∧
    (let s := missing
     chunkDue s 0 (load [] []) shard 0 = true ∧ chunkThere (load [] []) 0 0 = false ∧
       chunkSince s 0 (load [] []) shard 0 + 1000000 * cget s 0 F.ctxReelcfgChunkto 0 ≤ s.tcount) ∧
    loadShard (ctx serving 0).reel 0 = none ∧
    loadShard (ctx serving 0).served 0 = some (load [(0, 0, [])] [0], shard) ∧ chunkThere (load [(0, 0, [])] [0]) 0 0 = true ∧
    clockRuns serving (edgeClock (pageOf (shard.va + 65536 * 0) % 2)) = true := by decide +kernel

theorem wit_switch :
    switchReady (reeling (load [] []) 1) 0 (load [] []) = false ∧ wbit (wr (2 ^ F.ctxReelstrmEn.lo)) F.ctxReelstrmEn = true ∧
    lineHeld run 0 3 = false := by decide +kernel

/-! ### Clauses that need more of a state -/

theorem wit_link_enabled :
    writeOpen (fset up F.fabCfgLock 0 0 1) false = true ∧ wbit (wr (1 + 4 * 2 ^ 3)) F.lnkCtlEn = true ∧
    linkCheck (putLink (fset up F.fabCfgLock 0 0 1) 47 (wr (1 + 4 * 2 ^ 3))) 47 = none ∧
    linkCheck (putLink (fset up F.fabCfgLock 0 0 1) 47 (wr (1 + 8 * 2 ^ 3))) 47 = none ∧
    linkCheck (putLink (fset up F.fabCfgLock 0 0 1) 47 (wr (1 + 9 * 2 ^ 3))) 47 = some 0x21 := by decide +kernel

/-- A partner on port 3 whose quote holds. -/
theorem wit_ident_passes : identCode (linked 3) 47 ⟨5, 3, 0, 0, true, [], [], [0, 0, 0, 0, 0, 1]⟩ = none := by decide +kernel

/-- A context whose next step asks for generation 2 of a reel that is staged whole. -/
def switching (st : Nat) : State :=
  let s := withCtx fun c => { c with step := none, reel := some (load [] [0]), queue := [{ waiting with gen := 2 }] }
  fset (fset (fset (fset s F.ctxReelstatState 0 0 st) F.ctxReelctlCommit 0 0 1) F.ctxReelgenStggen 0 0 2)
    F.ctxReelstatStaged 0 0 1

theorem wit_switch_ready :
    switchReady (switching 2) 0 (load [] [0]) = true ∧ cget (switching 2) 0 F.ctxReelstatState 0 = 2 ∧
    switchReady (fset (switching 1) F.ctxReelcfgStream 0 0 1) 0 (load [] [0]) = true := by decide +kernel

/-- Context 1 in slot 1 holds weight-stream line 3. -/
def lineTaken : State := fset (setCtx run 1 { x0 with slot := some 1, step := none }) F.ctxReelstrmEn 1 3 1

theorem wit_line_held : lineHeld lineTaken 0 3 = true ∧ writeOpen lineTaken false = true := by decide +kernel

/-- A context whose page table and page at address 0 can be shipped. -/
def printable : State :=
  let s := modCtx (paged page0) 0 fun c =>
    { c with step := none, vs := { c.vs with pages := [(0, page0), (1, page0)], mem := [(2 ^ 21 + 5, 0xA0)] } }
  let s := { s with frames := [(4, .page 0 0), (5, .page 0 1)] }
  fset (fset (fset s F.ctxPrintvaVa 0 0 0) F.ctxPrintcntPages 0 0 1) F.ctxPrinttblVa 0 0 (2 ^ 21)

theorem wit_snapshot_starts :
    (match (printCheck printable 0).2 with | .ok p => p.pages == [0] | .error _ => false) = true := by decide +kernel

/-! ### Faults, retakes, checks and tests -/

/-- The device whose context is protected, with a commit applied on core 5's mirror granules. -/
def protected_ : State :=
  modCore (fset run F.ctxRelstatProt 0 0 1) 0 fun c =>
    { c with mirrors := [(0, ⟨some 5, some ⟨fr0, [], [], []⟩, some ⟨fr0, [(3, 7)], [], []⟩⟩)] }

/-- The same with core 0 fenced. -/
def fencedOff : State := modCore protected_ 0 fun c => { c with fenced := true, use := 2, running := none }

theorem wit_core_fault :
    (Machine.core fencedOff 0).fenced = true ∧ (Machine.core run 0).fenced = false ∧ (Machine.core protected_ 0).fenced = false ∧
    retakable protected_ 0 0 = true ∧ (heldPart protected_ 0 0).isSome = true ∧ (Machine.core run 0).vmap ≠ [] ∧
    (Machine.core run 1).vmap = [] ∧ (Machine.core run 1).running = none ∧ run.faulted = false ∧
    ({ run with faulted := true } : State).faulted = true := by decide +kernel

theorem wit_retake :
    (ctx fencedOff 0).slot = some 0 ∧ (ctx fencedOff 0).img = some img ∧
    (ctx fencedOff 0).map.find? (fun p => p.1 == 0) = some (0, 0, 0) ∧ heldPart fencedOff 0 0 = some (0, ci) ∧
    cget fencedOff 0 F.ctxRelstatLost 0 = 0 ∧
    (heirOrder 0).find? (fun m => heir fencedOff 0 ci m && idleFor fencedOff (cget fencedOff 0 F.ctxCtlPrio 0) m) = some 1 ∧
    partRuns fencedOff 0 0 = true ∧ partRuns (modCtx fencedOff 0 fun c => { c with step := none }) 0 0 = false := by
  decide +kernel

theorem wit_commit :
    ((tfind (Machine.core protected_ 0).mirrors 0).bind (·.coming)) = some ⟨fr0, [(3, 7)], [], []⟩ := by decide +kernel

/-- A check slot of the take on core 0, closed; and with a check take on core 1 that disagreed. -/
def check0 (differ : Option (CoreId × TakeRun × TakeRun)) : CheckRun := ⟨9, 0, 0, 0, 0, ⟨fr0, [], [], []⟩, [], true, [(5, 1)], 0, differ⟩
def checked (differ : Option (CoreId × TakeRun × TakeRun)) : State :=
  withCtx fun c => { c with checks := [check0 differ] }

theorem wit_check :
    (let s := checked none
     (ctx s 0).checks.find? (fun k => k.closed && k.differ.isNone && checkCore s 0 1 [k.core] (checkImage s 0 k))) =
      some (check0 none) ∧
    (let s := checked (some (1, ⟨7, [(5, 1)]⟩, ⟨7, [(5, 2)]⟩))
     (ctx s 0).checks.find? (fun k => k.differ.any fun d => checkCore s 0 2 [k.core, d.1] (checkImage s 0 k))) = some (check0 (some (1, ⟨7, [(5, 1)]⟩, ⟨7, [(5, 2)]⟩))) := by decide +kernel

/-- The clocks run, and no device fault has stopped the device, where its contexts, reels, snapshots and checks act. -/
theorem wit_clocks :
    [inState .shelving, inState .returning, swapReady, printable, reeling (load [] []) 1, switching 2].all
      (fun s => clockRuns s (edgeClock 0)) = true ∧
    [fencedOff, protected_, checked none, run].all (fun s => [0, 1, 2].all fun n => clockRuns s (coreClock n)) = true ∧
    runBulk.faulted = false := by decide +kernel

/-- Core 0, and core 3, of a device without contexts under test. -/
def tested (n : Nat) : State :=
  modCore { up with test := { up.test with online := some (0, n, 0) } } n fun c => { c with use := 3 }

theorem wit_tests :
    wbit (wr (2 ^ 16 + 3 * 4)) F.relOtestGo = true ∧ (tested 3).test.online.isSome = true ∧
    (let u := writeFields (clearBits up (wr (2 ^ 16 + 1343 * 4)) [F.relOtestDone] 0 0) (wr (2 ^ 16 + 1343 * 4))
       [F.relOtestKind, F.relOtestIndex, F.relOtestLane] 0 0
     up.test.online = none ∧ fget u F.relOtestKind 0 0 = 0 ∧ fget u F.relOtestIndex 0 0 = 1343 ∧ (Machine.core up 3).use.toNat < 2 ∧
       (Machine.core up 3).fenced = false ∧ (Machine.core up 3).vmap = [] ∧ (Machine.core up 3).running = none ∧ runsFloat (Machine.core up 3) = false) ∧
    (let u := writeFields (clearBits up (wr (2 ^ 16 + 1344 * 4)) [F.relOtestDone] 0 0) (wr (2 ^ 16 + 1344 * 4))
       [F.relOtestKind, F.relOtestIndex, F.relOtestLane] 0 0
     1344 ≤ fget u F.relOtestIndex 0 0) ∧
    (tested 3).test.queue = [] ∧ (Machine.core (tested 3) 3).use = 3 ∧
    ({ up with test := { up.test with online := some (1, 47, 0) } } : State).test.online = some (0 + 1, 47, 0) ∧
    wbit (wr 1) F.relWrapGo = true ∧ fget up F.relWrapState 0 0 = 0 ∧ noneEnabled up = true ∧ noneEnabled run = false ∧
    up.bulk = [] ∧ fget (fset up F.relWrapState 0 0 1) F.relWrapState 0 0 = 1 := by decide +kernel

theorem wit_records :
    up.nv.records.length < 4096 ∧ (∃ s : State, 4096 ≤ s.nv.records.length) ∧
    (let up := fset up F.relDlcfgSizelog2 0 0 12
     let size := 2 ^ fget up F.relDlcfgSizelog2 0 0
     let h := fget up F.relDlheadCount 0 0
     let free := size - (h + 2 ^ 64 - fget up F.relDltailCount 0 0) % 2 ^ 64
     (dailyRecord [1]).length ≤ free ∧ (dailyRecord [1]).length ≤ size - h % size ∧ hostUp up = true) ∧
    (let s := fset (fset up F.relDlcfgSizelog2 0 0 12) F.relDlheadCount 0 0 4096
     2 ^ fget s F.relDlcfgSizelog2 0 0 -
       (fget s F.relDlheadCount 0 0 + 2 ^ 64 - fget s F.relDltailCount 0 0) % 2 ^ 64 < (dailyRecord [1]).length) ∧
    (let s := fset (fset up F.relDlcfgPeriod 0 0 1) F.relDlcfgEn 0 0 1
     fget s F.relDlcfgPeriod 0 0 ≠ 0 ∧ fbit s F.relDlcfgEn 0 0 = true) ∧ fbit up F.relDlcfgEn 0 0 = false := by
  refine ⟨by decide, ⟨{ up with nv := { up.nv with records := List.replicate 4096 [] } }, by simp only [List.length_replicate]; exact Nat.le_refl _⟩, ?_⟩
  decide +kernel

/-! ### The stand-in pair -/

/-- Port 47 in UP with role PAIR, its partner device 5 that `PAIR_CFG` names, in a state of the pairing. -/
def paired (st : Nat) : State :=
  fset (fset (fset (fset (fset (fset run F.lnkStatState 47 0 6) F.lnkCtlRole 47 0 1) F.lnkPartnerDev 47 0 5)
    F.pairCfgPartner 0 0 5) F.pairStatState 0 0 st) F.ctxRelcfgPair 0 0 3

/-- What a partner that fits shows, apart from its measurement. -/
def fits (solo : Bool) (m : BitVec 256) (s : State) : PairInfo := ⟨5, 0, lifeNow s, 0, m, true, fbit s F.glbDetEnf 0 0, solo⟩

theorem wit_pairing :
    writeOpen (paired 0) false = true ∧ covered (wr 1).half F.pairCtlEn = true ∧ wbit (wr 1) F.pairCtlHandover = false ∧
    wbit (wr 1) F.pairCtlEn = true ∧ fbit (paired 0) F.pairCtlEn 0 0 = false ∧ pairState (paired 0) = 0 ∧
    ((List.range 48).any fun p => pairUp (paired 0) p && fget (paired 0) F.lnkPartnerDev p 0 == partner (paired 0)) = true ∧
    partner (paired 0) ≠ ownDev (paired 0) ∧ pairState (paired 1) = 1 ∧ pairState (paired 3) = 3 ∧
    ((List.range 48).any fun p => pairUp up p && fget up F.lnkPartnerDev p 0 == partner up) = false ∧
    (let s := fset (fset (paired 0) F.pairCfgPartner 0 0 0) F.lnkPartnerDev 47 0 0
     partner s = ownDev s ∧ ((List.range 48).any fun p => pairUp s p && fget s F.lnkPartnerDev p 0 == partner s) = true) ∧
    wbit (wr 2) F.pairCtlHandover = true ∧ pairState (paired 2) = 2 ∧ wbit (wr 0) F.pairCtlEn = false ∧
    pairCode (paired 1) ⟨6, 0, 0, 0, 0, false, false, false⟩ = some 0x31 ∧ wbit (wr 1) F.ctxRelctlPromote = true ∧
    (slotCtx run 0).isSome = true ∧ fget (fset run F.ctxRelcfgPair 0 0 2) F.ctxRelcfgPair 0 0 = 2 ∧
    twinCtxs (paired 1) = [0] ∧ resynced (paired 1) 0 = false ∧
    (twinCtxs (fset (paired 1) F.ctxRelcfgPair 0 0 0)).all (resynced (fset (paired 1) F.ctxRelcfgPair 0 0 0)) = true := by
  decide +kernel

/-- A partner that fits passes, whatever the measurement: it is the same, or both sides admit another. -/
theorem wit_pair_fits (solo : Bool) :
    let s := fset (paired 1) F.pairCfgFwmix 0 0 1
    ∃ x : PairInfo, x.solo = solo ∧ pairCode s x = none ∧ pairState s = 1 ∧ s.pair.solo = false := by
  refine ⟨fits solo 0 (fset (paired 1) F.pairCfgFwmix 0 0 1), rfl, ?_, by decide +kernel, by decide +kernel⟩
  have h1 : fbit (fset (paired 1) F.pairCfgFwmix 0 0 1) F.pairCfgFwmix 0 0 = true := by decide +kernel
  have h2 : partner (fset (paired 1) F.pairCfgFwmix 0 0 1) = 5 := by decide +kernel
  have h3 : ownDev (fset (paired 1) F.pairCfgFwmix 0 0 1) = 0 := by decide +kernel
  have h4 : (paired 1).sec.dbg = 0 := by decide +kernel
  simp [pairCode, fits, h1, h2, h3, h4]

/-- A step that has ended and waits for the partner, its context in a role of the pairing. -/
def waitingPair (role : Nat) : State :=
  fset (withCtx fun c => { c with step := none, ended := [{ stp with pairWait := true }] }) F.ctxRelcfgPair 0 0 role

theorem wit_exchange :
    waitsPair (waitingPair 1) 0 = some { stp with pairWait := true } ∧ cget (waitingPair 1) 0 F.ctxRelcfgPair 0 = 1 ∧
    waitsPair (waitingPair 3) 0 = some { stp with pairWait := true } ∧ twinCtx (waitingPair 3) 0 = true ∧
    cget (waitingPair 2) 0 F.ctxRelcfgPair 0 = 2 ∧ registered (ctx (waitingPair 2) 0) = true ∧
    clockRuns (waitingPair 1) (edgeClock 0) = true ∧ clockRuns (waitingPair 2) (edgeClock 0) = true ∧
    (1 : BitVec 256) ≠ stp.slate ∧ (0 : BitVec 256) = stp.slate ∧ pairState (waitingPair 1) = 0 ∧
    pairState (paired 2) ≠ 0 := by decide +kernel

/-- Alias 9 of this device and its partner, the partner active, or this device. -/
def aliased (st actb : Nat) : State :=
  fset (fset (fset (fset (fset (fset (paired st) F.pairStatActive 0 0 (1 - actb)) F.pairAliasAlias 0 15 9)
    F.pairAliasDeva 0 15 0) F.pairAliasDevb 0 15 5) F.pairAliasActb 0 15 actb) F.pairAliasValid 0 15 1

theorem wit_takeover :
    passiveTwin (aliased 2 1) = true ∧ activeTwin (aliased 2 0) = true ∧ pairUp (aliased 2 1) 47 = true ∧
    clockRuns (aliased 2 1) (portClock 47) = true ∧ ownDev (aliased 2 1) = 0 ∧ partner (aliased 2 0) = 5 ∧
    ((pairAliases (aliased 2 0)).any fun k =>
      fget (aliased 2 0) F.pairAliasAlias 0 k == 9 && decide (fget (aliased 2 0) F.pairAliasEpoch 0 k < 1)) = true ∧
    ((pairAliases (aliased 2 0)).any fun k =>
      fget (aliased 2 0) F.pairAliasAlias 0 k == 9 && decide (fget (aliased 2 0) F.pairAliasEpoch 0 k < 0)) = false ∧
    pairState (aliased 3 0) = 3 ∧ fbit (aliased 3 0) F.pairStatActive 0 0 = true ∧ partner (aliased 3 0) = 5 ∧
    ([3, 5].all fun st =>
      let s := modCtx (paired st) 0 fun c => { c with step := none }
      let s := { s with pair := { s.pair with solo := true } }
      twinCtx s 0 && (ctx s 0).step.isNone && !s.pair.synced.contains 0 && pairState s == st && clockRuns s (edgeClock 0)) = true := by
  decide +kernel

/-! ### Supplies, resets, power -/

/-- `VAUX` present, the device off. -/
def off : State := { State.reset with pins := { State.reset.pins with vaux := true } }

theorem wit_supplies :
    off.pins.vaux = true ∧ off.pins.pwrEn = false ∧ off.power.railsUp = false ∧ up.pins.pwrEn = true ∧
    up.power.railsUp = true ∧ State.reset.pins.vaux = false := by decide

/-- Core 5 and port 47 retired by a record each. -/
theorem wit_retired :
    coreRetired (addRepair off 4 2 5 0 0) 5 = true ∧ portRetired (addRepair off 7 0 47 0 0) 47 = true := by decide +kernel

theorem wit_resets :
    powerState up ≠ 3 ∧ powerState State.reset = 3 ∧ up.pcie.link = true ∧ up.jtag.held = false ∧
    wbit (wr (2 ^ F.glbCtlRst.lo)) F.glbCtlRst = true ∧ off.pcie.link = false ∧ off.pins.pwrOk = false ∧
    ({ up with pcie := ⟨true, false, false, false⟩ } : State).pcie.training = true ∧
    ({ up with jtag := { up.jtag with held := true } } : State).jtag.held = true := by decide

theorem wit_power :
    writeOpen up true = true ∧ covered (wr 600).half F.pwrCapWatts = true ∧ wval (wr 600) F.pwrCapWatts = 600 ∧
    wval (wr 2400) F.pwrCapWatts = 2400 ∧ floorSum up ≤ 600 ∧ wval (wr 1) F.pwrCtlReq = 1 ∧ wval (wr 2) F.pwrCtlReq = 2 ∧
    powerState up = 0 ∧ deviceBusy up = false ∧ deviceBusy run = true ∧ up.ctxs.any (fun e => queued e.2 != 0) = false ∧
    powerState (fset up F.pwrStatState 0 0 2) = 2 ∧
    tileFreq (fset up F.pwrTileFreq 0 0 40) 0 < freqTarget (fset up F.pwrTileFreq 0 0 40) 0 ∧
    freqTarget (fset (fset up F.pwrTileFreqreq 0 3 40) F.pwrTileFreq 0 3 100) 3 <
      tileFreq (fset (fset up F.pwrTileFreqreq 0 3 40) F.pwrTileFreq 0 3 100) 3 ∧
    mbBusy up = false ∧ mbBusy (fset up F.secMbctlGo 0 0 1) = true ∧
    freqTarget (fset up F.pwrTileFreq 0 0 100) 0 = tileFreq (fset up F.pwrTileFreq 0 0 100) 0 ∧
    tget up.power.stretch 3 false = false ∧ ({ up with power := { up.power with ms := [1] } } : State).power.ms.sum ≠ 0 := by
  decide +kernel

theorem wit_fill :
    (let s := modCore run 0 fun c => { c with hold := 4 }
     clockRuns s (coreClock 0) = true ∧ fillLevel s 0 ≠ 0) := by decide +kernel

theorem wit_convoy :
    (let s := { fset up F.pwrConvoyAnnounce 0 0 1 with tcount := 200000, power := { up.power with capSince := some 0 } }
     fbit s F.pwrConvoyAnnounce 0 0 = true ∧ powerState s = 0 ∧ s.power.capSince = some 0 ∧ s.power.announced = none ∧
       0 + 200000 ≤ s.tcount ∧ ({ s with tcount := 199999 } : State).tcount < 0 + 200000) ∧
    (let s := { fset up F.pwrConvoyAnnounce 0 0 1 with
       tcount := 300000, power := { up.power with capSince := some 0, announced := some 200000 } }
     s.power.announced = some 200000 ∧ 200000 + 100000 ≤ s.tcount ∧ ({ s with tcount := 299999 } : State).tcount < 200000 + 100000) ∧
    (let s := { runLinked with tcount := 49999, power := { up.power with heard := [(5, 0, 60, 0)] } }
     tfind s.power.heard 5 = some (0, 60, 0) ∧ s.tcount < 0 + 50000) ∧
    fabricUp runLinked 47 = true ∧ (5 : BitVec 12).toNat ≠ ownDev runLinked ∧ tfind runLinked.power.heard 5 = none ∧
    (let s := { up with tcount := 500000, power := { up.power with heard := [(5, 0, 60, 0)] } }
     tfind s.power.heard 5 = some (0, 60, 0) ∧ 0 + 500000 ≤ s.tcount) ∧
    (∃ x ∈ [20, 110, 20, 20, 20, 20], 110 ≤ x) ∧ (∀ x ∈ [20, 110, 20, 20, 20, 20], x < 128) ∧
    [109, 105, 100, 99, 0, 20].length = 6 ∧ (∀ x ∈ [109, 105, 100, 99, 0, 20], x < 110) ∧
    (∀ x ∈ [104, 100, 99, 0, 0, 0], x < 105) ∧ (∃ x ∈ [104, 100, 99, 0, 0, 0], 100 ≤ x) := by decide +kernel

/-! ### Security -/

/-- The SMC waits for an image that the host has offered. -/
def wanted : State := fset (fset up F.hostStatFwwant 0 0 1) F.hostFwctlGo 0 0 1

/-- A header with magic number, `SVN` 1, the length, key set 0, not committed; the digest of an image that is empty. -/
def fwHead (len : Nat) : Bytes :=
  leBytes 4 0x57465A44 ++ leBytes 4 1 ++ leBytes 4 len ++ [0, 1, 0, 0] ++
    (leBytes 32 0xa7ffc6f8bf1ed76651c14756a061d662f580ff4de43b49fa82d80a4b80f8434a).reverse ++ List.replicate 16 0

def fw (len : Nat) : FwImage := ⟨fwHead len, List.replicate 3392 0, [], true, true⟩

theorem wit_boot :
    fbit up F.hostStatFwwant 0 0 = false ∧ fbit wanted F.hostStatFwwant 0 0 = true ∧ fbit wanted F.hostFwctlGo 0 0 = true ∧
    wbit (wr (2 ^ F.hostFwctlGo.lo)) F.hostFwctlGo = true ∧ fget up F.secStatBoot 0 0 = 0 ∧ bootCode wanted (fw 64) = some 5 ∧
    bootCode wanted ⟨[], [], [], true, true⟩ = some 1 := by decide +kernel

set_option maxRecDepth 100000 in
theorem wit_boot_passes : bootCode wanted (fw 0) = none ∧ xf (fw 0).header 13 1 = 1 := by decide +kernel

/-- A state for each condition of Table 20.3. -/
theorem wit_pins :
    pinCond State.reset = .noVaux ∧ pinCond off = .off ∧
    pinCond { up with pcie := { up.pcie with resetting := true } } = .reset ∧
    pinCond { up with pcie := { up.pcie with resetting := false } } = .running ∧
    pinCond (fset { up with pcie := { up.pcie with resetting := false } } F.pwrStatState 0 0 2) = .running ∧
    fget up F.ddrStatState 0 15 = 0 ∧ fget (fset up F.ddrStatState 0 15 2) F.ddrStatState 0 15 = 2 := by decide +kernel

/-- A request at the PCIe mailbox, and at the I3C one in OFF. -/
def asking : State := fset up F.secMbctlGo 0 0 1
def askingOff : State := fset off F.mgMbctlGo 0 0 1

theorem wit_mailbox :
    mbReady asking .pcie = true ∧ mbReady askingOff .i3c = true ∧ powerState askingOff = 3 ∧ keysShut asking = false ∧
    keysShut askingOff = true ∧ (List.replicate 32 (0 : Byte)).length = 32 ∧ lifeNow asking = 1 ∧
    (match keyTarget [1, 63, 15, 0, 0, 0, 0, 0] with | some (.page k) => k == 1023 | _ => false) = true ∧
    (match keyTarget [2, 7, 0, 0, 0x80, 0, 0, 0] with | some (.transport i) => i == 2147483655 | _ => false) = true ∧
    (List.replicate 64 (0 : Byte)).length = 64 ∧ asking.keys.ephemeral = none ∧
    xf [(1 : Byte)] 0 1 < ({ asking with sec := { asking.sec with dbg := 2 } } : State).sec.dbg.toNat ∧
    (let s := { asking with keys := { asking.keys with
       ephemeral := some (0, []), transport := (List.range 64).map fun i => (i, 0) } }
     s.keys.ephemeral ≠ none ∧ tfind s.keys.transport 64 = none ∧ 64 ≤ s.keys.transport.length ∧
       (tfind s.keys.transport 63).isSome = true) := by decide +kernel

/-- A load of page slot 15 of registered number 63 with a sealed key. -/
def pageLoad (bs : Bytes) : KeyRecord := ⟨List.replicate 32 0, List.replicate 1088 0, [1, 63, 15, 0, 0, 0, 0, 0], bs⟩

/-- A load whose sender sealed 64 bytes for the ephemeral pair 0 unwraps to them; one too short for a tag does not. -/
theorem wit_wrap (key : Bytes) (h : key.length = 64) :
    let k := wrapKey (0, []) (pageLoad [])
    let r := pageLoad (gcmSeal k (List.replicate 12 0) [1, 63, 15, 0, 0, 0, 0, 0] key)
    r.sealed.length = 64 + 16 ∧ unwrap (0, []) r = some key ∧ unwrap (0, []) (pageLoad []) = none := by
  have hk : (wrapKey (0, []) (pageLoad [])).length = 32 := sha3_length _
  refine ⟨?_, gcmOpen_gcmSeal _ _ _ _ hk, rfl⟩
  show (gcmSeal _ _ _ _).length = 80
  simp [gcmSeal, gcmCrypt_length _ _ _ hk, gcmTag_length _ _ _ _ hk, h]

theorem leNat_leBytes : ∀ (n v : Nat), v < 256 ^ n → leNat (leBytes n v) = v
  | 0, v, h => by simp [leBytes, leNat] at *; omega
  | n + 1, v, h => by
    have := leNat_leBytes n (v / 256) (by rw [Nat.pow_succ] at h; omega)
    simp only [leBytes, leNat, this, BitVec.toNat_ofNat]
    omega

/-- A token of this device for debug level D1, signed by the manufacturer, on the nonce 7. -/
def tokenBody : Bytes :=
  leBytes 4 0x4B545A44 ++ [1, 1, 0, 0] ++ leBytes 32 devId.toNat ++ leBytes 32 7 ++ List.replicate 56 0

def nonced : State := { asking with keys := { asking.keys with nonce := some 7 } }

theorem tokenBody_xf (lo n : Nat) :
    xf tokenBody lo n = leNat ((tokenBody.drop lo).take n) := rfl

/-- A token that is accepted, and the same while a pairing is in progress. -/
theorem wit_token :
    tokenCode nonced ⟨tokenBody, true, true, []⟩ = none ∧
    tokenCode (fset nonced F.pairStatState 0 0 1) ⟨tokenBody, true, true, []⟩ = some 5 ∧
    tokenCode nonced ⟨[], true, true, []⟩ = some 1 := by
  have hd : xf tokenBody 8 32 = devId.toNat := by
    have : (tokenBody.drop 8).take 32 = leBytes 32 devId.toNat := rfl
    rw [tokenBody_xf, this]
    exact leNat_leBytes 32 _ (by have := devId.isLt; omega)
  have hn : xf tokenBody 40 32 = 7 := by decide +kernel
  have h4 : xf tokenBody 4 1 = 1 := by decide +kernel
  have h5 : xf tokenBody 5 1 = 1 := by decide +kernel
  have h6 : xf tokenBody 6 1 = 0 := by decide +kernel
  have f1 : tokenForm nonced tokenBody = true := by decide +kernel
  have f2 : tokenForm (fset nonced F.pairStatState 0 0 1) tokenBody = true := by decide +kernel
  have o1 : mbOff nonced = false := by decide +kernel
  have o2 : mbOff (fset nonced F.pairStatState 0 0 1) = false := by decide +kernel
  have l1 : lifeNow nonced = 1 := by decide +kernel
  have l2 : lifeNow (fset nonced F.pairStatState 0 0 1) = 1 := by decide +kernel
  have p1 : fget nonced F.pairStatState 0 0 = 0 := by decide +kernel
  have p2 : fget (fset nonced F.pairStatState 0 0 1) F.pairStatState 0 0 = 1 := by decide +kernel
  have k1 : nonced.keys.nonce = some 7 := rfl
  refine ⟨?_, ?_, by decide +kernel⟩
  · simp [tokenCode, hd, hn, h4, h5, h6, f1, o1, l1, p1, k1, debugSigner]
  · simp [tokenCode, hd, hn, h4, h5, h6, f2, o2, l2, p2, k1, debugSigner]

/-- The device at D2, core 0 halted. -/
def opened : State := modCore { run with sec := { run.sec with dbg := 2 } } 0 fun c => { c with dbgHalt := true }

theorem wit_debug :
    run.sec.dbg.toNat < 2 ∧ invasive run = false ∧ invasive opened = true ∧ (Machine.core opened 0).dbgHalt = true ∧
    24 * 32768 - 4 + [(1 : Byte), 2, 3, 4].length ≤ 24 * 32768 ∧ 4095 + (List.replicate 16 (0 : Byte)).length / 16 ≤ 4096 ∧
    memWf (Machine.core opened 0).scratch = true := by decide +kernel

/-! ### The host's accesses and I3C -/

/-- Segment 7 of BAR2 mapped to a context's space, or to frames. -/
def bar2 (mode : Nat) : State := fset printable F.hostB2mapMode 0 7 mode
/-- An ingest window at the start of segment 7. -/
def windowed : State := fset (fset (fset (bar2 1) F.hostIngcfgB2off 0 3 (7 * 2 ^ 31)) F.hostIngcfgUnits 0 3 1) F.hostIngcfgEn 0 3 1

theorem wit_bar2 :
    writeOpen (bar2 0) false = true ∧ 7 * 2 ^ 31 + 4 ≤ 2 ^ 34 ∧ windowAt (bar2 1) (7 * 2 ^ 31) = none ∧
    fget (bar2 0) F.hostB2mapMode 0 7 = 0 ∧ fget (bar2 1) F.hostB2mapMode 0 7 = 1 ∧ fget (bar2 2) F.hostB2mapMode 0 7 = 2 ∧
    registered (ctx (bar2 1) (fget (bar2 1) F.hostB2mapRegnum 0 7)) = true ∧ touchesProt (bar2 1) 0 0 4 = false ∧
    reelHole (bar2 1) 0 0 4 = false ∧ lineShips (bar2 1) 0 0 4 = false ∧
    (match (touchPages (pagesOf 0 4) (bar2 1) 0 true (.host 4 true)).2 with | .ok => true | _ => false) = true ∧
    (let s := modCtx (bar2 1) 0 fun c => { c with vs := { c.vs with pages := [(0, { page0 with prot := true })] } }
     touchesProt s 0 0 4) = true ∧
    windowAt windowed (7 * 2 ^ 31) = some 3 := by decide +kernel

theorem wit_i3c :
    up.pins.vaux = true ∧ ({ up with i3c := { up.i3c with addr := some 9 } } : State).i3c.addr.isSome = true ∧
    powerState up ≠ 3 ∧ ((0x58 : Byte).toNat + 256 * (0x02 : Byte).toNat) % 4096 = 600 ∧
    ((0x60 : Byte).toNat + 256 * (0x09 : Byte).toNat) % 4096 = 2400 ∧ floorSum up ≤ 600 := by decide +kernel

theorem wit_registers :
    barOpen up = true ∧ powerState up ≠ 2 ∧ accessOk 4 8 = false ∧ accessOk 4 4 = true ∧ (findReg (2 ^ 26 - 8)).isNone = true ∧
    (findReg 0).isSome = true ∧ writeOpen up (alwaysOn 0) = true ∧
    (let s := fset up F.memCfgLock 0 0 1
     (findReg R.memCfg.off).map (·.1.off) = some R.memCfg.off ∧ lockOf R.memCfg = some F.memCfgLock ∧
       fbit s F.memCfgLock 0 0 = true ∧
       R.memCfg.fields.any (fun f => f.acc == .rwl && covered (halfOf R.memCfg.off 8) f) = true) ∧
    covered .high F.glbDetEnf = false ∧ noneEnabled up = true ∧ noneEnabled run = false ∧ writeOpen run false = true ∧
    wval (wr (2 ^ F.glbDetNrseen.lo)) F.glbDetNrseen = 1 := by decide +kernel

/-! ### Clauses with more conditions -/

theorem wit_bundle_holds :
    (let s := withCore fun c => { c with dbgHalt := true }
     issuer s 0 = some 0 ∧ (Machine.core s 0).hold ≠ 1 ∧ outerHold s 0 0 = .hold 8 ∧ bundleBad s 0 0 (onlyC .cut) = none ∧
       bundleWait s 0 0 (onlyC (.waittok ⟨0, true, 2⟩)) = .hold 4) ∧
    outerHold run 0 0 = .ok ∧ (Machine.core (withCore fun c => { c with hold := 1 }) 0).hold = 1 ∧
    (let s := withCore fun c => { c with flight := [.mjob ⟨0, .fp32, .fp32, false, 0, 0, 1, false⟩] }
     bundleBad s 0 0 (onlyM (.mcfg ⟨0, 0, 0, 0, false⟩)) = none ∧
       bundleWait s 0 0 (onlyM (.mcfg ⟨0, 0, 0, 0, false⟩)) = .issue) := by decide +kernel

/-- The finish of a tile that is due. -/
def fin0 : Finish := ⟨0, 0, 1, td 0 0 1, 0, 0, 1024, ⟨0, 0, 0, 0, 1⟩, false, false, 0, 1, 1, 0⟩

theorem wit_finish_due :
    (Machine.core (withCore fun c => { c with flight := [.mfin fin0] }) 0).flight = .mfin fin0 :: [] ∧
    nextWait (withCore fun c => { c with hold := 3 }) 0 0 = .ok := by decide +kernel

theorem wit_compare_burst :
    (let s := runChan (md 5 0 12288 0 20480 16384) 0 [] []
     (chXfer s ch2).any fun x => decide (x.issued < xfBursts x.desc) && !x.failed && !chHeld s ch2 && released s ch2 x 0 &&
       (match spaceRead s ch2 x 0 0 12288 64 with
        | (t, .data as _) => as.length == 64 && (match spaceRead t ch2 x (0 + halfBurst) 0 20480 64 with | (_, .data bs _) => bs.length == 64 | _ => false)
        | _ => false)) = true ∧
    (let s := runChan (md 1 4 4096 16384 0) 0 [] []
     (chXfer s ch2).any fun x => released s ch2 x 0 && (match spaceRead s ch2 x 0 4 4096 64 with | (_, .later) => true | _ => false)) = true ∧
    (let s := runChan (md 1 2 (2 ^ 48) 16384 0) 0 [] []
     (chXfer s ch2).any fun x => released s ch2 x 0 && (match spaceRead s ch2 x 0 2 (2 ^ 48) 64 with | (_, .fault _) => true | _ => false)) = true := by
  decide +kernel

/-- A compare of two remote regions on a passive twin, which holds its requests. -/
theorem wit_compare_later :
    (let a := 7 * 2 ^ 45
     let s := modCore (aliased 2 1) 0 fun c => { c with chans := [(2, { chanInit with
       xfer := some (xferNew (md 5 3 a 0 (a + 4096) 16384) 0 0 9) })] }
     (chXfer s ch2).any fun x => x.issued == 0 && released s ch2 x 0 && !chHeld s ch2 &&
       (match spaceRead s ch2 x 0 3 a 64 with
        | (t, .later) => (match spaceRead t ch2 x (0 + halfBurst) 3 (a + 4096) 64 with | (_, .later) => true | _ => false)
        | _ => false)) = true := by decide +kernel

theorem wit_pause_and_end :
    (let s := modChan (runChan (md 1 0 12288 16384 0) 0 [] []) 0 2 fun h => { h with pause := true }
     (chanOf (Machine.core s 0) 2).xfer.any fun x => x.flight.isEmpty && !allLanded x) = true ∧
    (let s := runChan (md 3 0 12288 16384 0) 1 [0] []
     (chXfer s ch2).any fun x => allLanded x && !inputHeld s ch2 x && !(chanOf (Machine.core s 0) 2).paused &&
       (match lastWrite s ch2 { x with got := [⟨0, 0, 64, some (List.replicate 64 1), [], []⟩] } with | (_, .done _) => true | _ => false)) = true := by
  decide +kernel

theorem wit_token_clock :
    (let s := { run with tokens := [tokTaken] }
     s.tokens[0]? = some tokTaken ∧ clockRuns s (tokenClock s tokTaken) = true) ∧
    (match deliverToken run 0 0 0 1 (some 9) 2 with | (_, .refused) => true | _ => false) = true := by decide +kernel

/-- A generator with a period of 100 counts from 7: from 7 to 250 it has had three instants. -/
theorem test_ticks :
    (let s := { fset (fset (fset up F.tcTickCfgEn 0 3 1) F.tcTickCfgPeriod 0 3 100) F.tcTickStartCount 0 3 7 with tcount := 250 }
     match exec (.tick 3) s with
     | .next t => fget t F.tcTickTotTotal 0 3
     | _ => 0) = 3 := by decide +kernel

theorem wit_tick_period :
    (let s := fset (fset up F.tcTickCfgEn 0 3 1) F.tcTickCfgPeriod 0 3 100
     fbit s F.tcTickCfgEn 0 3 && decide (0 < fget s F.tcTickCfgPeriod 0 3)) = true := by decide +kernel

theorem wit_replay :
    recLen sub ≤ ringAhead (fset (logged 2) F.ctxLogTailCount 0 0 512) 0 ∧ ringAhead (logged 2) 0 < recLen sub ∧
    (ctx (logged 2) 0).log.done.contains sub.stepId = false ∧ run.faulted = false ∧
    hostUp (logged 1) = true := by decide +kernel

theorem wit_float_claims :
    logRead withFloat 0 floating.id = true ∧ withFloat.faulted = false ∧ (ctx withFloat 0).st = .resident ∧
    floating.launched = false ∧ [ci].length ≤ (placementOrder.filter (claimable withFloat 0 (floatGranules [ci]))).length ∧
    pendingFor withFloat 0 (.float floating.id) = none ∧
    (let s := { withFloat with time := { up.time with launches := [⟨0, .float 9, 0⟩] } }
     (pendingFor s 0 (.float floating.id)).any fun l => decide (l.target ≤ s.tcount)) = true ∧
    [tooWide, late].all (fun s => clockRuns s (edgeClock 0)) = true := by decide +kernel

theorem wit_page_clock :
    clockRuns (paged page0) (pageClock 0) = true ∧ tsorted trained.frames = true ∧ clockRuns trained (pageClock 1) = true := by
  decide +kernel

/-- A `CLEARPOISON` over pages 0 and 1, of which page 1 is being printed. -/
def clearing : State :=
  modCtx (fset (fset { run with tcount := 3 } F.ctxPgcntPages 0 0 2) F.ctxPgcmdOp 0 0 7) 0 fun c =>
    { c with step := none, vs := { c.vs with pages := [(0, page0), (1, { page0 with printing := true })] } }

theorem wit_page_waits :
    (pgRun 2 clearing 0 7 0 0 0 0).2 = (none, 1) ∧ stepsOpen (ctx clearing 0) = false ∧
    writeOpen clearing false = true ∧ fbit clearing F.ctxPgcmdGo 0 0 = false ∧ slotCtx clearing 0 = some 0 ∧
    wbit (wr (2 ^ F.ctxPgcmdGo.lo + 7 * 2 ^ F.ctxPgcmdOp.lo)) F.ctxPgcmdGo = true ∧
    wval (wr (2 ^ F.ctxPgcmdGo.lo + 7 * 2 ^ F.ctxPgcmdOp.lo)) F.ctxPgcmdOp = 7 := by decide +kernel

theorem wit_migration_drained :
    (let m : PageMove := ⟨.local_, 6, 0, true⟩
     let s := paged { page0 with move := some m }
     tfind (ctx s 0).vs.pages 0 = some { page0 with move := some m } ∧ clockRuns s (pageClock 0) = true ∧
       (0, 0) ∉ (tget s.promote 0 (0, [])).2 ∧ (tget s.promote 0 (0, [])).2 = []) := by decide +kernel

theorem wit_lanes_again :
    (port (linked 6) 47).bad.getLsbD 7 = false ∧ (port (linked 7) 47).again = 0 ∧ flitsOut (port (linked 7) 47) = 0 := by
  decide +kernel

/-- A flit of 224 zero bytes with the `NAK` bit, sealed as Table 10.2 has it. -/
def nakFlit : Bytes := flitEncode (flitHeader 0 4095 true true 0 0) []

set_option maxRecDepth 100000 in
theorem wit_nak :
    (flitDecode nakFlit).nak = true ∧ (flitDecode nakFlit).crcOk = true ∧ (flitDecode nakFlit).fixed = [] ∧
    (flitDecode nakFlit).seq = (port (linked 6) 47).expect ∧ (flitDecode nakFlit).ctrl = true ∧ nakFlit.length = 256 := by
  decide +kernel

set_option maxRecDepth 100000 in
/-- A flit that brings a packet of zeros without a tag: it fails its check. -/
theorem wit_auth :
    rxPackets 29 (modPort (linked 6) 47 fun q => { q with stream := 1 :: List.replicate 223 0 }) 47 = none ∧
    (rxPackets 1 (linked 6) 47).isSome = true := by decide +kernel

theorem wit_inbound_pool :
    portState runLinked 47 = 6 ∧ pairUp runLinked 47 = false ∧ (port runLinked 47).queue = [] ∧
    (sendFrom runLinked (some 47) { pk 1 with dst := 4095, hops := 1 }).isNone = true := by decide +kernel

/-- A device whose one route to device 5 leaves by port 46. -/
def routed : State :=
  { fset runLinked F.lnkStatState 46 0 6 with fab := { run.fab with routes := [(5, BitVec.ofNat 64 (2 ^ 63 + 2 ^ 46))] } }

theorem wit_transit : (sendFrom routed (some 47) { pk 1 with dst := 5, hops := 1 }).isSome = true ∧ aliasOf routed 5 ≠ ownDev routed := by
  have h : routePorts routed 5 = [46] := by decide +kernel
  exact ⟨by simp [sendFrom, routePort, h, Nat.mod_one], by decide +kernel⟩

/-- A broadcast of one segment of 64 bytes to address 0, and an ALLREDUCE of one exact partial, of rank 1 of 2. -/
def bcast : Bytes := [4, 0, 2, 0, 1, 0, 0, 0] ++ List.replicate 8 0 ++ [7, 0, 0, 0, 1, 0, 0, 0, 64, 0, 0, 0] ++ List.replicate 36 0
def allRed : Bytes := [1, 0, 2, 0, 1, 0, 0, 0] ++ List.replicate 8 0 ++ [7, 0, 0, 0, 2, 0, 0, 0, 1, 0, 0, 0] ++ List.replicate 36 0

/-- A run of a descriptor on a device whose context can write page 0. -/
def runOf (d : Bytes) : CollRun := ⟨0, d, [0, 0], [], [], [], 0⟩
def collAt (d : Bytes) : State :=
  modCtx (fset (paged page0) F.lnkStatState 47 0 6) 0 fun c => { c with colls := [(0, ⟨1, 1, [runOf d], [], none⟩)] }

/-- The COLL packets of these: the segment of the broadcast, and XP 0 of a segment in the reduce pass. -/
def bcPk : Packet := { pk 7 with addr := 7 + 2 ^ 56 + 4 * 2 ^ 57, reqid := 1 + 2 ^ 16, data := List.replicate 64 5 }
def arPk (seg : Nat) : Packet :=
  { pk 7 with addr := 7 + seg * 2 ^ 32 + 2 ^ 57, reqid := 2 + 2 ^ 16, data := xpBytes ⟨3, 0⟩ 0 false false 0 }

theorem wit_coll_bytes :
    (let s := collAt bcast
     clockRuns s (portClock 47) = true ∧ (inbound s 47 bcPk).2 = true ∧
     collFor s bcPk = some (0, 0, runOf bcast) ∧ pkOp bcPk = cOp bcast ∧ bcPk.reqid = cS bcast + (cG bcast - 1) * 2 ^ 16 ∧
     partOk (runOf bcast) bcPk = true ∧ cXp bcast = false ∧ lineShips s 0 0 64 = false ∧
     pageAllows s 0 page0 true = .ok ∧ pagesOf 0 64 = [0] ∧ memWf (ctx s 0).vs.mem = true ∧
     pkOp (arPk 0) ≠ cOp bcast ∧ ({ runOf bcast with parts := [(0, 1, 0)] } : CollRun).parts.contains (pkSeg bcPk, pkPass bcPk, bcPk.ext) = true) := by
  decide +kernel

theorem wit_coll_sums :
    (let s := collAt allRed
     collFor s (arPk 0) = some (0, 0, runOf allRed) ∧ pkOp (arPk 0) = cOp allRed ∧
     (arPk 0).reqid = cS allRed + (cG allRed - 1) * 2 ^ 16 ∧ partOk (runOf allRed) (arPk 0) = true ∧ cXp allRed = true ∧
     pkPass (arPk 0) = 0 ∧ (match ownXps s 0 allRed 0 (.coll 0 0) with | (_, .ok, _) => true | _ => false) = true ∧
     wholeSeg (runOf allRed) 0 0 = none ∧
     wholeSeg { runOf allRed with data := [(partKey 0 0 0, [1])] } 0 0 = some [[1]] ∧ shareOf allRed 0 ≠ cRank allRed ∧
     cOp allRed = 1) := by decide +kernel

theorem wit_coll_done :
    collDone { runOf bcast with fin := [0] } = true ∧
    (tget (ctx (withColl ⟨1, 1, [{ runOf bcast with fin := [0] }], [], none⟩) 0).colls 0 collInit).running =
      { runOf bcast with fin := [0] } :: [] := by decide +kernel

theorem wit_go :
    (let s := printable
     writeOpen s false = true ∧ slotCtx s 0 = some 0 ∧ (ctx s 0).slot = some 0 ∧ cget s 0 F.ctxPrintcntPages 0 = 1 ∧
     reelHole s 0 (2 ^ 21) 8 = false ∧ pagesOf (2 ^ 21) 8 = [1] ∧ tfind (ctx s 0).vs.pages 1 = some page0 ∧
     pageAllows s 0 page0 false = .ok ∧ destOk s (leNat (vsRead (ctx s 0).vs (2 ^ 21) 8)) = true ∧
     destOk s 0 = false ∧ (tfind (ctx s 0).vs.pages 2).isNone = true ∧ cget run 0 F.ctxPrintcntPages 0 = 0) := by decide +kernel

/-- The device with a route through port 47. -/
def setRoute (s : State) (d : Nat) : State := { s with fab := { s.fab with routes := [(d, BitVec.ofNat 64 (2 ^ 63 + 2 ^ 47))] } }

theorem wit_print_start :
    (let s := modCtx (setRoute (fset printable F.lnkStatState 47 0 6) 5) 0 fun c => { c with snap := some ⟨false, [0], [5 * 2 ^ 45], [], 0⟩ }
     (ctx s 0).snap.isSome = true ∧ routePorts s (gDev (5 * 2 ^ 45)) ≠ [] ∧ routePorts printable (gDev (5 * 2 ^ 45)) = [] ∧
       passiveFor printable 0 = false ∧ (ctx s 0).step = none ∧ (ctx s 0).floats.any (·.launched) = false) := by
  decide +kernel

theorem wit_switch_move :
    (let s := fset (switching 2) F.ctxReelcfgStageoff 0 0 (64 * 2 ^ 21)
     let pgs := ((load [] [0]).shards.map shardPages).flatten
     waitsForReel s 0 = true ∧ (ctx s 0).step = none ∧ (ctx s 0).floats.any (·.launched) = false ∧ pgs.Nodup ∧ pgs ≠ [] ∧
       (∀ pg ∈ pgs, pg + stagePages s 0 ∉ pgs) ∧ ∀ pg ∈ pgs ++ pgs.map (· + stagePages s 0), (tfind (ctx s 0).vs.pages pg).isNone = true) := by
  decide +kernel

theorem wit_stream_bound :
    (let s := reeling (load [] []) 1
     slotCtx s 0 = some 0 ∧ (ctx s 0).slot = some 0 ∧ (ctx s 0).reel = some (load [] []) ∧ lineHeld s 0 3 = false ∧
       wbit (wr 0) F.ctxReelstrmEn = false ∧ (ctx run 0).reel = none) := by decide +kernel

/-! ### One step of some commands -/

/-- What a step answers, looked at. -/
def after (o : Host.Outcome State Fault Refusal) (f : State → Nat) : Option Nat :=
  match o with
  | .next t => some (f t)
  | _ => none

/-- R17, R600: the identifier of the chip, read as one word. -/
theorem test_read :
    (after (exec (.rcRead 0 8) up) fun t => match t.out.getLast? with | some (.read _ v) => v | _ => 0) =
      some (regWord up R.glbId 0 0) := by decide +kernel

/-- R591: the address is taken once. -/
theorem test_entdaa :
    after (exec (.entdaa 8) { up with i3c := { up.i3c with addr := some 9 } }) (fun t => (t.i3c.addr.getD 0).toNat) = some 9 := by
  decide +kernel

/-- R535: a cap of 599 W is refused, one of 600 W is taken. -/
theorem test_cap :
    after (exec (.capWrite .pcie (wr 599)) up) (fun t => fget t F.pwrCapWatts 0 0 + 10000 * fget t F.pwrStatCapref 0 0) =
      some (fget up F.pwrCapWatts 0 0 + 10000) ∧
    after (exec (.capWrite .pcie (wr 600)) up) (fun t => fget t F.pwrCapWatts 0 0) = some 600 := by decide +kernel

/-- R545: 105 °C asserts `THERM_N`, 100 °C does not. -/
theorem test_therm :
    after (exec (.thermalStep [20, 105, 20, 20, 20, 20]) up) (fun t => bitNat t.pins.thermN) = some 0 ∧
    after (exec (.thermalStep [20, 100, 20, 20, 20, 20]) up) (fun t => bitNat t.pins.thermN) = some 1 := by decide +kernel

/-- R551: an image of another length than its header says is rejected with code 5. -/
theorem test_boot_digest : after (exec (.bootCheck (fw 64)) wanted) (fun t => fget t F.secStatBooterr 0 0) = some 5 := by decide +kernel

/-- R566: `DBG_DROP` from D2 to D1. -/
theorem test_dbg_drop :
    after (exec (.dbgDrop .pcie [1]) { asking with sec := { asking.sec with dbg := 2 } }) (fun t => t.sec.dbg.toNat) = some 1 := by
  decide +kernel

end Sys2Proof.Tests
end

section
/-! PROOFS. Scope: the state after reset. What an empty table, memory or register file reads, and with it the reset state. -/

open Sys2Proof.Machine

namespace Sys2Proof.Machine

/-! ### Empty tables and memories -/

/-- An empty table answers the default. -/
@[simp] theorem tget_nil {α : Type} (k : Nat) (d : α) : tget [] k d = d := rfl

/-- The memory that lists no byte is in canonical form. -/
@[simp] theorem memWf_nil : memWf [] = true := rfl

/-- Where the register file lists nothing, every field reads its cold value. -/
theorem fget_of_regs_nil {s : State} (h : s.regs = []) (f : Fld) (i j : Nat) : fget s f i j = f.cold := by
  simp [fget, h]

/-- Where no core is listed, every core is as it was made. -/
theorem core_of_cores_nil {s : State} (h : s.cores = []) (n : Nat) : core s n = coreInit s.chip n := by
  simp [core, h]

/-- A core as it was made has an empty scratchpad. -/
@[simp] theorem coreInit_scratch (c : Chip) (n : Nat) : (coreInit c n).scratch = [] := rfl

/-- A core as it was made has an empty instruction store. -/
@[simp] theorem coreInit_istore (c : Chip) (n : Nat) : (coreInit c n).istore = [] := rfl

/-! ### The state after reset -/

/-- At reset every field reads its cold value. -/
theorem fget_reset (f : Fld) (i j : Nat) : fget State.reset f i j = f.cold := fget_of_regs_nil rfl f i j

/-- At reset every core is as it was made. -/
theorem core_reset (n : Nat) : core State.reset n = coreInit State.reset.chip n := core_of_cores_nil rfl n

/-- The cold value of the power state is OFF (3, R533). -/
theorem powerState_reset : powerState State.reset = 3 := fget_reset F.pwrStatState 0 0

/-- The memories that the reset state lists nothing of are in canonical form. -/
theorem memOk_reset : State.reset.MemOk := ⟨memWf_nil, memWf_nil, memWf_nil⟩

end Sys2Proof.Machine

/-- Settles O6: the reset state lists no register field, no core and no byte, so that every read answers the default,
which is the cold value. -/
theorem resetIsCold : Obligations.ResetIsCold := by
  refine ⟨fget_reset, powerState_reset, rfl, memOk_reset, rfl, rfl, rfl, fun n => ?_⟩
  simp [core_reset]

end

section
/-! PROOFS. Scope: what the work of cores, contexts, pages and ports leaves alone. -/

open Sys2Proof.Machine

namespace Sys2Proof.Machine

/-! ### The shell of the device -/

/-- The part of the state around the cores, contexts, pages, key store and ports: the pins, the supplies, the link of the
host, the security processor, what survives power loss. No end of a transfer, of a step or of a context, no message and no
lost link changes any of it, which is why a reset of every block leaves it. -/
structure Shell where
  pending : List Instr
  tcount : Nat
  tokens : List TokenMove
  nv : Nv
  sec : Sec
  power : Power
  pins : Pins
  i3c : I3c
  pcie : Pcie
  test : Test
  dailies : Dailies
  jtag : Jtag
  chip : Chip
  faulted : Bool

/-- The shell of a state. -/
def shell (s : State) : Shell :=
  ⟨s.pending, s.tcount, s.tokens, s.nv, s.sec, s.power, s.pins, s.i3c, s.pcie, s.test, s.dailies, s.jtag, s.chip, s.faulted⟩

/-- An update of the other fields leaves the shell. -/
@[simp] theorem shell_update (s : State) (regs : Tbl Nat) (time : TimeSt) (cores : Tbl Core) (ctxs : Tbl Ctx)
    (frames : Tbl FrameUse) (promote : Tbl (Nat × List (CtxId × Nat))) (tables : Tbl Nat) (poolGen : Nat)
    (fab : Fabric) (bulk : Tbl Xfer) (keys : Keys) (pair : Pair) (ddr : Mem) (ddrPoison : Tbl Bool) (hostMem : Mem)
    (out : List Out) (freeCtr : Nat) :
    shell { s with
      regs, time, cores, ctxs, frames, promote, tables, poolGen, fab, bulk, keys, pair, ddr, ddrPoison, hostMem, out,
      freeCtr } = shell s := rfl

/-- The shell of a choice of two states. -/
@[simp] theorem shell_ite {c : Prop} [Decidable c] (s t : State) :
    shell (if c then s else t) = if c then shell s else shell t := apply_ite shell c s t

/-- What each update of a fold leaves, the fold leaves. -/
theorem foldl_keeps {α β : Type} (π : State → β) {f : State → α → State} (h : ∀ s a, π (f s a) = π s) (l : List α)
    (s : State) : π (l.foldl f s) = π s := by
  induction l generalizing s with
  | nil => rfl
  | cons a l ih => exact (ih (f s a)).trans (h s a)

/-- A fold of updates that leave the shell leaves it. -/
@[simp] theorem shell_foldl {α : Type} {f : State → α → State} (h : ∀ s a, shell (f s a) = shell s) (l : List α)
    (s : State) : shell (l.foldl f s) = shell s := foldl_keeps shell h l s

/-- A fold of updates that may fail leaves the shell where each of them does. -/
theorem shell_foldlM {α : Type} {f : State → α → Option State} (h : ∀ s a t, f s a = some t → shell t = shell s)
    {l : List α} {s t : State} (ht : l.foldlM f s = some t) : shell t = shell s := by
  induction l generalizing s with
  | nil => rw [← Option.some.inj ht]
  | cons a l ih =>
    obtain ⟨u, hu, hl⟩ := Option.bind_eq_some_iff.1 ht
    exact (ih hl).trans (h s a u hu)

/-- What an update that may fail makes of the state, or the state. -/
theorem shell_getD {o : Option State} {s : State} (h : ∀ t, o = some t → shell t = shell s) :
    shell (o.getD s) = shell s := by
  cases o with
  | none => rfl
  | some t => exact h t rfl

/-! ### Registers, records and messages

The lemmas below say one thing of one function each: it leaves the shell. The proofs `(rfl)` are in parentheses to keep
`simp` from using them as definitional steps, which its proofs of the side condition of `shell_foldl` cannot contain. -/

@[simp] theorem shell_fset (s : State) (f : Fld) (i j v : Nat) : shell (fset s f i j v) = shell s := (rfl)
@[simp] theorem shell_fcount (s : State) (f : Fld) (i j n : Nat) : shell (fcount s f i j n) = shell s := (rfl)
@[simp] theorem shell_emit (s : State) (o : Out) : shell (emit s o) = shell s := (rfl)
@[simp] theorem shell_hostWrite (s : State) (a : Nat) (bs : Bytes) : shell (hostWrite s a bs) = shell s := (rfl)
@[simp] theorem shell_drawFree (s : State) : shell (drawFree s).2 = shell s := (rfl)
@[simp] theorem shell_setCore (s : State) (n : Nat) (c : Core) : shell (setCore s n c) = shell s := (rfl)
@[simp] theorem shell_modCore (s : State) (n : Nat) (f : Core → Core) : shell (modCore s n f) = shell s := (rfl)
@[simp] theorem shell_modChan (s : State) (n i : Nat) (f : CoreChan → CoreChan) : shell (modChan s n i f) = shell s := (rfl)
@[simp] theorem shell_setCtx (s : State) (r : Nat) (c : Ctx) : shell (setCtx s r c) = shell s := (rfl)
@[simp] theorem shell_modCtx (s : State) (r : Nat) (f : Ctx → Ctx) : shell (modCtx s r f) = shell s := (rfl)
@[simp] theorem shell_modPort (s : State) (p : Nat) (f : Port → Port) : shell (modPort s p f) = shell s := (rfl)

@[simp] theorem shell_hostPut (s : State) (a : Nat) (bs : Bytes) (bad : Bool) : shell (hostPut s a bs bad) = shell s := by
  simp [hostPut]

@[simp] theorem shell_signal (s : State) (on : Bool) (vector : Nat) : shell (signal s on vector) = shell s := by
  simp [signal]

@[simp] theorem shell_cset (s : State) (r : Nat) (f : Fld) (j v : Nat) : shell (cset s r f j v) = shell s := by
  unfold cset; split <;> simp

@[simp] theorem shell_ccount (s : State) (r : Nat) (f : Fld) (j n : Nat) : shell (ccount s r f j n) = shell s := by
  simp [ccount]

@[simp] theorem shell_modKeyStep (s : State) (n k : Nat) (f : Step → Step) : shell (modKeyStep s n k f) = shell s := by
  unfold modKeyStep; split <;> simp

/-! ### The rushes log -/

@[simp] theorem shell_ringPut (s : State) (r : Nat) (bs : Bytes) (len : Nat) : shell (ringPut s r bs len) = shell s := by
  simp [ringPut]

@[simp] theorem shell_logWrite (s : State) (r : Nat) (e : LogEnt) : shell (logWrite s r e) = shell s := by
  simp [logWrite]

@[simp] theorem shell_logPut (s : State) (r : Nat) (e : LogEnt) : shell (logPut s r e) = shell s := by
  simp [logPut]

@[simp] theorem shell_logFor (s : State) (r : Nat) (sel : Option (Nat × Nat)) (type key data : Nat) (payload : Bytes) :
    shell (logFor s r sel type key data payload) = shell s := by
  unfold logFor
  split
  · rfl
  · simp only [shell_logPut]; split <;> simp

@[simp] theorem shell_logClear (s : State) (r va k : Nat) : shell (logClear s r va k) = shell s := by
  simp [logClear]

/-! ### Ports -/

@[simp] theorem shell_putFlit (s : State) (p : Nat) (f : SentFlit) : shell (putFlit s p f) = shell s := by
  simp [putFlit]

@[simp] theorem shell_sendFlit (s : State) (p : Nat) (ctrl : Bool) (payload : Bytes) :
    shell (sendFlit s p ctrl payload) = shell s := by
  simp [sendFlit]

@[simp] theorem shell_freed (s : State) (p : Nat) (pk : Packet) : shell (freed s p pk) = shell s := by
  simp [freed, owe]

@[simp] theorem shell_sendStream (s : State) (p : Nat) : shell (sendStream s p) = shell s := by
  simp [sendStream]

@[simp] theorem shell_flushPort (s : State) (p : Nat) : shell (flushPort s p) = shell s := by
  simp [flushPort]

@[simp] theorem shell_transmit (s : State) (p : Nat) (pk : Packet) : shell (transmit s p pk) = shell s := by
  simp [transmit]

@[simp] theorem shell_outPort (s : State) (p : Nat) (came : Option Nat) (pk : Packet) :
    shell (outPort s p came pk) = shell s := by
  unfold outPort
  split
  · split <;> simp
  · simp

@[simp] theorem shell_sendCtrl (s : State) (p : Nat) (m : Nat × List Nat) : shell (sendCtrl s p m) = shell s := by
  simp [sendCtrl]

@[simp] theorem shell_drainCtrl (s : State) (p : Nat) : shell (drainCtrl s p) = shell s := by
  simp [drainCtrl]

@[simp] theorem shell_portMsg (s : State) (p msg : Nat) (data : List Nat) : shell (portMsg s p msg data) = shell s := by
  simp [portMsg]

@[simp] theorem shell_onPorts (s : State) (ok : State → Nat → Bool) (msg : Nat) (data : List Nat) :
    shell (onPorts s ok msg data) = shell s := by
  simp [onPorts]

theorem shell_sendPkt {s t : State} {pk : Packet} (h : sendPkt s pk = some t) : shell t = shell s := by
  obtain ⟨p, -, rfl⟩ := Option.map_eq_some_iff.1 h
  simp

theorem shell_request {s t : State} {pk : Packet} {reqid : Option Nat} {chan : Option (ChanRef × Nat)}
    {coll : Option (EdgeId × Nat)} {r : Option Nat} (h : request s pk reqid chan coll r = some t) :
    shell t = shell s := by
  obtain ⟨u, hu, rfl⟩ := Option.map_eq_some_iff.1 h
  rw [shell_update]
  split at hu
  · exact shell_sendPkt hu
  · split at hu <;> simp [← Option.some.inj hu]

@[simp] theorem shell_standNoMore (s : State) : shell (standNoMore s) = shell s := (rfl)
@[simp] theorem shell_dropSlew (s : State) : shell (dropSlew s) = shell s := (rfl)
@[simp] theorem shell_enterAcquire (s : State) : shell (enterAcquire s) = shell s := (rfl)

@[simp] theorem shell_follow (s : State) : shell (follow s) = shell s := by
  unfold follow
  split
  · simp only; split <;> simp
  · simp

@[simp] theorem shell_unhear (s : State) (p : Nat) : shell (unhear s p) = shell s := by
  simp [unhear]

@[simp] theorem shell_dropBuffer (s : State) (p : Nat) : shell (dropBuffer s p) = shell s := (rfl)

@[simp] theorem shell_dropLink (s : State) (p : Nat) : shell (dropLink s p) = shell s := by
  simp [dropLink]

@[simp] theorem shell_settleReady (s : State) : shell (settleReady s) = shell s := by
  simp [settleReady]

@[simp] theorem shell_toOff (s : State) (p : Nat) : shell (toOff s p) = shell s := by
  simp [toOff]

@[simp] theorem shell_resetPort (s : State) (p : Nat) : shell (resetPort s p) = shell s := by
  simp [resetPort]

/-! ### Pages -/

@[simp] theorem shell_setPage (s : State) (r pg : Nat) (p : Page) : shell (setPage s r pg p) = shell s := by
  simp [setPage]

@[simp] theorem shell_modPage (s : State) (r pg : Nat) (f : Page → Page) : shell (modPage s r pg f) = shell s := by
  unfold modPage; split <;> simp

@[simp] theorem shell_dropFrame (s : State) (loc : PageLoc) (f : Nat) : shell (dropFrame s loc f) = shell s := by
  simp [dropFrame]

@[simp] theorem shell_releaseFrame (s : State) (p : Page) : shell (releaseFrame s p) = shell s := by
  unfold releaseFrame; split <;> simp

@[simp] theorem shell_unmapPage (s : State) (r pg : Nat) : shell (unmapPage s r pg) = shell s := by
  unfold unmapPage; split <;> simp

@[simp] theorem shell_notePagePoison (s : State) (r va : Nat) (bad : List Nat) :
    shell (notePagePoison s r va bad) = shell s := by
  simp [notePagePoison]

@[simp] theorem shell_farPut (s : State) (r : Nat) (p : Page) (loc : PageLoc) (frame : Nat) (dev : BitVec 12)
    (va n : Nat) : shell (farPut s r p loc frame dev va n) = shell s := by
  unfold farPut
  split
  · exact shell_getD fun t => shell_request
  · simp
  · rfl

@[simp] theorem shell_farStore (s : State) (r va n : Nat) : shell (farStore s r va n) = shell s := by
  refine shell_foldl (fun s pg => ?_) _ s
  split <;> simp

@[simp] theorem shell_putText (s : State) (r va : Nat) (bs : Bytes) (bad : List Nat) :
    shell (putText s r va bs bad) = shell s := by
  simp [putText]

@[simp] theorem shell_clearPage (s : State) (r pg : Nat) : shell (clearPage s r pg) = shell s := by
  simp [clearPage]

@[simp] theorem shell_localPlace (s : State) (r pg : Nat) : shell (localPlace s r pg).1 = shell s := (rfl)

@[simp] theorem shell_beginMove (s : State) (r pg : Nat) (loc : PageLoc) (frame : Nat) (dev : BitVec 12) :
    shell (beginMove s r pg loc frame dev) = shell s := by
  simp [beginMove]

@[simp] theorem shell_promoteOne (par : Nat) (a : State × Nat × List (CtxId × Nat)) (e : CtxId × Nat) :
    shell (promoteOne par a e).1 = shell a.1 := by
  simp only [promoteOne]
  split
  · split
    · rfl
    · split <;> simp
  · rfl

@[simp] theorem shell_promoteAll (s : State) (par left : Nat) (es : List (CtxId × Nat)) :
    shell (promoteAll s par left es) = shell s := by
  suffices h : ∀ a, shell (es.foldl (promoteOne par) a).1 = shell a.1 from h (s, left, [])
  induction es with
  | nil => exact fun _ => rfl
  | cons e es ih => exact fun a => (ih _).trans (shell_promoteOne par a e)

@[simp] theorem shell_settleMove (s : State) (r pg : Nat) (p : Page) (m : PageMove) :
    shell (settleMove s r pg p m) = shell s := by
  simp [settleMove]

@[simp] theorem shell_stopMove (s : State) (r pg : Nat) : shell (stopMove s r pg) = shell s := by
  unfold stopMove; split <;> simp

@[simp] theorem shell_pinNow (s : State) (r pg : Nat) : shell (pinNow s r pg) = shell s := by
  simp only [pinNow, shell_modPage]
  split
  · split <;> simp
  · rfl

@[simp] theorem shell_cutPg (s : State) (r : Nat) : shell (cutPg s r) = shell s := by
  simp [cutPg]

@[simp] theorem shell_endPg (s : State) (r : Nat) : shell (endPg s r) = shell s := by
  simp [endPg]

@[simp] theorem shell_dropMoves (s : State) (r : Nat) : shell (dropMoves s r) = shell s := by
  refine shell_foldl (fun s e => ?_) _ s
  split <;> simp

/-! ### On-chip writes and bulk channels -/

@[simp] theorem shell_noteInbound (s : State) (r vx vy a : Nat) (bs : Bytes) (bad : List Nat) :
    shell (noteInbound s r vx vy a bs bad) = shell s := by
  simp [noteInbound]

@[simp] theorem shell_mirrorWrite (s : State) (r n k vx vy a : Nat) (bs : Bytes) (bad : List Nat) :
    shell (mirrorWrite s r n k vx vy a bs bad) = shell s := by
  simp only [mirrorWrite]; split <;> simp

@[simp] theorem shell_onChipWrite (s : State) (r vx vy a : Nat) (bs : Bytes) (bad : List Nat) :
    shell (onChipWrite s r vx vy a bs bad) = shell s := by
  simp only [onChipWrite]; split <;> simp

theorem shell_physWrite {s t : State} {q : Asker} {p : Nat} {bs : Bytes} {bad : List Nat}
    (h : physWrite s q p bs bad = some t) : shell t = shell s := by
  obtain ⟨a, -, rfl⟩ := Option.map_eq_some_iff.1 h
  cases a <;> simp

theorem shell_globalWrite {s t : State} {q : Asker} {a : Nat} {bs : Bytes} {bad : List Nat}
    (h : globalWrite s q a bs bad = some t) : shell t = shell s := by
  simp only [globalWrite] at h
  split at h
  · obtain ⟨x, -, rfl⟩ := Option.map_eq_some_iff.1 h
    simp
  · split at h
    · cases h
    · exact shell_foldlM (fun _ _ _ => shell_physWrite) h

@[simp] theorem shell_scrambleDesc (s : State) (b : BulkId) (d : Bytes) : shell (scrambleDesc s b d) = shell s := by
  simp only [scrambleDesc]
  split
  · simp
  · split
    · exact shell_getD fun t h => (shell_globalWrite h).trans (shell_drawFree s)
    · rfl
  · simp
  · rfl

@[simp] theorem shell_bulkScramble (s : State) (b : BulkId) (x : Xfer) : shell (bulkScramble s b x) = shell s := by
  simp [bulkScramble]

@[simp] theorem shell_chPut (s : State) (ch : ChanRef) (x : Option Xfer) : shell (chPut s ch x) = shell s := by
  unfold chPut
  split
  · simp
  · split <;> simp

@[simp] theorem shell_dropChan (s : State) (ch : ChanRef) : shell (dropChan s ch) = shell s := (rfl)
@[simp] theorem shell_endWaits (s : State) (w : Waiter) : shell (endWaits s w) = shell s := (rfl)

@[simp] theorem shell_bulkStop (s : State) (b : BulkId) : shell (bulkStop s b) = shell s := by
  unfold bulkStop; split <;> simp

/-! ### Takes and parts of steps -/

@[simp] theorem shell_beginFloat (s : State) (n k : Nat) : shell (beginFloat s n k) = shell s := by
  unfold beginFloat; split <;> simp

@[simp] theorem shell_chooseTake (s : State) (n : Nat) : shell (chooseTake s n) = shell s := by
  simp only [chooseTake]
  split
  · simp
  · split <;> simp

@[simp] theorem shell_removeTake (s : State) (n k : Nat) : shell (removeTake s n k) = shell s := by
  simp [removeTake]

@[simp] theorem shell_addUnder (s : State) (n r : Nat) : shell (addUnder s n r) = shell s := by
  simp [addUnder]

@[simp] theorem shell_endUnder (s : State) (n : Nat) : shell (endUnder s n) = shell s := by
  unfold endUnder; split <;> simp

@[simp] theorem shell_replaceHome (s : State) (n k r : Nat) : shell (replaceHome s n k r) = shell s := by
  unfold replaceHome; split <;> simp

@[simp] theorem shell_freePart (k : Nat) (s : State) (c : StepCore) : shell (freePart k s c) = shell s := by
  have h : shell ((keyCtx s k).elim s (replaceHome s c.core.val k)) = shell s := by
    cases keyCtx s k <;> simp
  simp [freePart, h]

@[simp] theorem shell_dropXfers (k : Nat) (s : State) (n : Nat) : shell (dropXfers k s n) = shell s := by
  simp [dropXfers]

@[simp] theorem shell_killPart (k : Nat) (s : State) (c : StepCore) : shell (killPart k s c) = shell s := by
  simp [killPart]

@[simp] theorem shell_freeFloat (r k : Nat) (s : State) (c : StepCore) : shell (freeFloat r k s c) = shell s := by
  simp [freeFloat]

@[simp] theorem shell_setPart (s : State) (n k : Nat) (p : PartSt) : shell (setPart s n k p) = shell s := by
  simp [setPart]

@[simp] theorem shell_endParked (s : State) (k : Nat) (c : StepCore) : shell (endParked s k c) = shell s := by
  simp [endParked]

@[simp] theorem shell_releaseCore (r k : Nat) (s : State) (m : CoreId × Nat × Nat) :
    shell (releaseCore r k s m) = shell s := by
  simp [releaseCore]

/-! ### Ends of steps -/

@[simp] theorem shell_noteMismatch (s : State) (r : Nat) (st : Step) : shell (noteMismatch s r st) = shell s := by
  simp [noteMismatch]

@[simp] theorem shell_pairShip (s : State) (r : Nat) (st : Step) : shell (pairShip s r st) = shell s := by
  simp [pairShip]

@[simp] theorem shell_closeStep (s : State) (r : Nat) (st : Step) : shell (closeStep s r st) = shell s := by
  simp [closeStep]

@[simp] theorem shell_dropStep (s : State) (r o : Nat) (st : Step) : shell (dropStep s r o st) = shell s := by
  simp [dropStep]

@[simp] theorem shell_takeLaunch (s : State) (r : Nat) (w : LaunchOf) : shell (takeLaunch s r w) = shell s := (rfl)

@[simp] theorem shell_killHome (s : State) (r o : Nat) : shell (killHome s r o) = shell s := by
  simp only [killHome]
  split
  · rfl
  · simp only [shell_closeStep, shell_modCtx]; split <;> simp

@[simp] theorem shell_killFloat (r o : Nat) (s : State) (st : Step) : shell (killFloat r o s st) = shell s := by
  simp [killFloat]

@[simp] theorem shell_dropQueue (s : State) (r o : Nat) : shell (dropQueue s r o) = shell s := by
  simp only [dropQueue]
  rw [shell_foldl fun s st => shell_dropStep s r o st, shell_update, shell_modCtx]

@[simp] theorem shell_endHolding (s : State) (r : Nat) : shell (endHolding s r) = shell s := by
  simp [endHolding]

/-! ### Reels, snapshots and the end of a context -/

@[simp] theorem shell_freeStaging (s : State) (r : Nat) (l : ReelLoad) : shell (freeStaging s r l) = shell s := by
  simp [freeStaging]

@[simp] theorem shell_reelFail (s : State) (r result : Nat) : shell (reelFail s r result) = shell s := by
  unfold reelFail
  split
  · rfl
  · simp only [reelSignal, shell_signal]; split <;> simp

@[simp] theorem shell_unshadow (s : State) (ok : Nat → Bool) : shell (unshadow s ok) = shell s := (rfl)

@[simp] theorem shell_printFail (s : State) (r result : Nat) : shell (printFail s r result) = shell s := by
  unfold printFail; split <;> simp [printSignal]

@[simp] theorem shell_clearBlock (s : State) (sl : Nat) : shell (clearBlock s sl) = shell s := (rfl)
@[simp] theorem shell_dropTables (s : State) (r : Nat) : shell (dropTables s r) = shell s := (rfl)

@[simp] theorem shell_abandonReturn (s : State) (r : Nat) : shell (abandonReturn s r) = shell s := by
  unfold abandonReturn; split <;> simp

@[simp] theorem shell_releaseContext (s : State) (r : Nat) : shell (releaseContext s r) = shell s := by
  simp only [releaseContext, shell_update, shell_dropTables]
  split <;> simp

@[simp] theorem shell_settleDisable (s : State) (r : Nat) : shell (settleDisable s r) = shell s := by
  simp [settleDisable]

@[simp] theorem shell_beginDisable (s : State) (r : Nat) : shell (beginDisable s r) = shell s := by
  simp [beginDisable]

/-! ### Resets of contexts and keys -/

@[simp] theorem shell_resetHead (s : State) (r : Nat) : shell (resetHead s r) = shell s := by
  unfold resetHead; split <;> simp

@[simp] theorem shell_resetCopies (s : State) (r : Nat) : shell (resetCopies s r) = shell s := by
  simp only [resetCopies, shell_ite, shell_beginDisable, shell_settleDisable, shell_modCtx, ite_self]
  split <;> simp

@[simp] theorem shell_resetContext (s : State) (r : Nat) : shell (resetContext s r) = shell s := by
  simp [resetContext]

@[simp] theorem shell_keepTime (old s : State) : shell (keepTime old s) = shell s := by
  simp [keepTime]

@[simp] theorem shell_keyLoss (r slot : Nat) (s : State) : shell (keyLoss r slot s) = shell s := by
  unfold keyLoss; split <;> simp

@[simp] theorem shell_emptyKeys (s : State) : shell (emptyKeys s) = shell s := by
  simp [emptyKeys, emptyStore, dropPageKeys]

end Sys2Proof.Machine
end

section
/-! PROOFS. Scope: the warm reset (R43, R443), the events of the link and of JTAG (R568, R578, R588), and obligation O53. -/

open Sys2Proof.Machine

namespace Sys2Proof.Machine

/-! ### Fields cleared -/

/-- A field that reads 0 reads 0 after any field is cleared, its own place included. -/
theorem fget_fset_zero {s : State} {g : Fld} {a b : Nat} (h : fget s g a b = 0) (f : Fld) (i j : Nat) :
    fget (fset s f i j 0) g a b = 0 := by
  by_cases hk : f.key i j = g.key a b
  · simp [fget, fset, hk]
  · rw [fget_fset_ne hk, h]

/-- A field that reads 0 reads 0 after a list of fields is cleared. -/
theorem fget_foldl_zero {α : Type} {s : State} {g : Fld} {a b : Nat} {f : α → Fld} {i j : α → Nat} (l : List α)
    (h : fget s g a b = 0) : fget (l.foldl (fun s x => fset s (f x) (i x) (j x) 0) s) g a b = 0 :=
  List.foldlRecOn (motive := fun t => fget t g a b = 0) l _ h fun _ ht x _ => fget_fset_zero ht (f x) (i x) (j x)

/-- A field of a list reads 0 after the list is cleared. -/
theorem fget_foldl_clear {f : Fld} {fs : List Fld} (hf : f ∈ fs) (s : State) :
    fget (fs.foldl (fun s f => fset s f 0 0 0) s) f 0 0 = 0 := by
  induction fs generalizing s with
  | nil => cases hf
  | cons g fs ih =>
    rcases List.mem_cons.1 hf with rfl | hf
    · exact fget_foldl_zero fs (by simp)
    · exact ih hf (fset s g 0 0 0)

/-- A warm reset clears `READY` and `BOOT`. -/
theorem fget_resetFields_of_mem {f : Fld} (hf : f ∈ [F.hostStatReady, F.secStatBoot]) (s : State) :
    fget (resetFields s) f 0 0 = 0 := by
  refine fget_foldl_zero _ (fget_foldl_zero _ (fget_foldl_zero _ (fget_foldl_clear ?_ s)))
  simp only [List.mem_cons, List.not_mem_nil, or_false] at hf
  rcases hf with rfl | rfl <;> simp

/-- `resetFields` writes fields alone: what no field write touches, it leaves. -/
theorem resetFields_keeps {β : Type} (π : State → β) (h : ∀ s f i j v, π (fset s f i j v) = π s) (s : State) :
    π (resetFields s) = π s := by
  refine (foldl_keeps π (fun s i => h s F.bmvStatState i 0 0) _ _).trans ?_
  refine (foldl_keeps π (fun s i => h s F.fabRqcfgEn 0 i 0) _ _).trans ?_
  refine (foldl_keeps π (fun s i => h s F.hostIngcfgEn 0 i 0) _ _).trans ?_
  exact foldl_keeps π (fun s f => h s f 0 0 0) _ s

/-- `leaveRetain` writes fields alone. -/
theorem leaveRetain_keeps {β : Type} (π : State → β) (h : ∀ s f i j v, π (fset s f i j v) = π s) (s : State) :
    π (leaveRetain s) = π s := by
  refine (h _ F.pwrStatState 0 0 0).trans (foldl_keeps π (fun s ch => ?_) _ s)
  split
  · exact h s F.ddrStatState ch 0 2
  · rfl

/-! ### The key store emptied -/

@[simp] theorem keyLoss_keys (r slot : Nat) (s : State) : (keyLoss r slot s).keys = s.keys := by
  unfold keyLoss; split <;> rfl

@[simp] theorem keyLoss_time (r slot : Nat) (s : State) : (keyLoss r slot s).time = s.time := by
  unfold keyLoss; split <;> rfl

/-- An emptied key store holds no page key, no transport key and no ephemeral pair (R558). -/
theorem emptyKeys_keys (s : State) :
    (emptyKeys s).keys = { s.keys with page := [], transport := [], ephemeral := none } := by
  have h := foldl_keeps State.keys (fun s (k : Nat) => keyLoss_keys (k / 16) (k % 16) s)
    ((s.keys.page.map (·.1)).filter fun _ => true) { s with keys := { s.keys with page := s.keys.page.filter fun _ => !true } }
  simp only [emptyKeys, emptyStore, dropPageKeys, h]
  simp

/-- The key store emptied, the timecode block stands. -/
theorem emptyKeys_time (s : State) : (emptyKeys s).time = s.time :=
  foldl_keeps State.time (fun s (k : Nat) => keyLoss_time (k / 16) (k % 16) s) _ _

/-- The timecode block keeps no launch (R407). -/
theorem keepTime_launches (old s : State) : (keepTime old s).time.launches = [] := rfl

/-! ### The warm reset -/

/-- The cores after a warm reset. -/
def resetCores (s : State) : State := { s with cores := s.cores.map (fun e => (e.1, resetCore e.2)) }

/-- The bulk channels of a list, the cores and the contexts after a warm reset. -/
def unitsReset (bs : List BulkId) (s : State) : State :=
  let s := resetCores (bs.foldl bulkStop (fcount s F.glbStatWarmcnt 0 0 1))
  (s.ctxs.map (·.1)).foldl resetContext s

/-- Every block after a warm reset, but for what the device itself clears last. The lists of bulk channels and of ports
are arguments, so that no proof evaluates the folds over them. -/
def blocksReset (bs : List BulkId) (ps : List Nat) (s : State) : State :=
  let u := unitsReset bs s
  let s := emptyKeys (keepTime u (ps.foldl resetPort u))
  resetFields (if powerState s = 2 then leaveRetain s else s)

/-- What the device itself clears last. -/
def clearDevice (renewing : Bool) (s : State) : State :=
  { s with
    tokens := []
    fab := { s.fab with reqs := [], rqUnits := [], ingUnits := [], lineTot := [], stalled := [] }
    power := { s.power with limits := [], thermal := [], capSince := none, announced := none }
    pair := ⟨[], [], false, s.pair.renewed || renewing⟩
    faulted := false
    jtag := { s.jtag with scanned := [] }
    pcie := { s.pcie with d3 := false, resetting := true } }

/-- A warm reset is the reset of every block, and then what the device itself clears. -/
theorem warmReset_eq (s : State) :
    warmReset s = clearDevice (fget s F.pairStatState 0 0 == 4) (blocksReset (List.finRange 64) (List.range 48) s) := by
  rw [warmReset]
  generalize List.finRange 64 = bs, List.range 48 = ps
  rfl

@[simp] theorem shell_resetCores (s : State) : shell (resetCores s) = shell s := rfl

@[simp] theorem shell_unitsReset (bs : List BulkId) (s : State) : shell (unitsReset bs s) = shell s := by
  simp [unitsReset]

/-- The reset of the blocks leaves the shell. -/
theorem shell_blocksReset (bs : List BulkId) (ps : List Nat) (s : State) : shell (blocksReset bs ps s) = shell s := by
  rw [blocksReset, resetFields_keeps shell shell_fset]
  split
  · rw [leaveRetain_keeps shell shell_fset]
    simp
  · simp

/-- What no field write touches is read off the emptied key store. -/
theorem blocksReset_keeps {β : Type} (π : State → β) (h : ∀ s f i j v, π (fset s f i j v) = π s) (bs : List BulkId)
    (ps : List Nat) (s : State) :
    π (blocksReset bs ps s) = π (emptyKeys (keepTime (unitsReset bs s) (ps.foldl resetPort (unitsReset bs s)))) := by
  rw [blocksReset, resetFields_keeps π h]
  split
  · rw [leaveRetain_keeps π h]
  · rfl

/-- The reset of the blocks leaves no launch. -/
theorem blocksReset_launches (bs : List BulkId) (ps : List Nat) (s : State) : (blocksReset bs ps s).time.launches = [] := by
  rw [blocksReset_keeps State.time fun _ _ _ _ _ => rfl, emptyKeys_time, keepTime_launches]

/-- The reset of the blocks leaves the key store empty, but for the nonce (R558). -/
theorem blocksReset_keys (bs : List BulkId) (ps : List Nat) (s : State) :
    (blocksReset bs ps s).keys.page = [] ∧ (blocksReset bs ps s).keys.transport = [] ∧
      (blocksReset bs ps s).keys.ephemeral = none := by
  rw [blocksReset_keeps State.keys fun _ _ _ _ _ => rfl, emptyKeys_keys]
  exact ⟨rfl, rfl, rfl⟩

/-- What the device clears is no register, no launch and no key. -/
theorem clearDevice_frame (b : Bool) (s : State) :
    (clearDevice b s).regs = s.regs ∧ (clearDevice b s).time = s.time ∧ (clearDevice b s).keys = s.keys ∧
      (clearDevice b s).pins = s.pins ∧ (clearDevice b s).pcie.link = s.pcie.link ∧
      (clearDevice b s).jtag.held = s.jtag.held := ⟨rfl, rfl, rfl, rfl, rfl, rfl⟩

/-- What the device clears is gone. -/
theorem clearDevice_clears (b : Bool) (s : State) :
    (clearDevice b s).tokens = [] ∧ (clearDevice b s).fab.reqs = [] ∧ (clearDevice b s).faulted = false := ⟨rfl, rfl, rfl⟩

/-- Equal shells have the same pins, link and JTAG hold. -/
theorem eq_of_shell_eq {s t : State} (h : shell s = shell t) :
    s.pins = t.pins ∧ s.pcie.link = t.pcie.link ∧ s.jtag.held = t.jtag.held :=
  ⟨congrArg Shell.pins h, congrArg (·.pcie.link) h, congrArg (·.jtag.held) h⟩

/-- A warm reset leaves the pins, the link and the JTAG hold. -/
theorem warmReset_frame (s : State) :
    (warmReset s).pins = s.pins ∧ (warmReset s).pcie.link = s.pcie.link ∧ (warmReset s).jtag.held = s.jtag.held := by
  obtain ⟨-, -, -, hpins, hlink, hheld⟩ := clearDevice_frame (fget s F.pairStatState 0 0 == 4)
    (blocksReset (List.finRange 64) (List.range 48) s)
  rw [warmReset_eq, hpins, hlink, hheld]
  exact eq_of_shell_eq (shell_blocksReset _ _ s)

/-- A warm reset leaves no token, no request, no launch, no key and no device fault (R443). -/
theorem warmReset_clears (s : State) :
    (warmReset s).tokens = [] ∧ (warmReset s).fab.reqs = [] ∧ (warmReset s).time.launches = [] ∧
      (warmReset s).keys.page = [] ∧ (warmReset s).keys.transport = [] ∧ (warmReset s).keys.ephemeral = none ∧
      (warmReset s).faulted = false := by
  rw [warmReset_eq]
  obtain ⟨-, htime, hkeys, -⟩ := clearDevice_frame (fget s F.pairStatState 0 0 == 4)
    (blocksReset (List.finRange 64) (List.range 48) s)
  obtain ⟨htok, hreq, hflt⟩ := clearDevice_clears (fget s F.pairStatState 0 0 == 4)
    (blocksReset (List.finRange 64) (List.range 48) s)
  obtain ⟨hp, ht, he⟩ := blocksReset_keys (List.finRange 64) (List.range 48) s
  rw [htime, hkeys]
  exact ⟨htok, hreq, blocksReset_launches _ _ s, hp, ht, he, hflt⟩

/-- After a warm reset `READY` and `BOOT` read 0. -/
theorem fget_warmReset_of_mem {f : Fld} (hf : f ∈ [F.hostStatReady, F.secStatBoot]) (s : State) :
    fget (warmReset s) f 0 0 = 0 := by
  obtain ⟨hregs, -⟩ := clearDevice_frame (fget s F.pairStatState 0 0 == 4)
    (blocksReset (List.finRange 64) (List.range 48) s)
  rw [warmReset_eq, fget_congr hregs, blocksReset, fget_resetFields_of_mem hf]

/-! ### Firmware wanted -/

/-- The SMC wants firmware where the link is in L0 and JTAG does not hold the device; the reset is over then, in the same
step (R578; log entry 97, DEDUCED). -/
theorem wantFirmware_of_link {s : State} (hl : s.pcie.link = true) (hh : s.jtag.held = false) :
    wantFirmware s = { fset s F.hostStatFwwant 0 0 1 with pcie := { s.pcie with resetting := false } } := by
  simp [wantFirmware, hl, hh]

/-- Where the SMC wants firmware, `FWWANT` reads 1. -/
theorem fget_wantFirmware_fwwant {s : State} (hl : s.pcie.link = true) (hh : s.jtag.held = false) :
    fget (wantFirmware s) F.hostStatFwwant 0 0 = 1 := by
  rw [wantFirmware_of_link hl hh]
  exact fget_fset_same s F.hostStatFwwant 0 0 1

/-- `wantFirmware` touches no field but `FWWANT`. -/
theorem fget_wantFirmware_ne {f : Fld} {i j : Nat} (h : F.hostStatFwwant.key 0 0 ≠ f.key i j) (s : State) :
    fget (wantFirmware s) f i j = fget s f i j := by
  unfold wantFirmware
  split
  · exact fget_fset_ne h
  · rfl

/-- `wantFirmware` leaves the tokens, the fabric, the launches, the keys and the fault. -/
theorem wantFirmware_frame (s : State) :
    (wantFirmware s).tokens = s.tokens ∧ (wantFirmware s).fab = s.fab ∧ (wantFirmware s).time = s.time ∧
      (wantFirmware s).keys = s.keys ∧ (wantFirmware s).faulted = s.faulted := by
  unfold wantFirmware
  split
  · exact ⟨rfl, rfl, rfl, rfl, rfl⟩
  · exact ⟨rfl, rfl, rfl, rfl, rfl⟩

/-- `wantFirmware` leaves the link. -/
@[simp] theorem wantFirmware_link (s : State) : (wantFirmware s).pcie.link = s.pcie.link := by
  unfold wantFirmware; split <;> rfl

/-! ### The commands -/

/-- `WARM_RESET` keeps the link (Table 18.7). -/
theorem exec_warmReset (s : State) : exec .warmReset s = .next (resetKeepingLink s) := rfl

/-- A device that is not OFF is reset and wants firmware. -/
theorem resetKeepingLink_on {s : State} (h : powerState s ≠ 3) : resetKeepingLink s = wantFirmware (warmReset s) := if_neg h

/-- In OFF there is nothing to reset. -/
theorem resetKeepingLink_off {s : State} (h : powerState s = 3) : resetKeepingLink s = s := if_pos h

/-- JTAG holds a device that is not OFF as a warm reset leaves it (R568). -/
theorem jtagHold_on {s : State} (h : powerState s ≠ 3) :
    jtagHold s = { warmReset s with jtag := { (warmReset s).jtag with held := true } } := if_neg h

/-- What a warm reset that keeps the link leaves (R43, R443). -/
theorem warmReset_leaves (s : State) (h : powerState s ≠ 3) :
    ∃ t, exec .warmReset s = .next t ∧ t.tokens = [] ∧ t.fab.reqs = [] ∧ t.time.launches = [] ∧
      t.keys.page = [] ∧ t.keys.transport = [] ∧ t.keys.ephemeral = none ∧ t.faulted = false ∧
      fget t F.hostStatReady 0 0 = 0 ∧ fget t F.secStatBoot 0 0 = 0 ∧
      (s.pcie.link = true → s.jtag.held = false → fget t F.hostStatFwwant 0 0 = 1 ∧ t.pcie.resetting = false) := by
  obtain ⟨htok, hreq, hlaunch, hpage, htrans, heph, hflt⟩ := warmReset_clears s
  obtain ⟨-, hlink, hheld⟩ := warmReset_frame s
  have hready := fget_warmReset_of_mem (f := F.hostStatReady) (by simp) s
  have hboot := fget_warmReset_of_mem (f := F.secStatBoot) (by simp) s
  have he : exec .warmReset s = .next (wantFirmware (warmReset s)) := by rw [exec_warmReset, resetKeepingLink_on h]
  generalize warmReset s = u at *
  obtain ⟨ktok, kfab, ktime, kkeys, kflt⟩ := wantFirmware_frame u
  refine ⟨wantFirmware u, he, ?_⟩
  rw [ktok, kfab, ktime, kkeys, kflt, fget_wantFirmware_ne (by decide), fget_wantFirmware_ne (by decide)]
  refine ⟨htok, hreq, hlaunch, hpage, htrans, heph, hflt, hready, hboot, fun hl hh => ?_⟩
  rw [← hlink] at hl
  rw [← hheld] at hh
  exact ⟨fget_wantFirmware_fwwant hl hh, by rw [wantFirmware_of_link hl hh]⟩

/-- The pin `PERST_N` low. -/
def perstLow (s : State) : State := { s with pins := { s.pins with perstN := false } }

/-- The link gone, and no training. -/
def linkDown (s : State) : State := { s with pcie := { s.pcie with training := false, link := false } }

/-- The link gone, the pins, the tokens and the keys stand. -/
theorem linkDown_frame (s : State) :
    (linkDown s).pcie.link = false ∧ (linkDown s).pins = s.pins ∧ (linkDown s).tokens = s.tokens ∧
      (linkDown s).keys = s.keys := ⟨rfl, rfl, rfl, rfl⟩

/-- `PERST_N` resets a device with power, and takes the link down (R588, R622). -/
theorem exec_perstN {s : State} (hp : s.pins.pwrEn = true) (h : powerState s ≠ 3) :
    exec .perstN s = .next (linkDown (warmReset (perstLow s))) := by
  have hc : ¬((!s.pins.pwrEn) = true ∨ powerState (perstLow s) = 3) := by
    rintro (hp' | h')
    · simp [hp] at hp'
    · exact h h'
  have hu : { s with pins := { s.pins with perstN := false } } = perstLow s := rfl
  show execPerstN s = _
  simp only [execPerstN, hu, if_neg hc]
  generalize warmReset (perstLow s) = v
  rfl

/-- What `PERST_N` leaves (R588). -/
theorem perstN_leaves (s : State) (hp : s.pins.pwrEn = true) (h : powerState s ≠ 3) :
    ∃ t, exec .perstN s = .next t ∧ t.pcie.link = false ∧ t.pins.perstN = false ∧ t.tokens = [] ∧ t.keys.page = [] := by
  obtain ⟨hpins, -⟩ := warmReset_frame (perstLow s)
  obtain ⟨htok, -, -, hpage, -⟩ := warmReset_clears (perstLow s)
  obtain ⟨hl, kpins, ktok, kkeys⟩ := linkDown_frame (warmReset (perstLow s))
  refine ⟨_, exec_perstN hp h, hl, ?_, ktok.trans htok, ?_⟩
  · rw [kpins, hpins, perstLow]
  · rw [kkeys, hpage]

/-- `PERST_N` released, training begins where there is power and no link (R620). -/
theorem perstNDeassert_trains (s : State) :
    ∃ t, exec .perstNDeassert s = .next t ∧ t.pins.perstN = true ∧
      (s.pins.pwrOk = true → s.pcie.link = false → t.pcie.training = true) := by
  refine ⟨_, rfl, ?_, fun hp hl => ?_⟩
  · unfold beginPcie
    split <;> rfl
  · simp [beginPcie, hp, hl]

/-- `RATE` of a link, 0 where the rate is not a supported one (R571). -/
def rateCode (rate : Nat) : Nat := if rate = 64 then 2 else if rate = 32 then 1 else 0

/-- The code of a supported rate is the rate in units of 32 GT/s. -/
theorem rateCode_of_supported {rate : Nat} (h : rate = 64 ∨ rate = 32) : rateCode rate = rate / 32 := by
  rcases h with rfl | rfl <;> rfl

/-- Another rate has the code 0. -/
theorem rateCode_of_unsupported {rate : Nat} (h64 : rate ≠ 64) (h32 : rate ≠ 32) : rateCode rate = 0 := by
  simp [rateCode, h64, h32]

/-- The link once trained, up or not: `RATE` and `WIDTH` show what it trained into (R571). -/
def trained (s : State) (rate width : Nat) (up : Bool) : State :=
  { fset (fset s F.hostStatRate 0 0 (rateCode rate)) F.hostStatWidth 0 0 width with
    pcie := { s.pcie with training := false, link := up } }

/-- A link under training comes up in a supported configuration, and otherwise shows `UNSUPLINK` (R571, R578). -/
theorem exec_pcieLinkL0 {s : State} (ht : s.pcie.training = true) (rate width : Nat) (ok : Bool) :
    exec (.pcieLinkL0 rate width ok) s =
      if ok = true ∧ rateCode rate ≠ 0 ∧ (width = 16 ∨ width = 8) then .next (wantFirmware (trained s rate width true))
      else .next (fset (trained s rate width s.pcie.link) F.hostStatUnsuplink 0 0 1) := by
  show execPcieLinkL0 rate width ok s = _
  rw [execPcieLinkL0, ht]
  rfl

theorem fget_trained_rate (s : State) {rate : Nat} (h : rate = 64 ∨ rate = 32) (width : Nat) (up : Bool) :
    fget (trained s rate width up) F.hostStatRate 0 0 = rate / 32 := by
  show fget (fset (fset s F.hostStatRate 0 0 (rateCode rate)) F.hostStatWidth 0 0 width) F.hostStatRate 0 0 = _
  rw [fget_fset_ne (by decide), fget_fset_same, rateCode_of_supported h]
  exact Nat.mod_eq_of_lt (show rate / 32 < 4 by omega)

theorem fget_trained_width (s : State) (rate : Nat) {width : Nat} (h : width = 16 ∨ width = 8) (up : Bool) :
    fget (trained s rate width up) F.hostStatWidth 0 0 = width :=
  (fget_fset_same _ F.hostStatWidth 0 0 width).trans (Nat.mod_eq_of_lt (show width < 32 by omega))

/-- A link that trains into a supported rate and width is up, and the SMC wants firmware (R571, R578). -/
theorem pcieLinkL0_supported {s : State} (ht : s.pcie.training = true) {rate width : Nat}
    (hr : rate = 64 ∨ rate = 32) (hw : width = 16 ∨ width = 8) :
    ∃ t, exec (.pcieLinkL0 rate width true) s = .next t ∧ t.pcie.link = true ∧
      fget t F.hostStatRate 0 0 = rate / 32 ∧ fget t F.hostStatWidth 0 0 = width ∧
      (s.jtag.held = false → fget t F.hostStatFwwant 0 0 = 1) := by
  have hc : rateCode rate ≠ 0 := by rw [rateCode_of_supported hr]; omega
  refine ⟨wantFirmware (trained s rate width true), ?_, wantFirmware_link _, ?_, ?_,
    fun hh => fget_wantFirmware_fwwant rfl hh⟩
  · rw [exec_pcieLinkL0 ht, if_pos ⟨rfl, hc, hw⟩]
  · rw [fget_wantFirmware_ne (by decide), fget_trained_rate s hr]
  · rw [fget_wantFirmware_ne (by decide), fget_trained_width s rate hw]

/-- A link that trains into anything else shows `UNSUPLINK` (R571). -/
theorem pcieLinkL0_unsupported {s : State} (ht : s.pcie.training = true) {rate width : Nat} {ok : Bool}
    (h : ok = false ∨ (rate ≠ 64 ∧ rate ≠ 32) ∨ (width ≠ 16 ∧ width ≠ 8)) :
    ∃ t, exec (.pcieLinkL0 rate width ok) s = .next t ∧ fget t F.hostStatUnsuplink 0 0 = 1 := by
  have hc : ¬(ok = true ∧ rateCode rate ≠ 0 ∧ (width = 16 ∨ width = 8)) := by
    rintro ⟨rfl, hr, hw⟩
    rcases h with h | ⟨h64, h32⟩ | ⟨h16, h8⟩
    · cases h
    · exact hr (rateCode_of_unsupported h64 h32)
    · exact hw.elim h16 h8
  rw [exec_pcieLinkL0 ht, if_neg hc]
  exact ⟨_, rfl, fget_fset_same _ F.hostStatUnsuplink 0 0 1⟩

/-- `EXTEST`, `CLAMP` and `HIGHZ` reset the device, empty the key store and hold the device (R568). -/
theorem jtagHold_resets {s : State} (h : powerState s ≠ 3) :
    (jtagHold s).jtag.held = true ∧ (jtagHold s).keys.page = [] ∧ (jtagHold s).keys.transport = [] ∧
      (jtagHold s).tokens = [] := by
  obtain ⟨htok, -, -, hpage, htrans, -⟩ := warmReset_clears s
  rw [jtagHold_on h]
  generalize warmReset s = v at *
  exact ⟨rfl, hpage, htrans, htok⟩

end Sys2Proof.Machine

/-- Settles O53: a warm reset, from wherever it comes, is the reset of every block, which leaves the link, the pins and the
JTAG hold (`shell_blocksReset`); the rest is read off it and off the state of the link.
That `FWWANT` is set and the reset over in the step of the reset itself is the model's choice (log entry 97, DEDUCED). -/
theorem resetsAndTheLink : Obligations.ResetsAndTheLink := by
  intro s w
  refine ⟨warmReset_leaves s, fun h => by rw [exec_warmReset, resetKeepingLink_off h], fun hw hr => ?_, fun hl => ?_,
    perstN_leaves s, perstNDeassert_trains s, fun ht rate width ok => ⟨?_, pcieLinkL0_unsupported ht⟩, fun hl => ?_, rfl,
    fun c hc h => ?_, fun hh => ?_⟩
  · show execRst w s = execWarmReset s
    rw [execRst, onBar_open hw, if_pos hr, execWarmReset]
  · exact congrArg _ (if_pos hl)
  · rintro rfl hr hw
    exact pcieLinkL0_supported ht hr hw
  · exact congrArg _ (if_pos hl)
  · have he : exec c s = .next (jtagHold s) := by
      simp only [List.mem_cons, List.not_mem_nil, or_false] at hc
      rcases hc with rfl | rfl | rfl <;> rfl
    exact ⟨jtagHold s, he, jtagHold_resets h⟩
  · exact congrArg _ (if_pos hh)

end

section
/-! PROOFS. Scope: exact values, two's complement and little-endian numbers, a view read after a write, the splice
accumulators (R90 to R96), and obligation O15. -/

open Sys2Proof.Machine

namespace Sys2Proof.Machine

/-! ### Exact values -/

/-- A value written in a lower unit is the same value. -/
theorem dyVal_lower {u e : Int} (h : u ≤ e) (m : Int) : dyVal ⟨m * 2 ^ (e - u).toNat, u⟩ = dyVal ⟨m, e⟩ := by
  have he : (((e - u).toNat : ℕ) : ℤ) + u = e := by omega
  simp only [dyVal, Int.cast_mul, Int.cast_pow, Int.cast_ofNat]
  rw [mul_assoc, ← zpow_natCast, ← zpow_add₀ two_ne_zero, he]

/-- In one unit, equal values are equal multiples. -/
theorem dyVal_inj {m n e : Int} : dyVal ⟨m, e⟩ = dyVal ⟨n, e⟩ ↔ m = n := by
  simp [dyVal, zpow_ne_zero e (two_ne_zero (α := ℚ))]

/-- `dyAdd` adds exactly. -/
theorem dyVal_dyAdd (a b : Dy) : dyVal (dyAdd a b) = dyVal a + dyVal b := by
  have parts : dyVal (dyAdd a b) =
      dyVal ⟨a.m * 2 ^ (a.e - min a.e b.e).toNat, min a.e b.e⟩ +
        dyVal ⟨b.m * 2 ^ (b.e - min a.e b.e).toNat, min a.e b.e⟩ := by
    simp only [dyAdd, dyVal]
    push_cast
    ring
  rw [parts, dyVal_lower (min_le_left ..), dyVal_lower (min_le_right ..)]

/-- `inUnits` answers `t` exactly where the value is `t` units (R92). -/
theorem inUnits_eq_some_iff {v : Dy} {u t : Int} : inUnits v u = some t ↔ dyVal v = dyVal ⟨t, u⟩ := by
  obtain ⟨m, e⟩ := v
  by_cases hm : m = 0
  · have hz : dyVal ⟨m, e⟩ = dyVal ⟨0, u⟩ := by simp [dyVal, hm]
    rw [hz, dyVal_inj]
    simp [inUnits, hm]
  · by_cases hu : u ≤ e
    · rw [← dyVal_lower hu, dyVal_inj]
      simp [inUnits, hm, hu]
    · rw [← dyVal_lower (le_of_not_ge hu) t, dyVal_inj]
      have hp : (2 : Int) ^ (u - e).toNat ≠ 0 := by positivity
      simp only [inUnits, hm, hu, if_false]
      split
      · next hd =>
        rw [Option.some_inj, Int.ediv_eq_iff_eq_mul_left hp (Int.dvd_of_emod_eq_zero hd)]
      · next hd =>
        refine ⟨by simp, fun h => absurd ?_ hd⟩
        rw [h, Int.mul_emod_left]

/-! ### Two's complement and little-endian numbers -/

theorem fits_iff {w : Nat} {v : Int} : fits w v = true ↔ -(2 ^ (w - 1) : Int) ≤ v ∧ v < 2 ^ (w - 1) := by
  simp [fits]

theorem ubits_lt (w : Nat) (v : Int) : ubits w v < 2 ^ w := by
  have h : (0 : Int) < 2 ^ w := by positivity
  have hlt := Int.emod_lt_of_pos v h
  zify [ubits]
  rwa [Int.toNat_of_nonneg (Int.emod_nonneg v h.ne')]

/-- A number of `w` bits is read back from its two's complement. -/
theorem sint_ubits {w : Nat} {v : Int} (hw : 0 < w) (h : fits w v = true) : sint w (ubits w v) = v := by
  obtain ⟨lo, hi⟩ := fits_iff.1 h
  obtain ⟨n, rfl⟩ : ∃ n, w = n + 1 := ⟨w - 1, by omega⟩
  have h2 : (2 : Int) ^ (n + 1) = 2 * 2 ^ n := pow_succ' 2 n
  have hpos : (0 : Int) < 2 ^ n := by positivity
  have hu : ((ubits (n + 1) v : Nat) : Int) = if 0 ≤ v then v else v + 2 ^ (n + 1) := by
    rw [ubits, Int.toNat_of_nonneg (Int.emod_nonneg v (by positivity))]
    simp only [Nat.add_sub_cancel] at lo hi
    split
    · exact Int.emod_eq_of_lt (by omega) (by omega)
    · rw [← Int.add_emod_right, Int.emod_eq_of_lt (by omega) (by omega)]
  simp only [Nat.add_sub_cancel] at lo hi
  have hge : ubits (n + 1) v ≥ 2 ^ n ↔ ((ubits (n + 1) v : Nat) : Int) ≥ 2 ^ n := by exact_mod_cast Iff.rfl
  rw [sint, Nat.mod_eq_of_lt (ubits_lt ..), Nat.add_sub_cancel]
  simp only [hge, hu]
  split <;> split <;> omega

/-- `n` little-endian bytes hold a number below `256 ^ n`, and the rest of a larger one. -/
theorem leNat_leBytes_mod (n v : Nat) : leNat (leBytes n v) = v % 256 ^ n := by
  induction n generalizing v with
  | zero => simp [leBytes, leNat, Nat.mod_one]
  | succ n ih =>
    rw [leBytes, leNat, ih, BitVec.toNat_ofNat, pow_succ' 256 n, Nat.mod_mul]

/-- A number of `8 * n` bits is read back from its `n` bytes. -/
theorem leNat_leBytes_of_lt {n v : Nat} (h : v < 2 ^ (8 * n)) : leNat (leBytes n v) = v := by
  rw [leNat_leBytes_mod, Nat.mod_eq_of_lt]
  rwa [Nat.pow_mul] at h

/-- An integer of `8 * n` bits is read back from the bytes of its two's complement. -/
theorem sint_leBytes {n w : Nat} {v : Int} (hw : w = 8 * n) (hn : 0 < n) (h : fits w v = true) :
    sint w (leNat (leBytes n (ubits w v))) = v := by
  rw [leNat_leBytes_of_lt (hw ▸ ubits_lt w v), sint_ubits (by omega) h]

/-! ### Views -/

/-- A view whose granules differ has each of its bytes in a place of its own (R184). -/
theorem vphys_inj {fr : Frame} (hg : fr.gran.Nodup) {a b : Nat} (ha : a < viewLen fr) (hb : b < viewLen fr)
    (h : vphys fr a = vphys fr b) : a = b := by
  unfold viewLen at ha hb
  have ha' : a / 32768 < fr.gran.length := by omega
  have hb' : b / 32768 < fr.gran.length := by omega
  simp only [vphys, List.getD_eq_getElem _ _ ha', List.getD_eq_getElem _ _ hb'] at h
  have hi : a / 32768 = b / 32768 := (hg.getElem_inj_iff).1 (show fr.gran[a / 32768] = fr.gran[b / 32768] by omega)
  omega

theorem vread_congr {c c' : Core} (h : c.scratch = c'.scratch) (fr : Frame) (a n : Nat) :
    vread c fr a n = vread c' fr a n := by
  simp only [vread, h]

theorem vread_succ (c : Core) (fr : Frame) (a n : Nat) :
    vread c fr a (n + 1) = mget c.scratch (vphys fr a) :: vread c fr (a + 1) n := by
  simp [vread, List.range_succ_eq_map, Nat.add_assoc, Nat.add_comm 1]

/-- Bytes written further up in a view leave a byte of it. -/
theorem mget_vwrite_above {fr : Frame} (hg : fr.gran.Nodup) {x a : Nat} {bs : Bytes} (hx : x < a)
    (hl : a + bs.length ≤ viewLen fr) (c : Core) :
    mget (vwrite c fr a bs).scratch (vphys fr x) = mget c.scratch (vphys fr x) := by
  induction bs generalizing a c with
  | nil => rfl
  | cons b bs ih =>
    rw [List.length_cons] at hl
    have hne : vphys fr a ≠ vphys fr x := fun h => absurd (vphys_inj hg (by omega) (by omega) h) (by omega)
    rw [vwrite, ih (by omega) (by omega), mget_mset_ne hne]

/-- Bytes written to a view are read back, where it holds them on granules that differ. -/
theorem vread_vwrite {fr : Frame} (hg : fr.gran.Nodup) {a : Nat} {bs : Bytes} (hl : a + bs.length ≤ viewLen fr)
    {c : Core} (hm : memWf c.scratch = true) : vread (vwrite c fr a bs) fr a bs.length = bs := by
  induction bs generalizing a c with
  | nil => rfl
  | cons b bs ih =>
    rw [List.length_cons] at hl ⊢
    rw [vread_succ, vwrite, ih (by omega) (memWf_mset hm), mget_vwrite_above hg (by omega) (by omega),
      mget_mset_same hm]

/-! ### Accumulators -/

@[simp] theorem accOf_setAcc (c : Core) (a : Nat) (x : SpAcc) : accOf (setAcc c a x) a = x := by
  simp [accOf, setAcc]

@[simp] theorem setAcc_scratch (c : Core) (a : Nat) (x : SpAcc) : (setAcc c a x).scratch = c.scratch := rfl

@[simp] theorem holdWide_scratch (c : Core) (n : Nat) : (holdWide c n).scratch = c.scratch := by
  unfold holdWide holdAdd
  split <;> rfl

theorem accVal_empty {c : Core} {fr : Frame} {wide a : Nat} (h : (accOf c a).st = .empty) :
    accVal c fr wide a = ⟨0, 0⟩ := by
  simp only [accVal, h]

theorem accVal_window {c : Core} {fr : Frame} {wide a : Nat} {w : Int} (h : (accOf c a).st = .window w) :
    accVal c fr wide a = ⟨(accOf c a).s, w⟩ := by
  simp only [accVal, h]

theorem accVal_wide {c : Core} {fr : Frame} {wide a : Nat} (h : (accOf c a).st = .wide) :
    accVal c fr wide a = ⟨sint 768 (leNat (vread c fr (wideAt wide a) 96)), -480⟩ := by
  simp only [accVal, h]

/-- What becomes of the sum of the accumulator's value and an addend's: it stays in a window, or it is formed in the wide
form. -/
inductive Added (c : Core) (fr : Frame) (wide a : Nat) (v : Dy) (c' : Core) : Prop
  /-- The accumulator is left a window that holds the sum (R92). -/
  | inWindow (x : SpAcc) (w : Int) (eq : c' = setAcc c a x) (st : x.st = .window w)
      (val : dyVal ⟨x.s, w⟩ = dyVal (accVal c fr wide a) + dyVal v)
  /-- The addend is added in the wide form to the value the accumulator held (R91, R96). -/
  | inWide (hold : Nat) (x : SpAcc) (old : Dy) (eq : c' = wideSum (holdWide c hold) fr wide a x old v)
      (val : dyVal old = dyVal (accVal c fr wide a))

/-- An addition to an EMPTY accumulator (R91). -/
theorem added_empty {c : Core} {fr : Frame} {wide a : Nat} {d : Addend} (h : (accOf c a).st = .empty) :
    Added c fr wide a d.v (accAdd c fr wide a d) := by
  have hz : dyVal ⟨0, -480⟩ = dyVal (accVal c fr wide a) := by simp [accVal_empty h, dyVal]
  simp only [accAdd, h]
  split
  · exact .inWide _ _ _ rfl hz
  · split
    · next t ht =>
      split
      · refine .inWindow _ d.unit rfl rfl ?_
        rw [← inUnits_eq_some_iff.1 ht, ← hz]
        simp [dyVal]
      · exact .inWide _ _ _ rfl hz
    · exact .inWide _ _ _ rfl hz

/-- An addition to an accumulator in WINDOW (R92). -/
theorem added_window {c : Core} {fr : Frame} {wide a : Nat} {d : Addend} {w : Int}
    (h : (accOf c a).st = .window w) : Added c fr wide a d.v (accAdd c fr wide a d) := by
  have hz : dyVal ⟨(accOf c a).s, w⟩ = dyVal (accVal c fr wide a) := by rw [accVal_window h]
  simp only [accAdd, h]
  split
  · next t _ ht =>
    split
    · refine .inWindow _ w rfl rfl ?_
      rw [inUnits_eq_some_iff.1 ht, ← hz]
      simp only [dyVal]
      push_cast
      ring
    · exact .inWide _ _ _ rfl hz
  · exact .inWide _ _ _ rfl hz

/-- Every addition forms its sum in a window or in the wide form, from the value the accumulator held. -/
theorem accAdd_added (c : Core) (fr : Frame) (wide a : Nat) (d : Addend) :
    Added c fr wide a d.v (accAdd c fr wide a d) := by
  cases h : (accOf c a).st with
  | empty => exact added_empty h
  | window w => exact added_window h
  | wide =>
    simp only [accAdd, h]
    exact .inWide 6 _ _ rfl rfl

/-- The wide form written is the wide form read (R94). -/
theorem vread_putWide {c : Core} {fr : Frame} (hm : memWf c.scratch = true) (hg : fr.gran.Nodup) {wide a : Nat}
    (hl : wideAt wide a + 96 ≤ viewLen fr) (t : Int) :
    vread (putWide c fr wide a t) fr (wideAt wide a) 96 = leBytes 96 (ubits 768 t) := by
  have hlen := leBytes_length 96 (ubits 768 t)
  have h := vread_vwrite hg (bs := leBytes 96 (ubits 768 t)) (a := wideAt wide a) (by rwa [hlen]) hm
  rwa [hlen] at h

/-- A sum within the wide form is what the accumulator then holds (R92). -/
theorem accVal_wideSum {c : Core} {fr : Frame} (hm : memWf c.scratch = true) (hg : fr.gran.Nodup) {wide a : Nat}
    (hl : wideAt wide a + 96 ≤ viewLen fr) {old v : Dy} {t : Int} (ht : inUnits (dyAdd old v) (-480) = some t)
    (hf : fits 768 t = true) (x : SpAcc) : accVal (wideSum c fr wide a x old v) fr wide a = ⟨t, -480⟩ := by
  have hs : wideSum c fr wide a x old v = setAcc (putWide c fr wide a t) a { x with st := .wide, s := 0 } := by
    simp only [wideSum, ht, hf, if_true]
  rw [hs, accVal_wide (by rw [accOf_setAcc]), vread_congr (setAcc_scratch ..), vread_putWide hm hg hl,
    sint_leBytes (n := 96) (by decide) (by decide) hf]

end Sys2Proof.Machine

/-- Settles O15: the sum is formed in a window or in the wide form (`accAdd_added`), and either holds it exactly. -/
theorem accumulatorAdditionIsExact : Obligations.AccumulatorAdditionIsExact := by
  intro c fr wide a d t hm hg hl ht hf
  have hsum := inUnits_eq_some_iff.1 ht
  rw [dyVal_dyAdd] at hsum
  cases accAdd_added c fr wide a d with
  | inWindow x w eq st val => rw [eq, accVal_window (by rw [accOf_setAcc, st]), accOf_setAcc, val]
  | inWide n x old eq val =>
    have ht' : inUnits (dyAdd old d.v) (-480) = some t := by
      rw [inUnits_eq_some_iff, dyVal_dyAdd, val, hsum]
    rw [eq, accVal_wideSum (by rwa [holdWide_scratch]) hg hl ht' hf, hsum]

end

section
/-! PROOFS. Scope: the exact partial as it is written and read (R100 to R104), and obligation O16. -/

open Sys2Proof.Machine

namespace Sys2Proof.Machine

/-! ### The parts of an XP -/

/-- The 16 bytes of Table 3.8: `BASE`, `WINDOW` and the flags. -/
def xpHead (base win flags : Nat) : Bytes := leBytes 2 base ++ leBytes 12 win ++ leBytes 2 flags

/-- The flags of Table 3.8. -/
def xpFlags (esc : Bool) (cls : BitVec 2) (poison int : Bool) (tag : BitVec 8) : Nat :=
  tag.toNat + 256 * esc.toNat + 512 * cls.toNat + (if poison then 2048 else 0) + (if int then 4096 else 0)

theorem xpHead_length (base win flags : Nat) : (xpHead base win flags).length = 16 := by
  simp [xpHead, leBytes_length]

/-- What stands in the fields of an XP that begins with a header. -/
theorem xpHead_fields (base win flags : Nat) (rest : Bytes) :
    let bs := xpHead base win flags ++ rest
    bs.take 2 = leBytes 2 base ∧ (bs.drop 2).take 12 = leBytes 12 win ∧ (bs.drop 14).take 2 = leBytes 2 flags ∧
      bs.drop 16 = rest := by
  simp [xpHead, List.drop_append, List.drop_eq_nil_of_le, leBytes_length]

/-- What each bit of the flags says, and that the reserved ones are 0: each choice of the three one-bit flags leaves plain
arithmetic on the tag and the class. -/
theorem xpFlags_fields (esc : Bool) (cls : BitVec 2) (poison int : Bool) (tag : BitVec 8) :
    let fl := xpFlags esc cls poison int tag
    fl / 8192 = 0 ∧ (fl / 256 % 2 == 1) = esc ∧ BitVec.ofNat 2 (fl / 512) = cls ∧ (fl / 2048 % 2 == 1) = poison ∧
      (fl / 4096 % 2 == 1) = int ∧ BitVec.ofNat 8 fl = tag := by
  have hc := cls.isLt
  have ht := tag.isLt
  cases esc <;> cases poison <;> cases int <;>
    simp only [xpFlags, Bool.toNat_true, Bool.toNat_false, if_true, Bool.false_eq_true, if_false, beq_iff_eq,
      beq_eq_false_iff_ne, ← BitVec.toNat_inj, BitVec.toNat_ofNat] <;> omega

/-- A header is read field by field; with `ESC` it is malformed where `BASE` is not -480 or `WINDOW` is not 0 (R104). -/
theorem xpRead_xpHead {p : Int} (hp : fits 16 p = true) {win : Nat} (hw : win < 2 ^ 96) (esc : Bool) (cls : BitVec 2)
    (poison int : Bool) (tag : BitVec 8) (rest : Bytes) :
    xpRead (xpHead (ubits 16 p) win (xpFlags esc cls poison int tag) ++ rest) =
      let bad := esc && (p != -480 || win != 0)
      let v : Dy := if esc then ⟨sint 768 (leNat (rest.take 96)), -480⟩ else ⟨sint 96 win, p⟩
      (⟨if bad then ⟨0, 0⟩ else v, p - 64, esc, if bad then 3 else cls, poison, int, tag, none, none⟩,
        if esc then 112 else 16) := by
  obtain ⟨hbase, hwin, hfl, hrest⟩ := xpHead_fields (ubits 16 p) win (xpFlags esc cls poison int tag) rest
  obtain ⟨hres, hesc, hcls, hpo, hint, htag⟩ := xpFlags_fields esc cls poison int tag
  have hlt : xpFlags esc cls poison int tag < 2 ^ (8 * 2) := by omega
  simp only [xpRead, hbase, hwin, hfl, hrest, leNat_leBytes_of_lt hlt, leNat_leBytes_of_lt (n := 12) hw,
    sint_leBytes (n := 2) (by decide) (by decide) hp, hres, hesc, hcls, hpo, hint, htag, bne_self_eq_false,
    Bool.false_or]

/-- The header with a window is read as the window (R100). -/
theorem xpRead_window {p w : Int} (hp : fits 16 p = true) (hw : fits 96 w = true) (cls : BitVec 2) (poison int : Bool)
    (tag : BitVec 8) (rest : Bytes) :
    xpRead (xpHead (ubits 16 p) (ubits 96 w) (xpFlags false cls poison int tag) ++ rest) =
      (⟨⟨w, p⟩, p - 64, false, cls, poison, int, tag, none, none⟩, 16) := by
  simp [xpRead_xpHead hp (ubits_lt 96 w), sint_ubits (by decide : 0 < 96) hw]

/-- The header with `ESC` and the packet after it are read as the packet's integer (R101). -/
theorem xpRead_packet {t : Int} (ht : fits 768 t = true) (cls : BitVec 2) (poison int : Bool)
    (tag : BitVec 8) (rest : Bytes) :
    xpRead (xpHead (ubits 16 (-480)) 0 (xpFlags true cls poison int tag) ++ (leBytes 96 (ubits 768 t) ++ rest)) =
      (⟨⟨t, -480⟩, -544, true, cls, poison, int, tag, none, none⟩, 112) := by
  have hpacket : (leBytes 96 (ubits 768 t) ++ rest).take 96 = leBytes 96 (ubits 768 t) :=
    List.take_left' (leBytes_length ..)
  have hbase : fits 16 (-480) = true := by decide
  simp [xpRead_xpHead hbase (show 0 < 2 ^ 96 by decide), hpacket,
    sint_leBytes (n := 96) (by decide) (by decide) ht]

/-! ### The canonical XP -/

/-- The trailing zeros counted are zeros. -/
theorem two_pow_ctz_dvd (fuel m : Nat) : 2 ^ ctz fuel m ∣ m := by
  induction fuel generalizing m with
  | zero => simp [ctz]
  | succ fuel ih =>
    rw [ctz]
    split
    · exact one_dvd m
    · next h =>
      rw [pow_succ, ← Nat.div_mul_cancel (show 2 ∣ m by omega)]
      exact Nat.mul_dvd_mul_right (by simpa using ih (m / 2)) 2

/-- The window shifted down to the lowest set bit holds the value (R102). -/
theorem dyVal_lowBit (v : Dy) : dyVal ⟨v.m / 2 ^ (dyLowBit v - v.e).toNat, dyLowBit v⟩ = dyVal v := by
  obtain ⟨m, e⟩ := v
  obtain ⟨k, hk⟩ : ∃ k, k = ctz (m.natAbs.log2 + 1) m.natAbs := ⟨_, rfl⟩
  have hd : (2 : Int) ^ k ∣ m := by
    rw [← Int.natAbs_dvd_natAbs, Int.natAbs_pow, hk]
    exact two_pow_ctz_dvd ..
  have hp : dyLowBit ⟨m, e⟩ = e + k := by rw [dyLowBit, hk]
  have hu : e ≤ e + (k : Int) := by omega
  rw [hp, ← dyVal_lower hu]
  simp only [add_sub_cancel_left, Int.toNat_natCast, Int.ediv_mul_cancel hd]

/-- The two forms of a canonical XP. -/
inductive Canonical (v : Dy) (cls : BitVec 2) (poison int : Bool) (tag : BitVec 8) (t : Int) (bs : Bytes) : Prop
  /-- The value lies in a window (R102, steps 1 and 2). -/
  | window (p w : Int) (base : fits 16 p = true) (win : fits 96 w = true)
      (eq : bs = xpHead (ubits 16 p) (ubits 96 w) (xpFlags false cls poison int tag)) (val : dyVal ⟨w, p⟩ = dyVal v)
  /-- The value goes in the packet (R102, step 3). -/
  | packet (eq : bs = xpHead (ubits 16 (-480)) 0 (xpFlags true cls poison int tag) ++ leBytes 96 (ubits 768 t))

/-- What is written for a value that the wide form can hold has one of the two forms. -/
theorem xpBytes_canonical {v : Dy} {t : Int} (ht : inUnits v (-480) = some t) (cls : BitVec 2) (poison int : Bool)
    (tag : BitVec 8) : Canonical v cls poison int tag t (xpBytes v cls poison int tag) := by
  by_cases hm : v.m = 0
  · simp only [xpBytes, hm, if_true]
    exact .window 0 0 (by decide) (by decide) rfl (by simp [dyVal, hm])
  · by_cases h : (fits 96 (v.m / 2 ^ (dyLowBit v - v.e).toNat) &&
        decide (-32768 ≤ dyLowBit v ∧ dyLowBit v < 32768)) = true
    · simp only [xpBytes, if_neg hm, if_pos h]
      obtain ⟨hw, hbase⟩ := Bool.and_eq_true_iff.1 h
      exact .window _ _ hbase hw rfl (dyVal_lowBit v)
    · simp only [xpBytes, if_neg hm, if_neg h, ht]
      exact .packet rfl

end Sys2Proof.Machine

/-- Settles O16: the canonical XP is a header with a window, or a header with a packet (`xpBytes_canonical`), and each is
read as what it was written for. -/
theorem exactPartialRoundTrip : Obligations.ExactPartialRoundTrip := by
  intro v cls poison int tag rest t ht hf
  cases xpBytes_canonical ht cls poison int tag with
  | window p w base win eq val =>
    simp only [eq, xpRead_window base win, val, xpHead_length, and_self]
  | packet eq =>
    simp only [eq, List.append_assoc, xpRead_packet hf, ← inUnits_eq_some_iff.1 ht, List.length_append, xpHead_length,
      leBytes_length, and_self]

end

section
/-! PROOFS. Scope: a core's own events (R130, R131, R194, R206, R631), and obligation O14. -/

open Sys2Proof.Machine

namespace Sys2Proof.Machine

/-! ### What a bundle waits for -/

/-- Whether a wait is a hold: one for something outside the core (R195). -/
def Wait.holds : Wait → Bool
  | .hold _ => true
  | _ => false

/-- A wait that is no hold is none of any cause. -/
theorem Wait.holds_eq_false_iff {w : Wait} : w.holds = false ↔ ∀ e, w ≠ .hold e := by
  cases w <;> simp [Wait.holds]

/-- Two waits together hold where one of them does. -/
@[simp] theorem Wait.holds_and (a b : Wait) : (a.and b).holds = (a.holds || b.holds) := by
  cases a <;> cases b <;> rfl

/-- A condition outside the core holds until it is met. -/
@[simp] theorem holds_holdUnless (b : Bool) (cause : Nat) : (holdUnless b cause).holds = !b := by
  cases b <;> rfl

/-- A check slot that is owed holds the core. -/
theorem slotOwed_eq_false {s : State} {n k : Nat} (h : (outerHold s n k).holds = false) : slotOwed s n k = false := by
  simp only [outerHold, Wait.holds_and, holds_holdUnless, Bool.or_eq_false_iff, Bool.not_not] at h
  exact h.2

/-- What holds a core whatever its next bundle is holds the next bundle. -/
theorem outerHold_holds_eq_false {s : State} {n k : Nat} (h : (nextWait s n k).holds = false) :
    (outerHold s n k).holds = false := by
  unfold nextWait at h
  split at h
  · exact h
  · rw [slotsWait, Wait.holds_and, Bool.or_eq_false_iff] at h
    exact h.1

/-- Where nothing holds the next bundle, no check slot is owed and none is opened (R507). -/
theorem openOwed_eq_self {s : State} {n k : Nat} (h : (nextWait s n k).holds = false) : openOwed s n k = s := by
  simp [openOwed, slotOwed_eq_false (outerHold_holds_eq_false h)]

/-! ### The events of a core whose take runs -/

section
variable {s : State} {n : CoreId} {k : Nat} (hc : clockRuns s (coreClock n.val) = true)
  (hr : (core s n.val).running = some k)
include hc hr

/-- R194: a core that nothing holds any more shows no hold. A throttle (cause 7) is left out: its end also clears
the flag of the throttle. -/
theorem exec_holdEnd (h7 : (core s n.val).hold ≠ 7) (hw : (nextWait s n.val k).holds = false) :
    exec (.holdEnd n) s = .next (noteUnder s n.val (modCore s n.val fun c => { c with hold := 0 })) := by
  show execHoldEnd n s = _
  simp only [execHoldEnd, onClock_runs hc, if_neg h7, hr, openOwed_eq_self hw]
  split
  next e he => exact absurd he (Wait.holds_eq_false_iff.1 hw e)
  next => rfl

/-- R130, R194: the oldest partial arrives while no hold freezes the units. -/
theorem exec_splicePartialArrival (hh : (core s n.val).hold = 0) :
    exec (.splicePartialArrival n) s = .next (arrive s n.val k) := by
  show execSplicePartialArrival n s = _
  simp only [execSplicePartialArrival, onClock_runs hc, hr, if_pos hh]

/-- R131, R194: the oldest finish is done while no hold freezes the units. -/
theorem exec_mmulFinish {f : Finish} {t : List Flight} (hh : (core s n.val).hold = 0)
    (hf : (core s n.val).flight = .mfin f :: t) :
    exec (.mmulFinish n) s = .next (runVfins (t.length + 1)
      (finishMmul (modCore s n.val fun c => { c with flight := t }) n.val k f) n.val k) := by
  show execMmulFinish n s = _
  simp only [execMmulFinish, onClock_runs hc, hr, hf, if_pos hh]

/-- R206: a take of 500,000 cycles meets its stop cause. -/
theorem exec_takeTimeout (ht : 500000 ≤ (frameOf (core s n.val) k).takecyc) :
    exec (.takeTimeout n) s = .next (stopCore s n.val ⟨4, 0xFF, 0, (frameOf (core s n.val) k).pc, 0xFFFFFFFF, 0xFFFF, 0xFFFF,
      0xFF, 4 * (core s n.val).seq⟩) := by
  show execTakeTimeout n s = _
  simp only [execTakeTimeout, onClock_runs hc, hr, if_pos ht]

/-- R631: a core at rest with a stop cause finishes its stop. -/
theorem exec_coreStop {t : StopRec} (hs : (core s n.val).stop = some t) (hq : coreQuiet (core s n.val) k = true) :
    exec (.coreStop n) s = .next (finishStop s n.val k t) := by
  show execCoreStop n s = _
  simp only [execCoreStop, onClock_runs hc, hs, hr, if_pos hq]

end

end Sys2Proof.Machine

/-- Settles O14: each event is what its command does where the clock and a take run (`exec_holdEnd` to `exec_coreStop`).
The hold ends with no check slot to open, since one that is owed would hold the next bundle (`openOwed_eq_self`).
Where the rules leave it open the model chooses: one `HOLD_END` ends a hold of the wide form (log entry 28, DESIGN CHOICE),
the higher ranked of two stop causes is kept (log entry 112, DEDUCED), the place of a trap record counts with the width of
the home-set grid (log entry 122, DESIGN CHOICE), and a stop keeps the FAST running values (log entry 148, DESIGN CHOICE). -/
theorem coreEventsTakeEffect : Obligations.CoreEventsTakeEffect := by
  refine ⟨fun s n k hc hr => ⟨?holdEnd, ?arrival, fun f t hh hf => exec_mmulFinish hc hr hh hf,
    fun ht => exec_takeTimeout hc hr ht, fun t hs hq => exec_coreStop hc hr hs hq⟩, ?stopped⟩
  case holdEnd =>
    rintro w h7 rfl hw
    exact exec_holdEnd hc hr h7 (Wait.holds_eq_false_iff.2 hw)
  case arrival =>
    intro mm fast p t hh hf
    rw [exec_splicePartialArrival hc hr hh, arrive, hf]
    rfl
  case stopped =>
    intro s n k r vx vy st t hx hst hp
    rw [finishStop, hx, hst, hp]
    rfl

end

section
/-! PROOFS. Scope: exact sums and products of finite numbers (R154), finite codes rounded into their own format (R46,
R47, R59, R60), and obligation O17. -/

open Sys2Proof.Machine

namespace Sys2Proof.Machine

/-! ### Exact arithmetic on finite numbers (R154) -/

/-- A finite number's value is that of its dyadic. -/
theorem numVal_fin (neg : Bool) (m : Nat) (e : Int) :
    numVal (.fin neg m e) = some (dyVal (numDy (.fin neg m e))) := by
  cases neg <;> simp [numVal, numDy, dyVal]

/-- Only a finite number has a value. -/
theorem numVal_eq_some {a : Num} {x : ℚ} (h : numVal a = some x) :
    ∃ neg m e, a = .fin neg m e ∧ dyVal (numDy (.fin neg m e)) = x := by
  cases a with
  | nan => cases h
  | inf neg => cases h
  | fin neg m e => exact ⟨neg, m, e, rfl, Option.some.inj ((numVal_fin neg m e).symm.trans h)⟩

/-- The number made of a dyadic has its value, whatever sign a zero is given. -/
theorem numVal_dyNum (v : Dy) (zneg : Bool) : numVal (dyNum v zneg) = some (dyVal v) := by
  obtain ⟨m, e⟩ := v
  by_cases hz : m = 0
  · simp [dyNum, hz, numVal, dyVal]
  · rw [dyNum, if_neg hz, numVal_fin, numDy]
    by_cases hneg : m < 0
    · simp [hneg, abs_of_neg hneg]
    · simp [hneg, abs_of_nonneg (not_lt.1 hneg)]

/-- The sum of two finite numbers is exact: two zeros of one sign give a zero, any other pair the sum of the dyadics. -/
theorem numVal_numAdd_fin (mode : RMode) (n k : Bool) (m l : Nat) (e f : Int) :
    numVal (numAdd mode (.fin n m e) (.fin k l f)) =
      some (dyVal (numDy (.fin n m e)) + dyVal (numDy (.fin k l f))) := by
  by_cases hz : m = 0 ∧ l = 0 ∧ n = k
  · obtain ⟨rfl, rfl, rfl⟩ := hz
    simp [numAdd, numVal, numDy, dyVal]
  · rw [numAdd, if_neg hz, numVal_dyNum, dyVal_dyAdd]

/-- The product of two finite numbers is exact: the magnitudes multiply, the exponents add, the signs combine. -/
theorem numVal_numMul_fin (n k : Bool) (m l : Nat) (e f : Int) :
    numVal (numMul (.fin n m e) (.fin k l f)) =
      some (dyVal (numDy (.fin n m e)) * dyVal (numDy (.fin k l f))) := by
  have hexp : (2 : ℚ) ^ (e + f) = 2 ^ e * 2 ^ f := zpow_add₀ two_ne_zero e f
  cases n <;> cases k <;> simp [numMul, numVal, numDy, dyVal, hexp] <;> ring

/-! ### A finite code rounded into its own format (R59, R60) -/

/-- A magnitude in whole units is its own rounding in every mode. -/
@[simp] theorem roundUnits_same_unit (mode : RMode) (neg : Bool) (m : Nat) (e : Int) (u : Nat) :
    roundUnits mode neg m e e u = m := by
  simp [roundUnits]

/-- A magnitude whose unit is the format's unit at its size is encoded as it is, where the code is no larger than the
largest finite one. -/
theorem roundFloat_of_unit {f : FloatF} {m : Nat} {e : Int} (hm : m ≠ 0)
    (hunit : max (e + m.log2) (1 - (f.bias : Int)) = e + f.fbits)
    (hmax : (e + f.fbits + f.bias - 1).toNat * 2 ^ f.fbits + m ≤ f.maxCode) (mode : RMode) (u : Nat) (neg : Bool) :
    roundFloat f mode u (.fin neg m e) =
      ⟨(if neg then 2 ^ (f.ebits + f.fbits) else 0) + ((e + f.fbits + f.bias - 1).toNat * 2 ^ f.fbits + m), false⟩ := by
  simp only [roundFloat, if_neg hm, hunit, add_sub_cancel_right, roundUnits_same_unit, gt_iff_lt, if_neg hmax.not_gt]

/-- The value of a subnormal code, or of a zero, is encoded as the code's sign and fraction (R47). -/
theorem roundFloat_subnormal {f : FloatF} {fr : Nat} (hfr : fr < 2 ^ f.fbits) (hmax : fr ≤ f.maxCode) (mode : RMode)
    (u : Nat) (neg : Bool) :
    roundFloat f mode u (.fin neg fr (1 - (f.bias : Int) - f.fbits)) =
      ⟨(if neg then 2 ^ (f.ebits + f.fbits) else 0) + fr, false⟩ := by
  by_cases hz : fr = 0
  · simp [roundFloat, hz]
  · have hlog : fr.log2 < f.fbits := (Nat.log2_lt hz).2 hfr
    have hexp : (1 - (f.bias : Int) - f.fbits + f.fbits + f.bias - 1).toNat = 0 := by omega
    rw [roundFloat_of_unit hz (by omega) (by rwa [hexp, zero_mul, zero_add]), hexp, zero_mul, zero_add]

/-- The value of a normal code is encoded as the code's sign, exponent and fraction (R46). -/
theorem roundFloat_normal {f : FloatF} {ex fr : Nat} (hex : ex ≠ 0) (hfr : fr < 2 ^ f.fbits)
    (hmax : ex * 2 ^ f.fbits + fr ≤ f.maxCode) (mode : RMode) (u : Nat) (neg : Bool) :
    roundFloat f mode u (.fin neg (2 ^ f.fbits + fr) ((ex : Int) - f.bias - f.fbits)) =
      ⟨(if neg then 2 ^ (f.ebits + f.fbits) else 0) + (ex * 2 ^ f.fbits + fr), false⟩ := by
  have hm : 2 ^ f.fbits + fr ≠ 0 := by have := Nat.two_pow_pos f.fbits; omega
  have hlog : (2 ^ f.fbits + fr).log2 = f.fbits := by
    rw [Nat.log2_eq_iff hm, pow_succ]
    omega
  have hexp : ((ex : Int) - f.bias - f.fbits + f.fbits + f.bias - 1).toNat = ex - 1 := by omega
  have hcode : (ex - 1) * 2 ^ f.fbits + (2 ^ f.fbits + fr) = ex * 2 ^ f.fbits + fr := by
    obtain ⟨e, rfl⟩ := Nat.exists_eq_succ_of_ne_zero hex
    simp only [Nat.succ_eq_add_one, Nat.add_sub_cancel]
    ring
  rw [roundFloat_of_unit hm (by omega) (by rwa [hexp, hcode]), hexp, hcode]

/-- A code is its sign bit and its magnitude. -/
theorem sign_add_mag {code w : Nat} (h : code < 2 ^ (w + 1)) :
    (if (bitsOf code w 1 == 1) = true then 2 ^ w else 0) + code % 2 ^ w = code := by
  have hw := Nat.two_pow_pos w
  have hdiv : code / 2 ^ w < 2 := by rwa [Nat.div_lt_iff_lt_mul hw, mul_comm, ← pow_succ]
  have hsplit := Nat.div_add_mod code (2 ^ w)
  simp only [bitsOf, pow_one, Nat.mod_eq_of_lt hdiv, beq_iff_eq]
  obtain h0 | h1 := Nat.le_one_iff_eq_zero_or_eq_one.1 (Nat.lt_succ_iff.1 hdiv)
  · rw [h0, mul_zero] at hsplit
    simpa [h0] using hsplit
  · rw [h1, mul_one] at hsplit
    simp [h1, hsplit]

/-- A code with a finite value is no larger in magnitude than the largest finite code. -/
theorem mag_le_maxCode {f : FloatF} {code : Nat} {x : ℚ} (h : numVal (decodeFloat f code) = some x) :
    code % 2 ^ (f.ebits + f.fbits) ≤ f.maxCode := by
  by_contra hlt
  rw [decodeFloat, if_pos (not_le.1 hlt)] at h
  split at h <;> cases h

/-- A finite code is what its value rounds to, in every mode and for every random word, and no limit replaces it. -/
theorem roundFloat_decodeFloat {f : FloatF} {code : Nat} {x : ℚ} (hc : code < 2 ^ (f.ebits + f.fbits + 1))
    (hx : numVal (decodeFloat f code) = some x) (mode : RMode) (u : Nat) :
    roundFloat f mode u (decodeFloat f code) = ⟨code, false⟩ := by
  have hmax := mag_le_maxCode hx
  have hsign := sign_add_mag hc
  have hmag := Nat.div_add_mod' (code % 2 ^ (f.ebits + f.fbits)) (2 ^ f.fbits)
  have hfr := Nat.mod_lt (code % 2 ^ (f.ebits + f.fbits)) (Nat.two_pow_pos f.fbits)
  rw [decodeFloat, if_neg hmax.not_gt]
  split
  next hex =>
    rw [hex, zero_mul, zero_add] at hmag
    rw [roundFloat_subnormal hfr (hmag.trans_le hmax), hmag, hsign]
  next hex => rw [roundFloat_normal hex hfr (hmag.trans_le hmax), hmag, hsign]

end Sys2Proof.Machine

/-- Settles O17: sums and products of finite numbers are formed exactly on their dyadics (`numVal_numAdd_fin`,
`numVal_numMul_fin`), and rounding (R59, R60) puts the sign, exponent and fraction that R46 and R47 read from a
finite code together again (`roundFloat_decodeFloat`). -/
theorem arithmeticIsExactUpToRounding : Obligations.ArithmeticIsExactUpToRounding := by
  refine ⟨fun rm a b x y ha hb => ?exact, fun f rm u code x hf hc hx => ?roundTrip⟩
  case exact =>
    obtain ⟨n, m, e, rfl, rfl⟩ := numVal_eq_some ha
    obtain ⟨k, l, g, rfl, rfl⟩ := numVal_eq_some hb
    exact ⟨numVal_numAdd_fin .., numVal_numMul_fin ..⟩
  case roundTrip =>
    have hround : roundTo f rm u (decodeElem f code 0) = ⟨code, false⟩ := by
      simp only [List.mem_cons, List.not_mem_nil, or_false] at hf
      rcases hf with rfl | rfl | rfl | rfl | rfl <;> exact roundFloat_decodeFloat hc hx rm u
    rw [hround]
    exact ⟨rfl, rfl⟩

end

section
/-! PROOFS. Scope: the bytes that the writes of an instruction cover, what a vector instruction leaves alone (R151 to
R154), and obligation O18. -/

open Sys2Proof.Machine

namespace Sys2Proof.Machine

/-! ### Bytes that writes leave -/

/-- Bytes written to a view leave every byte of the scratchpad that lies behind none of them. -/
theorem mget_vwrite_ne {fr : Frame} {a p : Nat} {bs : Bytes} (h : ∀ j < bs.length, vphys fr (a + j) ≠ p) (c : Core) :
    mget (vwrite c fr a bs).scratch p = mget c.scratch p := by
  induction bs generalizing a c with
  | nil => rfl
  | cons b bs ih =>
    have hrest : ∀ j < bs.length, vphys fr (a + 1 + j) ≠ p := fun j hj => by
      rw [add_assoc, add_comm 1 j]
      exact h (j + 1) (Nat.succ_lt_succ hj)
    have hhead : vphys fr a ≠ p := h 0 (Nat.succ_pos _)
    rw [vwrite, ih hrest, mget_mset_ne hhead]

@[simp] theorem vwrite_frames (c : Core) (fr : Frame) (a : Nat) (bs : Bytes) : (vwrite c fr a bs).frames = c.frames := by
  induction bs generalizing a c with
  | nil => rfl
  | cons b bs ih => exact ih ..

@[simp] theorem setPoison_scratch (c : Core) (fr : Frame) (a : Nat) (p : Bool) :
    (setPoison c fr a p).scratch = c.scratch := by
  unfold setPoison; split <;> rfl

@[simp] theorem setPoison_frames (c : Core) (fr : Frame) (a : Nat) (p : Bool) :
    (setPoison c fr a p).frames = c.frames := by
  unfold setPoison; split <;> rfl

@[simp] theorem applyEw_frames (c : Core) (fr : Frame) (w : EW) : (applyEw c fr w).frames = c.frames :=
  vwrite_frames ..

/-- One write leaves the bytes it does not cover. -/
theorem mget_applyEw_ne {fr : Frame} {w : EW} {p : Nat} (h : ∀ j < w.n, vphys fr (w.a + j) ≠ p) (c : Core) :
    mget (applyEw c fr w).scratch p = mget c.scratch p :=
  mget_vwrite_ne (by rwa [leBytes_length]) c

/-- A part of the core that every step of a fold leaves, the fold leaves. -/
theorem foldl_core_keeps {α β : Type} (π : Core → β) {f : Core → α → Core} {l : List α}
    (h : ∀ c, ∀ a ∈ l, π (f c a) = π c) (c : Core) : π (l.foldl f c) = π c :=
  List.foldlRecOn (motive := fun d => π d = π c) l f rfl fun d hd a ha => (h d a ha).trans hd

/-- The poison marks of a list of writes touch neither the bytes nor the frames. -/
theorem applyEws_keeps {β : Type} (π : Core → β) {fr : Frame} {ws : List EW}
    (hw : ∀ c, ∀ w ∈ ws, π (applyEw c fr w) = π c) (hp : ∀ c a b, π (setPoison c fr a b) = π c) (c : Core) :
    π (applyEws c fr ws) = π c := by
  rw [applyEws, foldl_core_keeps π, foldl_core_keeps π hw]
  intro c x _
  split
  · exact hp ..
  · split
    · exact hp ..
    · rfl

@[simp] theorem applyEws_frames (c : Core) (fr : Frame) (ws : List EW) : (applyEws c fr ws).frames = c.frames :=
  applyEws_keeps (·.frames) (fun _ _ _ => applyEw_frames ..) (fun _ _ _ => setPoison_frames ..) c

/-- Writes leave the bytes that none of them covers. -/
theorem mget_applyEws_ne {fr : Frame} {ws : List EW} {p : Nat} (h : ∀ w ∈ ws, ∀ j < w.n, vphys fr (w.a + j) ≠ p)
    (c : Core) : mget (applyEws c fr ws).scratch p = mget c.scratch p :=
  applyEws_keeps (fun c => mget c.scratch p) (fun c w hw => mget_applyEw_ne (h w hw) c)
    (fun _ _ _ => by rw [setPoison_scratch]) c

/-! ### What an instruction of one core may touch -/

theorem OnlyCore.refl (s : State) (n : Nat) : OnlyCore s s n := ⟨⟨_, _, _, _, rfl⟩, fun _ _ => rfl⟩

theorem OnlyCore.trans {s t u : State} {n : Nat} (h : OnlyCore s t n) (g : OnlyCore t u n) : OnlyCore s u n := by
  obtain ⟨⟨_, _, _, _, rfl⟩, hcores⟩ := h
  obtain ⟨⟨_, _, _, _, rfl⟩, gcores⟩ := g
  exact ⟨⟨_, _, _, _, rfl⟩, fun m hm => (gcores m hm).trans (hcores m hm)⟩

theorem onlyCore_modCore (s : State) (n : Nat) (f : Core → Core) : OnlyCore s (modCore s n f) n :=
  ⟨⟨_, _, _, _, rfl⟩, fun _ hm => tfind_tset_ne _ _ hm.symm⟩

/-- Whether a scratchpad byte lies behind none of some ranges of a view. -/
def Outside (fr : Frame) (rs : List (Nat × Nat)) (p : Nat) : Prop := ∀ r ∈ rs, ∀ j, j < r.2 → vphys fr (r.1 + j) ≠ p

/-- What an instruction of core `n` that writes the ranges `rs` of the view of `fr` may change on the way from `s` to `t`:
no other scratchpad byte, no register of the frame `k` but the count of result rows, no other core. -/
structure Touches (fr : Frame) (rs : List (Nat × Nat)) (n k : Nat) (s t : State) : Prop where
  scratch : ∀ p, Outside fr rs p → mget (core t n).scratch p = mget (core s n).scratch p
  frame : ∃ q, frameOf (core t n) k = { frameOf (core s n) k with rowsTot := q }
  only : OnlyCore s t n

section
variable {fr : Frame} {rs : List (Nat × Nat)} {n k : Nat}

/-- A step that leaves the core itself. -/
theorem Touches.of_core_eq {s t : State} (hc : core t n = core s n) (ho : OnlyCore s t n) : Touches fr rs n k s t :=
  ⟨fun p _ => by rw [hc], ⟨_, by rw [hc]⟩, ho⟩

theorem Touches.refl (s : State) : Touches fr rs n k s s := .of_core_eq rfl (.refl s n)

theorem Touches.trans {s t u : State} (h : Touches fr rs n k s t) (g : Touches fr rs n k t u) :
    Touches fr rs n k s u where
  scratch p hp := (g.scratch p hp).trans (h.scratch p hp)
  frame := by
    obtain ⟨q, hq⟩ := h.frame
    obtain ⟨r, hr⟩ := g.frame
    exact ⟨r, by rw [hr, hq]⟩
  only := h.only.trans g.only

/-- An update of the core that keeps its frames and changes no byte but those of the ranges. -/
theorem touches_modCore {f : Core → Core} (hf : ∀ c, (f c).frames = c.frames)
    (hb : ∀ c p, Outside fr rs p → mget (f c).scratch p = mget c.scratch p) (s : State) :
    Touches fr rs n k s (modCore s n f) where
  scratch p hp := by rw [core_modCore_same, hb _ p hp]
  frame := ⟨_, by rw [core_modCore_same, frameOf, hf]; rfl⟩
  only := onlyCore_modCore s n f

theorem touches_notePoison (s : State) (m : Nat) : Touches fr rs n k s (notePoison s n k m) := by
  unfold notePoison modKeyStep
  split
  · exact .refl s
  · split <;> exact .of_core_eq rfl ⟨⟨_, _, _, _, rfl⟩, fun _ _ => rfl⟩

/-- Poison noted, or not, after an update of the core. -/
theorem touches_notePoison_ite {s t : State} (h : Touches fr rs n k s t) (c : Prop) [Decidable c] (lines : Nat) :
    Touches fr rs n k s (if c then notePoison t n k lines else t) := by
  split
  · exact h.trans (touches_notePoison t lines)
  · exact h

theorem touches_countRows (s : State) (m : Nat) : Touches fr rs n k s (countRows s n k m) where
  scratch p _ := by simp [countRows, modFrame]
  frame := ⟨_, frameOf_modFrame_same ..⟩
  only := by simpa only [countRows, modFrame] using onlyCore_modCore s n _

end

/-! ### Writes within ranges -/

/-- Whether the bytes of a write lie in one of the ranges. -/
def EW.Within (w : EW) (rs : List (Nat × Nat)) : Prop := ∃ r ∈ rs, r.1 ≤ w.a ∧ w.a + w.n ≤ r.1 + r.2

theorem EW.Within.mono {w : EW} {rs ts : List (Nat × Nat)} (h : w.Within rs) (hs : rs ⊆ ts) : w.Within ts := by
  obtain ⟨r, hr, hw⟩ := h
  exact ⟨r, hs hr, hw⟩

/-- A write within the ranges covers none of the bytes outside them. -/
theorem EW.Within.vphys_ne {w : EW} {fr : Frame} {rs : List (Nat × Nat)} {p : Nat} (h : w.Within rs)
    (hp : Outside fr rs p) : ∀ j < w.n, vphys fr (w.a + j) ≠ p := by
  obtain ⟨r, hr, hlo, hhi⟩ := h
  intro j hj
  have ha : r.1 + (w.a - r.1 + j) = w.a + j := by omega
  rw [← ha]
  exact hp r hr _ (by omega)

theorem statusWord_length (os : List ElemOut) (poison : Bool) : (statusWord os poison).length = 16 := by
  simp [statusWord, leBytes_length]

/-- Where the status word stands, of an instruction that writes one. -/
def statusRange (status : Option Nat) : List (Nat × Nat) := (status.map fun a => (a, 16)).toList

section
variable {x : Cx} {rs : List (Nat × Nat)}

theorem touches_nanTrap (s : State) (fmt kblock : Nat) (os : List ElemOut) :
    Touches x.fr rs x.n x.k s (nanTrap s x fmt kblock os) := by
  unfold nanTrap
  split
  · exact touches_modCore (f := fun c => { c with stop := mergeStop c.stop _ }) (fun _ => rfl) (fun _ _ _ => rfl) s
  · exact .refl s

theorem touches_addRows (s : State) (m : Nat) : Touches x.fr rs x.n x.k s (addRows s x m) := by
  unfold addRows
  split
  · exact .refl s
  · exact touches_countRows s m

/-- Writes that lie in the ranges change no byte outside them. -/
theorem touches_applyEws {ws : List EW} (hw : ∀ w ∈ ws, w.Within rs) (s : State) :
    Touches x.fr rs x.n x.k s (modCore s x.n fun c => applyEws c x.fr ws) :=
  touches_modCore (fun _ => applyEws_frames ..)
    (fun c _ hp => mget_applyEws_ne (fun w hm => (hw w hm).vphys_ne hp) c) s

/-- The outputs of an instruction whose writes lie in the ranges touch these and the status word, and add to the count of
rows. -/
theorem touches_writeOut {ws : List EW} (hw : ∀ w ∈ ws, w.Within rs) (status : Option Nat) (s : State)
    (os : List ElemOut) (poison : Bool) (fmt kblock rows : Nat) :
    Touches x.fr (rs ++ statusRange status) x.n x.k s
      (addRows (writeOut s x ws status os poison fmt kblock) x rows) := by
  refine .trans ?_ (touches_addRows _ rows)
  refine .trans ?_ (touches_nanTrap _ fmt kblock os)
  refine touches_notePoison_ite (touches_applyEws (fun w hm => ?_) s) _ _
  rcases List.mem_append.1 hm with hm | hm
  · exact (hw w hm).mono (List.subset_append_left ..)
  · cases status with
    | none => cases hm
    | some a =>
      rw [List.mem_singleton.1 hm]
      exact ⟨(a, 16), by simp [statusRange], le_rfl, by simp [bytesWrite, statusWord_length]⟩

end

/-! ### The bytes of an element (R182) -/

/-- Elements that a stored row of `n` elements has room for: MXFP4 rows hold whole blocks (R51). -/
def rowSlots (f : Fmt) (n : Nat) : Nat := if f = .mxfp4 then (n + 31) / 32 * 32 else n

theorem le_rowSlots (f : Fmt) (n : Nat) : n ≤ rowSlots f n := by
  unfold rowSlots
  split <;> omega

/-- The bytes of an element's write end within its stored row. -/
theorem elem_end_le_rowBytes {f : Fmt} {x n : Nat} (h : x < rowSlots f n) :
    x * fmtBits f / 8 + (if fmtBits f = 4 then 1 else fmtBits f / 8) ≤ rowBytes f n := by
  cases f <;> simp [rowSlots, rowBytes, fmtBits] at h ⊢ <;> omega

/-- Where the write of an element begins, and how many bytes it takes. -/
theorem elemWrite_extent (d : Desc) (i j code : Nat) (poison : Bool) :
    (elemWrite d i j code poison).a = (d.place i j).1 ∧
      (elemWrite d i j code poison).n = if fmtBits d.f = 4 then 1 else fmtBits d.f / 8 := by
  unfold elemWrite
  dsimp only
  split
  · split <;> exact ⟨rfl, rfl⟩
  · exact ⟨rfl, rfl⟩

/-- A write into a stored row lies in the tile. -/
theorem within_region {d : Desc} {w : EW} {r : Nat} (hr : r < d.srows) (hlo : d.base + r * d.stride ≤ w.a)
    (hhi : w.a + w.n ≤ d.base + r * d.stride + rowBytes d.f d.per) : w.Within d.region :=
  ⟨_, List.mem_map_of_mem (List.mem_range.2 hr), hlo, hhi⟩

/-- The write of an element lies in the tile where its stored row does and the row has room for it. -/
theorem elemWrite_within_of_slot {d : Desc} {i j : Nat} (hr : (if d.trans then j else i) < d.srows)
    (hx : (if d.trans then i else j) < rowSlots d.f d.per) (code : Nat) (poison : Bool) :
    (elemWrite d i j code poison).Within d.region := by
  have hend := elem_end_le_rowBytes hx
  obtain ⟨ha, hn⟩ := elemWrite_extent d i j code poison
  refine within_region hr ?_ ?_ <;> simp only [ha, hn, Desc.place] <;> omega

/-- The write of an element of the tile lies in the tile. -/
theorem elemWrite_within {d : Desc} {i j : Nat} (hi : i < d.rows) (hj : j < d.cols) (code : Nat) (poison : Bool) :
    (elemWrite d i j code poison).Within d.region := by
  have hslots := le_rowSlots d.f d.per
  apply elemWrite_within_of_slot <;> cases ht : d.trans <;>
    simp only [Desc.srows, Desc.per, ht, if_true, if_false, Bool.false_eq_true] at hslots ⊢ <;> omega

/-- The write of the scale of a block of an untransposed MXFP4 tile lies in the tile. -/
theorem scaleWrite_within {d : Desc} {i j : Nat} (hf : d.f = .mxfp4) (ht : d.trans = false) (hi : i < d.rows)
    (hj : j < d.cols) (scale : Nat) (poison : Bool) :
    (bytesWrite (d.scaleAt i j) (leBytes 1 scale) poison).Within d.region := by
  refine within_region (r := i) (by simpa [Desc.srows, ht] using hi) ?_ ?_ <;>
    simp only [bytesWrite, leBytes_length, Desc.scaleAt, Desc.per, rowBytes, hf, ht, if_true, if_false,
      Bool.false_eq_true] <;> omega

/-! ### Values rounded into a tile -/

/-- Whether a descriptor can take the elements that an instruction writes: `vl` columns, and an MXFP4 tile untransposed
(R53, R146). -/
def ElemDest (x : Cx) (d : Desc) : Prop := vlen x ≤ d.cols ∧ (d.f = .mxfp4 → d.trans = false)

/-- The block of an element of the tile is written within the tile, its padding nibbles included (R53). -/
theorem roundBlock_within {d : Desc} (hf : d.f = .mxfp4) (ht : d.trans = false) {row col : Nat} (hrow : row < d.rows)
    (hcol : col < d.cols) {es : List OutElem} (hes : ∀ e ∈ es, e.row < d.rows ∧ e.col < d.cols)
    (rm : RMode) (sr : SrIn) : ∀ w ∈ (roundBlock d rm sr row (col / 32) es).1, w.Within d.region := by
  intro w hw
  simp only [roundBlock, List.cons_append, List.mem_cons, List.mem_append, List.mem_map, exists_exists_and_eq_and,
    List.mem_filter, List.mem_range] at hw
  rcases hw with rfl | ⟨e, he, rfl⟩ | ⟨j, ⟨hj, _⟩, rfl⟩
  · exact scaleWrite_within hf ht hrow (by omega) ..
  · exact elemWrite_within (hes e he).1 (hes e he).2 ..
  · apply elemWrite_within_of_slot <;>
      simp only [Desc.srows, Desc.per, rowSlots, hf, ht, if_true, if_false, Bool.false_eq_true] <;> omega

/-- Values of elements of the tile are written within the tile. -/
theorem roundTile_within {d : Desc} (hmx : d.f = .mxfp4 → d.trans = false) {es : List OutElem}
    (hes : ∀ e ∈ es, e.row < d.rows ∧ e.col < d.cols) (rm : RMode) (sr : SrIn) :
    ∀ w ∈ (roundTile d rm sr es).1, w.Within d.region := by
  unfold roundTile
  split
  next hf =>
    intro w hw
    simp only [roundMx, List.mem_flatten, List.mem_map, List.mem_dedup, exists_exists_and_eq_and] at hw
    obtain ⟨e, he, hw⟩ := hw
    obtain ⟨hrow, hcol⟩ := hes e he
    exact roundBlock_within hf (hmx hf) hrow hcol (fun g hg => hes g (List.mem_of_mem_filter hg)) rm sr w hw
  next =>
    intro w hw
    simp only [roundPlain, List.mem_map, exists_exists_and_eq_and] at hw
    obtain ⟨e, he, rfl⟩ := hw
    exact elemWrite_within (hes e he).1 (hes e he).2 ..

/-- The places processed are those of the rows, up to `vl`. -/
theorem mem_vplaces {rows vl : Nat} {p : Nat × Nat} : p ∈ vplaces rows vl ↔ p.1 < rows ∧ p.2 < vl := by
  obtain ⟨r, j⟩ := p
  simp [vplaces]

/-! ### The instructions by the form of their results -/

section
variable {x : Cx} {d : Desc}

/-- The write of a place that is processed lies in the tile. -/
theorem placeWrite_within (hd : vlen x ≤ d.cols) {p : Nat × Nat} (hp : p ∈ vplaces d.rows (vlen x)) (code : Nat)
    (poison : Bool) : (elemWrite d p.1 p.2 code poison).Within d.region := by
  obtain ⟨hr, hj⟩ := mem_vplaces.1 hp
  exact elemWrite_within hr (hj.trans_le hd) ..

/-- An instruction that writes elements touches its destination and its status word. -/
theorem touches_effElems (hd : ElemDest x d) (s : State) (rm : RMode) (sr : SrIn) (mz : Bool)
    (val : Nat → Nat → Sys2Proof.Num × Bool) :
    Touches x.fr (d.region ++ [((sreg x.fr 31).toNat, 16)]) x.n x.k s (effElems s x d rm sr mz val) := by
  obtain ⟨hvl, hmx⟩ := hd
  refine touches_writeOut (status := some _) ?_ ..
  intro w hw
  rcases List.mem_append.1 hw with hz | hv
  · split at hz
    · obtain ⟨p, hp, rfl⟩ := List.mem_map.1 hz
      exact placeWrite_within hvl (List.mem_of_mem_filter (List.mem_of_mem_filter hp)) ..
    · cases hz
  · refine roundTile_within hmx (fun e he => ?_) rm sr w hv
    obtain ⟨p, hp, rfl⟩ := List.mem_map.1 he
    obtain ⟨hr, hj⟩ := mem_vplaces.1 (List.mem_of_mem_filter hp)
    exact ⟨hr, hj.trans_le hvl⟩

/-- An instruction that combines two sources touches its destination and its status word. -/
theorem touches_effBinary {f : VecF} (hd : ElemDest x (tdesc x.fr f.t.toNat)) (s : State)
    (op : RMode → Sys2Proof.Num → Sys2Proof.Num → Sys2Proof.Num) :
    Touches x.fr ((tdesc x.fr f.t.toNat).region ++ [((sreg x.fr 31).toNat, 16)]) x.n x.k s (effBinary s x f op) := by
  simp only [effBinary]
  exact touches_effElems hd ..

/-- A transcendental instruction touches its destination and its status word. -/
theorem touches_effTrans {f : VecF} (hd : ElemDest x (tdesc x.fr f.t.toNat)) (s : State) (fn : Nat → Nat) :
    Touches x.fr ((tdesc x.fr f.t.toNat).region ++ [((sreg x.fr 31).toNat, 16)]) x.n x.k s (effTrans s x f fn) := by
  simp only [effTrans]
  exact touches_effElems hd ..

/-- An instruction that writes a mask touches its rows of the mask. -/
theorem touches_effMask (s : State) (bit poison : Nat → Nat → Bool) :
    Touches x.fr (d.maskRegion d.rows (vlen x)) x.n x.k s (effMask s x d bit poison) := by
  rw [← List.append_nil (d.maskRegion ..)]
  refine touches_writeOut (status := none) ?_ ..
  intro w hw
  split at hw
  · cases hw
  · simp only [List.mem_flatten, List.mem_map, exists_exists_and_eq_and, List.mem_range] at hw
    obtain ⟨r, hr, b, hb, rfl⟩ := hw
    have hlt : b.2 < (vlen x + 7) / 8 := by simpa [maskRow] using (List.mem_zipIdx hb).2.1
    refine ⟨_, List.mem_map_of_mem (List.mem_range.2 hr), Nat.le_add_right .., ?_⟩
    simp only [bytesWrite, List.length_singleton]
    omega

/-- `VSEL` touches its destination and its status word. -/
theorem touches_effVsel {f : VecF} (hd : vlen x ≤ (tdesc x.fr f.t.toNat).cols) (s : State) :
    Touches x.fr ((tdesc x.fr f.t.toNat).region ++ [((sreg x.fr 31).toNat, 16)]) x.n x.k s (effVsel s x f) := by
  refine touches_writeOut (status := some _) ?_ ..
  intro w hw
  rcases List.mem_append.1 hw with hz | hv
  · split at hz
    · obtain ⟨p, hp, rfl⟩ := List.mem_map.1 hz
      exact placeWrite_within hd (List.mem_of_mem_filter hp) ..
    · cases hz
  · obtain ⟨p, hp, rfl⟩ := List.mem_map.1 hv
    exact placeWrite_within hd (List.mem_of_mem_filter hp) ..

/-- Drawing random words from the entropy source touches nothing of a core. -/
theorem touches_draw {fr : Frame} {rs : List (Nat × Nat)} {n k : Nat} (s : State) (q : Nat) :
    Touches fr rs n k s { s with freeCtr := q } :=
  .of_core_eq rfl ⟨⟨_, _, _, _, rfl⟩, fun _ _ => rfl⟩

/-- `VRAND` touches the mask it draws, or its destination and its status word. -/
theorem touches_effVrand {f : VecF} (hd : f.x.getLsbD 3 = false → ElemDest x (tdesc x.fr f.t.toNat)) (s : State) :
    Touches x.fr (vWrites x (.vec .vrand f)) x.n x.k s (effVrand s x f) := by
  have hdraw : Touches x.fr (vWrites x (.vec .vrand f)) x.n x.k s
      (if f.x.getLsbD 2 then { s with freeCtr := s.freeCtr + (tdesc x.fr f.t.toNat).rows * vlen x } else s) := by
    split
    · exact touches_draw ..
    · exact .refl s
  refine hdraw.trans ?_
  cases hm : f.x.getLsbD 3 <;> simp only [vWrites, effVrand, hm, Bool.false_eq_true, if_true, if_false]
  · exact touches_effElems (hd hm) ..
  · exact touches_effMask ..

/-- `VUPD` touches the four streams it updates and its status word. -/
theorem touches_effVupd {f : VupdF}
    (hcov : ∀ i < 4, covers (tdesc x.fr (f.th.toNat + i)) (tdesc x.fr f.th.toNat).rows (vlen x) = true) (s : State) :
    Touches x.fr (vWrites x (.vupd f)) x.n x.k s (effVupd s x f) := by
  have hplace : ∀ i < 4, ∀ p ∈ vplaces (tdesc x.fr f.th.toNat).rows (vlen x), ∀ code poison,
      (elemWrite (tdesc x.fr (f.th.toNat + i)) p.1 p.2 code poison).Within
        (((vupdDescs x f).take 4).map Desc.region).flatten := by
    intro i hi p hp code poison
    obtain ⟨hr, hj⟩ := mem_vplaces.1 hp
    obtain ⟨hrows, hcols⟩ := of_decide_eq_true (hcov i hi)
    refine (elemWrite_within (hr.trans_le hrows) (hj.trans_le hcols) code poison).mono fun r hm => ?_
    refine List.mem_flatten.2 ⟨_, List.mem_map_of_mem ?_, hm⟩
    rw [vupdDescs, List.take_left' (by simp)]
    exact List.mem_map_of_mem (List.mem_range.2 hi)
  refine touches_writeOut (status := some _) ?_ ..
  intro w hw
  rcases List.mem_append.1 hw with hz | hv
  · split at hz
    · simp only [List.mem_flatten, List.mem_map, exists_exists_and_eq_and, List.mem_range] at hz
      obtain ⟨p, hp, i, hi, rfl⟩ := hz
      exact hplace i hi p (List.mem_of_mem_filter hp) ..
    · cases hz
  · simp only [List.mem_flatten, List.mem_map, exists_exists_and_eq_and, List.mem_cons, List.not_mem_nil, or_false] at hv
    obtain ⟨p, hp, rfl | rfl | rfl | rfl⟩ := hv
    · exact hplace 0 (by decide) p (List.mem_of_mem_filter hp) ..
    · exact hplace 1 (by decide) p (List.mem_of_mem_filter hp) ..
    · exact hplace 2 (by decide) p (List.mem_of_mem_filter hp) ..
    · exact hplace 3 (by decide) p (List.mem_of_mem_filter hp) ..

/-! ### What a legal instruction says of its destination -/

theorem lowest_eq_none_iff {l : List Nat} : lowest l = none ↔ l = [] := by
  cases l <;> simp [lowest]

/-- A legal descriptor has one of the formats that the operand takes. -/
theorem ok_of_descCauses {fr : Frame} {ok : Fmt → Bool} (h : descCauses fr ok d = []) : ok d.f = true := by
  obtain ⟨_, h⟩ := List.append_eq_nil_iff.1 h
  unfold Desc.f
  split at h
  · cases h
  next g hg =>
    simp only [List.append_eq_nil_iff, ite_eq_left_iff, List.cons_ne_nil, imp_false, Bool.not_eq_true,
      Bool.not_eq_false] at h
    rw [hg]
    exact h.1.1

theorem vlen_le_of_destCauses {ok : Fmt → Bool} {srcs : List VSrc} {more : List (Nat × Nat)}
    (h : destCauses x ok d srcs more = []) : vlen x ≤ d.cols := by
  by_contra hv
  simp [destCauses, hv] at h

/-- A legal destination of a format other than MXFP4 takes the elements. -/
theorem elemDest_of_destCauses {ok : Fmt → Bool} {srcs : List VSrc} {more : List (Nat × Nat)} (hok : ok .mxfp4 = false)
    (h : destCauses x ok d srcs more = []) : ElemDest x d := by
  refine ⟨vlen_le_of_destCauses h, fun hf => ?_⟩
  simp only [destCauses, List.append_eq_nil_iff] at h
  have := ok_of_descCauses h.1.1.1
  rw [hf, hok] at this
  cases this

theorem elemDest_of_arithCauses {f : VecF} {srcs : List VSrc} (h : arithCauses x f srcs = []) :
    ElemDest x (tdesc x.fr f.t.toNat) := by
  simp only [arithCauses, List.append_eq_nil_iff] at h
  exact elemDest_of_destCauses rfl h.1.1.2

theorem elemDest_of_transCauses {f : VecF} {m : Nat} (h : transCauses x f m = []) :
    ElemDest x (tdesc x.fr f.t.toNat) := by
  simp only [transCauses, List.append_eq_nil_iff] at h
  exact elemDest_of_destCauses rfl h.1.2

theorem elemDest_of_vcvtCauses {f : VecF} (h : vcvtCauses x f = []) : ElemDest x (tdesc x.fr f.t.toNat) := by
  simp only [vcvtCauses, List.append_eq_nil_iff] at h
  obtain ⟨⟨⟨_, hdest⟩, hmx⟩, _⟩ := h
  refine ⟨vlen_le_of_destCauses hdest, fun hf => ?_⟩
  by_contra ht
  simp [mxDest, hf, ht] at hmx

theorem vlen_le_of_vselCauses {f : VecF} (h : vselCauses x f = []) : vlen x ≤ (tdesc x.fr f.t.toNat).cols := by
  simp only [vselCauses, List.append_eq_nil_iff] at h
  exact vlen_le_of_destCauses h.1.1.1.1.2

theorem elemDest_of_vrandCauses {s : State} {f : VecF} (h : vrandCauses s x f = []) (hm : f.x.getLsbD 3 = false) :
    ElemDest x (tdesc x.fr f.t.toNat) := by
  simp only [vrandCauses, List.append_eq_nil_iff, hm, Bool.false_eq_true, if_false] at h
  refine elemDest_of_destCauses ?_ h.2
  split
  · rfl
  · split <;> rfl

/-- The streams of a legal `VUPD` cover what it processes. -/
theorem covers_of_vupdCauses {f : VupdF} (h : vupdCauses x f = []) :
    ∀ i < 4, covers (tdesc x.fr (f.th.toNat + i)) (tdesc x.fr f.th.toNat).rows (vlen x) = true := by
  simp only [vupdCauses, List.append_eq_nil_iff] at h
  obtain ⟨⟨⟨⟨_, hs⟩, _⟩, _⟩, _⟩ := h
  simp only [vupdDescs, List.range_succ, List.range_zero, List.nil_append, List.cons_append, List.map_cons,
    List.map_nil, List.zip_cons_cons, List.zip_nil_right, List.flatten_cons, List.append_eq_nil_iff,
    ite_eq_left_iff, List.cons_ne_nil, imp_false, not_not] at hs
  obtain ⟨⟨_, h0⟩, ⟨_, h1⟩, ⟨_, h2⟩, ⟨_, h3⟩, _⟩ := hs
  intro i hi
  interval_cases i
  exacts [h0, h1, h2, h3]

/-- A legal vector instruction that writes elements or a mask touches what it is said to write. -/
theorem touches_effV {s : State} {i : VInstr} (hi : ∀ f, i ≠ .vec .vred f ∧ i ≠ .vec .vrowreplay f)
    (h : vCauses s x i = []) : Touches x.fr (vWrites x i) x.n x.k s (effV s x i) := by
  cases i with
  | nop => exact .refl s
  | vupd f => exact touches_effVupd (covers_of_vupdCauses h) s
  | vec op f =>
    cases op with
    | vadd | vmul | vmax =>
      simp only [vCauses, effV] at h ⊢
      exact touches_effBinary (elemDest_of_arithCauses (List.append_eq_nil_iff.1 h).2) ..
    | vfma =>
      simp only [vCauses, effV, effVfma] at h ⊢
      exact touches_effElems (elemDest_of_arithCauses h) ..
    | vcmp =>
      simp only [effV, effVcmp]
      exact touches_effMask ..
    | vsel => exact touches_effVsel (vlen_le_of_vselCauses h) s
    | vcvt =>
      simp only [vCauses, effV, effVcvt] at h ⊢
      exact touches_effElems (elemDest_of_vcvtCauses h) ..
    | vexp | vlog | vrsq | vrcp | vtanh | vsig | vgelu | vsin | vcos =>
      simp only [vCauses, effV] at h ⊢
      exact touches_effTrans (elemDest_of_transCauses h) ..
    | vrand => exact touches_effVrand (elemDest_of_vrandCauses h) s
    | vred => exact absurd rfl (hi f).1
    | vrowreplay => exact absurd rfl (hi f).2

end

end Sys2Proof.Machine

/-- Settles O18: the writes of every form of result lie in the ranges that the instruction names (`touches_effV`), and no
write changes a byte outside them (`EW.Within.vphys_ne`). -/
theorem vectorInstructionFrame : Obligations.VectorInstructionFrame := by
  intro s n k i x fr hi hc
  have h : Touches fr (vWrites x i) n k s (effV s x i) := touches_effV (x := x) hi (lowest_eq_none_iff.1 hc)
  exact ⟨h.scratch, h.frame, h.only⟩

end

section
/-! PROOFS. Scope: a bundle that a core issues (R191, R220), and obligations O7 and O8. -/

open Sys2Proof.Machine

namespace Sys2Proof.Machine

/-! ### The issue of a bundle -/

/-- A condition that is met leaves what else a bundle waits for. -/
@[simp] theorem Wait.ok_and (w : Wait) : Wait.ok.and w = w := by
  cases w <;> rfl

/-- A bundle that is ready waits for nothing, the holds from outside it included. -/
theorem slotsWait_of_ready {s : State} {n k : Nat} {b : Slots} (ho : outerHold s n k = .ok)
    (hl : bundleBad s n k b = none) (hw : bundleWait s n k b = .ok) : slotsWait s n k b = .ok := by
  simp [slotsWait, ho, hl, hw]

/-- R191, R220: a core that is ready issues its bundle. -/
theorem issueCycle_of_ready {s : State} {n k : Nat} {b : Slots} (h : ready s n k b = true) :
    issueCycle s n b = issueOk s n k b := by
  simp only [ready, Bool.and_eq_true, beq_iff_eq, bne_iff_ne, decide_eq_true_eq, Option.isNone_iff_eq_none] at h
  obtain ⟨⟨⟨⟨⟨hi, hh⟩, ho⟩, hpc⟩, hl⟩, hw⟩ := h
  simp only [issueCycle, hi, if_neg hh, ho, slotsWait_of_ready ho hl hw, if_neg hpc.not_ge, hl]

/-- The same with the underruns that the cycle shows (R487). -/
theorem issueSlots_of_ready {s : State} {n k : Nat} {b : Slots} (h : ready s n k b = true) :
    issueSlots s n b = noteUnder s n (issueOk s n k b) := by
  rw [issueSlots, issueCycle_of_ready h]

/-- What the issue of a bundle comes to with one instruction, in the matrix and splice slot. -/
theorem issueOk_onlyM (s : State) (n k : Nat) (i : MInstr) :
    issueOk s n k (onlyM i) = modCore
      (modFrame (effM (unheld s n) (slotCx n k (core (unheld s n) n) 1) i) n k (stepFrame (frameOf (core s n) k) .nop)) n
      fun c => { c with seq := c.seq + 1 } := rfl

/-- What the issue of a bundle comes to with one instruction, in the vector slot. -/
theorem issueOk_onlyV (s : State) (n k : Nat) (i : VInstr) :
    issueOk s n k (onlyV i) = modCore
      (modFrame (effV (unheld s n) (slotCx n k (core (unheld s n) n) 2) i) n k (stepFrame (frameOf (core s n) k) .nop)) n
      fun c => { c with seq := c.seq + 1 } := rfl

/-! ### The rows that are one instruction -/

/-- The row of a control instruction is a cycle with that instruction alone. -/
theorem exec_of_ofC {n : CoreId} {i : CInstr} {c : Instr} (h : ofC n i = some c) (s : State) :
    exec c s = .next (issueSlots s n.val (onlyC i)) := by
  cases i <;> cases h <;> rfl

/-- The row of a matrix-slot instruction is a cycle with that instruction alone. -/
theorem exec_of_ofM {n : CoreId} {i : MInstr} {c : Instr} (h : ofM n i = some c) (s : State) :
    exec c s = .next (issueSlots s n.val (onlyM i)) := by
  cases i <;> cases h <;> rfl

/-- The row of a vector-slot instruction is a cycle with that instruction alone. -/
theorem exec_of_ofV {n : CoreId} {i : VInstr} {c : Instr} (h : ofV n i = some c) (s : State) :
    exec c s = .next (issueSlots s n.val (onlyV i)) := by
  cases i with
  | nop => cases h
  | vec op f => cases h; cases op <;> rfl
  | vupd f => cases h; rfl

/-- `BUNDLE_ISSUE` is a cycle with the bundle that the core would fetch. -/
theorem exec_bundleIssue (n : CoreId) (s : State) :
    exec (.bundleIssue n) s = .next (issueSlots s n.val (nextSlots s n.val)) := rfl

end Sys2Proof.Machine

/-- Settles O7: each row is one cycle of the sequencer with its bundle (`exec_of_ofC`, `exec_bundleIssue`), and a core that
is ready issues that bundle (`issueSlots_of_ready`). -/
theorem controlSlotIssues : Obligations.ControlSlotIssues := by
  intro s n k
  refine ⟨fun i c hc hr => ?_, fun hr => ?_⟩
  · rw [exec_of_ofC hc, issueSlots_of_ready hr]
  · rw [exec_bundleIssue, issueSlots_of_ready hr]

/-- Settles O8: as for the control slot, each row is one cycle with its bundle, and of the effects of the issue only that
of the one instruction remains (`issueOk_onlyM`, `issueOk_onlyV`). A core that issues shows no hold, and its issued cycles
bring its tile's next hold nearer: that the hold duty counts them is log entry 92 (DESIGN CHOICE). -/
theorem arraySlotIssues : Obligations.ArraySlotIssues := by
  refine ⟨fun s n k i c hc hr => ?_, fun s n k i c hc hr => ?_, fun s n => rfl⟩
  · rw [exec_of_ofM hc, issueSlots_of_ready hr, issueOk_onlyM]
  · rw [exec_of_ofV hc, issueSlots_of_ready hr, issueOk_onlyV]

end

section
/-! PROOFS. Scope: the delivery of tokens, the count set by a write and the tick generators (R202, R375, R387), and
obligation O21. -/

open Sys2Proof.Machine

namespace Sys2Proof.Machine

/-! ### Token deliveries -/

/-- R202, R425: a token stays on its way where its channel may not take it yet; taken or refused, it is on its way no
more. -/
theorem exec_tokenDelivery {s t : State} {k : Nat} {m : TokenMove} {e : TokEnd} (hm : s.tokens[k]? = some m)
    (hc : clockRuns s (tokenClock s m) = true)
    (hd : deliverToken s m.ctx.val m.vx m.vy m.ch m.step m.val = (t, e)) :
    exec (.tokenDelivery k) s = .next (if e = .notYet then t else { t with tokens := t.tokens.eraseIdx k }) := by
  show execTokenDelivery k s = _
  simp only [execTokenDelivery, hm, onClock_runs hc, hd]
  cases e <;> rfl

/-! ### The count set by a write -/

section
variable {s : State} {w : RegWrite} (ho : writeOpen s true = true)
include ho

/-- R375: the count of the master in FREE takes a value that is not below it. -/
theorem exec_tcSet_forward (hb : w.half = .both) (hm : fbit s F.tcCfgMaster 0 0 = true)
    (hf : fget s F.tcStatState 0 0 = 0) (hle : s.tcount ≤ w.data.toNat) :
    exec (.tcSet w) s = .next { s with tcount := w.data.toNat } := by
  show execTcSet w s = _
  simp only [execTcSet, onBar_open ho]
  exact if_pos ⟨hb, hm, hf, hle⟩

/-- R375, R381: the count steps neither backward, nor on a device that is not the master in FREE. -/
theorem exec_tcSet_left
    (h : w.data.toNat < s.tcount ∨ fbit s F.tcCfgMaster 0 0 = false ∨ fget s F.tcStatState 0 0 ≠ 0) :
    exec (.tcSet w) s = .next s := by
  show execTcSet w s = _
  simp only [execTcSet, onBar_open ho]
  refine if_neg ?_
  rintro ⟨-, hm, hf, hle⟩
  rcases h with hlt | hn | hs
  · exact hlt.not_ge hle
  · exact Bool.false_ne_true (hn.symm.trans hm)
  · exact hs hf

end

/-! ### Tick generators -/

/-- Whether a generator ticks at a count: an instant is `START` or a whole number of `PERIOD`s after it (R387). -/
def tickAt (s : State) (g c : Nat) : Bool :=
  decide (fget s F.tcTickStartCount 0 g ≤ c ∧
    (c - fget s F.tcTickStartCount 0 g) % fget s F.tcTickCfgPeriod 0 g = 0)

section
variable (s : State) (g : Nat)

/-- The count's next value adds one instant, where the generator ticks at it. -/
theorem ticksBy_succ (c : Nat) : ticksBy s g (c + 1) = ticksBy s g c + if tickAt s g (c + 1) then 1 else 0 := by
  simp only [ticksBy, tickAt, decide_eq_true_eq]
  generalize fget s F.tcTickStartCount 0 g = start
  generalize fget s F.tcTickCfgPeriod 0 g = period
  rcases lt_trichotomy (c + 1) start with h | rfl | h
  · simp [h, h.not_ge, show c < start by omega]
  · simp
  · have hs : c + 1 - start = c - start + 1 := by omega
    simp only [if_neg (show ¬ c + 1 < start by omega), if_neg (show ¬ c < start by omega), hs, Nat.succ_div,
      Nat.dvd_iff_mod_eq_zero, h.le, true_and]
    omega

/-- The instants that the count has reached only grow with it. -/
theorem ticksBy_mono : Monotone (ticksBy s g) :=
  monotone_nat_of_le_succ fun c => by simp [ticksBy_succ s g]

/-- The instants after `since` that the count has reached are those it has reached by now, without those by `since`. -/
theorem countP_tickAt (since c : Nat) :
    (List.range (c + 1)).countP (fun x => decide (since < x) && tickAt s g x) = ticksBy s g c - ticksBy s g since := by
  induction c with
  | zero => simp [Nat.sub_eq_zero_of_le (ticksBy_mono s g since.zero_le)]
  | succ c ih =>
    rw [List.range_succ, List.countP_append, ih, List.countP_singleton]
    have hsucc := ticksBy_succ s g c
    rcases Nat.lt_or_ge since (c + 1) with h | h
    · have hle := ticksBy_mono s g (Nat.lt_succ_iff.1 h)
      simp only [h, decide_true, Bool.true_and]
      omega
    · have hle := ticksBy_mono s g h
      simp only [h.not_gt, decide_false, Bool.false_and, Bool.false_eq_true, if_false]
      omega

end

/-- R387: the total of a generator that runs. -/
theorem exec_tick_enabled {s : State} {g : Fin 4} (he : fbit s F.tcTickCfgEn 0 g.val = true) :
    exec (.tick g) s = .next (fset s F.tcTickTotTotal 0 g.val
      ((ticksBy s g.val s.tcount - ticksBy s g.val (tget s.time.ticks g.val 0)) % 2 ^ 32)) := by
  show execTick g s = _
  exact if_pos he

/-- R387: a generator that is not enabled does nothing. -/
theorem exec_tick_disabled {s : State} {g : Fin 4} (he : fbit s F.tcTickCfgEn 0 g.val = false) :
    exec (.tick g) s = .next s := by
  show execTick g s = _
  exact if_neg (by simp [he])

end Sys2Proof.Machine

/-- Settles O21: the deliveries and the write are what their commands do; the model's total, a difference of two
quotients, counts the instants one by one (`countP_tickAt`, by induction on the count). That an on-chip token which is
refused is dropped is log entry 45 (DEDUCED). -/
theorem tokensAndTicks : Obligations.TokensAndTicks := by
  refine ⟨fun s k m t hm hc => ⟨exec_tokenDelivery hm hc, exec_tokenDelivery hm hc, exec_tokenDelivery hm hc⟩,
    fun s w ho => ⟨exec_tcSet_forward ho, exec_tcSet_left ho⟩,
    fun s g => ⟨fun he _ => ⟨_, exec_tick_enabled he, ?total, ?others, rfl⟩, exec_tick_disabled⟩⟩
  case total =>
    rw [fget_fset_same, ← countP_tickAt, List.countP_eq_length_filter]
    simp [tickAt, F.tcTickTotTotal]
  case others => exact fun f i j hk => fget_fset_ne hk.symm

end

section
/-! PROOFS. Scope: the mover slot (R254 to R256): a bundle that writes the frame of its take alone, the register forms of
`MOV`, the start of a transfer, and obligations O9 and O10. -/

open Sys2Proof.Machine

namespace Sys2Proof.Machine

/-! ### The issue of a bundle that writes the frame of its take alone -/

/-- A core that issues keeps its frames. -/
@[simp] theorem frameOf_unheld (s : State) (n m k : Nat) : frameOf (core (unheld s n) m) k = frameOf (core s m) k := by
  by_cases h : n = m
  · subst h
    rw [unheld, core_modCore_same]
    rfl
  · rw [unheld, core_modCore_ne h]

/-- Two updates of one frame are one. -/
theorem modFrame_modFrame (s : State) (n k : Nat) (f g : Frame → Frame) :
    modFrame (modFrame s n k f) n k g = modFrame s n k fun fr => g (f fr) := by
  simp [modFrame, modCore, frameOf]

/-- An update of a frame is what it makes of the frame that stands there. -/
theorem modFrame_congr {s : State} {n k : Nat} {f g : Frame → Frame}
    (h : f (frameOf (core s n) k) = g (frameOf (core s n) k)) : modFrame s n k f = modFrame s n k g := by
  simp only [modFrame, modCore, h]

/-- What the issue of a bundle comes to that updates the frame of its take, and ends neither the take nor the part. -/
theorem issueOk_of_frame {s : State} {n k : Nat} {b : Slots} {g : Frame → Frame}
    (ha : ∀ t, afterC t n k (slotGet b.c .nop) = t)
    (he : ∀ h, modFrame (bundleEff (unheld s n) n k b) n k h = modFrame (unheld s n) n k fun fr => h (g fr)) :
    noteUnder s n (issueOk s n k b) =
      issued s n k (stepFrame (frameOf (core s n) k) (slotGet b.c .nop) (g (frameOf (core s n) k))) := by
  simp only [issueOk, ha, he, issued]
  congr 1
  simp only [modFrame, modCore, core_setCore_same, setCore_setCore, frameOf_unheld]
  simp only [unheld, modCore, core_setCore_same, setCore_setCore]
  rfl

/-- R220: a bundle is legal where no slot has a cause. -/
theorem bundleBad_eq_none_iff {s : State} {n k : Nat} {b : Slots} : bundleBad s n k b = none ↔
    (slotCauses b.c (cCauses s (slotCx n k (core s n) 0)) = [] ∧ sameScalar b = false) ∧
      slotCauses b.m (mCauses s (slotCx n k (core s n) 1)) = [] ∧
      slotCauses b.v (vCauses s (slotCx n k (core s n) 2)) = [] ∧
      slotCauses b.d (dCauses s (slotCx n k (core s n) 3)) = [] := by
  have hc : slotCauses b.c (cCauses s (slotCx n k (core s n) 0)) ++ (if sameScalar b then [0xF] else []) = [] ↔
      slotCauses b.c (cCauses s (slotCx n k (core s n) 0)) = [] ∧ sameScalar b = false := by
    rw [List.append_eq_nil_iff, ite_eq_right_iff, Bool.eq_false_iff]
    exact and_congr_right fun _ => ⟨fun h hs => absurd (h hs) (by simp), fun h hs => absurd hs h⟩
  rw [← hc]
  simp only [← lowest_eq_none_iff]
  unfold bundleBad
  dsimp only
  generalize slotCauses b.c (cCauses s (slotCx n k (core s n) 0)) ++ (if sameScalar b then [0xF] else []) = cs
  split <;> simp [*]

/-- R220: a bundle that is ready is legal. -/
theorem bundleBad_of_ready {s : State} {n k : Nat} {b : Slots} (h : ready s n k b = true) : bundleBad s n k b = none := by
  simp only [ready, Bool.and_eq_true, Option.isNone_iff_eq_none] at h
  exact h.1.2

/-! ### The mover slot alone -/

/-- The row of a mover-slot instruction is a cycle with that instruction alone. -/
theorem exec_of_ofD {n : CoreId} {i : DInstr} {c : Instr} (h : ofD n i = some c) (s : State) :
    exec c s = .next (issueSlots s n.val (onlyD i)) := by
  cases i with
  | move kd f => cases h; cases kd <;> rfl
  | nop => cases h
  | _ => cases h; rfl

/-- What the issue of a bundle comes to with one instruction, in the mover slot. -/
theorem issueOk_onlyD (s : State) (n k : Nat) (i : DInstr) :
    issueOk s n k (onlyD i) = modCore
      (modFrame (effD (unheld s n) (slotCx n k (core (unheld s n) n) 3) i) n k (stepFrame (frameOf (core s n) k) .nop)) n
      fun c => { c with seq := c.seq + 1 } := rfl

/-- R254: what a register form of `MOV` makes of the frame of its take. A transfer instruction leaves it. -/
def movFrame (i : DInstr) (fr : Frame) : Frame :=
  match i with
  | .seti f => { fr with s := tset fr.s f.d.toNat (f.imm.signExtend 32) }
  | .sethi f => { fr with s := tset fr.s f.d.toNat (f.imm ++ (sreg fr f.d.toNat).extractLsb' 0 16) }
  | .salu f => { fr with s := tset fr.s f.d.toNat (saluOp f.op (sreg fr f.a.toNat) (sreg fr f.b.toNat)) }
  | .tadj f =>
    let p := tadjField f.fld
    let d := tget fr.t f.n.toNat 0
    let a := (sreg fr f.a.toNat).toNat
    { fr with t := tset fr.t f.n.toNat (putField d p.1 p.2 (if f.set then a else bitsOf d.toNat p.1 p.2 + a)) }
  | .setvl a => { fr with vl := (sreg fr a.toNat).setWidth 17 }
  | _ => fr

/-- R217, R254: a register form of `MOV` has that effect and no other. -/
theorem effD_of_movForm {s : State} {x : Cx} (hx : x.fr = frameOf (core s x.n) x.k) {i : DInstr} (hn : i ≠ .nop)
    (hm : ∀ kd f, i ≠ .move kd f) : effD s x i = modFrame s x.n x.k (movFrame i) := by
  cases i with
  | nop => exact absurd rfl hn
  | move kd f => exact absurd rfl (hm kd f)
  | _ =>
    simp only [effD, effSeti, effSethi, effSalu, effTadj, effSetvl, putS, hx]
    exact modFrame_congr rfl

/-- R254: the row of a register form of `MOV`. -/
theorem exec_movForm {s : State} {n : CoreId} {k : Nat} {i : DInstr} {c : Instr} (hr : ready s n.val k (onlyD i) = true)
    (hc : ofD n i = some c) (hm : ∀ kd f, i ≠ .move kd f) :
    exec c s = .next (issued s n.val k (stepFrame (frameOf (core s n.val) k) .nop (movFrame i (frameOf (core s n.val) k)))) := by
  have hn : i ≠ .nop := by rintro rfl; cases hc
  rw [exec_of_ofD hc, issueSlots_of_ready hr]
  refine congrArg _ (issueOk_of_frame (b := onlyD i) (fun _ => rfl) fun h => ?_)
  show modFrame (effD (unheld s n.val) (slotCx n.val k (core (unheld s n.val) n.val) 3) i) n.val k h = _
  rw [effD_of_movForm rfl hn hm]
  exact modFrame_modFrame ..

/-- R220: a bundle that is ready has no illegal mover slot. -/
theorem dCauses_of_ready {s : State} {n k : Nat} {i : DInstr} (h : ready s n k (onlyD i) = true) :
    dCauses s (slotCx n k (core s n) 3) i = [] :=
  (bundleBad_eq_none_iff.1 (bundleBad_of_ready h)).2.2.2

/-! ### `SALU` -/

/-- The eight values of three bits. -/
theorem bitVec3_cases (c : BitVec 3) : c = 0 ∨ c = 1 ∨ c = 2 ∨ c = 3 ∨ c = 4 ∨ c = 5 ∨ c = 6 ∨ c = 7 := by
  revert c
  decide

/-- The low five bits of a word are its value modulo 32. -/
theorem and_31_toNat (b : BitVec 32) : (b &&& 31).toNat = b.toNat % 32 :=
  (BitVec.toNat_and b 31).trans (Nat.and_two_pow_sub_one_eq_mod b.toNat 5)

/-- `SALU` shifts left by the low five bits of its second operand. -/
theorem saluOp_shl (a b : BitVec 32) : saluOp 3 a b = a <<< (b &&& 31) := by
  rw [BitVec.shiftLeft_eq', and_31_toNat]
  rfl

/-- So it shifts right. -/
theorem saluOp_shr (a b : BitVec 32) : saluOp 4 a b = a >>> (b &&& 31) := by
  rw [BitVec.ushiftRight_eq', and_31_toNat]
  rfl

/-! ### `TADJ` -/

/-- The bits of a field cut out of a number. -/
theorem testBit_bitsOf (v lo w j : Nat) : (bitsOf v lo w).testBit j = (decide (j < w) && v.testBit (j + lo)) := by
  rw [bitsOf, Nat.testBit_mod_two_pow, Nat.testBit_div_two_pow]

/-- A field replaced in a number: what stands above it, the new value, what stands below it. -/
theorem replaceField_eq (x lo w v : Nat) :
    x - bitsOf x lo w * 2 ^ lo + v * 2 ^ lo = 2 ^ lo * (2 ^ w * (x / 2 ^ lo / 2 ^ w) + v) + x % 2 ^ lo := by
  have hx := Nat.div_add_mod x (2 ^ lo)
  have hq := Nat.div_add_mod (x / 2 ^ lo) (2 ^ w)
  have hsub : x = bitsOf x lo w * 2 ^ lo + (2 ^ lo * (2 ^ w * (x / 2 ^ lo / 2 ^ w)) + x % 2 ^ lo) := by
    conv_lhs => rw [← hx, ← hq]
    rw [bitsOf]
    ring
  conv_lhs => rw [show x - bitsOf x lo w * 2 ^ lo = _ from Nat.sub_eq_of_eq_add' hsub]
  ring

/-- The bits of a descriptor with a field set: in the field those of the value, elsewhere those it had. -/
theorem getLsbD_putField (d : BitVec 256) {lo w : Nat} (h : lo + w ≤ 256) (v j : Nat) :
    (putField d lo w v).getLsbD j = if lo ≤ j ∧ j < lo + w then v.testBit (j - lo) else d.getLsbD j := by
  rw [putField, BitVec.getLsbD_ofNat, replaceField_eq, Nat.testBit_two_pow_mul_add _ (Nat.mod_lt _ (Nat.two_pow_pos lo)),
    Nat.testBit_two_pow_mul_add _ (Nat.mod_lt _ (Nat.two_pow_pos w)), Nat.testBit_mod_two_pow, Nat.testBit_mod_two_pow,
    Nat.testBit_div_two_pow, Nat.testBit_div_two_pow]
  rcases Nat.lt_or_ge j lo with hlo | hlo
  · simp [hlo, hlo.not_ge, show j < 256 by omega, BitVec.getLsbD]
  rcases Nat.lt_or_ge j (lo + w) with hhi | hhi
  · simp [hlo, hlo.not_gt, hhi, show j - lo < w by omega, show j < 256 by omega]
  · have hj : j - lo - w + w + lo = j := by omega
    have hout : (decide (j < 256) && d.toNat.testBit j) = d.getLsbD j :=
      Bool.and_eq_right_iff_imp.2 fun h => decide_eq_true (BitVec.lt_of_getLsbD h)
    simpa [hlo.not_gt, hhi.not_gt, show ¬ j - lo < w by omega, hj] using hout

/-- The field reads the value it was set to, modulo its width. -/
theorem bitsOf_putField (d : BitVec 256) {lo w : Nat} (h : lo + w ≤ 256) (v : Nat) :
    bitsOf (putField d lo w v).toNat lo w = v % 2 ^ w := by
  refine Nat.eq_of_testBit_eq fun j => ?_
  rw [testBit_bitsOf, Nat.testBit_mod_two_pow, ← BitVec.getLsbD, getLsbD_putField d h]
  rcases Nat.lt_or_ge j w with hj | hj
  · simp [hj, show j + lo < lo + w by omega]
  · simp [hj.not_gt]

/-- Each field that `TADJ` names lies within a descriptor. -/
theorem tadjField_le (fld : BitVec 2) : (tadjField fld).1 + (tadjField fld).2 ≤ 256 := by
  revert fld
  decide

/-! ### What makes a register form illegal -/

/-- R254: `TADJ` is never illegal for the descriptor it makes. -/
theorem dCauses_tadj (s : State) (x : Cx) (f : TadjF) : dCauses s x (.tadj f) = [] := rfl

/-- R254: `SETVL` is illegal exactly for a value above 65,536. -/
theorem dCauses_setvl_ne_nil_iff {s : State} {x : Cx} {a : BitVec 5} :
    dCauses s x (.setvl a) ≠ [] ↔ 65536 < (sreg x.fr a.toNat).toNat := by
  simp [dCauses, setvlCauses]

/-- A value that `SETVL` takes stands in `vl` unchanged. -/
theorem toNat_vl_of_legal {s : State} {x : Cx} {a : BitVec 5} (h : dCauses s x (.setvl a) = []) :
    ((sreg x.fr a.toNat).setWidth 17).toNat = (sreg x.fr a.toNat).toNat := by
  have hle : (sreg x.fr a.toNat).toNat ≤ 65536 := not_lt.1 fun hlt => dCauses_setvl_ne_nil_iff.2 hlt h
  rw [BitVec.toNat_setWidth]
  exact Nat.mod_eq_of_lt (by omega)

/-! ### The start of a transfer -/

section
variable {s t : State} {cs : Tbl Core} (ht : t = { s with cores := cs })
  (hf : ∀ m k, frameOf (core t m) k = frameOf (core s m) k)
include ht hf

/-- Of the cores, the place of a region in its space is read from the frames alone. -/
theorem inSpace_congr_frames (take : Option (Nat × Nat)) (sp a n : Nat) :
    inSpace t take sp a n = inSpace s take sp a n := by
  have hp : ∀ n k vx vy, placeOf t n k vx vy = placeOf s n k vx vy := fun _ _ _ _ => ht ▸ rfl
  unfold inSpace
  simp only [hf, hp]

/-- R275: of the cores, the check of a descriptor reads the frames alone. -/
theorem descCodes_congr_frames (take : Option (Nat × Nat)) (bulk : Option Nat) (cls op : Nat) (d : Bytes) :
    descCodes t take bulk cls op d = descCodes s take bulk cls op d := by
  unfold descCodes
  simp only [inSpace_congr_frames ht hf]
  rw [ht]
  rfl

end

/-- A channel's update keeps the frames of the cores. -/
theorem frameOf_modChan (s : State) (n i : Nat) (f : CoreChan → CoreChan) (m k : Nat) :
    frameOf (core (modChan s n i f) m) k = frameOf (core s m) k := by
  by_cases h : n = m
  · subst h
    rw [modChan, core_modCore_same]
    rfl
  · rw [modChan, core_modCore_ne h]

/-- R275: the check of a descriptor is the same whatever the mover channels of a core do. -/
theorem descCodes_modChan (s : State) (n i : Nat) (f : CoreChan → CoreChan) (take : Option (Nat × Nat)) (bulk : Option Nat)
    (cls op : Nat) (d : Bytes) : descCodes (modChan s n i f) take bulk cls op d = descCodes s take bulk cls op d :=
  descCodes_congr_frames (cs := (modChan s n i f).cores) rfl (frameOf_modChan s n i f) take bulk cls op d

/-- R275: the check of a descriptor is the same in the cycle that issues it. -/
theorem descCodes_unheld (s : State) (n : Nat) (take : Option (Nat × Nat)) (bulk : Option Nat)
    (cls op : Nat) (d : Bytes) : descCodes (unheld s n) take bulk cls op d = descCodes s take bulk cls op d :=
  descCodes_congr_frames (cs := (unheld s n).cores) rfl (frameOf_unheld s n) take bulk cls op d

/-- The class declared for a channel (R256) is the same whatever the mover channels of a core do. -/
theorem chanClass_modChan (s : State) (n i : Nat) (f : CoreChan → CoreChan) (x : Cx) (ch : BitVec 2) :
    chanClass (modChan s n i f) x ch = chanClass s x ch := rfl

/-- R255, R273: a transfer instruction whose descriptor passes starts its channel, which the page manager's request holds
where the transfer meets a page that migrates. -/
theorem effD_move_of_passes {s : State} {x : Cx} {kd : MKind} {f : XferF}
    (hd : lowest (descCodes s (some (x.n, x.k)) none (chanClass s x f.ch) (kindCode kd) (moveDesc x f)) = none) :
    effD s x (.move kd f) = modChan s x.n f.ch.toNat fun h => askPause s false { h with
      cls := BitVec.ofNat 2 (chanClass s x f.ch), paused := false,
      xfer := some (xferNew (moveDesc x f) x.fr.pc x.k (((keyStep s x.n x.k).map (·.id)).getD 0)) } := by
  simp only [effD, effMove, descCodes_modChan, chanClass_modChan, hd]

end Sys2Proof.Machine

/-- Settles O9: the row is one cycle with that instruction alone (`issueOk_onlyD`), and of a descriptor that passes its check
the effect is the start of its channel (`effD_move_of_passes`). -/
theorem transferInstructionsStartTheChannel : Obligations.TransferInstructionsStartTheChannel := by
  intro s n k kd f u x d y hr hd
  have hu : lowest (descCodes u (some (x.n, x.k)) none (chanClass u x f.ch) (kindCode kd) (moveDesc x f)) = none :=
    (congrArg lowest (descCodes_unheld ..)).trans hd
  have he := effD_move_of_passes hu
  rw [exec_of_ofD (i := .move kd f) rfl, issueSlots_of_ready hr, issueOk_onlyD, he, ← frameOf_unheld s n.val n.val k]
  rfl

/-- Settles O10: a register form writes the frame of its take and nothing else (`exec_movForm`); `SALU`'s eight operations are
`saluOp`'s, and a field that `TADJ` sets is told bit by bit (`getLsbD_putField`). -/
theorem movRegisterForms : Obligations.MovRegisterForms := by
  refine ⟨fun s n k => ⟨?seti, ?sethi, ?salu, ?tadj, ?setvl⟩, by decide, fun d fld v j => ⟨?field, ?others⟩,
    fun s x f a => ⟨dCauses_tadj s x f, dCauses_setvl_ne_nil_iff⟩⟩
  case seti => exact fun f hr => exec_movForm hr rfl nofun
  case sethi => exact fun f hr => exec_movForm hr rfl nofun
  case tadj => exact fun f hr => exec_movForm hr rfl nofun
  case setvl =>
    intro a hr
    have hv := toNat_vl_of_legal (dCauses_of_ready hr)
    exact ⟨exec_movForm hr rfl nofun, hv⟩
  case salu =>
    intro f v hr a b h0 h1 h2 h3 h4 h5 h6 h7
    have hv : v = saluOp f.op a b := by
      rcases bitVec3_cases f.op with h | h | h | h | h | h | h | h
      · rw [h0 h, h]; rfl
      · rw [h1 h, h]; rfl
      · rw [h2 h, h]; rfl
      · rw [h3 h, h, saluOp_shl]
      · rw [h4 h, h, saluOp_shr]
      · rw [h5 h, h]; rfl
      · rw [h6 h, h]; rfl
      · rw [h7 h, h]; rfl
    rw [hv]
    exact exec_movForm hr rfl nofun
  case field => exact bitsOf_putField d (tadjField_le fld) v
  case others =>
    intro hj
    rw [getLsbD_putField d (tadjField_le fld), if_neg (by omega)]

end

section
/-! PROOFS. Scope: branches, loops, fences and the trap enable (R224 to R227, R232, R234), and obligations O11 and O12. -/

open Sys2Proof.Machine

namespace Sys2Proof.Machine

/-! ### The control instructions that write no more than the frame of their take -/

/-- Whether all that a control instruction does is to the frame of its take. -/
def writesFrame : CInstr → Bool
  | .loop _ | .br _ | .brSet _ | .fence _ | .trapcfg _ => true
  | _ => false

/-- R227, R234: what such an instruction makes of the frame, but for where the program goes. -/
def ctrlFrame (i : CInstr) (fr : Frame) : Frame :=
  match i with
  | .brSet f => setPred fr f.p (brCond f.cond (sreg fr f.sa.toNat) (sreg fr f.sb.toNat))
  | .trapcfg nan => { fr with trapNan := nan }
  | _ => fr

/-- Such an instruction has that effect and no other. -/
theorem modFrame_effC {s : State} {x : Cx} (hx : x.fr = frameOf (core s x.n) x.k) {i : CInstr} (hi : writesFrame i = true)
    (h : Frame → Frame) : modFrame (effC s x i) x.n x.k h = modFrame s x.n x.k fun fr => h (ctrlFrame i fr) := by
  cases i with
  | loop _ | br _ | fence _ => rfl
  | brSet f =>
    simp only [effC, effBrSet, hx, modFrame_modFrame]
    exact modFrame_congr rfl
  | trapcfg nan => exact modFrame_modFrame ..
  | _ => cases hi

/-- Neither a take nor a part ends with it. -/
theorem afterC_of_writesFrame {i : CInstr} (hi : writesFrame i = true) (s : State) (n k : Nat) : afterC s n k i = s := by
  cases i with
  | cut | endStep => cases hi
  | _ => rfl

/-- The row of such an instruction: its frame, and where the program goes. -/
theorem exec_ctrlForm {s : State} {n : CoreId} {k : Nat} {i : CInstr} {c : Instr} (hr : ready s n.val k (onlyC i) = true)
    (hc : ofC n i = some c) (hi : writesFrame i = true) :
    exec c s = .next (issued s n.val k (stepFrame (frameOf (core s n.val) k) i (ctrlFrame i (frameOf (core s n.val) k)))) := by
  rw [exec_of_ofC hc, issueSlots_of_ready hr]
  exact congrArg _ (issueOk_of_frame (b := onlyC i) (fun t => afterC_of_writesFrame hi t _ _) fun h => modFrame_effC rfl hi h)

/-- R220: a bundle that is ready has no illegal control slot. -/
theorem cCauses_of_ready {s : State} {n k : Nat} {i : CInstr} (h : ready s n k (onlyC i) = true) :
    cCauses s (slotCx n k (core s n) 0) i = [] :=
  (bundleBad_eq_none_iff.1 (bundleBad_of_ready h)).1.1

/-! ### Predicates -/

/-- The bit that a predicate has among the eight. -/
theorem getLsbD_predBit (p q : BitVec 3) : (1#8 <<< p.toNat).getLsbD q.toNat = decide (q = p) := by
  revert p q
  decide

/-- `p0` reads 1 (Table 6.1). -/
@[simp] theorem pred_zero (fr : Frame) : pred fr 0 = true := rfl

/-- A write of `p0` is ignored (Table 6.1). -/
@[simp] theorem setPred_zero (fr : Frame) (v : Bool) : setPred fr 0 v = fr := rfl

/-- A predicate reads what was written to it last. -/
theorem pred_setPred (fr : Frame) {p : BitVec 3} (hp : p ≠ 0) (q : BitVec 3) (v : Bool) :
    pred (setPred fr p v) q = if q = p then v else pred fr q := by
  have hbit : (if v then fr.p ||| 1#8 <<< p.toNat else fr.p &&& ~~~(1#8 <<< p.toNat)).getLsbD q.toNat =
      if q = p then v else fr.p.getLsbD q.toNat := by
    have hq : q.toNat < 8 := q.isLt
    cases v
    · simp only [Bool.false_eq_true, if_false, BitVec.getLsbD_and, BitVec.getLsbD_not, getLsbD_predBit]
      split <;> simp [*]
    · simp only [if_true, BitVec.getLsbD_or, getLsbD_predBit]
      split <;> simp [*]
  simp only [pred, setPred, if_neg hp, hbit]
  split
  next h => rw [h, beq_false_of_ne hp, Bool.false_or]
  next => rfl

/-- A write of a predicate leaves the cycles of the take. -/
@[simp] theorem setPred_takecyc (fr : Frame) (p : BitVec 3) (v : Bool) : (setPred fr p v).takecyc = fr.takecyc := by
  rw [setPred, apply_ite Frame.takecyc, ite_self]

/-- R227: the comparison by `COND` 0b001. -/
theorem brCond_ne (a b : BitVec 32) : brCond 1 a b = decide (a ≠ b) :=
  Bool.eq_iff_iff.2 (bne_iff_ne.trans decide_eq_true_iff.symm)

/-- R227: the comparison by `COND` 0b110. -/
theorem brCond_and (a b : BitVec 32) : brCond 6 a b = decide (a &&& b ≠ 0) :=
  Bool.eq_iff_iff.2 (bne_iff_ne.trans decide_eq_true_iff.symm)

end Sys2Proof.Machine

/-- Settles O11: each of the four writes no more than the frame of its take (`exec_ctrlForm`), and where the program goes is
`nextPc`'s, case by case. -/
theorem branchesAndLoops : Obligations.BranchesAndLoops := by
  intro s n k fr go
  refine ⟨fun f hr => ?br, fun f hr => ?loop, fun kind hr => ?fence, fun nan hr => ?trapcfg⟩
  case br => exact (exec_ctrlForm hr rfl rfl).trans (congrArg _ (apply_ite (fun p => go p fr) _ _ _))
  case loop => exact (exec_ctrlForm hr rfl rfl).trans (congrArg _ (apply_ite (fun p => go p fr) _ _ _))
  case fence => exact exec_ctrlForm hr rfl rfl
  case trapcfg => exact exec_ctrlForm hr rfl rfl

/-- Settles O12: the set form writes its predicate, and goes on as any other bundle (`exec_ctrlForm`); the comparison is
`brCond`'s, and the reserved code is a cause, which a bundle that is ready has none of (`cCauses_of_ready`). -/
theorem branchSetWritesItsPredicate : Obligations.BranchSetWritesItsPredicate := by
  refine ⟨?writes, fun s n k f h7 => ?reserved, fun fr v => ⟨setPred_zero fr v, pred_zero fr⟩,
    fun fr p q v hp => pred_setPred fr hp q v⟩
  case writes =>
    intro s n k f v fr a b goesOn hr h0 h1 h2 h3 h4 h5 h6
    have hv : v = brCond f.cond a b := by
      rcases bitVec3_cases f.cond with h | h | h | h | h | h | h | h
      · rw [h0 h, h]; rfl
      · rw [h1 h, h, brCond_ne]
      · rw [h2 h, h]; rfl
      · rw [h3 h, h]; rfl
      · rw [h4 h, h]; rfl
      · rw [h5 h, h]; rfl
      · rw [h6 h, h, brCond_and]
      · exact absurd (cCauses_of_ready hr) (by simp [cCauses, brSetCauses, h])
    rw [hv, exec_ctrlForm hr rfl rfl]
    simp only [stepFrame, ctrlFrame, setPred_takecyc]
    rfl
  case reserved =>
    refine Bool.eq_false_iff.2 fun hr => ?_
    simpa [cCauses, brSetCauses, h7] using cCauses_of_ready hr

end

section
/-! PROOFS. Scope: cycles in which a core issues nothing (R191 to R196, R220, R221), and obligation O13. -/

open Sys2Proof.Machine

namespace Sys2Proof.Machine

/-! ### A core that cannot issue -/

/-- R191, R564: a core without an issuer's take does nothing in a cycle. -/
theorem issueCycle_of_no_issuer {s : State} {n : Nat} (h : issuer s n = none) (b : Slots) : issueCycle s n b = s := by
  simp only [issueCycle, h]

/-- R93, R194: a core that a splice escape holds stands still. -/
theorem issueCycle_of_escape {s : State} {n : Nat} (h : (core s n).hold = 1) (b : Slots) : issueCycle s n b = s := by
  unfold issueCycle
  split
  · rfl
  · exact if_pos h

/-- R487: a state whose core is as before shows no underrun begun or ended. -/
@[simp] theorem noteUnder_self (s : State) (n : Nat) : noteUnder s n s = s := by
  unfold noteUnder
  cases (core s n).hold == 3 <;> split <;> rfl

/-- A cycle of a core that cannot issue leaves the state as it is. -/
theorem issueSlots_of_no_issuer {s : State} {n : Nat} (h : issuer s n = none) (b : Slots) : issueSlots s n b = s := by
  rw [issueSlots, issueCycle_of_no_issuer h, noteUnder_self]

/-! ### A bundle that does not issue -/

section
variable {s : State} {n k : Nat} {b : Slots} (hi : issuer s n = some k) (hh : (core s n).hold ≠ 1)
include hi hh

/-- R195: what holds the core whatever its next bundle is holds it, with the lowest cause there is. -/
theorem issueCycle_of_outerHold {d e : Nat} (ho : outerHold s n k = .hold d) (hw : slotsWait s n k b = .hold e) :
    issueCycle s n b = issueHold s n e := by
  simp only [issueCycle, hi, if_neg hh, ho, hw]

variable (ho : outerHold s n k = .ok) (hpc : (frameOf (core s n) k).pc < codeSize (frameOf (core s n) k))
include ho hpc

/-- R220, R221: a bundle with an illegal slot stops the core, and has no effect. -/
theorem issueCycle_of_bad {slot e : Nat} (hl : bundleBad s n k b = some (slot, e)) :
    issueCycle s n b = issueBad s n slot e (frameOf (core s n) k).pc := by
  simp only [issueCycle, hi, if_neg hh, ho, if_neg hpc.not_ge, hl]

variable (hl : bundleBad s n k b = none)
include hl

/-- R192: a legal bundle that waits for something outside the core holds it. -/
theorem issueCycle_of_hold {e : Nat} (hw : bundleWait s n k b = .hold e) : issueCycle s n b = issueHold s n e := by
  have hs : slotsWait s n k b = .hold e := by simp [slotsWait, ho, hl, hw]
  simp only [issueCycle, hi, if_neg hh, ho, hs, if_neg hpc.not_ge, hl]

/-- R192: one that waits for the core's own work counts a wait cycle. -/
theorem issueCycle_of_wait (hw : bundleWait s n k b = .issue) : issueCycle s n b = issueWait s n k := by
  have hs : slotsWait s n k b = .issue := by simp [slotsWait, ho, hl, hw]
  simp only [issueCycle, hi, if_neg hh, ho, hs, if_neg hpc.not_ge, hl]

end

/-- An issue wait is one update of the core. -/
theorem issueWait_eq (s : State) (n k : Nat) : issueWait s n k =
    let c := core s n
    setCore s n { c with
      waitCyc := min (2 ^ 64 - 1) (c.waitCyc + 1), hold := 0, wait := true, cycle := c.cycle + 1,
      frames := tset c.frames k { frameOf c k with takecyc := (frameOf c k).takecyc + 1 } } := by
  simp only [issueWait, modFrame, modCore, core_setCore_same, setCore_setCore]
  rfl

end Sys2Proof.Machine

/-- Settles O13: a cycle of the sequencer, case by case (`issueCycle_of_bad`, `issueCycle_of_hold`, `issueCycle_of_wait`,
`issueCycle_of_outerHold`); a core without an issuer's take, or held by a splice escape, does nothing in it. That the cycles
of a splice escape's hold are counted with the access, not here, is log entry 28 (DESIGN CHOICE). -/
theorem bundlesThatDoNotIssue : Obligations.BundlesThatDoNotIssue := by
  refine ⟨fun s n k b hi hh => ⟨fun slot e ho hpc hl => issueCycle_of_bad hi hh ho hpc hl,
      fun ho hpc hl => ⟨fun e hw => issueCycle_of_hold hi hh ho hpc hl hw,
        fun hw => (issueCycle_of_wait hi hh ho hpc hl hw).trans (issueWait_eq s n k)⟩, ?outer⟩,
    fun s n b h => issueCycle_of_escape h b, ?rows⟩
  case outer =>
    intro d ho hl
    have hs : slotsWait s n k b = (Wait.hold d).and (bundleWait s n k b) := by
      rw [slotsWait, ho, hl]
      rfl
    cases hw : bundleWait s n k b with
    | _ => exact issueCycle_of_outerHold hi hh ho (hs.trans (by rw [hw]; rfl))
  case rows =>
    intro s n h
    refine ⟨fun i c hc => ?_, fun i c hc => ?_, fun i c hc => ?_, fun i c hc => ?_⟩
    · rw [exec_of_ofC hc, issueSlots_of_no_issuer h]
    · rw [exec_of_ofM hc, issueSlots_of_no_issuer h]
    · rw [exec_of_ofV hc, issueSlots_of_no_issuer h]
    · rw [exec_of_ofD hc, issueSlots_of_no_issuer h]

end

section
/-! PROOFS. Scope: how core and bulk channels go on and end (R255, R269 to R274, R277 to R279), and obligation O20. -/

open Sys2Proof.Machine

namespace Sys2Proof.Machine

/-! ### Entries deleted from a table -/

/-- An entry that was deleted is not found. -/
@[simp] theorem tfind_tdel_same {α : Type} (t : Tbl α) (k : Nat) : tfind (tdel t k) k = none := by
  induction t with
  | nil => rfl
  | cons e t ih =>
    rw [tdel, List.filter_cons]
    split
    next h => exact (if_neg (bne_iff_ne.1 h)).trans ih
    next => exact ih

/-- An entry that is set and then deleted is deleted. -/
@[simp] theorem tdel_tset {α : Type} (t : Tbl α) (k : Nat) (v : α) : tdel (tset t k v) k = tdel t k := by
  induction t with
  | nil => simp [tset, tdel]
  | cons e t ih =>
    obtain ⟨j, a⟩ := e
    simp only [tset]
    split
    next => simp [tdel]
    next =>
      split
      next h => simp [tdel, h]
      next => rw [tdel, List.filter_cons, ← tdel, ih, tdel, tdel, List.filter_cons]

/-! ### A transfer that moves bytes -/

/-- A transfer of another kind than `HASH` and `CMPM` gathers nothing. -/
theorem xfGathers_eq_false {d : Bytes} (h3 : xfKind d ≠ 3) (h5 : xfKind d ≠ 5) : xfGathers d = false := by
  simp [xfGathers, h3, h5]

/-- It has written all it writes when its bursts have landed (R269). -/
theorem lastWrite_of_moves {s : State} {ch : ChanRef} {x : Xfer} (h : xfGathers x.desc = false) :
    lastWrite s ch x = (s, .done 0) := by
  simp [lastWrite, h]

/-- It writes to its destination what it moves. -/
theorem xfOut_add_xfOutLen {d : Bytes} (h3 : xfKind d ≠ 3) (h5 : xfKind d ≠ 5) :
    xfOut d + xfOutLen d = xfDst d + xfLen d := by
  simp only [xfOut, xfOutLen, if_neg h3, if_neg h5]

/-! ### Core channels -/

section
variable {s : State} {n : CoreId} {c : Fin 4} (hc : clockRuns s (coreClock n.val) = true)
include hc

/-- R269: a transfer that may complete, and whose last write is acknowledged, leaves its channel idle. -/
theorem exec_transferComplete {x : Xfer} (hx : chXfer s (.core n c) = some x) (hl : allLanded x = true)
    (hi : inputHeld s (.core n c) x = false) (hm : mayComplete (chanOf (core s n.val) c.val) x = true)
    {t : State} {lines : Nat} (hw : lastWrite s (.core n c) x = (t, .done lines)) :
    exec (.transferComplete (.core n c)) s = .next (modChan t n.val c.val fun h =>
      chanIdle h (xfSrc x.desc + xfLen x.desc) (xfOut x.desc + xfOutLen x.desc) 0) := by
  show execTransferComplete (.core n c) s = _
  have hclk : clockRuns s (chanClock (.core n c)) = true := hc
  simp only [execTransferComplete, onClock_runs hclk, hx, hl, hi, hm, hw]
  rfl

/-- R270: `PAUSE` sets the request. -/
theorem exec_pause : exec (.pause n c) s = .next (modChan s n.val c.val fun h => { h with pause := true }) := by
  show execPause n c s = _
  simp only [execPause, onClock_runs hc]

/-- R270: a channel that is asked to pause is PAUSED with nothing under way and a write left to do. -/
theorem exec_channelPaused {x : Xfer} (hx : (chanOf (core s n.val) c.val).xfer = some x)
    (hp : ((chanOf (core s n.val) c.val).pause || (chanOf (core s n.val) c.val).intPause) = true) (hf : x.flight = [])
    (hw : (xfGathers x.desc || !allLanded x) = true) :
    exec (.channelPaused n c) s = .next (modChan s n.val c.val fun h => { h with paused := true }) := by
  show execChannelPaused n c s = _
  simp only [execChannelPaused, onClock_runs hc, hx, hp, hf, hw, List.isEmpty_nil, Bool.and_true, if_true]

/-- R271, R273: a resumed channel goes on unless the internal request holds it. -/
theorem exec_resumeTransfer : exec (.resumeTransfer n c) s = .next (modChan s n.val c.val fun h =>
    { h with pause := false, paused := h.paused && h.intPause }) := by
  show execResumeTransfer n c s = _
  simp only [execResumeTransfer, onClock_runs hc]

end

/-! ### Bulk channels -/

/-- R611: the other fields of a write that enables a bulk channel. -/
def bulkFields (s : State) (b v : Nat) : State :=
  fset (fset (fset (fset (fset s F.bmvCtlClass b 0 (bitsOf v 1 2)) F.bmvCtlOwner b 0 (bitsOf v 3 6)) F.bmvCtlFwown b 0
    (bitsOf v 9 1)) F.bmvCtlIrq b 0 (bitsOf v 10 8)) F.bmvCtlIrqen b 0 (bitsOf v 18 1)

section
variable {s : State} {b : BulkId} {w : RegWrite} (ho : writeOpen s false = true) (hh : w.half ≠ .high)
include ho hh

section
variable (he : fbit s F.bmvCtlEn b.val 0 = false) (hd : w.data.getLsbD 0 = true)
include he hd

/-- R277, R611: an enable takes the other fields of its write first; where the check fails, the code is recorded. -/
theorem exec_bmvEnable_fails {e : Nat}
    (hk : bulkCheck (bulkFields s b.val w.data.toNat) b.val (bulkDesc (bulkFields s b.val w.data.toNat) b.val) = some e) :
    exec (.bmvEnable b w) s =
      .next (refuse (fset (bulkFields s b.val w.data.toNat) F.bmvStatReason b.val 0 e) 2 b.val e) := by
  show execBmvEnable b w s = _
  rw [execBmvEnable, onBar_open ho, if_neg (by simp [he, hd, hh])]
  simp only [bulkFields] at hk ⊢
  simp only [hk]

/-- R277, R495: where it passes, the descriptor is started, but on a device that a fault has stopped. -/
theorem exec_bmvEnable_passes
    (hk : bulkCheck (bulkFields s b.val w.data.toNat) b.val (bulkDesc (bulkFields s b.val w.data.toNat) b.val) = none) :
    let t := bulkFields s b.val w.data.toNat
    let u := fset (fset (fset (endWaits (wake t []) (.chan (.bulk b))) F.bmvCtlEn b.val 0 1) F.bmvStatState b.val 0 1)
      F.bmvStatDesccnt b.val 0 0
    exec (.bmvEnable b w) s = if s.faulted then .next t
      else .next (chPut u (.bulk b) (some (xferNew (bulkDesc t b.val) 0 0 (bulkStep u b.val)))) := by
  show execBmvEnable b w s = _
  rw [execBmvEnable, onBar_open ho, if_neg (by simp [he, hd, hh])]
  simp only [bulkFields] at hk ⊢
  simp only [hk]
  rfl

end

/-- R279: a write of 0 to `EN` stops the channel at once. -/
theorem exec_bmvDisable (hd : w.data.getLsbD 0 = false) : exec (.bmvDisable b w) s = .next (bulkStop s b) := by
  show execBmvDisable b w s = _
  rw [execBmvDisable, onBar_open ho, if_neg (not_or.2 ⟨Bool.eq_false_iff.1 hd, hh⟩)]

end

section
variable {s : State} {b : BulkId} {x : Xfer} (hx : tfind s.bulk b.val = some x)
include hx

/-- R279: a stopped channel has no transfer. -/
theorem tfind_bulkStop : tfind (bulkStop s b).bulk b.val = none := by
  rw [bulkStop, hx]
  exact tfind_tdel_same ..

/-- R279: a stopped channel reads `EN` as 0. -/
theorem bmvCtlEn_bulkStop : fget (bulkStop s b) F.bmvCtlEn b.val 0 = 0 := by
  rw [bulkStop, hx]
  dsimp only
  have hkey : F.bmvStatState.key b.val 0 ≠ F.bmvCtlEn.key b.val 0 := by
    simp [Fld.key, F.bmvStatState, F.bmvCtlEn]
  rw [fget_fset_ne hkey, fget_fset_same, Nat.zero_mod]

/-- R279: a stopped channel is idle. -/
theorem bmvStatState_bulkStop : fget (bulkStop s b) F.bmvStatState b.val 0 = 0 := by
  rw [bulkStop, hx]
  exact fget_fset_same ..

/-- A transfer that is changed and then ended, with a counter raised between, is ended with the counter raised. -/
theorem chPut_none_fcount_chMod (f : Xfer → Xfer) (g : Fld) (i j m : Nat) :
    chPut (fcount (chMod s (.bulk b) f) g i j m) (.bulk b) none = fcount { s with bulk := tdel s.bulk b.val } g i j m := by
  simp only [chMod, chXfer, hx]
  exact congrArg (fun t => { fcount s g i j m with bulk := t }) (tdel_tset ..)

/-- R278: a descriptor that moves bytes, and is the last of its chain, is counted when its bursts have landed, and the chain
is done. -/
theorem exec_bmvDescComplete_last (hc : clockRuns s (edgeClock (b.val / 32)) = true) (hl : allLanded x = true)
    (hi : inputHeld s (.bulk b) x = false) (hn : x.counted = false) (hg : xfGathers x.desc = false)
    (hz : xfNext x.desc = 0) :
    exec (.bmvDescComplete b) s = .next (bulkSignal (fset (fset (fset
      (fcount { s with bulk := tdel s.bulk b.val } F.bmvStatDesccnt b.val 0 1) F.bmvStatState b.val 0 2)
      F.bmvStatDone b.val 0 1) F.bmvCtlEn b.val 0 0) b.val) := by
  show execBmvDescComplete b s = _
  simp only [execBmvDescComplete, onClock_runs hc, hx, hn, hl, hi, lastWrite_of_moves hg, bulkDone, hz, Bool.not_true,
    Bool.or_false, Bool.false_eq_true, if_false, if_true, chPut_none_fcount_chMod hx]

end

end Sys2Proof.Machine

/-- Settles O20: each command is what its lemma says where its clock runs or its write is taken; a transfer that moves bytes
has no last write of its own (`lastWrite_of_moves`), and a bulk channel that ends, or is stopped, has no transfer
(`tdel_tset`, `tfind_tdel_same`). That an enable on a faulted device leaves `EN` at 0 is log entry 147 (DESIGN CHOICE). -/
theorem channelsRun : Obligations.ChannelsRun := by
  refine ⟨fun s n c hc => ⟨fun x hx hl hi hp => ⟨fun h3 h5 => ?moves, fun t lines hp1 hp2 hw => ?gathers⟩, exec_pause hc,
    fun x hx hp hf hw => exec_channelPaused hc hx hp hf ?left, exec_resumeTransfer hc⟩,
    fun s b w => ⟨fun ho he hd hh => ?enable, fun x ho hd hh hx => ?disable, fun x hc hx hl hi hn h3 h5 hz => ?last⟩⟩
  case moves =>
    have hg := xfGathers_eq_false h3 h5
    rw [exec_transferComplete hc hx hl hi (by simp [mayComplete, hp, hg]) (lastWrite_of_moves hg),
      xfOut_add_xfOutLen h3 h5]
    rfl
  case gathers => exact exec_transferComplete hc hx hl hi (by simp [mayComplete, hp, hp1, hp2]) hw
  case left =>
    rcases hw with h | h | h
    · simp [xfGathers, h]
    · simp [xfGathers, h]
    · simp [h]
  case enable =>
    refine ⟨fun e hk => exec_bmvEnable_fails ho hh he hd hk, fun hk => ⟨fun hf => ?_, fun hf => ?_⟩⟩
    · exact (exec_bmvEnable_passes ho hh he hd hk).trans (if_pos hf)
    · exact (exec_bmvEnable_passes ho hh he hd hk).trans (if_neg (Bool.eq_false_iff.1 hf))
  case disable =>
    exact ⟨exec_bmvDisable ho hh hd, tfind_bulkStop hx, bmvCtlEn_bulkStop hx, bmvStatState_bulkStop hx⟩
  case last => exact exec_bmvDescComplete_last hx hc hl hi hn (xfGathers_eq_false h3 h5) hz

end

section
/-! PROOFS. Scope: how a burst issues, gets its data and lands (R265 to R270, R395), and obligation O19. -/

open Sys2Proof.Machine

namespace Sys2Proof.Machine

/-- A change of a running transfer is told by what it makes of that transfer. -/
theorem chMod_congr {s : State} {ch : ChanRef} {x : Xfer} (hx : chXfer s ch = some x) {f g : Xfer → Xfer}
    (h : f x = g x) : chMod s ch f = chMod s ch g := by
  simp only [chMod, hx, h]

/-- Only `HASH` and `CMPM` gather. -/
theorem xfGathers_iff {d : Bytes} : xfGathers d = true ↔ xfKind d = 3 ∨ xfKind d = 5 := by
  simp [xfGathers]

/-! ### The next burst and its read -/

/-- R265: the place of a transfer's next burst in its region. -/
def burstOff (x : Xfer) : Nat := x.issued * xfBurst x.desc

/-- R265: the length of a transfer's next burst; the last one may be shorter. -/
def burstLen (x : Xfer) : Nat := min (xfBurst x.desc) (xfLen x.desc - burstOff x)

/-- A transfer's next burst, with the data it has and the offsets of its poisoned lines. -/
def burstNow (x : Xfer) (data : Option Bytes) (bad : List Nat) : Burst :=
  ⟨x.issued, burstOff x, burstLen x, data, bad, []⟩

/-- A transfer with one more burst under way. -/
def underWay (b : Burst) (y : Xfer) : Xfer :=
  { y with issued := b.k + 1, starved := false, flight := y.flight ++ [b] }

/-- The read of the source region for the next burst; of a compare, region A. -/
def readSrc (s : State) (ch : ChanRef) (x : Xfer) : State × Rd :=
  spaceRead s ch x x.issued (xfSsp x.desc) (xfSrc x.desc + burstOff x) (burstLen x)

/-- The read of region B of a compare for the next burst. -/
def readAux (s : State) (ch : ChanRef) (x : Xfer) : State × Rd :=
  spaceRead s ch x (x.issued + halfBurst) (xfSsp x.desc) (xfAux x.desc + burstOff x) (burstLen x)

/-- All that the next burst reads. -/
def readBurst (s : State) (ch : ChanRef) (x : Xfer) : State × Rd × List (Bool × Bytes × List Nat) :=
  burstRead s ch x x.issued (burstOff x) (burstLen x)

/-- A read of the host bus is answered later, or waits while the link is down. -/
theorem spaceRead_hostBus_ne_data (s : State) (ch : ChanRef) (x : Xfer) (k a n : Nat) (bs : Bytes) (bad : List Nat) :
    (spaceRead s ch x k 4 a n).2 ≠ .data bs bad := by
  simp only [spaceRead]
  split <;> simp

section
variable {s t u : State} {ch : ChanRef} {x : Xfer}

/-- A compare whose region A is answered with its data at once is not of the host bus. -/
theorem xfSsp_ne_four_of_data {bs : Bytes} {bad : List Nat} (h : readSrc s ch x = (t, .data bs bad)) :
    xfSsp x.desc ≠ 4 := by
  intro h4
  rw [readSrc, h4] at h
  exact spaceRead_hostBus_ne_data s ch x _ _ _ bs bad (congrArg Prod.snd h)

/-- A burst makes one read, but for a compare of another space than the host bus. -/
theorem readBurst_of_one_region (h : xfKind x.desc ≠ 5 ∨ xfSsp x.desc = 4) {r : Rd} (ha : readSrc s ch x = (t, r)) :
    readBurst s ch x = (t, r, []) := by
  unfold readSrc at ha
  simp only [readBurst, burstRead, if_pos h, ha]

/-- A burst whose source faults reads nothing more. -/
theorem readBurst_of_fault {e : Nat} (ha : readSrc s ch x = (t, .fault e)) : readBurst s ch x = (t, .fault e, []) := by
  unfold readSrc at ha
  simp only [readBurst, burstRead, ha, ite_self]

section
variable (h5 : xfKind x.desc = 5) (h4 : xfSsp x.desc ≠ 4)
include h5 h4

/-- A compare has the bytes of both regions where both answer at once. -/
theorem readBurst_of_both_data {as bs : Bytes} {bad bad' : List Nat} (ha : readSrc s ch x = (t, .data as bad))
    (hb : readAux t ch x = (u, .data bs bad')) :
    readBurst s ch x = (u, .data (as ++ bs) (bad ++ bad'.map (burstLen x + ·)), []) := by
  unfold readSrc at ha
  unfold readAux at hb
  simp only [readBurst, burstRead, if_neg (not_or.2 ⟨not_not.2 h5, h4⟩), ha, hb]

/-- A compare waits for its data where both regions answer later. -/
theorem readBurst_of_both_later (ha : readSrc s ch x = (t, .later)) (hb : readAux t ch x = (u, .later)) :
    readBurst s ch x = (u, .later, []) := by
  unfold readSrc at ha
  unfold readAux at hb
  simp only [readBurst, burstRead, if_neg (not_or.2 ⟨not_not.2 h5, h4⟩), ha, hb, List.append_nil]

end

/-! ### A burst issues -/

/-- A `FILL` reads nothing: its burst has its pattern. -/
theorem issueBurst_of_fill (h : xfKind x.desc = 4) :
    issueBurst s ch x = chMod s ch (underWay (burstNow x
      (some ((List.replicate (burstLen x / 8) (leBytes 8 (xfAux x.desc))).flatten)) [])) := by
  simp only [issueBurst, if_pos h]
  rfl

section
variable (h : xfKind x.desc ≠ 4)
include h

/-- A burst whose read is answered is under way with its bytes. -/
theorem issueBurst_of_data {bs : Bytes} {bad : List Nat} (hr : readBurst s ch x = (t, .data bs bad, [])) :
    issueBurst s ch x = chMod t ch (underWay (burstNow x (some bs) bad)) := by
  simp only [readBurst, burstOff, burstLen] at hr
  simp only [issueBurst, if_neg h, hr]
  rfl

/-- A burst whose read is answered later is under way without its bytes. -/
theorem issueBurst_of_later (hr : readBurst s ch x = (t, .later, [])) :
    issueBurst s ch x = chMod t ch (underWay (burstNow x none [])) := by
  simp only [readBurst, burstOff, burstLen] at hr
  simp only [issueBurst, if_neg h, hr]
  rfl

/-- A burst whose read faults faults its channel. -/
theorem issueBurst_of_fault {e : Nat} (hr : readBurst s ch x = (t, .fault e, [])) :
    issueBurst s ch x = moverFault t ch x.issued e := by
  simp only [readBurst, burstOff, burstLen] at hr
  simp only [issueBurst, if_neg h, hr]

end

section
variable (hc : clockRuns s (chanClock ch) = true) (hx : chXfer s ch = some x)
include hc hx

/-- R267, R270: the next burst issues where its request has come and nothing stops the channel. -/
theorem exec_burstIssue (hi : x.issued < xfBursts x.desc) (hf : x.failed = false) (hh : chHeld s ch = false)
    (hr : released s ch x x.issued = true) : exec (.burstIssue ch) s = .next (issueBurst s ch x) := by
  show execBurstIssue ch s = _
  simp only [execBurstIssue, onClock_runs hc, hx]
  exact if_pos ⟨hi, by simp [hf], by simp [hh], hr⟩

/-! ### A burst lands -/

/-- R282, R283: `HASH` and `CMPM` keep a burst that has its data. -/
theorem exec_burstComplete_of_gathers {b : Burst} {bs : Bytes} (hb : x.flight.find? (fun y => y.k == b.k) = some b)
    (hd : b.data = some bs) (hg : xfGathers x.desc = true) :
    exec (.burstComplete ch b.k) s = .next (landBurst (chMod s ch fun x =>
      { keepBurst x b with poison := x.poison || !b.poison.isEmpty }) ch b.k) := by
  show execBurstComplete ch b.k s = _
  simp only [execBurstComplete, onClock_runs hc, hx, hb, hd, if_pos hg]

/-- R265, R395: a burst of another kind is written, once no request for it is out and, if it is the one read last of a
host-bus input, the input's entry is made. -/
theorem exec_burstComplete_of_moves {b : Burst} {bs : Bytes} (hb : x.flight.find? (fun y => y.k == b.k) = some b)
    (hd : b.data = some bs) (hg : xfGathers x.desc = false) (hq : reqOut s ch b.k = false)
    (hl : lastRead x b.k = true → inputHeld s ch x = false) :
    exec (.burstComplete ch b.k) s = .next (landWrite s ch x b bs) := by
  have hw : (lastRead x b.k && inputHeld s ch x) = false := by
    cases h : lastRead x b.k with
    | false => rfl
    | true => exact hl h
  show execBurstComplete ch b.k s = _
  simp only [execBurstComplete, onClock_runs hc, hx, hb, hd, hg, hq, hw, Bool.or_self, Bool.false_eq_true, if_false]

/-- R265: a completed read of the host bus, of the length that was asked for, gives its burst the data. -/
theorem exec_hostReadCompletion_data {b : Burst} {bs : Bytes}
    (hb : x.flight.find? (fun y => y.k == b.k && y.data.isNone) = some b) (h4 : xfSsp x.desc = 4)
    (hlen : bs.length = if xfKind x.desc = 5 then 2 * b.len else b.len) :
    exec (.hostReadCompletion ch b.k (.data bs false)) s = .next (burstData s ch b.k bs []) := by
  show execHostReadCompletion ch b.k (.data bs false) s = _
  simp only [execHostReadCompletion, onClock_runs hc, hx, hb, if_neg (not_not.2 h4), if_pos hlen, Bool.false_eq_true,
    if_false]

end

end

end Sys2Proof.Machine

/-- Settles O19: a burst that issues does what its read answers (`readBurst_of_one_region`, and of a compare
`readBurst_of_both_data` and `readBurst_of_both_later`); one with its data is kept or written, and a completed read of the host
bus brings the data. -/
theorem burstsMoveData : Obligations.BurstsMoveData := by
  intro s ch x hc hx
  refine ⟨fun hi hf hh hr => ?issue, fun b bs hb hd => ⟨fun hk => ?kept, fun h3 h5 hq hl => ?written⟩,
    fun b bs hb h4 hlen => exec_hostReadCompletion_data hc hx hb h4 hlen⟩
  case kept => exact exec_burstComplete_of_gathers hc hx hb hd (xfGathers_iff.2 hk)
  case written => exact exec_burstComplete_of_moves hc hx hb hd (xfGathers_eq_false h3 h5) hq hl
  case issue =>
    rw [exec_burstIssue hc hx hi hf hh hr]
    refine ⟨fun h4 => ?fill, fun t bs bad h4 h5 ha => ?data, fun t u as bad bs bad' h5 ha hb => ?compared,
      fun t h4 h5 ha => ?later, fun t u h5 hs ha hb => ?bothLater, fun t e h4 ha => ?fault⟩
    case fill => exact congrArg _ ((issueBurst_of_fill h4).trans (chMod_congr hx rfl))
    case data => exact congrArg _ (issueBurst_of_data h4 (readBurst_of_one_region (.inl h5) ha))
    case compared =>
      exact congrArg _ (issueBurst_of_data (by simp [h5])
        (readBurst_of_both_data h5 (xfSsp_ne_four_of_data ha) ha hb))
    case later =>
      exact congrArg _ (issueBurst_of_later h4 (readBurst_of_one_region (Decidable.not_or_of_imp h5) ha))
    case bothLater => exact congrArg _ (issueBurst_of_later (by simp [h5]) (readBurst_of_both_later h5 hs ha hb))
    case fault => exact congrArg _ (issueBurst_of_fault h4 (readBurst_of_fault ha))

end

section
/-! PROOFS. Scope: the memories outside cores and contexts (log entry 6), under the work of registers,
packets and accesses by address. -/

open Sys2Proof.Machine

namespace Sys2Proof.Machine

/-! ### The memories outside cores and contexts -/

/-- The memories that lie outside cores and contexts: host memory as the device has written it, the frames lent to other
devices, the I3C mailbox window. -/
structure Mems where
  host : Mem
  ddr : Mem
  window : Mem

/-- The memories of a state. -/
def mems (s : State) : Mems := ⟨s.hostMem, s.ddr, s.i3c.mbdata⟩

/-- Each of the memories is in canonical form: of those of a state, `State.MemOk`. -/
def Mems.Wf (m : Mems) : Prop := memWf m.host = true ∧ memWf m.ddr = true ∧ memWf m.window = true

/-- The next state of an outcome, where there is one, has its memories in canonical form. -/
def NextWf (o : Host.Outcome State Fault Refusal) : Prop := ∀ t, o = .next t → (mems t).Wf

@[simp] theorem nextWf_next (t : State) : NextWf (.next t) ↔ (mems t).Wf := by simp [NextWf]
@[simp] theorem nextWf_fault (r : Fault) : NextWf (.fault r) := by simp [NextWf]

/-! A function of the model that writes none of the memories has a lemma `mems_` that says so, by which `simp` strips
it. One that may write them has a lemma `memsWf_`, and a command a lemma `nextWf_`: from canonical memories it makes
canonical ones. The proofs `(rfl)` are in parentheses for the reason given with the lemmas about the shell. -/

/-- An update of the other fields leaves the memories. -/
@[simp] theorem mems_update (s : State) (pending : List Instr) (regs : Tbl Nat) (tcount : Nat) (time : TimeSt)
    (cores : Tbl Core) (ctxs : Tbl Ctx) (tokens : List TokenMove) (frames : Tbl FrameUse)
    (promote : Tbl (Nat × List (CtxId × Nat))) (tables : Tbl Nat) (poolGen : Nat) (fab : Fabric) (bulk : Tbl Xfer)
    (keys : Keys) (nv : Nv) (sec : Sec) (power : Power) (pins : Pins) (pcie : Pcie) (pair : Pair) (test : Test)
    (dailies : Dailies) (jtag : Jtag) (chip : Chip) (ddrPoison : Tbl Bool) (out : List Out) (faulted : Bool)
    (freeCtr : Nat) :
    mems { s with
      pending, regs, tcount, time, cores, ctxs, tokens, frames, promote, tables, poolGen, fab, bulk, keys, nv, sec,
      power, pins, pcie, pair, test, dailies, jtag, chip, ddrPoison, out, faulted, freeCtr } = mems s := (rfl)

/-! ### Choices, folds and clocks -/

@[simp] theorem mems_ite {c : Prop} [Decidable c] (s t : State) :
    mems (if c then s else t) = if c then mems s else mems t := apply_ite mems c s t

/-- The first part of a choice of two pairs. -/
@[simp] theorem fst_ite {α β : Type} {c : Prop} [Decidable c] (p q : α × β) :
    (if c then p else q).1 = if c then p.1 else q.1 := apply_ite Prod.fst c p q

@[simp] theorem memsWf_ite {c : Prop} [Decidable c] {m n : Mems} (hm : m.Wf) (hn : n.Wf) :
    (if c then m else n).Wf := by
  split <;> assumption

@[simp] theorem nextWf_ite {c : Prop} [Decidable c] {o p : Host.Outcome State Fault Refusal} (ho : NextWf o)
    (hp : NextWf p) : NextWf (if c then o else p) := by
  split <;> assumption

/-- A command whose clock stands does nothing. -/
@[simp] theorem nextWf_onClock {s : State} {d : ScanDomain} {f : State → Host.Outcome State Fault Refusal}
    (h : (mems s).Wf) (hf : NextWf (f s)) : NextWf (onClock s d f) := nextWf_ite hf ((nextWf_next s).2 h)

/-- A write that BAR0 does not take does nothing. -/
@[simp] theorem nextWf_onBar {s : State} {aon : Bool} {f : State → Host.Outcome State Fault Refusal}
    (h : (mems s).Wf) (hf : NextWf (f s)) : NextWf (onBar aon s f) := nextWf_ite hf ((nextWf_next s).2 h)

@[simp] theorem mems_foldl {α : Type} {f : State → α → State} (h : ∀ s a, mems (f s a) = mems s) (l : List α)
    (s : State) : mems (l.foldl f s) = mems s := foldl_keeps mems h l s

theorem memsWf_foldl {α : Type} {f : State → α → State} (h : ∀ s a, (mems s).Wf → (mems (f s a)).Wf) (l : List α)
    {s : State} (hs : (mems s).Wf) : (mems (l.foldl f s)).Wf :=
  List.foldlRecOn (motive := fun t => (mems t).Wf) l f hs fun t ht a _ => h t a ht

/-- A fold of updates that may fail leaves the memories where each of them does. -/
theorem mems_foldlM {α : Type} {f : State → α → Option State} (h : ∀ s a t, f s a = some t → mems t = mems s)
    {l : List α} {s t : State} (ht : l.foldlM f s = some t) : mems t = mems s := by
  induction l generalizing s with
  | nil => rw [← Option.some.inj ht]
  | cons a l ih =>
    obtain ⟨u, hu, hl⟩ := Option.bind_eq_some_iff.1 ht
    exact (ih hl).trans (h s a u hu)

/-- The same of a fold written out with `bind`. -/
theorem mems_foldl_bind {α : Type} {f : State → α → Option State} (h : ∀ s a t, f s a = some t → mems t = mems s)
    {l : List α} {s t : State} (ht : l.foldl (fun o a => o.bind fun s => f s a) (some s) = some t) :
    mems t = mems s :=
  mems_foldlM h ((List.foldlM_eq_foldl _ _ _).trans ht)

theorem memsWf_foldlM {α : Type} {f : State → α → Option State}
    (h : ∀ s a t, f s a = some t → (mems s).Wf → (mems t).Wf) {l : List α} {s t : State}
    (ht : l.foldlM f s = some t) (hs : (mems s).Wf) : (mems t).Wf := by
  induction l generalizing s with
  | nil => rwa [← Option.some.inj ht]
  | cons a l ih =>
    obtain ⟨u, hu, hl⟩ := Option.bind_eq_some_iff.1 ht
    exact ih hl (h s a u hu hs)

/-- What an update that may fail makes of the state, or the state. -/
theorem mems_getD {o : Option State} {s : State} (h : ∀ t, o = some t → mems t = mems s) :
    mems (o.getD s) = mems s := by
  cases o with
  | none => rfl
  | some t => exact h t rfl

theorem memsWf_getD {o : Option State} {s : State} (h : ∀ t, o = some t → (mems t).Wf) (hs : (mems s).Wf) :
    (mems (o.getD s)).Wf := by
  cases o with
  | none => exact hs
  | some t => exact h t rfl

/-- The state of a pair that is known. -/
theorem mems_of_eq {α : Type} {p : State × α} {t : State} {a : α} (h : p = (t, a)) : mems t = mems p.1 := by rw [h]

/-- Host memory is written byte by byte. -/
@[simp] theorem memsWf_hostWrite {s : State} (h : (mems s).Wf) (a : Nat) (bs : Bytes) :
    (mems (hostWrite s a bs)).Wf := by
  obtain ⟨hh, hd, hw⟩ := h
  exact ⟨memWf_mwrite hh, hd, hw⟩

/-! ### Records, interrupts and the log -/

@[simp] theorem mems_fset (s : State) (f : Fld) (i j v : Nat) : mems (fset s f i j v) = mems s := (rfl)

@[simp] theorem mems_fcount (s : State) (f : Fld) (i j n : Nat) : mems (fcount s f i j n) = mems s := (rfl)

@[simp] theorem mems_emit (s : State) (o : Out) : mems (emit s o) = mems s := (rfl)

@[simp] theorem memsWf_hostPut {s : State} (h : (mems s).Wf) (a : Nat) (bs : Bytes) (bad : Bool) :
    (mems (hostPut s a bs bad)).Wf := by
  simp [hostPut, h]

@[simp] theorem mems_signal (s : State) (on : Bool) (vector : Nat) : mems (signal s on vector) = mems s := by
  simp [signal]

@[simp] theorem mems_glbIrq (s : State) (f : Fld) : mems (glbIrq s f) = mems s := by
  simp [glbIrq]

@[simp] theorem mems_refuse (s : State) (source index code : Nat) : mems (refuse s source index code) = mems s := by
  simp [refuse]

@[simp] theorem mems_rangeErr (s : State) : mems (rangeErr s) = mems s := (rfl)

@[simp] theorem mems_alertPin (s : State) : mems (alertPin s) = mems s := (rfl)

@[simp] theorem mems_drawFree (s : State) : mems (drawFree s).2 = mems s := (rfl)

@[simp] theorem mems_setCore (s : State) (n : Nat) (c : Core) : mems (setCore s n c) = mems s := (rfl)

@[simp] theorem mems_modCore (s : State) (n : Nat) (f : Core → Core) : mems (modCore s n f) = mems s := (rfl)

@[simp] theorem mems_modFrame (s : State) (n k : Nat) (f : Frame → Frame) : mems (modFrame s n k f) = mems s := (rfl)

@[simp] theorem mems_modChan (s : State) (n i : Nat) (f : CoreChan → CoreChan) :
    mems (modChan s n i f) = mems s := (rfl)

@[simp] theorem mems_setCtx (s : State) (r : Nat) (c : Ctx) : mems (setCtx s r c) = mems s := (rfl)

@[simp] theorem mems_modCtx (s : State) (r : Nat) (f : Ctx → Ctx) : mems (modCtx s r f) = mems s := (rfl)

@[simp] theorem mems_cset (s : State) (r : Nat) (f : Fld) (j v : Nat) : mems (cset s r f j v) = mems s := by
  unfold cset; split <;> simp

@[simp] theorem mems_ccount (s : State) (r : Nat) (f : Fld) (j n : Nat) : mems (ccount s r f j n) = mems s := by
  simp [ccount]

@[simp] theorem mems_modKeyStep (s : State) (n k : Nat) (f : Step → Step) : mems (modKeyStep s n k f) = mems s := by
  unfold modKeyStep; split <;> simp

@[simp] theorem memsWf_ringPut {s : State} (h : (mems s).Wf) (r : Nat) (bs : Bytes) (len : Nat) :
    (mems (ringPut s r bs len)).Wf := by
  simp [ringPut, h]

@[simp] theorem memsWf_logWrite {s : State} (h : (mems s).Wf) (r : Nat) (e : LogEnt) :
    (mems (logWrite s r e)).Wf := by
  simp only [logWrite]; split <;> simp [h]

@[simp] theorem memsWf_logPut {s : State} (h : (mems s).Wf) (r : Nat) (e : LogEnt) : (mems (logPut s r e)).Wf := by
  unfold logPut; split <;> simp [h]

@[simp] theorem mems_wake (s : State) (ns : List Nat) : mems (wake s ns) = mems s := by
  simp [wake]

/-! ### Writes of register fields -/

@[simp] theorem mems_writeField (w : RegWrite) (i j : Nat) (s : State) (f : Fld) :
    mems (writeField w i j s f) = mems s := by
  simp [writeField]

@[simp] theorem mems_writeFields (s : State) (w : RegWrite) (fs : List Fld) (i j : Nat) :
    mems (writeFields s w fs i j) = mems s := by
  simp [writeFields]

@[simp] theorem mems_clearBit (w : RegWrite) (i j : Nat) (s : State) (f : Fld) :
    mems (clearBit w i j s f) = mems s := by
  simp [clearBit]

@[simp] theorem mems_clearBits (s : State) (w : RegWrite) (fs : List Fld) (i j : Nat) :
    mems (clearBits s w fs i j) = mems s := by
  simp [clearBits]

@[simp] theorem mems_noteRequest (s : State) (src : MbSrc) : mems (noteRequest s src) = mems s := (rfl)

/-! ### What an instruction records beside its elements -/

@[simp] theorem mems_stopCore (s : State) (n : Nat) (r : StopRec) : mems (stopCore s n r) = mems s := (rfl)

@[simp] theorem mems_nanTrap (s : State) (x : Cx) (fmt kblock : Nat) (os : List ElemOut) :
    mems (nanTrap s x fmt kblock os) = mems s := by
  unfold nanTrap; split <;> simp

@[simp] theorem mems_notePoison (s : State) (n k lines : Nat) : mems (notePoison s n k lines) = mems s := by
  simp [notePoison]

@[simp] theorem mems_writeOut (s : State) (x : Cx) (ws : List EW) (status : Option Nat) (os : List ElemOut)
    (poison : Bool) (fmt kblock : Nat) : mems (writeOut s x ws status os poison fmt kblock) = mems s := by
  simp [writeOut]

/-! ### Packets and requests -/

@[simp] theorem mems_modPort (s : State) (p : Nat) (f : Port → Port) : mems (modPort s p f) = mems s := (rfl)

@[simp] theorem mems_putFlit (s : State) (p : Nat) (f : SentFlit) : mems (putFlit s p f) = mems s := (rfl)

@[simp] theorem mems_sendFlit (s : State) (p : Nat) (ctrl : Bool) (payload : Bytes) :
    mems (sendFlit s p ctrl payload) = mems s := (rfl)

@[simp] theorem mems_replayFlits (s : State) (p : Nat) : mems (replayFlits s p) = mems s := by
  simp [replayFlits]

@[simp] theorem mems_owe (s : State) (p pool n : Nat) : mems (owe s p pool n) = mems s := (rfl)

@[simp] theorem mems_freed (s : State) (p : Nat) (pk : Packet) : mems (freed s p pk) = mems s := (rfl)

@[simp] theorem mems_sendStream (s : State) (p : Nat) : mems (sendStream s p) = mems s := by
  simp [sendStream]

@[simp] theorem mems_flushPort (s : State) (p : Nat) : mems (flushPort s p) = mems s := by
  simp [flushPort]

@[simp] theorem mems_transmit (s : State) (p : Nat) (pk : Packet) : mems (transmit s p pk) = mems s := by
  simp [transmit]

@[simp] theorem mems_outPort (s : State) (p : Nat) (came : Option Nat) (pk : Packet) :
    mems (outPort s p came pk) = mems s := by
  unfold outPort; (repeat' split) <;> simp

@[simp] theorem mems_sendCtrl (s : State) (p : Nat) (m : Nat × List Nat) : mems (sendCtrl s p m) = mems s := by
  simp [sendCtrl]

@[simp] theorem mems_drainCtrl (s : State) (p : Nat) : mems (drainCtrl s p) = mems s := by
  simp [drainCtrl]

@[simp] theorem mems_portMsg (s : State) (p msg : Nat) (data : List Nat) :
    mems (portMsg s p msg data) = mems s := by
  simp [portMsg]

@[simp] theorem mems_onPorts (s : State) (ok : State → Nat → Bool) (msg : Nat) (data : List Nat) :
    mems (onPorts s ok msg data) = mems s := by
  simp [onPorts]

@[simp] theorem mems_drainPackets (s : State) (p : Nat) : mems (drainPackets s p) = mems s := by
  refine (mems_foldl (fun s w => ?_) _ _).trans (mems_modPort ..)
  split
  · split <;> simp
  · simp

@[simp] theorem mems_drainPort (s : State) (p : Nat) : mems (drainPort s p) = mems s := by
  simp [drainPort]

@[simp] theorem mems_idlePorts (s : State) : mems (idlePorts s) = mems s := by
  simp [idlePorts]

theorem mems_sendFrom {s : State} {came : Option Nat} {pk : Packet} {t : State} (h : sendFrom s came pk = some t) :
    mems t = mems s := by
  obtain ⟨a, -, rfl⟩ := Option.map_eq_some_iff.1 h; simp

theorem mems_sendPkt {s : State} {pk : Packet} {t : State} (h : sendPkt s pk = some t) : mems t = mems s := by
  obtain ⟨a, -, rfl⟩ := Option.map_eq_some_iff.1 h; simp

theorem mems_request {s t : State} {pk : Packet} {reqid : Option Nat} {chan : Option (ChanRef × Nat)}
    {coll : Option (EdgeId × Nat)} {r : Option Nat} (h : request s pk reqid chan coll r = some t) :
    mems t = mems s := by
  obtain ⟨u, hu, rfl⟩ := Option.map_eq_some_iff.1 h
  rw [mems_update]
  split at hu
  · exact mems_sendPkt hu
  · split at hu <;> simp [← Option.some.inj hu]

@[simp] theorem mems_dropReq (s : State) (id : Nat) : mems (dropReq s id) = mems s := (rfl)

@[simp] theorem mems_modReq (s : State) (id : Nat) (f : Req → Req) : mems (modReq s id f) = mems s := (rfl)

@[simp] theorem mems_answer (s : State) (pk : Packet) (type status : Nat) (data : Bytes) (bad : List Nat) :
    mems (answer s pk type status data bad) = mems s := by
  unfold answer
  split
  · rfl
  · exact mems_getD fun t => mems_sendPkt

@[simp] theorem mems_diverge (s : State) (r kind : Nat) (id : BitVec 64) : mems (diverge s r kind id) = mems s := by
  simp [diverge]

@[simp] theorem memsWf_logFor {s : State} (h : (mems s).Wf) (r : Nat) (sel : Option (Nat × Nat))
    (type key data : Nat) (payload : Bytes) : (mems (logFor s r sel type key data payload)).Wf := by
  simp only [logFor]; (repeat' split) <;> simp [h]

/-! ### Pages, virtual spaces and accesses by address -/

@[simp] theorem mems_poolFresh (s : State) : mems (poolFresh s) = mems s := by
  simp [poolFresh]

theorem mems_farPlace {s t : State} {par : Nat} {loc : PageLoc} {f : Nat} {d : BitVec 12}
    (h : farPlace s par = some (t, loc, f, d)) : mems t = mems s := by
  unfold farPlace at h
  split at h
  · cases h; simp
  · obtain ⟨i, -, hi⟩ := Option.map_eq_some_iff.1 h
    cases hi
    simp

@[simp] theorem mems_localPlace (s : State) (r pg : Nat) : mems (localPlace s r pg).1 = mems s := (rfl)

theorem mems_placePage {s t : State} {r pg : Nat} {prot : Bool} {key : BitVec 4} {p : Page}
    (h : placePage s r pg prot key = some (t, p)) : mems t = mems s := by
  unfold placePage at h
  split at h
  · cases h; simp
  · split at h
    · cases h
    · obtain ⟨⟨u, q⟩, hu, hi⟩ := Option.map_eq_some_iff.1 h
      cases hi
      exact mems_farPlace hu

@[simp] theorem mems_setPage (s : State) (r pg : Nat) (p : Page) : mems (setPage s r pg p) = mems s := (rfl)

@[simp] theorem mems_modPage (s : State) (r pg : Nat) (f : Page → Page) : mems (modPage s r pg f) = mems s := by
  unfold modPage; split <;> simp

@[simp] theorem mems_releaseFrame (s : State) (p : Page) : mems (releaseFrame s p) = mems s := by
  unfold releaseFrame; split <;> simp

@[simp] theorem mems_unmapPage (s : State) (r pg : Nat) : mems (unmapPage s r pg) = mems s := by
  unfold unmapPage; split <;> simp

@[simp] theorem mems_notePagePoison (s : State) (r va : Nat) (bad : List Nat) :
    mems (notePagePoison s r va bad) = mems s := by
  simp [notePagePoison]

@[simp] theorem memsWf_farPut {s : State} (h : (mems s).Wf) (r : Nat) (p : Page) (loc : PageLoc) (frame : Nat)
    (dev : BitVec 12) (va n : Nat) : (mems (farPut s r p loc frame dev va n)).Wf := by
  unfold farPut
  split
  · exact memsWf_getD (fun t ht => by rwa [mems_request ht]) h
  · exact memsWf_hostPut h ..
  · exact h

@[simp] theorem memsWf_farPage {s : State} (h : (mems s).Wf) (r pg : Nat) (p : Page) (loc : PageLoc) (frame : Nat)
    (dev : BitVec 12) : (mems (farPage s r pg p loc frame dev)).Wf := by
  unfold farPage
  split
  · exact memsWf_foldl (fun _ _ h => memsWf_farPut h ..) _ h
  · exact memsWf_foldl (fun _ _ h => memsWf_farPut h ..) _ h
  · exact h

@[simp] theorem mems_addTable (s : State) (r pg : Nat) : mems (addTable s r pg) = mems s := by
  simp [addTable]

@[simp] theorem mems_dropTables (s : State) (r : Nat) : mems (dropTables s r) = mems s := (rfl)

@[simp] theorem memsWf_mapPage {s : State} (h : (mems s).Wf) (r pg : Nat) (p : Page) :
    (mems (mapPage s r pg p)).Wf := by
  simp [mapPage, h]

@[simp] theorem mems_noteWait (s : State) (r pg : Nat) (who : Waiter) : mems (noteWait s r pg who) = mems s := by
  simp [noteWait]

@[simp] theorem memsWf_touchPage {s : State} (h : (mems s).Wf) (r pg : Nat) (write : Bool) (who : Waiter) :
    (mems (touchPage s r pg write who).1).Wf := by
  unfold touchPage
  split
  · split
    · exact h
    · split
      next hp =>
        split
        · exact h
        · exact memsWf_mapPage (by rwa [mems_placePage hp]) ..
      next => simpa using h
  · split <;> simpa using h

@[simp] theorem memsWf_touchPages (pgs : List Nat) {s : State} (h : (mems s).Wf) (r : Nat) (write : Bool)
    (who : Waiter) : (mems (touchPages pgs s r write who).1).Wf := by
  induction pgs generalizing s with
  | nil => exact h
  | cons pg t ih =>
    unfold touchPages
    split
    next hp => exact ih (by rw [mems_of_eq hp]; exact memsWf_touchPage h ..)
    next => exact memsWf_touchPage h ..

@[simp] theorem memsWf_farStore {s : State} (h : (mems s).Wf) (r va n : Nat) : (mems (farStore s r va n)).Wf := by
  refine memsWf_foldl (fun s pg h => ?_) _ h
  split
  · exact memsWf_farPut h ..
  · exact h

@[simp] theorem memsWf_putText {s : State} (h : (mems s).Wf) (r va : Nat) (bs : Bytes) (bad : List Nat) :
    (mems (putText s r va bs bad)).Wf := by
  simp [putText, h]

@[simp] theorem memsWf_cvRead {s : State} (h : (mems s).Wf) (r va n : Nat) (who : Waiter) :
    (mems (cvRead s r va n who).1).Wf := by
  simp only [cvRead]; (repeat' split) <;> simp [h]

@[simp] theorem memsWf_cvWrite {s : State} (h : (mems s).Wf) (r va : Nat) (bs : Bytes) (bad : List Nat)
    (who : Waiter) : (mems (cvWrite s r va bs bad who).1).Wf := by
  simp only [cvWrite]; (repeat' split) <;> simp [h]

@[simp] theorem memsWf_clearPage {s : State} (h : (mems s).Wf) (r pg : Nat) : (mems (clearPage s r pg)).Wf :=
  memsWf_foldl (fun _ _ h => memsWf_farStore h ..) _ (by simpa using h)

@[simp] theorem memsWf_clearPages {s : State} (h : (mems s).Wf) (r pg n : Nat) :
    (mems (clearPages s r pg n)).Wf := memsWf_foldl (fun _ _ h => memsWf_clearPage h ..) _ h

@[simp] theorem mems_noteInbound (s : State) (r vx vy a : Nat) (bs : Bytes) (bad : List Nat) :
    mems (noteInbound s r vx vy a bs bad) = mems s := by
  simp [noteInbound]

@[simp] theorem mems_mirrorWrite (s : State) (r n k vx vy a : Nat) (bs : Bytes) (bad : List Nat) :
    mems (mirrorWrite s r n k vx vy a bs bad) = mems s := by
  simp only [mirrorWrite]; split <;> simp

@[simp] theorem mems_onChipWrite (s : State) (r vx vy a : Nat) (bs : Bytes) (bad : List Nat) :
    mems (onChipWrite s r vx vy a bs bad) = mems s := by
  simp only [onChipWrite]; split <;> simp

theorem memsWf_physWrite {s t : State} {q : Asker} {p : Nat} {bs : Bytes} {bad : List Nat}
    (h : physWrite s q p bs bad = some t) (hs : (mems s).Wf) : (mems t).Wf := by
  obtain ⟨a, -, rfl⟩ := Option.map_eq_some_iff.1 h
  cases a with
  | page r va => exact memsWf_putText hs ..
  | lent =>
    obtain ⟨hh, hd, hw⟩ := hs
    exact ⟨hh, memWf_mwrite hd, hw⟩

theorem memsWf_globalWrite {s t : State} {q : Asker} {a : Nat} {bs : Bytes} {bad : List Nat}
    (h : globalWrite s q a bs bad = some t) (hs : (mems s).Wf) : (mems t).Wf := by
  simp only [globalWrite] at h
  split at h
  · obtain ⟨x, -, rfl⟩ := Option.map_eq_some_iff.1 h
    simpa using hs
  · split at h
    · cases h
    · exact memsWf_foldlM (fun _ _ _ => memsWf_physWrite) h hs

theorem memsWf_globalAtomic {s t : State} {q : Asker} {a atom : Nat} {bs : Bytes} {bad : List Nat}
    (h : globalAtomic s q a atom bs bad = some t) (hs : (mems s).Wf) : (mems t).Wf := by
  unfold globalAtomic at h
  split at h
  · exact memsWf_globalWrite h hs
  · cases h

end Sys2Proof.Machine

end

section
/-! PROOFS. Scope: the memories outside cores and contexts, under the work of movers, cores and registration. -/

open Sys2Proof.Machine

namespace Sys2Proof.Machine

/-! ### Data movers -/

@[simp] theorem mems_chPut (s : State) (ch : ChanRef) (x : Option Xfer) : mems (chPut s ch x) = mems s := by
  unfold chPut; (repeat' split) <;> simp

@[simp] theorem mems_chMod (s : State) (ch : ChanRef) (f : Xfer → Xfer) : mems (chMod s ch f) = mems s := by
  unfold chMod; split <;> simp

@[simp] theorem mems_bulkSignal (s : State) (b : Nat) : mems (bulkSignal s b) = mems s := by
  simp [bulkSignal]

@[simp] theorem mems_dropChan (s : State) (ch : ChanRef) : mems (dropChan s ch) = mems s := (rfl)

@[simp] theorem mems_dropBurst (s : State) (ch : ChanRef) (k : Nat) : mems (dropBurst s ch k) = mems s := (rfl)

@[simp] theorem mems_endWaits (s : State) (w : Waiter) : mems (endWaits s w) = mems s := (rfl)

@[simp] theorem mems_moverFault (s : State) (ch : ChanRef) (k code : Nat) :
    mems (moverFault s ch k code) = mems s := by
  unfold moverFault; split <;> simp

@[simp] theorem mems_readRemote (s : State) (ch : ChanRef) (x : Xfer) (k a n : Nat) :
    mems (readRemote s ch x k a n).1 = mems s := by
  unfold readRemote
  split
  next hr => exact mems_request hr
  next => rfl

@[simp] theorem memsWf_spaceRead {s : State} (h : (mems s).Wf) (ch : ChanRef) (x : Xfer) (k sp a n : Nat) :
    (mems (spaceRead s ch x k sp a n).1).Wf := by
  unfold spaceRead
  split
  · exact h
  · split
    · simp [h]
    · exact h
  · split
    · split
      all_goals
        next hr => exact (mems_of_eq hr).symm ▸ memsWf_cvRead h ..
    · exact h
  · split
    · split
      · exact h
      · split <;> exact h
    · simpa using h
  · split <;> exact h

@[simp] theorem memsWf_spaceWrite {s : State} (h : (mems s).Wf) (ch : ChanRef) (x : Xfer) (k sp a atom : Nat)
    (bs : Bytes) (bad : List Nat) : (mems (spaceWrite s ch x k sp a atom bs bad).1).Wf := by
  simp only [spaceWrite]
  split
  · split <;> simp [h]
  · split
    · split
      · exact h
      · split <;> simp [h]
    · exact h
  · split
    · split
      all_goals
        next hr => exact (mems_of_eq hr).symm ▸ memsWf_cvWrite h ..
    · exact h
  · split
    · split
      · exact h
      · split
        · exact h
        · split
          next hw => exact memsWf_globalWrite hw h
          next => exact h
    · split
      next hr => rwa [mems_request hr]
      next => exact h
  · split
    · exact memsWf_hostPut h ..
    · exact h

@[simp] theorem memsWf_burstRead {s : State} (h : (mems s).Wf) (ch : ChanRef) (x : Xfer) (k off n : Nat) :
    (mems (burstRead s ch x k off n).1).Wf := by
  simp only [burstRead]
  split
  · exact memsWf_spaceRead h ..
  · split
    · exact memsWf_spaceRead h ..
    · exact memsWf_spaceRead h ..
    · split
      case h_2 => exact h
      all_goals exact memsWf_spaceRead (memsWf_spaceRead h ..) ..

@[simp] theorem memsWf_issueBurst {s : State} (h : (mems s).Wf) (ch : ChanRef) (x : Xfer) :
    (mems (issueBurst s ch x)).Wf := by
  simp only [issueBurst]
  split
  · simpa using h
  · have hr := memsWf_burstRead h ch x x.issued (x.issued * xfBurst x.desc)
      (min (xfBurst x.desc) (xfLen x.desc - x.issued * xfBurst x.desc))
    split
    all_goals
      next he =>
        rw [he] at hr
        simpa using hr

@[simp] theorem nextWf_execBurstIssue {s : State} (h : (mems s).Wf) (ch : ChanRef) :
    NextWf (execBurstIssue ch s) := by
  simp only [execBurstIssue, onClock]; (repeat' split) <;> simp [h]

@[simp] theorem mems_modXferStep (s : State) (ch : ChanRef) (x : Xfer) (f : Step → Step) :
    mems (modXferStep s ch x f) = mems s := by
  unfold modXferStep; (repeat' split) <;> simp

@[simp] theorem memsWf_logInput {s : State} (h : (mems s).Wf) (r : Nat) (sel : Option (Nat × Nat)) (key data : Nat)
    (bs : Bytes) : (mems (logInput s r sel key data bs).1).Wf := by
  simp only [logInput]; (repeat' split) <;> simp [h]

@[simp] theorem memsWf_inputEntry {s : State} (h : (mems s).Wf) (ch : ChanRef) (x : Xfer) :
    (mems (inputEntry s ch x)).Wf := by
  unfold inputEntry; split <;> simp [h]

@[simp] theorem memsWf_burstData {s : State} (h : (mems s).Wf) (ch : ChanRef) (k : Nat) (bs : Bytes)
    (bad : List Nat) : (mems (burstData s ch k bs bad)).Wf := by
  simp only [burstData]; split <;> simp [h]

@[simp] theorem memsWf_readData {s : State} (h : (mems s).Wf) (ch : ChanRef) (k : Nat) (bs : Bytes)
    (bad : List Nat) : (mems (readData s ch k bs bad)).Wf := by
  simp only [readData]; (repeat' split) <;> simp [h]

@[simp] theorem mems_landBurst (s : State) (ch : ChanRef) (k : Nat) : mems (landBurst s ch k) = mems s := by
  unfold landBurst; split <;> simp

@[simp] theorem mems_xferPoison (s : State) (ch : ChanRef) (x : Xfer) (lines : Nat) :
    mems (xferPoison s ch x lines) = mems s := by
  unfold xferPoison; split <;> simp

@[simp] theorem mems_shadowFill (s : State) (ch : ChanRef) (x : Xfer) (b : Burst) :
    mems (shadowFill s ch x b) = mems s := by
  unfold shadowFill
  split
  · rfl
  · refine mems_foldl (fun s i => ?_) _ _
    split <;> simp

@[simp] theorem memsWf_landWrite {s : State} (h : (mems s).Wf) (ch : ChanRef) (x : Xfer) (b : Burst) (bs : Bytes) :
    (mems (landWrite s ch x b bs)).Wf := by
  simp only [landWrite]
  split
  · exact h
  · generalize hw : spaceWrite s ch x _ _ _ _ _ _ = w
    have hw' : (mems w.1).Wf := hw ▸ memsWf_spaceWrite h ..
    split
    · exact hw'
    · simpa using hw'
    · split
      · exact hw'
      · simpa using hw'
    · simpa using hw'

@[simp] theorem nextWf_execBurstComplete {s : State} (h : (mems s).Wf) (ch : ChanRef) (k : Nat) :
    NextWf (execBurstComplete ch k s) := by
  simp only [execBurstComplete, onClock]; (repeat' split) <;> simp [h]

@[simp] theorem nextWf_execHostReadCompletion {s : State} (h : (mems s).Wf) (ch : ChanRef) (k : Nat)
    (read : HostRead) : NextWf (execHostReadCompletion ch k read s) := by
  simp only [execHostReadCompletion, onClock]; (repeat' split) <;> simp [h]

@[simp] theorem memsWf_lastWrite {s : State} (h : (mems s).Wf) (ch : ChanRef) (x : Xfer) :
    (mems (lastWrite s ch x).1).Wf := by
  simp only [lastWrite]; (repeat' split) <;> simp [h]

@[simp] theorem nextWf_execTransferComplete {s : State} (h : (mems s).Wf) (ch : ChanRef) :
    NextWf (execTransferComplete ch s) := by
  refine nextWf_onClock h ?_
  split
  next x _ =>
    have hw := memsWf_lastWrite h
    split
    · simpa using h
    · split
      all_goals
        next he =>
          have ht := (mems_of_eq he).symm ▸ hw ..
          simpa using ht
  next => simpa using h

@[simp] theorem nextWf_execPause {s : State} (h : (mems s).Wf) (n : CoreId) (c : Fin 4) :
    NextWf (execPause n c s) := by
  simp [execPause, h]

@[simp] theorem nextWf_execChannelPaused {s : State} (h : (mems s).Wf) (n : CoreId) (c : Fin 4) :
    NextWf (execChannelPaused n c s) := by
  simp only [execChannelPaused, onClock]; (repeat' split) <;> simp [h]

@[simp] theorem nextWf_execResumeTransfer {s : State} (h : (mems s).Wf) (n : CoreId) (c : Fin 4) :
    NextWf (execResumeTransfer n c s) := by
  simp [execResumeTransfer, h]

@[simp] theorem mems_intPauseAll (s : State) : mems (intPauseAll s) = mems s := (rfl)

@[simp] theorem nextWf_execBmvEnable {s : State} (h : (mems s).Wf) (b : BulkId) (w : RegWrite) :
    NextWf (execBmvEnable b w s) := by
  simp only [execBmvEnable, onBar]; (repeat' split) <;> simp [h]

@[simp] theorem memsWf_scrambleDesc {s : State} (h : (mems s).Wf) (b : BulkId) (d : Bytes) :
    (mems (scrambleDesc s b d)).Wf := by
  simp only [scrambleDesc]
  split
  · split
    · exact h
    · refine memsWf_foldl (fun s e h => ?_) _ (by simpa using h)
      split <;> simpa using h
  · split
    · exact memsWf_getD (fun t ht => memsWf_globalWrite ht (by simpa using h)) h
    · exact h
  · exact memsWf_hostWrite (by simpa using h) ..
  · exact h

@[simp] theorem memsWf_bulkScramble {s : State} (h : (mems s).Wf) (b : BulkId) (x : Xfer) :
    (mems (bulkScramble s b x)).Wf := memsWf_foldl (fun _ _ h => memsWf_scrambleDesc h ..) _ (by simpa using h)

@[simp] theorem memsWf_bulkStop {s : State} (h : (mems s).Wf) (b : BulkId) : (mems (bulkStop s b)).Wf := by
  unfold bulkStop; split <;> simp [h]

@[simp] theorem nextWf_execBmvDisable {s : State} (h : (mems s).Wf) (b : BulkId) (w : RegWrite) :
    NextWf (execBmvDisable b w s) := by
  unfold execBmvDisable; split <;> simp [h]

@[simp] theorem mems_bulkNext (s : State) (b : BulkId) (x : Xfer) (d : Bytes) :
    mems (bulkNext s b x d) = mems s := by
  unfold bulkNext; split <;> simp

@[simp] theorem memsWf_bulkFetch {s : State} (h : (mems s).Wf) (b : BulkId) (x : Xfer) :
    (mems (bulkFetch s b x)).Wf := by
  simp only [bulkFetch]
  generalize (if fbit s F.bmvCtlFwown b.val 0 = true then 3 else 2) = sp
  split
  · exact h
  · split
    · simpa using h
    · have hr := memsWf_spaceRead h (.bulk b) x nextBurst sp (xfNext x.desc) 64
      split
      all_goals
        next he =>
          rw [he] at hr
          simpa using hr

@[simp] theorem memsWf_bulkDone {s : State} (h : (mems s).Wf) (b : BulkId) (x : Xfer) :
    (mems (bulkDone s b x)).Wf := by
  simp [bulkDone, h]

@[simp] theorem nextWf_execBmvDescComplete {s : State} (h : (mems s).Wf) (b : BulkId) :
    NextWf (execBmvDescComplete b s) := by
  refine nextWf_onClock h ?_
  split
  · simpa using h
  · split
    · simp [h]
    · split
      · simpa using h
      · split
        all_goals
          next he =>
            have ht := (mems_of_eq he).symm ▸ memsWf_lastWrite h ..
            simp [ht]

/-! ### Takes and cores -/

@[simp] theorem mems_latchPrios (s : State) (n : Nat) : mems (latchPrios s n) = mems s := (rfl)

@[simp] theorem mems_beginFloat (s : State) (n k : Nat) : mems (beginFloat s n k) = mems s := by
  unfold beginFloat; split <;> simp

@[simp] theorem mems_chooseTake (s : State) (n : Nat) : mems (chooseTake s n) = mems s := by
  unfold chooseTake; split <;> simp

@[simp] theorem mems_kickCore (s : State) (n : Nat) : mems (kickCore s n) = mems s := by
  simp only [kickCore]; (repeat' split) <;> simp

@[simp] theorem mems_queueTake (s : State) (n k : Nat) : mems (queueTake s n k) = mems s := (rfl)

@[simp] theorem mems_addTake (s : State) (n k : Nat) : mems (addTake s n k) = mems s := by
  simp [addTake]

@[simp] theorem mems_addUnder (s : State) (n r : Nat) : mems (addUnder s n r) = mems s := by
  simp [addUnder]

@[simp] theorem mems_endUnder (s : State) (n : Nat) : mems (endUnder s n) = mems s := by
  unfold endUnder; split <;> simp

@[simp] theorem mems_removeTake (s : State) (n k : Nat) : mems (removeTake s n k) = mems s := by
  simp [removeTake]

@[simp] theorem mems_wakeRest (s : State) (n k : Nat) : mems (wakeRest s n k) = mems s := by
  simp [wakeRest]

@[simp] theorem mems_applyToken (s : State) (n k q : Nat) (v : BitVec 32) :
    mems (applyToken s n k q v) = mems s := by
  simp [applyToken]

@[simp] theorem mems_holdToken (s : State) (r vx vy q : Nat) (step : Option (BitVec 64)) (v : BitVec 32) :
    mems (holdToken s r vx vy q step v) = mems s := (rfl)

@[simp] theorem mems_shelfToken (s : State) (r n q : Nat) (v : BitVec 32) :
    mems (shelfToken s r n q v) = mems s := (rfl)

@[simp] theorem mems_deliverUnbound (s : State) (r vx vy q : Nat) (v : BitVec 32) :
    mems (deliverUnbound s r vx vy q v) = mems s := by
  simp only [deliverUnbound]; split <;> simp

@[simp] theorem mems_deliverBound (s : State) (r vx vy q : Nat) (id : BitVec 64) (v : BitVec 32) :
    mems (deliverBound s r vx vy q id v).1 = mems s := by
  simp only [deliverBound]; (repeat' split) <;> simp

@[simp] theorem mems_deliverToken (s : State) (r vx vy q : Nat) (step : Option (BitVec 64)) (v : BitVec 32) :
    mems (deliverToken s r vx vy q step v).1 = mems s := by
  simp only [deliverToken]; split <;> simp

@[simp] theorem mems_sendToken (s : State) (n k : Nat) (peer : ChanPeer) (v : BitVec 32) :
    mems (sendToken s n k peer v) = mems s := by
  unfold sendToken
  split
  · split
    · simp
    · simp only
      split
      · simp
      · split
        next hr => exact mems_request hr
        next => simp
  · rfl

@[simp] theorem mems_askLaunch (s : State) (r : Nat) (w : LaunchOf) (target : Nat) :
    mems (askLaunch s r w target) = mems s := by
  simp [askLaunch]

@[simp] theorem mems_takeLaunch (s : State) (r : Nat) (w : LaunchOf) : mems (takeLaunch s r w) = mems s := (rfl)

@[simp] theorem mems_openCheck (s : State) (r k n vx vy : Nat) (take : BitVec 32) :
    mems (openCheck s r k n vx vy take) = mems s := by
  unfold openCheck; split <;> simp

@[simp] theorem mems_closeCheck (s : State) (r vx vy : Nat) (take : BitVec 32) (made : Tbl Digest) :
    mems (closeCheck s r vx vy take made) = mems s := (rfl)

@[simp] theorem mems_commitMirror (s : State) (n k r : Nat) : mems (commitMirror s n k r) = mems s := by
  simp [commitMirror]

@[simp] theorem mems_replaceHome (s : State) (n k r : Nat) : mems (replaceHome s n k r) = mems s := by
  unfold replaceHome; split <;> simp

@[simp] theorem mems_closeTake (s : State) (n k : Nat) : mems (closeTake s n k) = mems s := by
  simp only [closeTake]; split <;> simp

@[simp] theorem mems_openTake (s : State) (n k : Nat) : mems (openTake s n k) = mems s := by
  unfold openTake; split <;> simp

@[simp] theorem mems_cutCore (s : State) (n k : Nat) : mems (cutCore s n k) = mems s := by
  simp [cutCore]

@[simp] theorem mems_setPart (s : State) (n k : Nat) (p : PartSt) : mems (setPart s n k p) = mems s := by
  simp [setPart]

@[simp] theorem mems_markFrame (s : State) (n k : Nat) : mems (markFrame s n k) = mems s := (rfl)

@[simp] theorem mems_turnEntry (s : State) (n k : Nat) (keep : Bool) : mems (turnEntry s n k keep) = mems s := by
  unfold turnEntry; split <;> simp

@[simp] theorem mems_endPart (s : State) (n k : Nat) (p : PartSt) : mems (endPart s n k p) = mems s := by
  unfold endPart; split <;> simp

@[simp] theorem mems_yieldCut (s : State) (n k : Nat) : mems (yieldCut s n k) = mems s := by
  unfold yieldCut; split <;> simp

@[simp] theorem memsWf_finishStop {s : State} (h : (mems s).Wf) (n k : Nat) (t : StopRec) :
    (mems (finishStop s n k t)).Wf := by
  unfold finishStop; split <;> simp [h]

@[simp] theorem nextWf_execCoreStop {s : State} (h : (mems s).Wf) (n : CoreId) : NextWf (execCoreStop n s) := by
  simp only [execCoreStop, onClock]; (repeat' split) <;> simp [h]

@[simp] theorem nextWf_execTakeTimeout {s : State} (h : (mems s).Wf) (n : CoreId) :
    NextWf (execTakeTimeout n s) := by
  simp only [execTakeTimeout, onClock]; (repeat' split) <;> simp [h]

@[simp] theorem nextWf_execTokenDelivery {s : State} (h : (mems s).Wf) (i : Nat) :
    NextWf (execTokenDelivery i s) := by
  unfold execTokenDelivery
  split
  · simpa using h
  · refine nextWf_onClock h ?_
    split
    all_goals
      next he => simpa [mems_of_eq he] using h

/-! ### What a step leaves behind -/

@[simp] theorem mems_noteMismatch (s : State) (r : Nat) (st : Step) : mems (noteMismatch s r st) = mems s := by
  simp [noteMismatch]

@[simp] theorem mems_pairShip (s : State) (r : Nat) (st : Step) : mems (pairShip s r st) = mems s := by
  simp [pairShip]

@[simp] theorem mems_closeStep (s : State) (r : Nat) (st : Step) : mems (closeStep s r st) = mems s := by
  simp [closeStep]

@[simp] theorem mems_dropStep (s : State) (r o : Nat) (st : Step) : mems (dropStep s r o st) = mems s := by
  simp [dropStep]

@[simp] theorem mems_freePart (k : Nat) (s : State) (c : StepCore) : mems (freePart k s c) = mems s := by
  have h : mems ((keyCtx s k).elim s (replaceHome s c.core.val k)) = mems s := by
    cases keyCtx s k <;> simp
  simp [freePart, h]

@[simp] theorem mems_freeFloat (r k : Nat) (s : State) (c : StepCore) : mems (freeFloat r k s c) = mems s := (rfl)

@[simp] theorem mems_readyCore (s : State) (n k : Nat) (ic : CoreImage) (pc : Nat) (args : List (BitVec 32)) :
    mems (readyCore s n k ic pc args) = mems s := (rfl)

/-! ### Registration -/

@[simp] theorem mems_assignCore (r k : Nat) (img : Image) (code data : Bool) (s : State) (m : CoreId × Nat × Nat) :
    mems (assignCore r k img code data s m) = mems s := by
  unfold assignCore; split <;> simp

@[simp] theorem mems_assignMirrors (s : State) (k r : Nat) : mems (assignMirrors s k r) = mems s := by
  refine mems_foldl (fun s m => ?_) _ _
  split <;> simp

@[simp] theorem mems_releaseCore (r k : Nat) (s : State) (m : CoreId × Nat × Nat) :
    mems (releaseCore r k s m) = mems s := (rfl)

@[simp] theorem memsWf_mapShelf {s : State} (h : (mems s).Wf) (r : Nat) (img : Image) :
    (mems (mapShelf s r img)).Wf := by
  refine memsWf_foldl (fun s i h => ?_) _ h
  split
  next hp => exact memsWf_mapPage (by rwa [mems_placePage hp]) ..
  next => exact h

@[simp] theorem mems_clearBlock (s : State) (sl : Nat) : mems (clearBlock s sl) = mems s := (rfl)

@[simp] theorem mems_restoreBlock (s : State) (sl : Nat) (t : Tbl Nat) : mems (restoreBlock s sl t) = mems s := by
  simp [restoreBlock]

@[simp] theorem mems_dropXfers (k : Nat) (s : State) (n : Nat) : mems (dropXfers k s n) = mems s := by
  simp [dropXfers]

@[simp] theorem mems_killPart (k : Nat) (s : State) (c : StepCore) : mems (killPart k s c) = mems s := by
  simp [killPart]

@[simp] theorem mems_killHome (s : State) (r o : Nat) : mems (killHome s r o) = mems s := by
  simp only [killHome]; (repeat' split) <;> simp

@[simp] theorem mems_killFloat (r o : Nat) (s : State) (st : Step) : mems (killFloat r o s st) = mems s := by
  simp [killFloat]

@[simp] theorem mems_dropQueue (s : State) (r o : Nat) : mems (dropQueue s r o) = mems s := by
  simp [dropQueue]

@[simp] theorem mems_killAll (s : State) (r o : Nat) : mems (killAll s r o) = mems s := by
  simp [killAll]

@[simp] theorem mems_reelSignal (s : State) (r : Nat) : mems (reelSignal s r) = mems s := by
  simp [reelSignal]

@[simp] theorem mems_freeStaging (s : State) (r : Nat) (l : ReelLoad) : mems (freeStaging s r l) = mems s := by
  simp [freeStaging]

@[simp] theorem mems_endHolding (s : State) (r : Nat) : mems (endHolding s r) = mems s := by
  simp [endHolding]

@[simp] theorem mems_reelFail (s : State) (r result : Nat) : mems (reelFail s r result) = mems s := by
  simp only [reelFail]; (repeat' split) <;> simp

@[simp] theorem mems_printSignal (s : State) (r : Nat) : mems (printSignal s r) = mems s := by
  simp [printSignal]

@[simp] theorem mems_unshadow (s : State) (ok : Nat → Bool) : mems (unshadow s ok) = mems s := (rfl)

@[simp] theorem mems_printFail (s : State) (r result : Nat) : mems (printFail s r result) = mems s := by
  unfold printFail; split <;> simp

@[simp] theorem mems_endPg (s : State) (r : Nat) : mems (endPg s r) = mems s := by
  simp [endPg]

@[simp] theorem mems_releaseContext (s : State) (r : Nat) : mems (releaseContext s r) = mems s := by
  simp only [releaseContext]; split <;> simp

@[simp] theorem mems_settleDisable (s : State) (r : Nat) : mems (settleDisable s r) = mems s := by
  simp [settleDisable]

@[simp] theorem mems_endParked (s : State) (k : Nat) (c : StepCore) : mems (endParked s k c) = mems s := by
  simp [endParked]

@[simp] theorem mems_beginDisable (s : State) (r : Nat) : mems (beginDisable s r) = mems s := by
  simp [beginDisable]

/-! ### Fault records -/

@[simp] theorem memsWf_dailyPut {s : State} (h : (mems s).Wf) (bs : Bytes) : (mems (dailyPut s bs)).Wf := by
  simp [dailyPut, h]

@[simp] theorem memsWf_dailyRing {s : State} (h : (mems s).Wf) (rec : Bytes) : (mems (dailyRing s rec)).Wf := by
  simp only [dailyRing]; (repeat' split) <;> simp [h]

@[simp] theorem memsWf_daily {s : State} (h : (mems s).Wf) (type : Nat) (own : List (Nat × Bytes)) :
    (mems (daily s type own)).Wf := by
  simp [daily, h]

@[simp] theorem memsWf_faultRecord {s : State} (h : (mems s).Wf) (unit : Nat × Nat) (cls action : Nat)
    (steps : List (Nat × Nat)) : (mems (faultRecord s unit cls action steps)).Wf := by
  simp [faultRecord, h]

@[simp] theorem memsWf_testRecord {s : State} (h : (mems s).Wf) (unit : Nat × Nat) (result : Nat)
    (place : Option (Nat × Nat)) : (mems (testRecord s unit result place)).Wf := by
  simp [testRecord, h]

@[simp] theorem memsWf_addRepair {s : State} (h : (mems s).Wf) (kind source unit sub place : Nat) :
    (mems (addRepair s kind source unit sub place)).Wf := by
  simp [addRepair, h]

@[simp] theorem mems_bulkFail (s : State) (b : BulkId) : mems (bulkFail s b) = mems s := by
  simp [bulkFail]

@[simp] theorem mems_pgFail (s : State) (r : Nat) : mems (pgFail s r) = mems s := by
  simp [pgFail]

@[simp] theorem mems_endedFail (s : State) (r o : Nat) : mems (endedFail s r o) = mems s := (rfl)

@[simp] theorem mems_raiseAlert (s : State) (f : Fld) : mems (raiseAlert s f) = mems s := by
  simp [raiseAlert]

@[simp] theorem mems_collDown (r : Nat) (s : State) (e : Nat × CollQ) : mems (collDown r s e) = mems s := by
  unfold collDown; split <;> simp

@[simp] theorem memsWf_testsDown {s : State} (h : (mems s).Wf) : (mems (testsDown s)).Wf := by
  unfold testsDown; split <;> simp [h]

@[simp] theorem memsWf_deviceFault {s : State} (h : (mems s).Wf) : (mems (deviceFault s)).Wf := by
  have colls : ∀ s r, mems ((ctx s r).colls.foldl (collDown r) s) = mems s := by simp
  unfold deviceFault
  split
  · exact h
  · simp only [mems_glbIrq, mems_raiseAlert]
    refine memsWf_faultRecord ?_ ..
    refine memsWf_testsDown ?_
    refine memsWf_foldl (fun s r h => by simpa using h) _ ?_
    refine memsWf_foldl (fun s b h => by simpa using h) _ ?_
    refine memsWf_foldl (fun s r h => by simpa using h) _ ?_
    refine memsWf_foldl (fun s r h => by simpa using h) _ ?_
    simpa using h

end Sys2Proof.Machine

end

section
/-! PROOFS. Scope: the memories outside cores and contexts, under the work of pages, steps, contexts and the
timecode. -/

open Sys2Proof.Machine

namespace Sys2Proof.Machine

/-! ### The page managers and the DDR channels -/

@[simp] theorem nextWf_execPageAccess {s : State} (h : (mems s).Wf) (r : CtxId) (va : Nat) (write : Bool) :
    NextWf (execPageAccess r va write s) := by
  simp only [execPageAccess, onClock]; split <;> simp [h]

@[simp] theorem mems_poisonLine (s : State) (p : Nat) : mems (poisonLine s p) = mems s := by
  unfold poisonLine; split <;> simp

@[simp] theorem mems_cleanLine (s : State) (p : Nat) : mems (cleanLine s p) = mems s := by
  unfold cleanLine; split <;> simp

@[simp] theorem memsWf_changeLine {s : State} (h : (mems s).Wf) (p : Nat) (mask : Bytes) :
    (mems (changeLine s p mask)).Wf := by
  unfold changeLine
  split
  · exact h
  · split
    · simpa using h
    · obtain ⟨hh, hd, hw⟩ := h
      exact ⟨hh, memWf_mwrite hd, hw⟩
    · exact h

@[simp] theorem mems_errorLog (s : State) (ch addr kind : Nat) : mems (errorLog s ch addr kind) = mems s := (rfl)

@[simp] theorem mems_noteCorrected (s : State) (ch addr : Nat) (es : List (Nat × Nat)) :
    mems (noteCorrected s ch addr es) = mems s := by
  simp [noteCorrected]

@[simp] theorem memsWf_noteUncorrectable {s : State} (h : (mems s).Wf) (ch addr : Nat) :
    (mems (noteUncorrectable s ch addr)).Wf := by
  simp [noteUncorrectable, h]

@[simp] theorem memsWf_otherCopy {s : State} (h : (mems s).Wf) (p : Nat) (copy : List (BitVec 16)) :
    (mems (otherCopy s p copy)).Wf := by
  simp only [otherCopy]; split <;> simp [h]

@[simp] theorem memsWf_lineRead {s : State} (h : (mems s).Wf) (ch addr : Nat) (err copy : List (BitVec 16))
    (mark : Bool) : (mems (lineRead s ch addr err copy mark)).Wf := by
  simp only [lineRead]; (repeat' split) <;> simp [h]

@[simp] theorem nextWf_execDdrRead {s : State} (h : (mems s).Wf) (ch : Fin 16) (addr : Nat)
    (err copy : List (BitVec 16)) : NextWf (execDdrRead ch addr err copy s) := by
  simp only [execDdrRead, onClock]; split <;> simp [h]

@[simp] theorem nextWf_execPatrolScrub {s : State} (h : (mems s).Wf) (ch : Fin 16) (addr : Nat)
    (err copy : List (BitVec 16)) (raced : Bool) : NextWf (execPatrolScrub ch addr err copy raced s) := by
  simp only [execPatrolScrub, onClock]; split <;> simp [h]

@[simp] theorem nextWf_execDdrRefresh {s : State} (h : (mems s).Wf) (ch : Fin 16) :
    NextWf (execDdrRefresh ch s) := by
  simp [execDdrRefresh, h]

@[simp] theorem nextWf_execDdrTraining {s : State} (h : (mems s).Wf) : NextWf (execDdrTraining s) := by
  simp [execDdrTraining, h]

@[simp] theorem mems_settleReady (s : State) : mems (settleReady s) = mems s := by
  simp [settleReady]

@[simp] theorem mems_memFail (s : State) (code : Nat) : mems (memFail s code) = mems s := (rfl)

@[simp] theorem mems_trainChannel (s : State) (mode : Nat) (p : DdrModule × Nat) :
    mems (trainChannel s mode p) = mems s := by
  simp [trainChannel]

@[simp] theorem nextWf_execDdrTrainingDone {s : State} (h : (mems s).Wf) (found : List DdrModule) :
    NextWf (execDdrTrainingDone found s) := by
  simp only [execDdrTrainingDone]; (repeat' split) <;> simp [h]

@[simp] theorem mems_beginMove (s : State) (r pg : Nat) (loc : PageLoc) (frame : Nat) (dev : BitVec 12) :
    mems (beginMove s r pg loc frame dev) = mems s := by
  simp [beginMove]

@[simp] theorem mems_demoteOne (par : Nat) (a : State × Nat) (e : Nat × Nat × Page) :
    mems (demoteOne par a e).1 = mems a.1 := by
  simp only [demoteOne]
  split
  · rfl
  · split
    next hp => exact (mems_beginMove ..).trans (mems_farPlace hp)
    next => rfl

@[simp] theorem mems_promoteOne (par : Nat) (a : State × Nat × List (CtxId × Nat)) (e : CtxId × Nat) :
    mems (promoteOne par a e).1 = mems a.1 := by
  simp only [promoteOne]
  split
  · split
    · rfl
    · split <;> simp
  · rfl

@[simp] theorem mems_promoteAll (s : State) (par left : Nat) (es : List (CtxId × Nat)) :
    mems (promoteAll s par left es) = mems s := by
  suffices h : ∀ a, mems (es.foldl (promoteOne par) a).1 = mems a.1 from h (s, left, [])
  induction es with
  | nil => exact fun _ => rfl
  | cons e es ih => exact fun a => (ih _).trans (mems_promoteOne par a e)

@[simp] theorem mems_clearAccesses (s : State) (par : Nat) : mems (clearAccesses s par) = mems s := (rfl)

@[simp] theorem mems_lendStep (s : State) (par : Nat) : mems (lendStep s par) = mems s := by
  simp only [lendStep]; (repeat' split) <;> simp

@[simp] theorem nextWf_execMigrationEpoch {s : State} (h : (mems s).Wf) (e : EdgeId) :
    NextWf (execMigrationEpoch e s) := by
  have fold : ∀ par l (a : State × Nat), mems (List.foldl (demoteOne par) a l).1 = mems a.1 := by
    intro par l
    induction l with
    | nil => exact fun _ => rfl
    | cons e l ih => exact fun a => (ih _).trans (mems_demoteOne par a e)
  refine nextWf_onClock h ?_
  simp only [nextWf_next, mems_intPauseAll]
  rw [mems_foldl (fun s f => mems_fset ..), mems_lendStep]
  split
  · exact h
  · simp only [mems_clearAccesses, mems_promoteAll]
    split
    · rwa [fold]
    · exact h

@[simp] theorem nextWf_execMigrationDrain {s : State} (h : (mems s).Wf) (r : CtxId) (page : Nat) :
    NextWf (execMigrationDrain r page s) := by
  simp [execMigrationDrain, h]

@[simp] theorem mems_dropFrame (s : State) (loc : PageLoc) (f : Nat) : mems (dropFrame s loc f) = mems s := by
  simp [dropFrame]

@[simp] theorem mems_settleMove (s : State) (r pg : Nat) (p : Page) (m : PageMove) :
    mems (settleMove s r pg p m) = mems s := by
  simp [settleMove]

@[simp] theorem mems_stopMove (s : State) (r pg : Nat) : mems (stopMove s r pg) = mems s := by
  unfold stopMove; split <;> simp

@[simp] theorem mems_losePage (s : State) (r pg : Nat) : mems (losePage s r pg) = mems s := by
  simp [losePage]

theorem memsWf_pgAlloc {s t : State} {r pg : Nat} {prot : Bool} {key : BitVec 4} (ht : pgAlloc s r pg prot key = .ok t)
    (h : (mems s).Wf) : (mems t).Wf := by
  unfold pgAlloc at ht
  split at ht
  · cases ht
  · split at ht
    · cases ht; exact h
    · split at ht
      · cases ht
      · split at ht
        next hp => cases ht; exact memsWf_mapPage (by rwa [mems_placePage hp]) ..
        next => cases ht

theorem mems_pgFree {s t : State} {r pg : Nat} (ht : pgFree s r pg = .ok t) : mems t = mems s := by
  unfold pgFree at ht
  split at ht
  · split at ht
    · cases ht
    · cases ht; simp
  · cases ht; rfl

theorem mems_pgPin {s t : State} {r pg : Nat} (ht : pgPin s r pg = .ok t) : mems t = mems s := by
  unfold pgPin at ht
  split at ht
  · cases ht; rfl
  · split at ht
    · cases ht; simp
    · cases ht

@[simp] theorem mems_pgPrep (s : State) (r op pg : Nat) : mems (pgPrep s r op pg) = mems s := by
  unfold pgPrep; split <;> simp

theorem memsWf_pgOne {s t : State} {r op attr pg : Nat} {key : BitVec 4} (ht : pgOne s r op attr key pg = .ok t)
    (h : (mems s).Wf) : (mems t).Wf := by
  unfold pgOne at ht
  split at ht
  · cases ht
  · simp only at ht
    split at ht
    · exact memsWf_pgAlloc ht h
    · rwa [mems_pgFree ht]
    · cases ht; simpa using h
    · cases ht; simpa using h
    · rwa [mems_pgPin ht]
    · cases ht; simpa using h
    · cases ht; exact memsWf_clearPage h ..
    · cases ht

@[simp] theorem memsWf_pgRun (n : Nat) {s : State} (h : (mems s).Wf) (r op attr : Nat) (key : BitVec 4) (pg k : Nat) :
    (mems (pgRun n s r op attr key pg k).1).Wf := by
  induction n generalizing s pg k with
  | zero => exact h
  | succ n ih =>
    unfold pgRun
    have hp : (mems (pgPrep s r op pg)).Wf := by simpa using h
    simp only
    split
    · exact hp
    · split
      next ho => exact ih (memsWf_pgOne ho hp) ..
      next => exact hp

@[simp] theorem memsWf_logClear {s : State} (h : (mems s).Wf) (r va k : Nat) : (mems (logClear s r va k)).Wf := by
  simp [logClear, h]

@[simp] theorem memsWf_pgFinish {s : State} (h : (mems s).Wf) (sl r result k : Nat) :
    (mems (pgFinish s sl r result k)).Wf := by
  simp [pgFinish, h]

@[simp] theorem memsWf_pgFrom {s : State} (h : (mems s).Wf) (sl r k : Nat) : (mems (pgFrom s sl r k)).Wf := by
  simp only [pgFrom]; split <;> simp [h]

@[simp] theorem memsWf_pgCommand {s : State} (h : (mems s).Wf) (sl r : Nat) : (mems (pgCommand s sl r)).Wf := by
  simp only [pgCommand]; split <;> simp [h]

@[simp] theorem memsWf_resumePg {s : State} (h : (mems s).Wf) (r : Nat) : (mems (resumePg s r)).Wf := by
  unfold resumePg; split <;> simp [h]

@[simp] theorem mems_pinNow (s : State) (r pg : Nat) : mems (pinNow s r pg) = mems s := by
  unfold pinNow; (repeat' split) <;> simp

@[simp] theorem memsWf_cutPg {s : State} (h : (mems s).Wf) (r : Nat) : (mems (cutPg s r)).Wf := by
  unfold cutPg; (repeat' split) <;> simp [h]

@[simp] theorem memsWf_pgWrite {s : State} (h : (mems s).Wf) (sl : SlotId) (w : RegWrite) :
    (mems (pgWrite sl w s)).Wf := by
  simp only [pgWrite]; (repeat' split) <;> simp [h]

@[simp] theorem nextWf_execMigrationCopy {s : State} (h : (mems s).Wf) (r : CtxId) (page : Nat) (ok : Bool) :
    NextWf (execMigrationCopy r page ok s) := by
  simp only [execMigrationCopy, onClock]; (repeat' split) <;> simp [h]

@[simp] theorem nextWf_execLenderLost {s : State} (h : (mems s).Wf) (dev : BitVec 12) :
    NextWf (execLenderLost dev s) := by
  refine nextWf_onClock h ?_
  rw [nextWf_next]
  exact memsWf_foldl (fun _ _ h => memsWf_resumePg h ..) _ (by simpa using h)

@[simp] theorem nextWf_execAlloc {s : State} (h : (mems s).Wf) (sl : SlotId) (w : RegWrite) :
    NextWf (execAlloc sl w s) := by
  simp [execAlloc, h]

@[simp] theorem nextWf_execFree {s : State} (h : (mems s).Wf) (sl : SlotId) (w : RegWrite) :
    NextWf (execFree sl w s) := by
  simp [execFree, h]

@[simp] theorem nextWf_execSetattr {s : State} (h : (mems s).Wf) (sl : SlotId) (w : RegWrite) :
    NextWf (execSetattr sl w s) := by
  simp [execSetattr, h]

@[simp] theorem nextWf_execClrattr {s : State} (h : (mems s).Wf) (sl : SlotId) (w : RegWrite) :
    NextWf (execClrattr sl w s) := by
  simp [execClrattr, h]

@[simp] theorem nextWf_execPin {s : State} (h : (mems s).Wf) (sl : SlotId) (w : RegWrite) :
    NextWf (execPin sl w s) := by
  simp [execPin, h]

@[simp] theorem nextWf_execUnpin {s : State} (h : (mems s).Wf) (sl : SlotId) (w : RegWrite) :
    NextWf (execUnpin sl w s) := by
  simp [execUnpin, h]

@[simp] theorem nextWf_execClearPoison {s : State} (h : (mems s).Wf) (sl : SlotId) (w : RegWrite) :
    NextWf (execClearPoison sl w s) := by
  simp [execClearPoison, h]

/-! ### Steps from submission to completion -/

@[simp] theorem nextWf_execStepEnd {s : State} (h : (mems s).Wf) (r : CtxId) : NextWf (execStepEnd r s) := by
  simp only [execStepEnd]; (repeat' split) <;> simp [h]

@[simp] theorem mems_applyHeld (s : State) (r k : Nat) (st : Step) (unbound : Bool) :
    mems (applyHeld s r k st unbound) = mems s := by
  refine (mems_foldl (fun s h => ?_) _ _).trans (mems_modCtx ..)
  split <;> simp

@[simp] theorem mems_fallbackOf (s : State) (r : Nat) (st : Step) : mems (fallbackOf s r st).1 = mems s := by
  simp only [fallbackOf]; (repeat' split) <;> simp

@[simp] theorem memsWf_launchEntry {s : State} (h : (mems s).Wf) (r : Nat) (st : Step) (type key data : Nat)
    (payload : Bytes) : (mems (launchEntry s r st type key data payload).1).Wf := by
  simp [launchEntry, h]

@[simp] theorem memsWf_intervene {s : State} (h : (mems s).Wf) (r : Nat) (id : BitVec 64) :
    (mems (intervene s r id)).Wf := memsWf_foldl (fun _ _ h => memsWf_clearPages h ..) _ h

@[simp] theorem memsWf_launchLog {s : State} (h : (mems s).Wf) (r : Nat) (st : Step) (fresh : Bool) :
    (mems (launchLog s r st fresh).1).Wf := by
  unfold launchLog
  lift_lets
  extract_lets g early st' s' p₁ p₂ p₃
  have h₁ : (mems p₁.1).Wf := memsWf_launchEntry (by simpa [s'] using h) ..
  have h₂ : (mems p₂.1).Wf := memsWf_launchEntry h₁ ..
  have h₃ : (mems p₃.1).Wf := by
    simp only [p₃]
    split
    · exact memsWf_launchEntry h₂ ..
    · exact h₂
  split
  · simpa using h₃
  · split
    · simpa using h₃
    · split <;> simpa using h₃

@[simp] theorem mems_openMirror (s : State) (n k r : Nat) : mems (openMirror s n k r) = mems s := by
  simp [openMirror]

@[simp] theorem mems_openPart (r k : Nat) (s : State) (n : Nat) : mems (openPart r k s n) = mems s := by
  simp [openPart]

@[simp] theorem memsWf_startStep {s : State} (h : (mems s).Wf) (r g : Nat) (st : Step) :
    (mems (startStep s r g st)).Wf := by
  unfold startStep; split <;> simp [h]

@[simp] theorem mems_dropHead (s : State) (r o : Nat) (st : Step) : mems (dropHead s r o st) = mems s := by
  simp [dropHead]

@[simp] theorem memsWf_launchNow {s : State} (h : (mems s).Wf) (r : Nat) (st : Step) :
    (mems (launchNow s r st)).Wf := by
  unfold launchNow; (repeat' split) <;> simp [h]

@[simp] theorem nextWf_execStepLaunch {s : State} (h : (mems s).Wf) (r : CtxId) : NextWf (execStepLaunch r s) := by
  simp only [execStepLaunch]; (repeat' split) <;> simp [h]

@[simp] theorem mems_joinEntry (s : State) (n k pc : Nat) : mems (joinEntry s n k pc) = mems s := by
  simp [joinEntry]

@[simp] theorem mems_launchEntryAt (s : State) (r : Nat) (st : Step) (e : Nat × Nat × Nat) :
    mems (launchEntryAt s r st e) = mems s := by
  simp only [launchEntryAt]; (repeat' split) <;> simp

@[simp] theorem nextWf_execLaunchGroup {s : State} (h : (mems s).Wf) (r : CtxId) (group : BitVec 8) :
    NextWf (execLaunchGroup r group s) := by
  simp only [execLaunchGroup]; (repeat' split) <;> simp [h]

@[simp] theorem memsWf_writeSlate {s : State} (h : (mems s).Wf) (r : Nat) (st : Step) :
    (mems (writeSlate s r st)).Wf := by
  unfold writeSlate
  lift_lets
  extract_lets slots base ps s₁ s₂ p width height
  have h₁ : (mems s₁).Wf := memsWf_hostWrite h ..
  have h₂ : (mems s₂).Wf := memsWf_foldl (fun _ _ h => memsWf_hostWrite h ..) _ h₁
  split
  · exact h
  · split
    · exact h₂
    · exact memsWf_foldl (fun _ _ h => memsWf_hostWrite h ..) _ h₂

@[simp] theorem memsWf_writeRecord {s : State} (h : (mems s).Wf) (r : Nat) (st : Step) :
    (mems (writeRecord s r st)).Wf := by
  simp [writeRecord, h]

@[simp] theorem mems_signalRecord (s : State) (r : Nat) : mems (signalRecord s r) = mems s := by
  simp [signalRecord]

@[simp] theorem nextWf_execCompletionRecord {s : State} (h : (mems s).Wf) (r : CtxId) :
    NextWf (execCompletionRecord r s) := by
  unfold execCompletionRecord
  split
  next st _ =>
    split
    · have hp := memsWf_logPut (memsWf_writeSlate h r.val st) r.val (completeEntry s r.val st)
      simpa using memsWf_writeRecord hp r.val st
    · simpa using h
  next => simpa using h

@[simp] theorem nextWf_execCompletionCoalesceTimeout {s : State} (h : (mems s).Wf) (r : CtxId) :
    NextWf (execCompletionCoalesceTimeout r s) := by
  simp [execCompletionCoalesceTimeout, h]

@[simp] theorem mems_refuseSheet (s : State) (r code adv : Nat) : mems (refuseSheet s r code adv) = mems s := by
  simp [refuseSheet]

@[simp] theorem memsWf_acceptStep {s : State} (h : (mems s).Wf) (r : Nat) (d args : Bytes) (count : Nat)
    (log : Bool) : (mems (acceptStep s r d args count log)).Wf := by
  simp [acceptStep, h]

@[simp] theorem mems_headBy (s : State) (r n : Nat) : mems (headBy s r n) = mems s := by
  simp [headBy]

@[simp] theorem memsWf_takeSlots (fuel : Nat) (slots : List (Option Bytes)) {s : State} (h : (mems s).Wf)
    (r tail : Nat) : (mems (takeSlots fuel slots s r tail)).Wf := by
  induction fuel generalizing s slots with
  | zero => exact h
  | succ fuel ih =>
    unfold takeSlots
    simp only
    split
    · exact h
    · split
      · simpa using h
      · split
        · exact h
        · simpa using h
        · split
          · exact h
          · split
            · simpa using h
            · split
              · split
                · exact h
                · simpa using h
                · exact ih _ (by simpa using memsWf_acceptStep h ..)
              · exact ih _ (by simpa using memsWf_acceptStep h ..)

@[simp] theorem memsWf_pollOne {s : State} (h : (mems s).Wf) (rd : SheetRead) : (mems (pollOne s rd)).Wf := by
  unfold pollOne; (repeat' split) <;> simp [h]

@[simp] theorem nextWf_execCallSheetPoll {s : State} (h : (mems s).Wf) (reads : List SheetRead) :
    NextWf (execCallSheetPoll reads s) := by
  unfold execCallSheetPoll
  split
  · simp
  · split
    · simpa using h
    · simpa using memsWf_foldl (fun _ _ h => memsWf_pollOne h ..) reads h

@[simp] theorem nextWf_execResume {s : State} (h : (mems s).Wf) (sl : SlotId) (w : RegWrite) (slot : Option Bytes) :
    NextWf (execResume sl w slot s) := by
  simp only [execResume, onBar]; (repeat' split) <;> simp [h]

@[simp] theorem nextWf_execSkip {s : State} (h : (mems s).Wf) (sl : SlotId) (w : RegWrite) :
    NextWf (execSkip sl w s) := by
  simp only [execSkip, onBar]; (repeat' split) <;> simp [h]

@[simp] theorem nextWf_execLogEntryWrite {s : State} (h : (mems s).Wf) (r : CtxId) :
    NextWf (execLogEntryWrite r s) := by
  unfold execLogEntryWrite; split <;> simp [h]

@[simp] theorem nextWf_execLogNote {s : State} (h : (mems s).Wf) (sl : SlotId) (w : RegWrite) :
    NextWf (execLogNote sl w s) := by
  simp only [execLogNote, onBar]; (repeat' split) <;> simp [h]

@[simp] theorem nextWf_execLogModeWrite {s : State} (h : (mems s).Wf) (sl : SlotId) (w : RegWrite) :
    NextWf (execLogModeWrite sl w s) := by
  unfold execLogModeWrite; split <;> simp [h]

@[simp] theorem mems_startClock (s : State) (r tc : Nat) : mems (startClock s r tc) = mems s := by
  simp [startClock]

@[simp] theorem mems_readRing (es : List LogRec) (s : State) (r : Nat) : mems (readRing es s r) = mems s := by
  induction es generalizing s with
  | nil => rfl
  | cons e es ih =>
    unfold readRing
    split
    · rfl
    · simp [ih]

@[simp] theorem memsWf_acceptDue (n : Nat) {s : State} (h : (mems s).Wf) (r : Nat) : (mems (acceptDue n s r)).Wf := by
  induction n generalizing s with
  | zero => exact h
  | succ n ih =>
    unfold acceptDue
    split
    · exact h
    · split
      · exact ih (memsWf_acceptStep (by simpa using h) ..)
      · exact h

@[simp] theorem nextWf_execReplaySubmit {s : State} (h : (mems s).Wf) (r : CtxId) (entries : List LogRec) :
    NextWf (execReplaySubmit r entries s) := by
  unfold execReplaySubmit; split <;> simp [h]

/-! ### Contexts -/

@[simp] theorem mems_putCtl (s : State) (sl : Nat) (w : RegWrite) : mems (putCtl s sl w) = mems s := by
  simp [putCtl]

@[simp] theorem nextWf_execContextEnable {s : State} (h : (mems s).Wf) (sl : SlotId) (w : RegWrite) :
    NextWf (execContextEnable sl w s) := by
  simp [execContextEnable, h]

@[simp] theorem mems_refuseContext (s : State) (sl code : Nat) (partner : Option Counterpart) :
    mems (refuseContext s sl code partner) = mems s := by
  unfold refuseContext
  lift_lets
  extract_lets s₁ s₂
  have h₂ : mems s₂ = mems s := by
    simp only [s₂]
    split <;> simp [s₁]
  simp [h₂]

@[simp] theorem memsWf_admitContext {s : State} (h : (mems s).Wf) (sl : SlotId) (img : Image) :
    (mems (admitContext s sl img)).Wf := by
  unfold admitContext
  simp only [mems_cset]
  rw [mems_foldl (fun s f => mems_cset ..)]
  refine memsWf_mapShelf ?_ ..
  simpa using h

@[simp] theorem nextWf_execConsistencyCheck {s : State} (h : (mems s).Wf) (sl : SlotId) (bytes : Option Bytes)
    (img : Option Image) (partner : Option Counterpart) : NextWf (execConsistencyCheck sl bytes img partner s) := by
  simp only [execConsistencyCheck]; (repeat' split) <;> simp [h]

@[simp] theorem nextWf_execContextDisable {s : State} (h : (mems s).Wf) (sl : SlotId) (w : RegWrite) :
    NextWf (execContextDisable sl w s) := by
  simp only [execContextDisable, onBar]; (repeat' split) <;> simp [h]

@[simp] theorem nextWf_execDisableShelved {s : State} (h : (mems s).Wf) (w : RegWrite) :
    NextWf (execDisableShelved w s) := by
  simp [execDisableShelved, h]

@[simp] theorem mems_observe (s : State) : mems (observe s) = mems s := (rfl)

@[simp] theorem mems_parkRest (k : Nat) (s : State) (m : CoreId × Nat × Nat) : mems (parkRest k s m) = mems s := by
  simp [parkRest]

@[simp] theorem mems_beginShelve (s : State) (r : Nat) : mems (beginShelve s r) = mems s := by
  unfold beginShelve; split <;> simp

@[simp] theorem mems_completeShelve (s : State) (r : Nat) : mems (completeShelve s r) = mems s := by
  unfold completeShelve; split <;> simp

@[simp] theorem nextWf_execShelve {s : State} (h : (mems s).Wf) (sl : SlotId) (w : RegWrite) :
    NextWf (execShelve sl w s) := by
  simp only [execShelve, onBar]; (repeat' split) <;> simp [h]

@[simp] theorem mems_endShelve (s : State) (r : CtxId) : mems (endShelve s r) = mems s := by
  simp [endShelve]

@[simp] theorem nextWf_execShelvingComplete {s : State} (h : (mems s).Wf) (r : CtxId) :
    NextWf (execShelvingComplete r s) := by
  simp only [execShelvingComplete, onClock]; split <;> simp [h]

@[simp] theorem mems_beginReturn (s : State) (r : Nat) : mems (beginReturn s r) = mems s := by
  unfold beginReturn; split <;> simp

@[simp] theorem mems_unshelveCore (k : Nat) (s : State) (e : ShelfCore) : mems (unshelveCore k s e) = mems s := by
  simp [unshelveCore]

@[simp] theorem memsWf_endReturn {s : State} (h : (mems s).Wf) (r : Nat) : (mems (endReturn s r)).Wf := by
  simp [endReturn, h]

@[simp] theorem mems_abandonReturn (s : State) (r : Nat) : mems (abandonReturn s r) = mems s := by
  unfold abandonReturn; split <;> simp

@[simp] theorem memsWf_completeReturn {s : State} (h : (mems s).Wf) (r : Nat) (bytes : Option Bytes) :
    (mems (completeReturn s r bytes)).Wf := by
  simp only [completeReturn]; (repeat' split) <;> simp [h]

@[simp] theorem nextWf_execReturnCtx {s : State} (h : (mems s).Wf) (w : RegWrite) : NextWf (execReturnCtx w s) := by
  simp [execReturnCtx, h]

@[simp] theorem nextWf_execReturnComplete {s : State} (h : (mems s).Wf) (r : CtxId) (bytes : Option Bytes) :
    NextWf (execReturnComplete r bytes s) := by
  simp only [execReturnComplete, onClock]; (repeat' split) <;> simp [h]

@[simp] theorem nextWf_execSwap {s : State} (h : (mems s).Wf) : NextWf (execSwap s) := by
  simp only [execSwap, onClock]; (repeat' split) <;> simp [h]

@[simp] theorem mems_claimCore (r k : Nat) (args : List (BitVec 32)) (entry : Nat) (s : State)
    (p : Nat × CoreImage) : mems (claimCore r k args entry s p) = mems s := (rfl)

@[simp] theorem memsWf_startFloat {s : State} (h : (mems s).Wf) (r : Nat) (st : Step) (ps : List (Nat × CoreImage)) :
    (mems (startFloat s r st ps)).Wf := by
  unfold startFloat; split <;> simp [h]

@[simp] theorem nextWf_execFloatingClaim {s : State} (h : (mems s).Wf) (r : CtxId) (i : Nat) :
    NextWf (execFloatingClaim r i s) := by
  simp only [execFloatingClaim]; (repeat' split) <;> simp [h]

@[simp] theorem mems_losePart (n : Nat) (s : State) (k : Nat) : mems (losePart n s k) = mems s := by
  unfold losePart; split <;> simp

@[simp] theorem mems_loseCore (s : State) (r n : Nat) : mems (loseCore s r n) = mems s := by
  unfold loseCore; split <;> simp

@[simp] theorem nextWf_execFloatTimeout {s : State} (h : (mems s).Wf) (r : CtxId) (i : Nat) :
    NextWf (execFloatTimeout r i s) := by
  simp only [execFloatTimeout]; (repeat' split) <;> simp [h]

/-! ### The timecode unit -/

@[simp] theorem mems_nextCount (s : State) : mems (nextCount s) = mems s := by
  simp [nextCount]

@[simp] theorem nextWf_execTcSet {s : State} (h : (mems s).Wf) (w : RegWrite) : NextWf (execTcSet w s) := by
  simp [execTcSet, h]

@[simp] theorem mems_standNoMore (s : State) : mems (standNoMore s) = mems s := (rfl)

@[simp] theorem mems_dropSlew (s : State) : mems (dropSlew s) = mems s := (rfl)

@[simp] theorem mems_enterAcquire (s : State) : mems (enterAcquire s) = mems s := (rfl)

@[simp] theorem mems_enterFree (s : State) : mems (enterFree s) = mems s := (rfl)

@[simp] theorem nextWf_execReacq {s : State} (h : (mems s).Wf) (w : RegWrite) : NextWf (execReacq w s) := by
  simp [execReacq, h]

@[simp] theorem nextWf_execStandStillEnd {s : State} (h : (mems s).Wf) : NextWf (execStandStillEnd s) := by
  simp [execStandStillEnd, h]

@[simp] theorem mems_follow (s : State) : mems (follow s) = mems s := by
  simp only [follow]; (repeat' split) <;> simp

@[simp] theorem mems_unhear (s : State) (p : Nat) : mems (unhear s p) = mems s := by
  simp [unhear]

@[simp] theorem nextWf_execMarkerSend {s : State} (h : (mems s).Wf) (p : PortId) : NextWf (execMarkerSend p s) := by
  simp [execMarkerSend, h]

@[simp] theorem mems_acquireStep (s : State) (target : Nat) : mems (acquireStep s target) = mems s := by
  simp [acquireStep]

@[simp] theorem mems_timeAlarm (s : State) (f : Fld) : mems (timeAlarm s f) = mems s := by
  simp [timeAlarm]

@[simp] theorem mems_upMarker (s : State) (d : ℤ) (m : Marker) : mems (upMarker s d m) = mems s := by
  simp only [upMarker]; split <;> simp

@[simp] theorem nextWf_execMarker {s : State} (h : (mems s).Wf) (p : PortId) (m : Marker) :
    NextWf (execMarker p m s) := by
  simp only [execMarker, onClock]; (repeat' split) <;> simp [h]

@[simp] theorem mems_startTicks (s : State) (g : Nat) : mems (startTicks s g) = mems s := (rfl)

@[simp] theorem nextWf_execTick {s : State} (h : (mems s).Wf) (g : Fin 4) : NextWf (execTick g s) := by
  simp [execTick, h]

end Sys2Proof.Machine

end

section
/-! PROOFS. Scope: the memories outside cores and contexts, under the work of links, requests, snapshots and reels. -/

open Sys2Proof.Machine

namespace Sys2Proof.Machine

/-! ### Link ports -/

@[simp] theorem mems_portEvent (s : State) (p : Nat) (f : Fld) : mems (portEvent s p f) = mems s := by
  simp [portEvent]

@[simp] theorem mems_dropBuffer (s : State) (p : Nat) : mems (dropBuffer s p) = mems s := (rfl)

@[simp] theorem mems_dropLink (s : State) (p : Nat) : mems (dropLink s p) = mems s := by
  simp [dropLink]

@[simp] theorem mems_leftDetect (s : State) (p : Nat) : mems (leftDetect s p) = mems s := by
  simp [leftDetect]

@[simp] theorem memsWf_portFail {s : State} (h : (mems s).Wf) (p code : Nat) : (mems (portFail s p code)).Wf := by
  simp [portFail, h]

@[simp] theorem mems_toDetect (s : State) (p : Nat) : mems (toDetect s p) = mems s := by
  simp [toDetect]

@[simp] theorem mems_toOff (s : State) (p : Nat) : mems (toOff s p) = mems s := by
  simp [toOff]

@[simp] theorem memsWf_retireLanes {s : State} (h : (mems s).Wf) (p m : Nat) : (mems (retireLanes s p m)).Wf := by
  unfold retireLanes
  lift_lets
  extract_lets st hit active left s₁ s₂ s₃ s₄
  have h₃ : (mems s₃).Wf := memsWf_foldl (fun _ _ h => memsWf_faultRecord h ..) _ (by simpa [s₂, s₁] using h)
  split
  · exact h
  · split
    · exact h₃
    · split
      · exact memsWf_portFail h₃ ..
      · split <;> simpa [s₄] using h₃

@[simp] theorem nextWf_execLaneFault {s : State} (h : (mems s).Wf) (p : PortId) (lane : Fin 8) :
    NextWf (execLaneFault p lane s) := by
  simp only [execLaneFault, onClock]; split <;> simp [h]

@[simp] theorem mems_putDelay (s : State) (p : Nat) (d : ℤ) : mems (putDelay s p d) = mems s := (rfl)

@[simp] theorem memsWf_replayPort {s : State} (h : (mems s).Wf) (p : Nat) : (mems (replayPort s p)).Wf := by
  unfold replayPort; split <;> simp [h]

@[simp] theorem nextWf_execRelaneComplete {s : State} (h : (mems s).Wf) (p : PortId) (ok : Bool)
    (markers : List Marker) : NextWf (execRelaneComplete p ok markers s) := by
  simp only [execRelaneComplete, onClock]; (repeat' split) <;> simp [h]

@[simp] theorem memsWf_putLink {s : State} (h : (mems s).Wf) (p : Nat) (w : RegWrite) :
    (mems (putLink s p w)).Wf := by
  simp [putLink, h]

@[simp] theorem nextWf_execLinkEnable {s : State} (h : (mems s).Wf) (p : PortId) (w : RegWrite) :
    NextWf (execLinkEnable p w s) := by
  simp only [execLinkEnable, onBar]; (repeat' split) <;> simp [h]

@[simp] theorem nextWf_execLinkDisable {s : State} (h : (mems s).Wf) (p : PortId) (w : RegWrite) :
    NextWf (execLinkDisable p w s) := by
  simp only [execLinkDisable, onBar]; split <;> simp [h]

@[simp] theorem mems_portBytes (s : State) (p msg : Nat) (bs : Bytes) : mems (portBytes s p msg bs) = mems s := by
  simp [portBytes]

@[simp] theorem nextWf_execDetectBurst {s : State} (h : (mems s).Wf) (p : PortId) (lanes : BitVec 8) :
    NextWf (execDetectBurst p lanes s) := by
  simp only [execDetectBurst, onClock]; split <;> simp [h]

@[simp] theorem memsWf_trainingFailed {s : State} (h : (mems s).Wf) (p : Nat) : (mems (trainingFailed s p)).Wf := by
  simp [trainingFailed, h]

@[simp] theorem nextWf_execLinkTraining {s : State} (h : (mems s).Wf) (p : PortId) (lanes : Option (BitVec 8)) :
    NextWf (execLinkTraining p lanes s) := by
  simp only [execLinkTraining, onClock]; (repeat' split) <;> simp [h]

@[simp] theorem mems_beginKeyx (s : State) (p : Nat) : mems (beginKeyx s p) = mems s := by
  simp [beginKeyx]

@[simp] theorem mems_endKeyx (s : State) (p : Nat) (partner : Bytes) : mems (endKeyx s p partner) = mems s := by
  simp [endKeyx]

@[simp] theorem mems_firstKeys (s : State) (p : Nat) : mems (firstKeys s p) = mems s := (rfl)

@[simp] theorem nextWf_execKeyx {s : State} (h : (mems s).Wf) (p : PortId) (partner : Option Bytes) :
    NextWf (execKeyx p partner s) := by
  simp only [execKeyx, onClock]; (repeat' split) <;> simp [h]

@[simp] theorem nextWf_execTimecal {s : State} (h : (mems s).Wf) (p : PortId) (markers : List Marker) :
    NextWf (execTimecal p markers s) := by
  unfold execTimecal; split <;> simp [h]

@[simp] theorem nextWf_execLinkStateTimeout {s : State} (h : (mems s).Wf) (p : PortId) :
    NextWf (execLinkStateTimeout p s) := by
  simp only [execLinkStateTimeout, onClock]; (repeat' split) <;> simp [h]

@[simp] theorem nextWf_execRekey {s : State} (h : (mems s).Wf) (p : PortId) (partner : Option Bytes) :
    NextWf (execRekey p partner s) := by
  simp only [execRekey, onClock]; (repeat' split) <;> simp [h]

theorem mems_rxPackets {k : Nat} {s t : State} {p : Nat} (h : rxPackets k s p = some t) : mems t = mems s := by
  induction k generalizing s with
  | zero => rw [← Option.some.inj h]
  | succ k ih =>
    unfold rxPackets at h
    lift_lets at h
    extract_lets q bs hd n ks s' at h
    split at h
    · simpa using ih h
    · split at h
      · rw [← Option.some.inj h]
      · split at h
        · cases h
        · simpa [s'] using ih h

@[simp] theorem mems_ctrlFreed (s : State) (p : Nat) (f : Flit) : mems (ctrlFreed s p f) = mems s := by
  simp [ctrlFreed]

@[simp] theorem memsWf_takeFlit {s : State} (h : (mems s).Wf) (p : Nat) (f : Flit) :
    (mems (takeFlit s p f)).Wf := by
  simp only [takeFlit]
  split
  · exact memsWf_portFail (by simpa using h) ..
  next hr =>
    rw [mems_drainPort]
    have ht := mems_rxPackets hr
    split
    · exact memsWf_replayPort (by simpa [ht] using h) ..
    · simpa [ht] using h

@[simp] theorem memsWf_noteFixed {s : State} (h : (mems s).Wf) (p : Nat) (fixed : List Nat) :
    (mems (noteFixed s p fixed)).Wf := by
  simp [noteFixed, h]

@[simp] theorem nextWf_execFlitReceive {s : State} (h : (mems s).Wf) (p : PortId) (head : BitVec 64)
    (payload check : Bytes) : NextWf (execFlitReceive p head payload check s) := by
  simp only [execFlitReceive, onClock]; (repeat' split) <;> simp [h]

@[simp] theorem nextWf_execRetryTimeout {s : State} (h : (mems s).Wf) (p : PortId) :
    NextWf (execRetryTimeout p s) := by
  simp only [execRetryTimeout, onClock]; split <;> simp [h]

@[simp] theorem mems_portDown (s : State) (p : Nat) : mems (portDown s p) = mems s := by
  simp [portDown]

@[simp] theorem mems_abortCopies (s : State) : mems (abortCopies s) = mems s := by
  refine (mems_intPauseAll _).trans (mems_foldl (fun s e => ?_) _ _)
  split
  · split <;> simp
  · rfl

@[simp] theorem nextWf_execLossOfSignal {s : State} (h : (mems s).Wf) (p : PortId) :
    NextWf (execLossOfSignal p s) := by
  simp [execLossOfSignal, h]

@[simp] theorem nextWf_execRouteEntryWrite {s : State} (h : (mems s).Wf) (w : RegWrite) :
    NextWf (execRouteEntryWrite w s) := by
  simp [execRouteEntryWrite, h]

@[simp] theorem nextWf_execCreditFloorWrite {s : State} (h : (mems s).Wf) (c : Fin 8) (w : RegWrite) :
    NextWf (execCreditFloorWrite c w s) := by
  unfold execCreditFloorWrite; split <;> simp [h]

@[simp] theorem nextWf_execRqWindowEnable {s : State} (h : (mems s).Wf) (i : Fin 32) (w : RegWrite) :
    NextWf (execRqWindowEnable i w s) := by
  simp only [execRqWindowEnable, onBar]; (repeat' split) <;> simp [h]

/-! ### Packets received -/

@[simp] theorem mems_rqLand (a n : Nat) (s : State) (i : Nat) : mems (rqLand a n s i) = mems s := (rfl)

theorem memsWf_takeWrite {s t : State} {pk : Packet} (h : takeWrite s pk = some t) (hs : (mems s).Wf) :
    (mems t).Wf := by
  simp only [takeWrite] at h
  split at h
  · cases h
  · obtain ⟨u, hu, rfl⟩ := Option.map_eq_some_iff.1 h
    simpa using memsWf_globalWrite hu hs

theorem memsWf_takeAtomic {s t : State} {pk : Packet} (h : takeAtomic s pk = some t) (hs : (mems s).Wf) :
    (mems t).Wf := by
  simp only [takeAtomic] at h
  split at h
  · cases h
  · exact memsWf_globalAtomic h hs

@[simp] theorem mems_takeToken (s : State) (pk : Packet) : mems (takeToken s pk).1 = mems s := by
  simp [takeToken]

@[simp] theorem memsWf_serveNow {s : State} (h : (mems s).Wf) (pk : Packet) : (mems (serveNow s pk)).Wf := by
  simp only [serveNow]
  split
  · split
    next hw =>
      split at hw
      · cases hw
      · simpa using memsWf_takeWrite hw h
    next => simpa using h
  · split <;> simpa using h
  · split
    all_goals
      next ht => simpa [mems_of_eq ht] using h
  · split
    next hw =>
      split at hw
      · cases hw
      · simpa using memsWf_takeAtomic hw h
    next => simpa using h
  · exact h

@[simp] theorem memsWf_serve {s : State} (h : (mems s).Wf) (p : Nat) (pk : Packet) : (mems (serve s p pk)).Wf := by
  simp [serve, h]

@[simp] theorem memsWf_serveStalled {s : State} (h : (mems s).Wf) : (mems (serveStalled s)).Wf := by
  refine memsWf_foldl (fun s e h => ?_) _ h
  split
  · simpa using h
  · exact memsWf_serve h ..

@[simp] theorem mems_dropPkt (s : State) (p : Nat) (pk : Packet) (f : Fld) : mems (dropPkt s p pk f) = mems s := (rfl)

@[simp] theorem mems_transit (s : State) (p : Nat) (pk : Packet) : mems (transit s p pk) = mems s := by
  unfold transit
  split
  · simp
  · cases hp : sendFrom s (some p) { pk with hops := pk.hops - 1 } with
    | none => simp
    | some t => exact mems_sendFrom hp

@[simp] theorem mems_inbound (s : State) (p : Nat) (pk : Packet) : mems (inbound s p pk).1 = mems s := by
  simp [inbound]

@[simp] theorem nextWf_onRequest {s : State} (h : (mems s).Wf) (type : Nat) (p : PortId) (pk : Packet) :
    NextWf (onRequest type p pk s) := by
  unfold onRequest
  split
  · simp
  · split
    · simp
    · split
      all_goals
        next hi => simp [mems_of_eq hi, h]

@[simp] theorem nextWf_execWritePkt {s : State} (h : (mems s).Wf) (p : PortId) (pkt : Packet) :
    NextWf (execWritePkt p pkt s) := by
  simp [execWritePkt, h]

@[simp] theorem nextWf_execReadReq {s : State} (h : (mems s).Wf) (p : PortId) (pkt : Packet) :
    NextWf (execReadReq p pkt s) := by
  simp [execReadReq, h]

@[simp] theorem nextWf_execTokenPacket {s : State} (h : (mems s).Wf) (p : PortId) (pkt : Packet) :
    NextWf (execTokenPacket p pkt s) := by
  simp [execTokenPacket, h]

@[simp] theorem nextWf_execAtomic {s : State} (h : (mems s).Wf) (p : PortId) (pkt : Packet) :
    NextWf (execAtomic p pkt s) := by
  simp [execAtomic, h]

@[simp] theorem mems_tokenOutcome (s : State) (q : Req) (o : Nat) : mems (tokenOutcome s q o) = mems s := by
  unfold tokenOutcome; split <;> simp

@[simp] theorem mems_collFail (s : State) (e r idx outcome : Nat) : mems (collFail s e r idx outcome) = mems s := by
  simp [collFail]

@[simp] theorem memsWf_endRequest {s : State} (h : (mems s).Wf) (q : Req) (fault outcome print : Nat) :
    (mems (endRequest s q fault outcome print)).Wf := by
  unfold endRequest; split <;> simp [h]

@[simp] theorem memsWf_linkEnd {s : State} (h : (mems s).Wf) (q : Req) : (mems (linkEnd s q)).Wf := by
  simp [linkEnd, h]

@[simp] theorem memsWf_resend {s : State} (h : (mems s).Wf) (q : Req) : (mems (resend s q)).Wf := by
  simp only [resend]
  split
  next hs => simpa [mems_sendPkt hs] using h
  next => exact memsWf_linkEnd h ..

@[simp] theorem nextWf_execRequestResend {s : State} (h : (mems s).Wf) (id : Nat) :
    NextWf (execRequestResend id s) := by
  unfold execRequestResend; split <;> simp [h]

@[simp] theorem nextWf_execRequestRto {s : State} (h : (mems s).Wf) (id : Nat) : NextWf (execRequestRto id s) := by
  unfold execRequestRto; split <;> simp [h]

@[simp] theorem nextWf_execNotYetRetry {s : State} (h : (mems s).Wf) (id : Nat) :
    NextWf (execNotYetRetry id s) := by
  unfold execNotYetRetry; split <;> simp [h]

@[simp] theorem nextWf_execNotYetTimeout {s : State} (h : (mems s).Wf) (id : Nat) :
    NextWf (execNotYetTimeout id s) := by
  simp only [execNotYetTimeout]; (repeat' split) <;> simp [h]

@[simp] theorem mems_reportAnswer (s : State) (q : Req) : mems (reportAnswer s q) = mems s := by
  simp [reportAnswer]

@[simp] theorem memsWf_readDone {s : State} (h : (mems s).Wf) (q : Req) (pk : Packet) :
    (mems (readDone s q pk)).Wf := by
  unfold readDone; (repeat' split) <;> simp [h]

@[simp] theorem nextWf_execReadResp {s : State} (h : (mems s).Wf) (p : PortId) (pkt : Packet) :
    NextWf (execReadResp p pkt s) := by
  refine nextWf_onClock h ?_
  simp only
  split
  · simp
  · split
    next he => simpa [mems_of_eq he] using h
    next he =>
      split
      · simpa [mems_of_eq he] using h
      · split
        · simp
        · simp [mems_of_eq he, h]

@[simp] theorem memsWf_ackDone {s : State} (h : (mems s).Wf) (q : Req) (pk : Packet) :
    (mems (ackDone s q pk)).Wf := by
  unfold ackDone; (repeat' split) <;> simp [h]

@[simp] theorem nextWf_execAck {s : State} (h : (mems s).Wf) (p : PortId) (pkt : Packet) :
    NextWf (execAck p pkt s) := by
  refine nextWf_onClock h ?_
  simp only
  split
  · simp
  · split
    next he => simpa [mems_of_eq he] using h
    next he =>
      split
      · simpa [mems_of_eq he] using h
      · simp [mems_of_eq he, h]

/-! ### Snapshots -/

@[simp] theorem memsWf_destTable {s : State} (h : (mems s).Wf) (r n : Nat) : (mems (destTable s r n).1).Wf := by
  simp only [destTable]
  split
  · exact h
  · split
    all_goals
      next hr => exact (mems_of_eq hr).symm ▸ memsWf_cvRead h ..

@[simp] theorem memsWf_printCheck {s : State} (h : (mems s).Wf) (r : Nat) : (mems (printCheck s r).1).Wf := by
  simp only [printCheck]
  split
  · exact h
  · split
    · next hd => exact (mems_of_eq hd).symm ▸ memsWf_destTable h ..
    · next hd =>
        have ht := (mems_of_eq hd).symm ▸ memsWf_destTable h r _
        split
        · exact ht
        · split <;> exact ht

@[simp] theorem memsWf_printGo {s : State} (h : (mems s).Wf) (r : Nat) : (mems (printGo s r)).Wf := by
  unfold printGo
  split
  all_goals
    next hp =>
      have ht := (mems_of_eq hp).symm ▸ memsWf_printCheck h r
      simpa using ht

@[simp] theorem nextWf_execGoSnapshot {s : State} (h : (mems s).Wf) (sl : SlotId) (w : RegWrite) :
    NextWf (execGoSnapshot sl w s) := by
  simp only [execGoSnapshot, onBar]; (repeat' split) <;> simp [h]

theorem mems_shipPage {s t : State} {r pg dst : Nat} (h : shipPage s r pg dst = some t) : mems t = mems s := by
  refine mems_foldl_bind (fun s i t ht => ?_) h
  obtain ⟨u, hu, rfl⟩ := Option.map_eq_some_iff.1 ht
  simpa using mems_request hu

/-- One page of a print shipped, and the rest. The proof takes any function for the page's send, so that nothing
evaluates its 512 packets. -/
theorem shipPages_cons (p : Nat × Nat) (ps : List (Nat × Nat)) (s : State) (r : Nat) : shipPages (p :: ps) s r =
    match shipPage s r p.1 p.2 with
    | some s => shipPages ps s r
    | none => printFail s r 4 := by
  delta shipPages shipPages._f
  generalize shipPage = f
  rfl

@[simp] theorem mems_shipPages (ps : List (Nat × Nat)) (s : State) (r : Nat) : mems (shipPages ps s r) = mems s := by
  induction ps generalizing s with
  | nil => rfl
  | cons p ps ih =>
    rw [shipPages_cons]
    split
    next hp => exact (ih _).trans (mems_shipPage hp)
    next => simp

@[simp] theorem nextWf_execSnapshotStart {s : State} (h : (mems s).Wf) (r : CtxId) :
    NextWf (execSnapshotStart r s) := by
  simp only [execSnapshotStart, onClock]; (repeat' split) <;> simp [h]

@[simp] theorem mems_printDone (s : State) (r : Nat) (p : Snap) : mems (printDone s r p) = mems s := by
  simp [printDone]

@[simp] theorem nextWf_execSnapshotPageSent {s : State} (h : (mems s).Wf) (r : CtxId) :
    NextWf (execSnapshotPageSent r s) := by
  simp only [execSnapshotPageSent, onClock]; (repeat' split) <;> simp [h]

/-! ### Reels -/

@[simp] theorem mems_reelRefuse (s : State) (r e : Nat) : mems (reelRefuse s r e) = mems s := by
  simp [reelRefuse]

@[simp] theorem mems_putLines (s : State) (r : Nat) : mems (putLines s r) = mems s := by
  unfold putLines; split <;> simp

@[simp] theorem nextWf_execReelStreamBind {s : State} (h : (mems s).Wf) (sl : SlotId) (k : Fin 4) (w : RegWrite) :
    NextWf (execReelStreamBind sl k w s) := by
  simp only [execReelStreamBind, onBar]; (repeat' split) <;> simp [h]

@[simp] theorem mems_toDevice (s : State) (dev msg : Nat) (data : List Nat) :
    mems (toDevice s dev msg data) = mems s := by
  unfold toDevice; split <;> simp

@[simp] theorem mems_sendChunk (s : State) (dev gen shard chunk : Nat) (data : Bytes) :
    mems (sendChunk s dev gen shard chunk data) = mems s := by
  simp [sendChunk]

@[simp] theorem mems_readChunk (s : State) (r : Nat) (h : Shard) (i : Nat) : mems (readChunk s r h i) = mems s := by
  simp [readChunk]

@[simp] theorem mems_readNext (s : State) (r tile : Nat) : mems (readNext s r tile) = mems s := by
  unfold readNext; (repeat' split) <;> simp

@[simp] theorem mems_reelStaged (s : State) (r : Nat) : mems (reelStaged s r) = mems s := by
  simp [reelStaged]

@[simp] theorem mems_reelGoLoad (s : State) (r : Nat) (manifest : Option Bytes) :
    mems (reelGoLoad s r manifest) = mems s := by
  unfold reelGoLoad; (repeat' split) <;> simp

@[simp] theorem mems_reelCtl (s : State) (sl : Nat) (w : RegWrite) (manifest : Option Bytes) :
    mems (reelCtl s sl w manifest) = mems s := by
  simp only [reelCtl]; split <;> simp

@[simp] theorem nextWf_execReelLoad {s : State} (h : (mems s).Wf) (sl : SlotId) (w : RegWrite)
    (manifest : Option Bytes) : NextWf (execReelLoad sl w manifest s) := by
  simp [execReelLoad, h]

@[simp] theorem nextWf_execAbort {s : State} (h : (mems s).Wf) (sl : SlotId) (w : RegWrite) :
    NextWf (execAbort sl w s) := by
  simp [execAbort, h]

@[simp] theorem nextWf_execCommit {s : State} (h : (mems s).Wf) (sl : SlotId) (w : RegWrite) :
    NextWf (execCommit sl w s) := by
  simp [execCommit, h]

@[simp] theorem mems_chunkFail (kind r : Nat) (h : Shard) (s : State) (i : Nat) :
    mems (chunkFail kind r h s i) = mems s := by
  simp only [chunkFail]; (repeat' split) <;> simp

@[simp] theorem mems_shardFail (s : State) (r : Nat) (h : Shard) : mems (shardFail s r h) = mems s := by
  simp [shardFail]

/-- The memories that a chunk's page leaves, where there is one. -/
def ChunkPage.Wf : ChunkPage → Prop
  | .there s => (mems s).Wf
  | .wait s => (mems s).Wf
  | .quota => True

theorem memsWf_chunkPage {s : State} (hs : (mems s).Wf) (r : Nat) (l : ReelLoad) (h : Shard) (i : Nat) :
    (chunkPage s r l h i).Wf := by
  simp only [chunkPage]
  split
  · split
    · split <;> exact hs
    · exact hs
  · split
    · trivial
    · split
      next p hp =>
        split
        · exact hs
        · refine memsWf_mapPage ?_ ..
          rw [mems_placePage (p := p.2) hp]
          simpa using hs
      next => simpa [ChunkPage.Wf] using hs

@[simp] theorem mems_settleShard (s : State) (r : Nat) (h : Shard) : mems (settleShard s r h) = mems s := by
  unfold settleShard; split <;> simp

@[simp] theorem memsWf_takeChunk {s : State} (hs : (mems s).Wf) (r : Nat) (l : ReelLoad) (h : Shard) (i : Nat)
    (data sealed_ : Bytes) : (mems (takeChunk s r l h i data sealed_)).Wf := by
  have hp := memsWf_chunkPage hs r l h i
  unfold takeChunk
  split
  next he => rwa [he] at hp
  next => simpa using hs
  next t he =>
    rw [he] at hp
    have ht := memsWf_putText (s := t) hp r (chunkVa t r l h i) data []
    simp only [mems_settleShard, mems_readNext, mems_putLines]
    split <;> simpa using ht

@[simp] theorem nextWf_execReelChunk {s : State} (h : (mems s).Wf) (r : CtxId) (shard chunk : Nat) (data : Bytes) :
    NextWf (execReelChunk r shard chunk data s) := by
  simp only [execReelChunk, onClock]; (repeat' split) <;> simp [h]

@[simp] theorem nextWf_execChunkTimeout {s : State} (h : (mems s).Wf) (r : CtxId) (shard chunk : Nat) :
    NextWf (execChunkTimeout r shard chunk s) := by
  unfold execChunkTimeout; split <;> simp [h]

@[simp] theorem mems_giveChunk (s : State) (r : Nat) (l : ReelLoad) (h : Shard) (i va : Nat) (dev : BitVec 12) :
    mems (giveChunk s r l h i va dev) = mems s := by
  unfold giveChunk; split <;> simp

@[simp] theorem nextWf_execChunkRequest {s : State} (h : (mems s).Wf) (r : CtxId) (shard chunk : Nat)
    (dev : BitVec 12) : NextWf (execChunkRequest r shard chunk dev s) := by
  unfold execChunkRequest; split <;> simp [h]

@[simp] theorem mems_switchPage (r off : Nat) (s : State) (pg : Nat) : mems (switchPage r off s pg) = mems s := by
  simp only [switchPage]; split <;> simp

@[simp] theorem nextWf_execReelSwitch {s : State} (h : (mems s).Wf) (r : CtxId) : NextWf (execReelSwitch r s) := by
  simp only [execReelSwitch, onClock]; (repeat' split) <;> simp [h]

end Sys2Proof.Machine

end

section
/-! PROOFS. Scope: the memories outside cores and contexts, under faults, keys, the pair, power and resets. -/

open Sys2Proof.Machine

namespace Sys2Proof.Machine

/-! ### Core faults, checks and tests -/

@[simp] theorem mems_loseMirrors (s : State) (n : Nat) : mems (loseMirrors s n) = mems s := (rfl)

@[simp] theorem mems_fence (s : State) (n : Nat) : mems (fence s n) = mems s := (rfl)

@[simp] theorem memsWf_coreFault {s : State} (h : (mems s).Wf) (n : Nat) : (mems (coreFault s n)).Wf := by
  unfold coreFault
  lift_lets
  extract_lets steps homes floats again s₁ s₂ lose s₃ s₄
  have hl : ∀ s k, mems (lose s k) = mems s := by
    intro s k
    simp only [lose]
    split <;> simp
  have h₂ : (mems s₂).Wf := memsWf_addRepair (by simpa [s₁] using h) ..
  split
  · exact h
  · exact memsWf_faultRecord (by simpa [s₄, s₃, hl] using h₂) ..

@[simp] theorem nextWf_execCoreFault {s : State} (h : (mems s).Wf) (n : CoreId) : NextWf (execCoreFault n s) := by
  simp [execCoreFault, h]

@[simp] theorem nextWf_execBeatTimeout {s : State} (h : (mems s).Wf) (n : CoreId) :
    NextWf (execBeatTimeout n s) := by
  simp only [execBeatTimeout, onClock]; split <;> simp [h]

@[simp] theorem nextWf_execDeviceFault {s : State} (h : (mems s).Wf) : NextWf (execDeviceFault s) := by
  simp [execDeviceFault, h]

@[simp] theorem mems_rehome (s : State) (r k n m : Nat) (img : Image) (e : ShelfCore) :
    mems (rehome s r k n m img e) = mems s := by
  unfold rehome; split <;> simp

@[simp] theorem mems_claimMirrors (s : State) (r b size : Nat) : mems (claimMirrors s r b size) = mems s := (rfl)

@[simp] theorem mems_freeMirrors (s : State) (r b size : Nat) : mems (freeMirrors s r b size) = mems s := (rfl)

@[simp] theorem mems_turnBuddy (s : State) (r m : Nat) (ic : CoreImage) (old : Option CoreId) :
    mems (turnBuddy s r m ic old) = mems s := by
  cases old <;> simp [turnBuddy]

@[simp] theorem mems_noteRetake (s : State) (r vx vy : Nat) (i : CutImage) :
    mems (noteRetake s r vx vy i) = mems s := by
  simp [noteRetake]

@[simp] theorem mems_recoverCounts (s : State) (r k n vx vy : Nat) :
    mems (recoverCounts s r k n vx vy) = mems s := by
  simp [recoverCounts]

@[simp] theorem nextWf_execRetake {s : State} (h : (mems s).Wf) (n : CoreId) (r : CtxId) :
    NextWf (execRetake n r s) := by
  simp only [execRetake, onClock]; (repeat' split) <;> simp [h]

@[simp] theorem nextWf_execMirrorCommit {s : State} (h : (mems s).Wf) (n : CoreId) (r : CtxId) :
    NextWf (execMirrorCommit n r s) := by
  simp only [execMirrorCommit, onClock]; (repeat' split) <;> simp [h]

@[simp] theorem mems_moveMirrors (s : State) (r k n m size : Nat) : mems (moveMirrors s r k n m size) = mems s :=
  (rfl)

theorem mems_moveHome {s t : State} {n k : Nat} (h : moveHome s n k = some t) : mems t = mems s := by
  simp only [moveHome] at h
  split at h
  · rw [← Option.some.inj h]
  · split at h
    · rw [← Option.some.inj h]
      simp
    · cases h

theorem mems_moveAll {s t : State} {n : Nat} (h : moveAll s n = some t) : mems t = mems s :=
  mems_foldl_bind (fun _ _ _ => mems_moveHome) h

@[simp] theorem mems_drainTest (s : State) : mems (drainTest s) = mems s := by
  unfold drainTest
  split
  · split
    · rfl
    · simp only
      split
      next hm => simp [mems_moveAll hm]
      next => simp
  · rfl

@[simp] theorem mems_testEnd (s : State) (result : Nat) : mems (testEnd s result) = mems s := (rfl)

@[simp] theorem mems_portToTest (s : State) (p : Nat) : mems (portToTest s p) = mems s := by
  simp [portToTest]

@[simp] theorem mems_laneToTest (s : State) (p lane : Nat) : mems (laneToTest s p lane) = mems s := by
  simp [laneToTest]

@[simp] theorem memsWf_testStart {s : State} (h : (mems s).Wf) (kind i lane : Nat) :
    (mems (testStart s kind i lane)).Wf := by
  unfold testStart; (repeat' split) <;> simp [h]

@[simp] theorem memsWf_autoTest {s : State} (h : (mems s).Wf) : (mems (autoTest s)).Wf := by
  refine memsWf_foldl (fun s n h => ?_) _ h
  split
  · exact memsWf_testStart (by simpa using h) ..
  · exact h

@[simp] theorem nextWf_execOnlineTest {s : State} (h : (mems s).Wf) (w : RegWrite) :
    NextWf (execOnlineTest w s) := by
  simp only [execOnlineTest, onBar]; (repeat' split) <;> simp [h]

@[simp] theorem memsWf_recordFails {s : State} (h : (mems s).Wf) (source : Nat) (fs : List TestFail) :
    (mems (recordFails s source fs)).Wf := memsWf_foldl (fun _ _ h => memsWf_addRepair h ..) _ h

@[simp] theorem memsWf_coreTestDone {s : State} (h : (mems s).Wf) (n : Nat) (fs : List TestFail) :
    (mems (coreTestDone s n fs)).Wf := by
  unfold coreTestDone
  lift_lets
  extract_lets s₁ s₂ s₃
  have h₂ : (mems s₂).Wf := memsWf_recordFails (memsWf_testRecord h ..) ..
  have h₃ : (mems s₃).Wf := by
    simp only [s₃]
    split
    · exact h₂
    · exact memsWf_addRepair h₂ ..
  simpa using h₃

@[simp] theorem memsWf_portTestDone {s : State} (h : (mems s).Wf) (kind p lane : Nat) (fs : List TestFail) :
    (mems (portTestDone s kind p lane fs)).Wf := by
  unfold portTestDone
  lift_lets
  extract_lets s₁ s₂ lost s₃ s₄
  have h₂ : (mems s₂).Wf := memsWf_recordFails (memsWf_testRecord h ..) ..
  have h₃ : (mems s₃).Wf := by simpa [s₃] using h₂
  have h₄ : (mems s₄).Wf := by
    simp only [s₄]
    split
    · exact h₃
    · split
      · exact memsWf_portFail h₃ ..
      · split <;> simpa using h₃
  simpa using h₄

@[simp] theorem nextWf_execOnlineTestComplete {s : State} (h : (mems s).Wf) (fails : List TestFail) :
    NextWf (execOnlineTestComplete fails s) := by
  simp only [execOnlineTestComplete]; (repeat' split) <;> simp [h]

@[simp] theorem nextWf_execPartnerTestRequest {s : State} (h : (mems s).Wf) (p : PortId) :
    NextWf (execPartnerTestRequest p s) := by
  simp [execPartnerTestRequest, h]

@[simp] theorem nextWf_execWrapTest {s : State} (h : (mems s).Wf) (w : RegWrite) : NextWf (execWrapTest w s) := by
  simp only [execWrapTest, onBar]; split <;> simp [h]

@[simp] theorem nextWf_execWrapTestComplete {s : State} (h : (mems s).Wf) (fails : List TestFail) :
    NextWf (execWrapTestComplete fails s) := by
  unfold execWrapTestComplete
  lift_lets
  extract_lets passed back lanes s₁ s₂ s₃ banks s₄ s₅ s₆
  have h₁ : (mems s₁).Wf := memsWf_foldl (fun _ _ h => memsWf_addRepair h ..) _ h
  have h₂ : (mems s₂).Wf := memsWf_foldl (fun _ _ h => memsWf_testRecord h ..) _ h₁
  have h₃ : (mems s₃).Wf := memsWf_recordFails h₂ ..
  have h₄ : (mems s₄).Wf := memsWf_foldl (fun _ _ h => memsWf_addRepair h ..) _ h₃
  have h₅ : (mems s₅).Wf := memsWf_foldl (fun _ _ h => memsWf_addRepair h ..) _ h₄
  split
  · simpa using h
  · simpa [s₆] using h₅

@[simp] theorem mems_failEnded (s : State) (r : Nat) (id : BitVec 64) (o : Nat) :
    mems (failEnded s r id o) = mems s := by
  simp [failEnded]

@[simp] theorem mems_failStep (s : State) (r : Nat) (id : BitVec 64) (o : Nat) :
    mems (failStep s r id o) = mems s := by
  simp [failStep]

@[simp] theorem mems_dropCheck (s : State) (r : Nat) (ok : CheckRun → Bool) : mems (dropCheck s r ok) = mems s :=
  (rfl)

@[simp] theorem nextWf_execCheckTake {s : State} (h : (mems s).Wf) (n : CoreId) (r : CtxId) (orig : Digest)
    (check : TakeRun) : NextWf (execCheckTake n r orig check s) := by
  simp only [execCheckTake, onClock]; (repeat' split) <;> simp [h]

@[simp] theorem memsWf_suspect {s : State} (h : (mems s).Wf) (r : Nat) (id : BitVec 64) (n : CoreId) :
    (mems (suspect r id s n)).Wf := by
  simp [suspect, h]

@[simp] theorem nextWf_execArbiter {s : State} (h : (mems s).Wf) (n : CoreId) (r : CtxId) (arb : TakeRun) :
    NextWf (execArbiter n r arb s) := by
  refine nextWf_onClock h ?_
  simp only
  split
  · simpa using h
  next k _ =>
    split
    · simpa using h
    next m orig check _ =>
      split
      · simp [h]
      · rw [nextWf_next]
        exact memsWf_autoTest (memsWf_foldl (fun _ _ h => memsWf_suspect h ..) _ (by simpa using h))

@[simp] theorem nextWf_execHealthRecord {s : State} (h : (mems s).Wf) : NextWf (execHealthRecord s) := by
  simp [execHealthRecord, h]

/-! ### Reads of registers that clear -/

@[simp] theorem mems_clearRc (i j : Nat) (s : State) (f : Fld) : mems (clearRc i j s f) = mems s := by
  simp [clearRc]

@[simp] theorem mems_readClears (s : State) (r : RegD) (i j : Nat) (h : Half) :
    mems (readClears s r i j h) = mems s := by
  simp [readClears]

/-! ### The security processor -/

@[simp] theorem mems_fetchOver (s : State) : mems (fetchOver s) = mems s := (rfl)

@[simp] theorem mems_bootReject (s : State) (code : Nat) : mems (bootReject s code) = mems s := by
  simp [bootReject]

@[simp] theorem mems_bootAccept (s : State) (img : FwImage) : mems (bootAccept s img) = mems s := by
  simp [bootAccept]

@[simp] theorem nextWf_execFirmwareFetch {s : State} (h : (mems s).Wf) (w : RegWrite) :
    NextWf (execFirmwareFetch w s) := by
  simp [execFirmwareFetch, h]

@[simp] theorem nextWf_execBootCheck {s : State} (h : (mems s).Wf) (img : FwImage) :
    NextWf (execBootCheck img s) := by
  simp only [execBootCheck]; (repeat' split) <;> simp [h]

@[simp] theorem nextWf_execFirmwareFetchTimeout {s : State} (h : (mems s).Wf) :
    NextWf (execFirmwareFetchTimeout s) := by
  simp [execFirmwareFetchTimeout, h]

@[simp] theorem mems_keyLoss (r slot : Nat) (s : State) : mems (keyLoss r slot s) = mems s := by
  unfold keyLoss; split <;> simp

@[simp] theorem mems_dropPageKeys (s : State) (sel : Nat → Bool) : mems (dropPageKeys s sel) = mems s := by
  simp [dropPageKeys]

@[simp] theorem mems_emptyStore (s : State) : mems (emptyStore s) = mems s := by
  simp [emptyStore]

@[simp] theorem mems_emptyKeys (s : State) : mems (emptyKeys s) = mems s := by
  simp [emptyKeys]

@[simp] theorem nextWf_execIdent {s : State} (h : (mems s).Wf) (p : PortId) (info : Option IdentInfo) :
    NextWf (execIdent p info s) := by
  simp only [execIdent, onClock]; (repeat' split) <;> simp [h]

@[simp] theorem mems_powerFlag (s : State) (f : Fld) : mems (powerFlag s f) = mems s := by
  simp [powerFlag]

@[simp] theorem mems_enterRetain (s : State) : mems (enterRetain s) = mems s := by
  simp [enterRetain]

@[simp] theorem mems_retain (s : State) : mems (retain s) = mems s := by
  simp only [retain]; split <;> simp

@[simp] theorem memsWf_mbAnswer {s : State} (h : (mems s).Wf) (src : MbSrc) (result : Nat) (resp : Bytes) :
    (mems (mbAnswer s src result resp)).Wf := by
  unfold mbAnswer
  split
  · simp only [mems_signal, mems_fset]
    split
    · exact h
    · exact memsWf_hostWrite h ..
  · obtain ⟨hh, hd, hw⟩ := h
    exact ⟨hh, hd, memWf_mwrite hw⟩

@[simp] theorem memsWf_mbDone {s : State} (h : (mems s).Wf) (src : MbSrc) (result : Nat) (resp : Bytes) :
    (mems (mbDone s src result resp)).Wf := by
  simp [mbDone, h]

/-- What a mailbox command's result leaves. -/
def MbWf (x : Except Nat (State × Bytes)) : Prop := ∀ p, x = .ok p → (mems p.1).Wf

@[simp] theorem mbWf_error (e : Nat) : MbWf (.error e) := by simp [MbWf]
@[simp] theorem mbWf_ok (p : State × Bytes) : MbWf (.ok p) ↔ (mems p.1).Wf := by simp [MbWf]

@[simp] theorem nextWf_mbRun {src : MbSrc} {s : State} {f : State → Except Nat (State × Bytes)} (h : (mems s).Wf)
    (hf : MbWf (f s)) : NextWf (mbRun src s f) := by
  unfold mbRun
  split
  · simpa using h
  · split
    · simp [h]
    next hr => exact (nextWf_next _).2 (memsWf_mbDone (hf _ hr) ..)

@[simp] theorem nextWf_execGetCerts {s : State} (h : (mems s).Wf) (src : MbSrc) (req : Bytes) :
    NextWf (execGetCerts src req s) := by
  unfold execGetCerts; split <;> simp [h]

@[simp] theorem nextWf_execQuote {s : State} (h : (mems s).Wf) (src : MbSrc) (req : Bytes) :
    NextWf (execQuote src req s) := by
  unfold execQuote; split <;> simp [h]

@[simp] theorem nextWf_execKeyOpen {s : State} (h : (mems s).Wf) (src : MbSrc) (req : Bytes) :
    NextWf (execKeyOpen src req s) := by
  refine nextWf_mbRun h ?_
  simp only
  split
  · simp
  · split
    · simp
    · simpa using h

@[simp] theorem mems_putPageKey (s : State) (k : Nat) (v : BitVec 512) : mems (putPageKey s k v) = mems s := by
  unfold putPageKey; split <;> simp

@[simp] theorem mbWf_putTransport {s : State} (h : (mems s).Wf) (id : Nat) (v : BitVec 256) :
    MbWf (putTransport s id v) := by
  unfold putTransport
  split
  · simp
  · simpa using h

@[simp] theorem nextWf_execKeyLoad {s : State} (h : (mems s).Wf) (src : MbSrc) (req : KeyRecord) :
    NextWf (execKeyLoad src req s) := by
  refine nextWf_mbRun h ?_
  split
  · simp
  · split
    · simp
    · split
      · simp
      · split
        · simp
        · split <;> simp [h]

@[simp] theorem nextWf_execKeyClear {s : State} (h : (mems s).Wf) (src : MbSrc) (req : Bytes) :
    NextWf (execKeyClear src req s) := by
  refine nextWf_mbRun h ?_
  simp only
  split
  · simp
  · split <;> simp [h]

@[simp] theorem nextWf_execEphemeralKeyExpire {s : State} (h : (mems s).Wf) :
    NextWf (execEphemeralKeyExpire s) := by
  simp [execEphemeralKeyExpire, h]

@[simp] theorem nextWf_execDbgChal {s : State} (h : (mems s).Wf) (src : MbSrc) (req : Bytes) :
    NextWf (execDbgChal src req s) := by
  refine nextWf_mbRun h ?_
  simp only
  split
  · simp
  · split <;> simp [h]

@[simp] theorem mems_unhaltAll (s : State) : mems (unhaltAll s) = mems s := (rfl)

@[simp] theorem mems_lowerDebug (s : State) (v : Nat) : mems (lowerDebug s v) = mems s := (rfl)

@[simp] theorem nextWf_execDbgDrop {s : State} (h : (mems s).Wf) (src : MbSrc) (req : Bytes) :
    NextWf (execDbgDrop src req s) := by
  refine nextWf_mbRun h ?_
  split
  · simp
  · split <;> simp [h]

@[simp] theorem mems_enterD2 (s : State) : mems (enterD2 s) = mems s := by
  simp [enterD2]

@[simp] theorem mems_grantDebug (s : State) (v : Nat) : mems (grantDebug s v) = mems s := by
  simp [grantDebug]

@[simp] theorem mems_changeLife (s : State) (new : Nat) (owner : BitVec 256) :
    mems (changeLife s new owner) = mems s := by
  simp [changeLife]

@[simp] theorem mems_tokenApply (s : State) (b : Bytes) : mems (tokenApply s b) = mems s := by
  simp [tokenApply]

@[simp] theorem nextWf_execToken {s : State} (h : (mems s).Wf) (src : MbSrc) (req : TokenMsg) :
    NextWf (execToken src req s) := by
  simp only [execToken]; (repeat' split) <;> simp [h]

@[simp] theorem nextWf_execArbFuse {s : State} (h : (mems s).Wf) (src : MbSrc) (req : Bytes) :
    NextWf (execArbFuse src req s) := by
  refine nextWf_mbRun h ?_
  simp only
  split
  · simp
  · split <;> simp [h]

@[simp] theorem nextWf_execDebugHalt {s : State} (h : (mems s).Wf) (n : CoreId) : NextWf (execDebugHalt n s) := by
  simp [execDebugHalt, h]

@[simp] theorem nextWf_execScan {s : State} (h : (mems s).Wf) (domains : List ScanDomain) :
    NextWf (execScan domains s) := by
  simp [execScan, h]

@[simp] theorem nextWf_execJtagWrite {s : State} (h : (mems s).Wf) (n : CoreId) (target : JtagTarget)
    (data : Bytes) : NextWf (execJtagWrite n target data s) := by
  simp only [execJtagWrite]; (repeat' split) <;> simp [h]

/-! ### The stand-in pair -/

@[simp] theorem mems_setPair (s : State) (v : Nat) : mems (setPair s v) = mems s := (rfl)

@[simp] theorem mems_pairRefuse (s : State) (code : Nat) : mems (pairRefuse s code) = mems s := by
  simp [pairRefuse]

@[simp] theorem memsWf_releaseHeld {s : State} (h : (mems s).Wf) : (mems (releaseHeld s)).Wf := by
  refine memsWf_foldl (fun s id h => ?_) _ (by simpa using h)
  split
  · exact memsWf_resend h ..
  · exact h

@[simp] theorem memsWf_endAtomics {s : State} (h : (mems s).Wf) : (mems (endAtomics s)).Wf :=
  memsWf_foldl (fun _ _ h => memsWf_linkEnd h ..) _ h

@[simp] theorem mems_releaseSteps (s : State) : mems (releaseSteps s) = mems s := by
  simp [releaseSteps]

@[simp] theorem mems_announce (s : State) (dev : Nat) (ok : State → Nat → Bool) :
    mems (announce s dev ok) = mems s := by
  simp [announce]

@[simp] theorem memsWf_serveAlone {s : State} (h : (mems s).Wf) : (mems (serveAlone s)).Wf := by
  simp only [serveAlone]; split <;> simp [h]

@[simp] theorem nextWf_execPartnerLost {s : State} (h : (mems s).Wf) (resign : Bool) :
    NextWf (execPartnerLost resign s) := by
  simp only [execPartnerLost]; (repeat' split) <;> simp [h]

@[simp] theorem memsWf_takeAlias {s : State} (h : (mems s).Wf) (p : Nat) (m : AliasMsg) (k : Nat) :
    (mems (takeAlias p m s k)).Wf := by
  simp only [takeAlias]
  split
  · exact h
  · refine memsWf_foldl (fun s q h => ?_) _ (by simpa using h)
    split
    · exact memsWf_resend h ..
    · exact h

@[simp] theorem nextWf_execTakeoverAnnounce {s : State} (h : (mems s).Wf) (p : PortId) (m : AliasMsg) :
    NextWf (execTakeoverAnnounce p m s) := by
  refine nextWf_onClock h ?_
  lift_lets
  extract_lets mine active serving s' s₁ s₂
  have hs' : (mems s').Wf := memsWf_foldl (fun _ _ h => memsWf_takeAlias h ..) _ h
  split
  · simp [s₁, hs']
  · split
    · simp [s₂, hs']
    · simpa using hs'

@[simp] theorem mems_handover (s : State) : mems (handover s) = mems s := by
  simp [handover]

@[simp] theorem memsWf_pairEnd {s : State} (h : (mems s).Wf) : (mems (pairEnd s)).Wf := by
  simp [pairEnd, h]

@[simp] theorem memsWf_pairBegin {s : State} (h : (mems s).Wf) : (mems (pairBegin s)).Wf := by
  simp [pairBegin, h]

@[simp] theorem mems_settleResync (s : State) (active : Nat) : mems (settleResync s active) = mems s := by
  simp [settleResync]

@[simp] theorem nextWf_execPairingComplete {s : State} (h : (mems s).Wf) (info : Option PairInfo) :
    NextWf (execPairingComplete info s) := by
  simp only [execPairingComplete]; (repeat' split) <;> simp [h]

@[simp] theorem memsWf_pairCtl {s : State} (h : (mems s).Wf) (w : RegWrite) : (mems (pairCtl s w)).Wf := by
  unfold pairCtl; (repeat' split) <;> simp [h]

@[simp] theorem nextWf_execPairEnable {s : State} (h : (mems s).Wf) (w : RegWrite) :
    NextWf (execPairEnable w s) := by
  simp [execPairEnable, h]

@[simp] theorem nextWf_execPairDisable {s : State} (h : (mems s).Wf) (w : RegWrite) :
    NextWf (execPairDisable w s) := by
  simp [execPairDisable, h]

@[simp] theorem nextWf_execHandover {s : State} (h : (mems s).Wf) (w : RegWrite) : NextWf (execHandover w s) := by
  simp [execHandover, h]

@[simp] theorem nextWf_execPromote {s : State} (h : (mems s).Wf) (sl : SlotId) (w : RegWrite) :
    NextWf (execPromote sl w s) := by
  simp [execPromote, h]

@[simp] theorem nextWf_execMirrorStepCommit {s : State} (h : (mems s).Wf) (r : CtxId) (acked : Bool)
    (got : Option Commit) : NextWf (execMirrorStepCommit r acked got s) := by
  refine nextWf_onClock h ?_
  simp only
  split
  · split <;> simpa using h
  · split
    · simpa using h
    · simpa using memsWf_foldl (fun _ _ h => memsWf_putText h ..) _ h
  · simpa using h

@[simp] theorem nextWf_execTwinSlateExchange {s : State} (h : (mems s).Wf) (r : CtxId) (slate : BitVec 256) :
    NextWf (execTwinSlateExchange r slate s) := by
  unfold execTwinSlateExchange; split <;> simp [h]

@[simp] theorem nextWf_execHeartbeat {s : State} (h : (mems s).Wf) : NextWf (execHeartbeat s) := by
  simp [execHeartbeat, h]

@[simp] theorem nextWf_execAnsweredReport {s : State} (h : (mems s).Wf) (id : Nat) :
    NextWf (execAnsweredReport id s) := by
  simp [execAnsweredReport, h]

@[simp] theorem memsWf_takeCopy {s : State} (h : (mems s).Wf) (r : Nat) (c : PageCopy) :
    (mems (takeCopy r s c)).Wf := by
  unfold takeCopy
  refine memsWf_putText ?_ ..
  split
  · exact h
  · split
    next hp => exact memsWf_mapPage (by rwa [mems_placePage hp]) ..
    next => exact h

@[simp] theorem mems_synced (s : State) (r : CtxId) (active : Nat) : mems (synced s r active) = mems s := by
  simp [synced]

@[simp] theorem nextWf_execResync {s : State} (h : (mems s).Wf) (r : CtxId) (got : List PageCopy) :
    NextWf (execResync r got s) := by
  refine nextWf_onClock h ?_
  simp only
  split
  · simpa using h
  · split
    · simpa using memsWf_foldl (fun _ _ h => memsWf_takeCopy h ..) got h
    · split <;> simpa using h

/-! ### Power and thermal control -/

@[simp] theorem mems_setLimit (s : State) (k v : Nat) : mems (setLimit s k v) = mems s := (rfl)

@[simp] theorem mems_setThermal (s : State) (k v : Nat) : mems (setThermal s k v) = mems s := (rfl)

@[simp] theorem mems_putDuties (s : State) : mems (putDuties s) = mems s := (rfl)

@[simp] theorem mems_noteSlow (s : State) : mems (noteSlow s) = mems s := by
  simp [noteSlow]

@[simp] theorem nextWf_execConvoyAnnounce {s : State} (h : (mems s).Wf) : NextWf (execConvoyAnnounce s) := by
  simp [execConvoyAnnounce, h]

@[simp] theorem mems_showConvoy (s : State) : mems (showConvoy s) = mems s := by
  unfold showConvoy; split <;> simp

@[simp] theorem nextWf_execConvoyReceive {s : State} (h : (mems s).Wf) (p : PortId) (m : Convoy) :
    NextWf (execConvoyReceive p m s) := by
  simp [execConvoyReceive, h]

@[simp] theorem nextWf_execConvoyExpire {s : State} (h : (mems s).Wf) (dev : BitVec 12) :
    NextWf (execConvoyExpire dev s) := by
  unfold execConvoyExpire; split <;> simp [h]

theorem mems_tighten {s t : State} {cls p room : Nat} (h : tighten s cls p room = some t) : mems t = mems s := by
  unfold tighten at h
  split at h
  · split at h
    · rw [← Option.some.inj h, mems_setLimit]
    · split at h
      · rw [← Option.some.inj h, mems_setLimit]
      · split at h
        · rw [← Option.some.inj h]
        · split at h
          · rw [← Option.some.inj h, mems_setLimit]
          · cases h
  · split at h
    · rw [← Option.some.inj h, mems_setLimit]
    · cases h

@[simp] theorem mems_loosen (s : State) (cls p room : Nat) : mems (loosen s cls p room) = mems s := by
  unfold loosen; split <;> simp

@[simp] theorem mems_shareOut (cs : List (Nat × Nat × Nat)) (short : Nat) (s : State) :
    mems (shareOut cs short s) = mems s := by
  induction cs generalizing short s with
  | nil => rfl
  | cons c cs ih =>
    obtain ⟨cls, p, room⟩ := c
    unfold shareOut
    extract_lets given
    split
    · simp [ih]
    · split
      next ht => simp [ih, mems_tighten ht]
      next => exact ih ..

@[simp] theorem mems_countEnergy (a : State) (e : Nat × Nat) : mems (countEnergy a e) = mems a := by
  simp [countEnergy]

@[simp] theorem nextWf_execPowerPeriod {s : State} (h : (mems s).Wf) (counts : List Nat) :
    NextWf (execPowerPeriod counts s) := by
  simp only [execPowerPeriod]; (repeat' split) <;> simp [h]

@[simp] theorem nextWf_execPowerCalibration {s : State} (h : (mems s).Wf) (meas : Nat) :
    NextWf (execPowerCalibration meas s) := by
  simp only [execPowerCalibration]; (repeat' split) <;> simp [h]

@[simp] theorem mems_putCap (s : State) (w : RegWrite) : mems (putCap s w) = mems s := by
  simp [putCap]

@[simp] theorem nextWf_execCapWrite {s : State} (h : (mems s).Wf) (src : MbSrc) (w : RegWrite) :
    NextWf (execCapWrite src w s) := by
  unfold execCapWrite; split <;> simp [h]

@[simp] theorem nextWf_execFrequencyStep {s : State} (h : (mems s).Wf) (t : TileId) :
    NextWf (execFrequencyStep t s) := by
  simp [execFrequencyStep, h]

@[simp] theorem nextWf_execDroop {s : State} (h : (mems s).Wf) (t : TileId) : NextWf (execDroop t s) := by
  simp [execDroop, h]

@[simp] theorem nextWf_execDroopEnd {s : State} (h : (mems s).Wf) (t : TileId) : NextWf (execDroopEnd t s) := by
  simp [execDroopEnd, h]

@[simp] theorem nextWf_execFillLightTimeout {s : State} (h : (mems s).Wf) (n : CoreId) :
    NextWf (execFillLightTimeout n s) := by
  simp [execFillLightTimeout, h]

@[simp] theorem memsWf_railsOff {s : State} (h : (mems s).Wf) : (mems (railsOff s)).Wf := ⟨h.1, rfl, h.2.2⟩

@[simp] theorem mems_tileThermal (s : State) (t : Nat) (c : ℤ) : mems (tileThermal s t c) = mems s := by
  simp [tileThermal]

@[simp] theorem mems_edgeThermal (s : State) (hot cool : Bool) : mems (edgeThermal s hot cool) = mems s := by
  simp [edgeThermal]

@[simp] theorem nextWf_execThermalStep {s : State} (h : (mems s).Wf) (temps : List Nat) :
    NextWf (execThermalStep temps s) := by
  unfold execThermalStep
  lift_lets
  extract_lets c s₁ s₂ s₃ s₄ limited s₅ all thermN pins s₆ pin s₇
  have h₆ : mems s₆ = mems s := by simp [s₆, s₅, s₄, s₃, s₂, s₁]
  have h₇ : (mems s₇).Wf := memsWf_railsOff (memsWf_deviceFault (by rwa [h₆]))
  split
  · simp
  · split
    · simpa using h
    · split
      · simpa using h₇
      · simpa [h₆] using h

@[simp] theorem nextWf_execIdleEntry {s : State} (h : (mems s).Wf) : NextWf (execIdleEntry s) := by
  simp [execIdleEntry, h]

@[simp] theorem mems_leaveRetain (s : State) : mems (leaveRetain s) = mems s := by
  simp [leaveRetain]

@[simp] theorem mems_pwrCtl (s : State) (w : RegWrite) : mems (pwrCtl s w) = mems s := by
  unfold pwrCtl; (repeat' split) <;> simp

@[simp] theorem nextWf_execRetainRequest {s : State} (h : (mems s).Wf) (w : RegWrite) :
    NextWf (execRetainRequest w s) := by
  simp [execRetainRequest, h]

@[simp] theorem nextWf_execRetainExit {s : State} (h : (mems s).Wf) (w : RegWrite) :
    NextWf (execRetainExit w s) := by
  simp [execRetainExit, h]

/-! ### Resets and supplies -/

@[simp] theorem mems_dropMoves (s : State) (r : Nat) : mems (dropMoves s r) = mems s := by
  refine mems_foldl (fun s e => ?_) _ s
  split <;> simp

@[simp] theorem mems_resetHead (s : State) (r : Nat) : mems (resetHead s r) = mems s := by
  unfold resetHead; split <;> simp

@[simp] theorem mems_resetCopies (s : State) (r : Nat) : mems (resetCopies s r) = mems s := by
  simp only [resetCopies]; (repeat' split) <;> simp

@[simp] theorem memsWf_resetContext {s : State} (h : (mems s).Wf) (r : Nat) : (mems (resetContext s r)).Wf := by
  simp [resetContext, h]

@[simp] theorem mems_resetPort (s : State) (p : Nat) : mems (resetPort s p) = mems s := by
  simp [resetPort]

@[simp] theorem mems_resetFields (s : State) : mems (resetFields s) = mems s := by
  simp [resetFields]

@[simp] theorem mems_keepTime (old s : State) : mems (keepTime old s) = mems s := (rfl)

@[simp] theorem memsWf_unitsReset (bs : List BulkId) {s : State} (h : (mems s).Wf) : (mems (unitsReset bs s)).Wf := by
  refine memsWf_foldl (fun _ _ h => memsWf_resetContext h ..) _ ?_
  exact memsWf_foldl (fun _ _ h => memsWf_bulkStop h ..) bs (by simpa using h)

@[simp] theorem memsWf_blocksReset (bs : List BulkId) (ps : List Nat) {s : State} (h : (mems s).Wf) :
    (mems (blocksReset bs ps s)).Wf := by
  rw [blocksReset_keeps mems mems_fset]
  simpa using memsWf_unitsReset bs h

@[simp] theorem mems_clearDevice (b : Bool) (s : State) : mems (clearDevice b s) = mems s := (rfl)

@[simp] theorem memsWf_warmReset {s : State} (h : (mems s).Wf) : (mems (warmReset s)).Wf := by
  rw [warmReset_eq, mems_clearDevice]
  exact memsWf_blocksReset _ _ h

@[simp] theorem mems_wantFirmware (s : State) : mems (wantFirmware s) = mems s := by
  simp [wantFirmware]

@[simp] theorem memsWf_resetKeepingLink {s : State} (h : (mems s).Wf) : (mems (resetKeepingLink s)).Wf := by
  simp [resetKeepingLink, h]

@[simp] theorem nextWf_execWarmReset {s : State} (h : (mems s).Wf) : NextWf (execWarmReset s) := by
  simp [execWarmReset, h]

@[simp] theorem nextWf_execRst {s : State} (h : (mems s).Wf) (w : RegWrite) : NextWf (execRst w s) := by
  unfold execRst; split <;> simp [h]

@[simp] theorem nextWf_execFunctionLevelReset {s : State} (h : (mems s).Wf) :
    NextWf (execFunctionLevelReset s) := by
  simp [execFunctionLevelReset, h]

@[simp] theorem nextWf_execPerstN {s : State} (h : (mems s).Wf) : NextWf (execPerstN s) := by
  simp [execPerstN, h]

@[simp] theorem mems_beginPcie (s : State) : mems (beginPcie s) = mems s := by
  simp [beginPcie]

@[simp] theorem nextWf_execPerstNDeassert {s : State} (h : (mems s).Wf) : NextWf (execPerstNDeassert s) := by
  simp [execPerstNDeassert, h]

@[simp] theorem nextWf_execPcieLinkL0 {s : State} (h : (mems s).Wf) (rate width : Nat) (ok : Bool) :
    NextWf (execPcieLinkL0 rate width ok s) := by
  simp [execPcieLinkL0, h]

@[simp] theorem nextWf_execD3hot {s : State} (h : (mems s).Wf) : NextWf (execD3hot s) := by
  simp [execD3hot, h]

@[simp] theorem nextWf_execD3hotExit {s : State} (h : (mems s).Wf) : NextWf (execD3hotExit s) := by
  simp [execD3hotExit, h]

@[simp] theorem memsWf_jtagHold {s : State} (h : (mems s).Wf) : (mems (jtagHold s)).Wf := by
  simp [jtagHold, h]

@[simp] theorem nextWf_execExtest {s : State} (h : (mems s).Wf) : NextWf (execExtest s) := by
  simp [execExtest, h]

@[simp] theorem nextWf_execClamp {s : State} (h : (mems s).Wf) : NextWf (execClamp s) := by
  simp [execClamp, h]

@[simp] theorem nextWf_execHighz {s : State} (h : (mems s).Wf) : NextWf (execHighz s) := by
  simp [execHighz, h]

@[simp] theorem nextWf_execTestLogicReset {s : State} (h : (mems s).Wf) : NextWf (execTestLogicReset s) := by
  simp [execTestLogicReset, h]

@[simp] theorem mems_coldCores (s : State) : mems (coldCores s) = mems s := by
  simp [coldCores]

@[simp] theorem mems_coldPorts (s : State) : mems (coldPorts s) = mems s := by
  simp [coldPorts]

@[simp] theorem nextWf_execColdStart {s : State} (h : (mems s).Wf) : NextWf (execColdStart s) := by
  simp only [execColdStart]
  split
  · simpa using h
  · simp only [nextWf_next, mems_beginPcie, mems_coldPorts, mems_coldCores, mems_fset]
    exact ⟨h.1, rfl, h.2.2⟩

@[simp] theorem memsWf_seqFail {s : State} (h : (mems s).Wf) : (mems (seqFail s)).Wf := by
  simp [seqFail, h]

@[simp] theorem nextWf_execRailSequenceTimeout {s : State} (h : (mems s).Wf) (group : BitVec 3) :
    NextWf (execRailSequenceTimeout group s) := by
  simp [execRailSequenceTimeout, h]

@[simp] theorem nextWf_execVinUndervoltage {s : State} (h : (mems s).Wf) : NextWf (execVinUndervoltage s) := by
  simp [execVinUndervoltage, h]

@[simp] theorem nextWf_execPowerDown {s : State} (h : (mems s).Wf) : NextWf (execPowerDown s) := by
  simp [execPowerDown, h]

@[simp] theorem nextWf_execVauxLoss {s : State} (h : (mems s).Wf) : NextWf (execVauxLoss s) :=
  (nextWf_next _).2 ⟨h.1, rfl, rfl⟩

@[simp] theorem nextWf_execVauxPresent {s : State} (h : (mems s).Wf) (sl rcls : BitVec 2) :
    NextWf (execVauxPresent sl rcls s) := by
  simp [execVauxPresent, h]

@[simp] theorem nextWf_execTcRefLoss {s : State} (h : (mems s).Wf) : NextWf (execTcRefLoss s) := by
  simp [execTcRefLoss, h]

end Sys2Proof.Machine

end

section
/-! PROOFS. Scope: the memories outside cores and contexts, under the host, I3C, the splice unit, the
reduce engines and BAR0. -/

open Sys2Proof.Machine

namespace Sys2Proof.Machine

/-! ### BAR2 -/

@[simp] theorem mems_busRead (s : State) (bs : Bytes) : mems (busRead s bs) = mems s := (rfl)

@[simp] theorem mems_onesOrNothing (s : State) (n : Nat) (write : Bool) :
    mems (onesOrNothing s n write) = mems s := by
  simp [onesOrNothing]

@[simp] theorem mems_b2Refuse (s : State) (n : Nat) (write : Bool) : mems (b2Refuse s n write) = mems s := by
  simp [b2Refuse]

@[simp] theorem memsWf_b2Virtual {s : State} (h : (mems s).Wf) (r va n : Nat) (data : Option Bytes) :
    (mems (b2Virtual s r va n data)).Wf := by
  unfold b2Virtual
  split
  · simpa using h
  · split
    · exact h
    · have ht := memsWf_touchPages (pagesOf va n) h r data.isSome (.host n data.isSome)
      split
      next he =>
        rw [he] at ht
        split
        · exact memsWf_putText ht ..
        · simpa using ht
      next he => rwa [he] at ht
      next he =>
        rw [he] at ht
        simpa using ht

@[simp] theorem mems_b2Physical (s : State) (p n : Nat) : mems (b2Physical s p n) = mems s := by
  simp only [b2Physical]; (repeat' split) <;> simp

@[simp] theorem memsWf_logUnit {s : State} (h : (mems s).Wf) (i r pos : Nat) : (mems (logUnit s i r pos)).Wf := by
  simp [logUnit, h]

@[simp] theorem memsWf_ingAdvance (i r k : Nat) {s : State} (h : (mems s).Wf) : (mems (ingAdvance i r k s)).Wf := by
  induction k generalizing s with
  | zero => exact h
  | succ k ih =>
    simp only [ingAdvance]
    split
    · exact h
    · exact ih (memsWf_logUnit (by simpa using h) ..)

@[simp] theorem memsWf_ingWrite {s : State} (h : (mems s).Wf) (i off : Nat) (bs : Bytes) :
    (mems (ingWrite s i off bs)).Wf := by
  simp only [ingWrite]
  split
  · simpa using h
  · generalize hw : cvWrite s _ _ bs [] _ = w
    have ht : (mems w.1).Wf := hw ▸ memsWf_cvWrite h ..
    split
    · exact memsWf_ingAdvance _ _ _ (by simpa using ht)
    · exact ht
    · simpa using ht

@[simp] theorem nextWf_execIngestWrite {s : State} (h : (mems s).Wf) (off : Nat) (data : Bytes) :
    NextWf (execIngestWrite off data s) := by
  simp only [execIngestWrite]; (repeat' split) <;> simp [h]

@[simp] theorem nextWf_execBar2Access {s : State} (h : (mems s).Wf) (off size : Nat) (data : Option Bytes) :
    NextWf (execBar2Access off size data s) := by
  simp only [execBar2Access]; (repeat' split) <;> simp [h]

@[simp] theorem mems_placeFail (s : State) (r pg : Nat) (w : Waiter) : mems (placeFail s r pg w) = mems s := by
  unfold placeFail; split <;> simp

@[simp] theorem nextWf_execPlacementTimeout {s : State} (h : (mems s).Wf) (r : CtxId) (va : Nat) :
    NextWf (execPlacementTimeout r va s) := by
  simp [execPlacementTimeout, h]

/-! ### The I3C target -/

@[simp] theorem mems_i3cSet {f : I3c → I3c} (hf : ∀ x, (f x).mbdata = x.mbdata) (s : State) :
    mems (i3cSet s f) = mems s := by
  unfold i3cSet
  split
  · simp [mems, hf]
  · rfl

@[simp] theorem mems_i3cAnswer (s : State) (bs : Bytes) : mems (i3cAnswer s bs) = mems s := by
  simp [i3cAnswer]

@[simp] theorem mems_i3cOpen (s : State) (n : Nat) : mems (i3cOpen s n) = mems s := by
  simp [i3cOpen]

@[simp] theorem nextWf_execEntdaa {s : State} (h : (mems s).Wf) (addr : BitVec 7) : NextWf (execEntdaa addr s) := by
  simp [execEntdaa, h]

@[simp] theorem nextWf_execSetdasa {s : State} (h : (mems s).Wf) (addr : BitVec 7) :
    NextWf (execSetdasa addr s) := by
  simp [execSetdasa, h]

@[simp] theorem nextWf_execSetnewda {s : State} (h : (mems s).Wf) (addr : BitVec 7) :
    NextWf (execSetnewda addr s) := by
  simp [execSetnewda, h]

@[simp] theorem nextWf_execRstdaa {s : State} (h : (mems s).Wf) : NextWf (execRstdaa s) := by
  simp [execRstdaa, h]

@[simp] theorem nextWf_execGetpid {s : State} (h : (mems s).Wf) : NextWf (execGetpid s) := by
  simp [execGetpid, h]

@[simp] theorem nextWf_execGetbcr {s : State} (h : (mems s).Wf) : NextWf (execGetbcr s) := by
  simp [execGetbcr, h]

@[simp] theorem nextWf_execGetdcr {s : State} (h : (mems s).Wf) : NextWf (execGetdcr s) := by
  simp [execGetdcr, h]

@[simp] theorem nextWf_execGetstatus {s : State} (h : (mems s).Wf) : NextWf (execGetstatus s) := by
  simp [execGetstatus, h]

@[simp] theorem nextWf_execEnec {s : State} (h : (mems s).Wf) (mask : BitVec 8) : NextWf (execEnec mask s) := by
  simp [execEnec, h]

@[simp] theorem nextWf_execDisec {s : State} (h : (mems s).Wf) (mask : BitVec 8) : NextWf (execDisec mask s) := by
  simp [execDisec, h]

@[simp] theorem nextWf_execSetmwl {s : State} (h : (mems s).Wf) (len : BitVec 16) : NextWf (execSetmwl len s) := by
  simp [execSetmwl, h]

@[simp] theorem nextWf_execGetmwl {s : State} (h : (mems s).Wf) : NextWf (execGetmwl s) := by
  simp [execGetmwl, h]

@[simp] theorem nextWf_execSetmrl {s : State} (h : (mems s).Wf) (len : BitVec 16) : NextWf (execSetmrl len s) := by
  simp [execSetmrl, h]

@[simp] theorem nextWf_execGetmrl {s : State} (h : (mems s).Wf) : NextWf (execGetmrl s) := by
  simp [execGetmrl, h]

@[simp] theorem mems_mgClear (off : Nat) (bs : Bytes) (base : Nat) (s : State) (f : Fld) :
    mems (mgClear off bs base s f) = mems s := by
  simp [mgClear]

@[simp] theorem mems_mgAlert (off : Nat) (bs : Bytes) (s : State) : mems (mgAlert off bs s) = mems s := by
  unfold mgAlert; split <;> simp

@[simp] theorem mems_mgCap (off : Nat) (bs : Bytes) (s : State) : mems (mgCap off bs s) = mems s := by
  unfold mgCap; split <;> simp

@[simp] theorem mems_mgMbctl (off : Nat) (bs : Bytes) (s : State) : mems (mgMbctl off bs s) = mems s := by
  unfold mgMbctl; split <;> simp

@[simp] theorem memsWf_mgData {s : State} (h : (mems s).Wf) (off : Nat) (bs : Bytes) :
    (mems (mgData off bs s)).Wf := by
  obtain ⟨hh, hd, hw⟩ := h
  exact ⟨hh, hd, List.foldlRecOn (motive := fun m => memWf m = true) _ _ hw fun _ hm _ _ => memWf_mset hm⟩

@[simp] theorem nextWf_execI3cPrivateWrite {s : State} (h : (mems s).Wf) (bytes : Bytes) :
    NextWf (execI3cPrivateWrite bytes s) := by
  simp only [execI3cPrivateWrite]
  split
  · simpa using h
  · rw [nextWf_next]
    refine memsWf_mgData ?_ ..
    simp only [mems_mgMbctl, mems_mgCap, mems_mgAlert]
    exact h

/-! ### The splice unit -/

@[simp] theorem mems_roundAccs (s : State) (x : Cx) (wide : Nat) (d : Desc) (rm : RMode) (sr : SrIn)
    (places : List (Nat × Nat × Nat)) (clr : List Nat) (status : Nat) :
    mems (roundAccs s x wide d rm sr places clr status) = mems s := by
  simp [roundAccs]

@[simp] theorem mems_effSpadd (s : State) (x : Cx) (f : SpaddF) : mems (effSpadd s x f) = mems s := (rfl)

@[simp] theorem mems_effSpmerge (s : State) (x : Cx) (f : SpmergeF) : mems (effSpmerge s x f) = mems s := (rfl)

@[simp] theorem mems_effSpround (s : State) (x : Cx) (f : SproundF) : mems (effSpround s x f) = mems s := by
  simp [effSpround]

@[simp] theorem mems_effSpexport (s : State) (x : Cx) (f : SpexportF) : mems (effSpexport s x f) = mems s := by
  simp [effSpexport]

@[simp] theorem mems_effSpimport (s : State) (x : Cx) (f : SpimportF) : mems (effSpimport s x f) = mems s := (rfl)

/-! ### The reduce engines -/

@[simp] theorem memsWf_ownXps {s : State} (h : (mems s).Wf) (r : Nat) (d : Bytes) (seg : Nat) (who : Waiter) :
    (mems (ownXps s r d seg who).1).Wf := by
  simp [ownXps, h]

@[simp] theorem mems_collPoison (s : State) (r lines : Nat) (seen : Bool) :
    mems (collPoison s r lines seen) = mems s := by
  simp [collPoison]

@[simp] theorem memsWf_writeXps {s : State} (h : (mems s).Wf) (r va : Nat) (xs : List Bytes) (who : Waiter) :
    (mems (writeXps s r va xs who).1).Wf := by
  simp only [writeXps]; split <;> simp [h]

@[simp] theorem memsWf_writeLines {s : State} (h : (mems s).Wf) (r va : Nat) (bs : Bytes) (bad : List Nat)
    (who : Waiter) : (mems (writeLines s r va bs bad who).1).Wf := by
  unfold writeLines
  split
  next hw => simpa using (mems_of_eq hw).symm ▸ memsWf_cvWrite h ..
  next => exact memsWf_cvWrite h ..

@[simp] theorem mems_sendColl (e : EdgeId) (r : Nat) (x : CollRun) (pass seg : Nat) (s : State)
    (p : Nat × Bytes × List Nat) : mems (sendColl e r x pass seg s p) = mems s := by
  simp only [sendColl]
  split
  next hr => exact mems_request hr
  next => simp

@[simp] theorem mems_sendXps (s : State) (e : EdgeId) (r : Nat) (x : CollRun) (pass seg : Nat) (xs : List Bytes) :
    mems (sendXps s e r x pass seg xs) = mems s := by
  simp [sendXps]

@[simp] theorem mems_sendBytes (s : State) (e : EdgeId) (r : Nat) (x : CollRun) (seg : Nat) (bs : Bytes)
    (bad : List Nat) : mems (sendBytes s e r x seg bs bad) = mems s := by
  simp [sendBytes]

@[simp] theorem mems_putRun (s : State) (e r : Nat) (x : CollRun) : mems (putRun s e r x) = mems s := (rfl)

@[simp] theorem memsWf_finishSum {s : State} (h : (mems s).Wf) (e : EdgeId) (r : Nat) (x : CollRun) (seg : Nat)
    (xs : List Bytes) : (mems (finishSum s e r x seg xs).1).Wf := by
  unfold finishSum
  have hw := memsWf_writeXps h r (cDst x.desc + seg * cStride x.desc) xs (.coll e x.idx)
  split
  next he =>
    rw [he] at hw
    simpa using hw
  next => exact hw

@[simp] theorem memsWf_reduceSeg {s : State} (h : (mems s).Wf) (e : EdgeId) (r : Nat) (x : CollRun) (seg : Nat)
    (xs : List Bytes) : (mems (reduceSeg s e r x seg xs).1).Wf := by
  simp [reduceSeg, h]

@[simp] theorem memsWf_takeXps {s : State} (h : (mems s).Wf) (e : EdgeId) (r : Nat) (x : CollRun) (pk : Packet) :
    (mems (takeXps s e r x pk).1).Wf := by
  unfold takeXps
  lift_lets
  extract_lets d seg put
  split
  · have ho := memsWf_ownXps h r d seg (.coll e x.idx)
    split
    next he =>
      rw [he] at ho
      extract_lets sums x s'
      have hs : (mems s').Wf := by simpa [s'] using ho
      split
      · exact memsWf_reduceSeg hs ..
      · exact hs
    next he => rwa [he] at ho
  · next x₁ s₁ x₂ _ =>
    have hs : (mems s₁).Wf := by simpa [s₁] using h
    split
    · exact hs
    next xs _ =>
      generalize hw : writeXps s₁ r _ xs _ = w
      have ht : (mems w.1).Wf := hw ▸ memsWf_writeXps hs ..
      split
      · simpa using ht
      · exact ht

@[simp] theorem memsWf_takeBytes {s : State} (h : (mems s).Wf) (e : EdgeId) (r : Nat) (x : CollRun) (pk : Packet) :
    (mems (takeBytes s e r x pk).1).Wf := by
  unfold takeBytes
  lift_lets
  extract_lets d seg
  have hw := memsWf_writeLines h r (cDst d + seg * cSegn d + 64 * pk.ext) pk.data (mapBad pk) (.coll e x.idx)
  split
  next he =>
    rw [he] at hw
    simpa using hw
  next => exact hw

@[simp] theorem mems_keepWaits (s t : State) (r : Nat) : mems (keepWaits s t r) = mems s := (rfl)

@[simp] theorem memsWf_serveColl {s : State} (h : (mems s).Wf) (pk : Packet) : (mems (serveColl s pk)).Wf := by
  simp only [serveColl]
  split
  · simpa using h
  next r e x _ =>
    split
    · simpa using h
    · split
      · simpa using h
      · generalize hw : (if cXp x.desc = true then takeXps s (Fin.ofNat 2 e) r x pk
          else takeBytes s (Fin.ofNat 2 e) r x pk) = w
        have ht : (mems w.1).Wf := by
          rw [← hw]
          split
          · exact memsWf_takeXps h ..
          · exact memsWf_takeBytes h ..
        split
        · simpa using ht
        · simpa using h
        · simpa using ht

@[simp] theorem nextWf_execColl {s : State} (h : (mems s).Wf) (p : PortId) (pkt : Packet) :
    NextWf (execColl p pkt s) := by
  refine nextWf_onClock h ?_
  split
  · simp
  · split
    · simp
    · split
      all_goals
        next he => simp [mems_of_eq he, h]

@[simp] theorem memsWf_firstSeg {a : State × Acc} (h : (mems a.1).Wf) (e : EdgeId) (r idx seg : Nat) :
    (mems (firstSeg e r idx a seg).1).Wf := by
  unfold firstSeg
  lift_lets
  split
  next x _ _ =>
    extract_lets s d out
    split
    · have ho := memsWf_ownXps h r d seg (.coll e idx)
      split
      next he =>
        rw [he] at ho
        exact memsWf_reduceSeg ho ..
      next he => rwa [he] at ho
    · have hc := memsWf_cvRead h r (cSrc d + seg * cSegn d) (cSegn d) (.coll e idx)
      split
      next bs bad he =>
        rw [he] at hc
        have hw := memsWf_writeLines hc r (cDst d + out * cSegn d) bs bad (.coll e idx)
        split
        next hl =>
          rw [hl] at hw
          simpa using hw
        next => exact hw
      next he => rwa [he] at hc
  next => exact h

@[simp] theorem memsWf_startColl {s : State} (h : (mems s).Wf) (e : EdgeId) (r : Nat) (q : CollQ) :
    (mems (startColl s e r q)).Wf := by
  simp only [startColl]
  generalize (if e.val = 0 then F.ctxCollq0Va else F.ctxCollq1Va) = f
  have h₁ := memsWf_cvRead h r (cget s r f 0 + q.head % 256 * 64) 64 (.coll e q.head)
  split
  next => simpa using h
  next he =>
    rw [he] at h₁
    simpa using h₁
  next t d _ he =>
    rw [he] at h₁
    split
    · simpa using h₁
    · have h₂ := memsWf_cvRead h₁ r (cGroup d) (2 * cG d) (.coll e q.head)
      split
      next => simpa using h₁
      next hg =>
        rw [hg] at h₂
        simpa using h₂
      next u g _ hg =>
        rw [hg] at h₂
        generalize hf : List.foldl (firstSeg e r q.head) (_, Acc.ok) (firstSegs d) = a
        have h₃ : (mems a.1).Wf := by
          rw [← hf]
          exact List.foldlRecOn (motive := fun a : State × Acc => (mems a.1).Wf) _ _ (by simpa using h₂)
            fun _ ha _ _ => memsWf_firstSeg ha ..
        split
        next => exact h₃
        next => simpa using h₂
        next => simpa using h₃

@[simp] theorem nextWf_execCollectiveStart {s : State} (h : (mems s).Wf) (e : EdgeId) (r : CtxId) :
    NextWf (execCollectiveStart e r s) := by
  simp only [execCollectiveStart, onClock]; split <;> simp [h]

@[simp] theorem nextWf_execCollectiveComplete {s : State} (h : (mems s).Wf) (e : EdgeId) (r : CtxId) :
    NextWf (execCollectiveComplete e r s) := by
  simp only [execCollectiveComplete, onClock]; (repeat' split) <;> simp [h]

@[simp] theorem nextWf_execCollectiveTimeout {s : State} (h : (mems s).Wf) (e : EdgeId) (r : CtxId) :
    NextWf (execCollectiveTimeout e r s) := by
  simp only [execCollectiveTimeout, onClock]; (repeat' split) <;> simp [h]

/-! ### BAR0 -/

@[simp] theorem mems_readBack (s : State) (off v : Nat) : mems (readBack s off v) = mems s := (rfl)

@[simp] theorem nextWf_execRcRead {s : State} (h : (mems s).Wf) (off size : Nat) :
    NextWf (execRcRead off size s) := by
  simp only [execRcRead]; (repeat' split) <;> simp [h]

@[simp] theorem mems_takeField (old : State) (w : RegWrite) (i j : Nat) (s : State) (f : Fld) :
    mems (takeField old w i j s f) = mems s := by
  unfold takeField; split <;> simp

@[simp] theorem memsWf_afterWrite {s : State} (h : (mems s).Wf) (old : State) (r : RegD) (w : RegWrite) (j : Nat) :
    (mems (afterWrite old s r w j)).Wf := by
  unfold afterWrite; (repeat' split) <;> simp [h]

@[simp] theorem memsWf_writeReg {s : State} (h : (mems s).Wf) (r : RegD) (i j : Nat) (w : RegWrite) :
    (mems (writeReg s r i j w)).Wf := by
  unfold writeReg; (repeat' split) <;> simp [h]

@[simp] theorem nextWf_execGlbDetWrite {s : State} (h : (mems s).Wf) (w : RegWrite) :
    NextWf (execGlbDetWrite w s) := by
  simp [execGlbDetWrite, h]

@[simp] theorem nextWf_writeCtl {s : State} (h : (mems s).Wf) (sl : SlotId) (w : RegWrite) :
    NextWf (writeCtl s sl w) := by
  unfold writeCtl
  have ho : NextWf (if wbit w F.ctxCtlEn = true then execContextEnable sl w s else execContextDisable sl w s) := by
    simp [h]
  split
  next he =>
    have ht := ho _ he
    split
    · exact nextWf_execShelve ht sl w
    · exact (nextWf_next _).2 ht
  next => exact ho

@[simp] theorem nextWf_writeBulk {s : State} (h : (mems s).Wf) (b : BulkId) (w : RegWrite) :
    NextWf (writeBulk s b w) := by
  unfold writeBulk; split <;> simp [h]

@[simp] theorem nextWf_writePause {s : State} (h : (mems s).Wf) (n : CoreId) (c : Fin 4) (w : RegWrite) :
    NextWf (writePause s n c w) := by
  unfold writePause; split <;> simp [h]

@[simp] theorem nextWf_writeDir {s : State} (h : (mems s).Wf) (w : RegWrite) : NextWf (writeDir s w) := by
  simp [writeDir, h]

@[simp] theorem nextWf_writeRow {s : State} (h : (mems s).Wf) (r : RegD) (i j : Nat) (w : RegWrite) :
    NextWf (writeRow s r i j w) := by
  unfold writeRow
  with_reducible repeat' refine nextWf_ite ?_ ?_
  all_goals simp [h]

@[simp] theorem nextWf_execRegisterWrite {s : State} (h : (mems s).Wf) (off size : Nat) (data : BitVec 64) :
    NextWf (execRegisterWrite off size data s) := by
  simp only [execRegisterWrite, onBar]; (repeat' split) <;> simp [h]

end Sys2Proof.Machine

end

section
/-! PROOFS. Scope: the memories outside cores and contexts, under the instructions of the cores, and obligation O5. -/

open Sys2Proof.Machine

namespace Sys2Proof.Machine

/-! ### The control slot -/

@[simp] theorem mems_effBrSet (s : State) (x : Cx) (f : BrSetF) : mems (effBrSet s x f) = mems s := (rfl)

@[simp] theorem mems_consume (s : State) (x : Cx) (q : Nat) (k : BitVec 32) : mems (consume s x q k) = mems s := (rfl)

@[simp] theorem mems_effWaittok (s : State) (x : Cx) (f : TokF) : mems (effWaittok s x f) = mems s := (rfl)

@[simp] theorem memsWf_effRecvAny {s : State} (h : (mems s).Wf) (x : Cx) (f : AnyF) :
    (mems (effRecvAny s x f)).Wf := by
  simp only [effRecvAny]; split <;> simp [h]

@[simp] theorem mems_effSendtok (s : State) (x : Cx) (f : TokF) : mems (effSendtok s x f) = mems s := by
  simp only [effSendtok]; split <;> simp

@[simp] theorem mems_effAction (s : State) (x : Cx) (f : ActionF) : mems (effAction s x f) = mems s := by
  unfold effAction; split <;> simp

@[simp] theorem mems_effSlate (s : State) (x : Cx) (f : SlateF) : mems (effSlate s x f) = mems s := by
  unfold effSlate; split <;> simp

@[simp] theorem mems_effTrapcfg (s : State) (x : Cx) (nan : Bool) : mems (effTrapcfg s x nan) = mems s := (rfl)

@[simp] theorem memsWf_effC {s : State} (h : (mems s).Wf) (x : Cx) (x2 : CInstr) : (mems (effC s x x2)).Wf := by
  unfold effC; split <;> simp [h]

/-! ### The matrix slot -/

@[simp] theorem mems_effMcfg (s : State) (x : Cx) (f : McfgF) : mems (effMcfg s x f) = mems s := by
  simp [effMcfg]

@[simp] theorem mems_effStage (s : State) (x : Cx) (b : Bool) (t : BitVec 4) :
    mems (effStage s x b t) = mems s := (rfl)

@[simp] theorem mems_effMmul (s : State) (x : Cx) (f : MmulF) : mems (effMmul s x f) = mems s := by
  simp only [effMmul]; split <;> simp

@[simp] theorem mems_finishMmul (s : State) (n k : Nat) (f : Finish) : mems (finishMmul s n k f) = mems s := by
  simp [finishMmul]

@[simp] theorem mems_countRows (s : State) (n k rows : Nat) : mems (countRows s n k rows) = mems s := (rfl)

@[simp] theorem mems_finishVred (s : State) (n k : Nat) (f : Finish) : mems (finishVred s n k f) = mems s := by
  simp [finishVred]

@[simp] theorem mems_runVfins (m : Nat) (s : State) (n k : Nat) : mems (runVfins m s n k) = mems s := by
  induction m generalizing s with
  | zero => rfl
  | succ m ih =>
    unfold runVfins
    split
    · simp [ih]
    · simp

@[simp] theorem mems_arrive (s : State) (n k : Nat) : mems (arrive s n k) = mems s := by
  unfold arrive; split <;> simp

@[simp] theorem mems_effMdrain (s : State) (x : Cx) : mems (effMdrain s x) = mems s := by
  simp [effMdrain]

@[simp] theorem mems_effMew (s : State) (x : Cx) (f : MewF) : mems (effMew s x f) = mems s := by
  simp [effMew]

/-! ### The mover slot -/

@[simp] theorem mems_putS (s : State) (x : Cx) (d : Nat) (v : BitVec 32) : mems (putS s x d v) = mems s := (rfl)

@[simp] theorem mems_effSeti (s : State) (x : Cx) (f : SetiF) : mems (effSeti s x f) = mems s := (rfl)

@[simp] theorem mems_effSethi (s : State) (x : Cx) (f : SetiF) : mems (effSethi s x f) = mems s := (rfl)

@[simp] theorem mems_effSalu (s : State) (x : Cx) (f : SaluF) : mems (effSalu s x f) = mems s := (rfl)

@[simp] theorem mems_effTadj (s : State) (x : Cx) (f : TadjF) : mems (effTadj s x f) = mems s := (rfl)

@[simp] theorem mems_effSetvl (s : State) (x : Cx) (a : BitVec 5) : mems (effSetvl s x a) = mems s := (rfl)

@[simp] theorem mems_effMove (s : State) (x : Cx) (kd : MKind) (f : XferF) : mems (effMove s x kd f) = mems s := by
  simp only [effMove]; split <;> simp

@[simp] theorem mems_effD (s : State) (x : Cx) (x2 : DInstr) : mems (effD s x x2) = mems s := by
  unfold effD; split <;> simp

/-! ### The vector slot -/

@[simp] theorem mems_addRows (s : State) (x : Cx) (n : Nat) : mems (addRows s x n) = mems s := by
  simp [addRows]

@[simp] theorem mems_effElems (s : State) (x : Cx) (d : Desc) (rm : RMode) (sr : SrIn) (mz : Bool)
    (val : Nat → Nat → Sys2Proof.Num × Bool) : mems (effElems s x d rm sr mz val) = mems s := by
  simp [effElems]

@[simp] theorem mems_effBinary (s : State) (x : Cx) (f : VecF)
    (op : RMode → Sys2Proof.Num → Sys2Proof.Num → Sys2Proof.Num) : mems (effBinary s x f op) = mems s := by
  simp [effBinary]

@[simp] theorem mems_effVadd (s : State) (x : Cx) (f : VecF) : mems (effVadd s x f) = mems s := by
  simp [effVadd]

@[simp] theorem mems_effVmul (s : State) (x : Cx) (f : VecF) : mems (effVmul s x f) = mems s := by
  simp [effVmul]

@[simp] theorem mems_effVfma (s : State) (x : Cx) (f : VecF) : mems (effVfma s x f) = mems s := by
  simp [effVfma]

@[simp] theorem mems_effVmax (s : State) (x : Cx) (f : VecF) : mems (effVmax s x f) = mems s := by
  simp [effVmax]

@[simp] theorem mems_effMask (s : State) (x : Cx) (d : Desc) (bit poison : Nat → Nat → Bool) :
    mems (effMask s x d bit poison) = mems s := by
  simp [effMask]

@[simp] theorem mems_effVcmp (s : State) (x : Cx) (f : VecF) : mems (effVcmp s x f) = mems s := by
  simp [effVcmp]

@[simp] theorem mems_effVsel (s : State) (x : Cx) (f : VecF) : mems (effVsel s x f) = mems s := by
  simp [effVsel]

@[simp] theorem mems_effVcvt (s : State) (x : Cx) (f : VecF) : mems (effVcvt s x f) = mems s := by
  simp [effVcvt]

@[simp] theorem mems_effVred (s : State) (x : Cx) (f : VecF) : mems (effVred s x f) = mems s := by
  unfold effVred; split <;> simp

@[simp] theorem mems_effTrans (s : State) (x : Cx) (f : VecF) (fn : Nat → Nat) :
    mems (effTrans s x f fn) = mems s := by
  simp [effTrans]

@[simp] theorem mems_effVexp (s : State) (x : Cx) (f : VecF) : mems (effVexp s x f) = mems s := by
  simp [effVexp]

@[simp] theorem mems_effVlog (s : State) (x : Cx) (f : VecF) : mems (effVlog s x f) = mems s := by
  simp [effVlog]

@[simp] theorem mems_effVrsq (s : State) (x : Cx) (f : VecF) : mems (effVrsq s x f) = mems s := by
  simp [effVrsq]

@[simp] theorem mems_effVrcp (s : State) (x : Cx) (f : VecF) : mems (effVrcp s x f) = mems s := by
  simp [effVrcp]

@[simp] theorem mems_effVtanh (s : State) (x : Cx) (f : VecF) : mems (effVtanh s x f) = mems s := by
  simp [effVtanh]

@[simp] theorem mems_effVsig (s : State) (x : Cx) (f : VecF) : mems (effVsig s x f) = mems s := by
  simp [effVsig]

@[simp] theorem mems_effVgelu (s : State) (x : Cx) (f : VecF) : mems (effVgelu s x f) = mems s := by
  simp [effVgelu]

@[simp] theorem mems_effVsin (s : State) (x : Cx) (f : VecF) : mems (effVsin s x f) = mems s := by
  simp [effVsin]

@[simp] theorem mems_effVcos (s : State) (x : Cx) (f : VecF) : mems (effVcos s x f) = mems s := by
  simp [effVcos]

@[simp] theorem mems_effVrand (s : State) (x : Cx) (f : VecF) : mems (effVrand s x f) = mems s := by
  simp [effVrand]

@[simp] theorem mems_bothWritten (s : State) (x : Cx) (as bs : List (Nat × Nat)) :
    mems (bothWritten s x as bs) = mems s := by
  simp [bothWritten]

@[simp] theorem mems_effVrowreplay (s : State) (x : Cx) (f : VecF) : mems (effVrowreplay s x f) = mems s := by
  simp [effVrowreplay]

@[simp] theorem mems_effVupd (s : State) (x : Cx) (f : VupdF) : mems (effVupd s x f) = mems s := by
  simp [effVupd]

@[simp] theorem mems_effV (s : State) (x : Cx) (x2 : VInstr) : mems (effV s x x2) = mems s := by
  unfold effV; (repeat' split) <;> simp

/-! ### The sequencer -/

@[simp] theorem mems_effM (s : State) (x : Cx) (i : MInstr) : mems (effM s x i) = mems s := by
  unfold effM; split <;> simp

@[simp] theorem memsWf_bundleEff {s : State} (h : (mems s).Wf) (n k : Nat) (b : Slots) :
    (mems (bundleEff s n k b)).Wf := by
  simp [bundleEff, h]

@[simp] theorem mems_afterC (s : State) (n k : Nat) (i : CInstr) : mems (afterC s n k i) = mems s := by
  unfold afterC; split <;> simp

@[simp] theorem mems_unheld (s : State) (n : Nat) : mems (unheld s n) = mems s := (rfl)

@[simp] theorem memsWf_issueOk {s : State} (h : (mems s).Wf) (n k : Nat) (b : Slots) :
    (mems (issueOk s n k b)).Wf := by
  simp [issueOk, h]

@[simp] theorem mems_issueHold (s : State) (n cause : Nat) : mems (issueHold s n cause) = mems s := by
  simp [issueHold]

@[simp] theorem mems_issueWait (s : State) (n k : Nat) : mems (issueWait s n k) = mems s := (rfl)

@[simp] theorem mems_issueBad (s : State) (n slot cause iaddr : Nat) :
    mems (issueBad s n slot cause iaddr) = mems s := (rfl)

@[simp] theorem memsWf_issueCycle {s : State} (h : (mems s).Wf) (n : Nat) (b : Slots) :
    (mems (issueCycle s n b)).Wf := by
  simp only [issueCycle]; (repeat' split) <;> simp [h]

@[simp] theorem mems_noteUnder (s : State) (n : Nat) (t : State) : mems (noteUnder s n t) = mems t := by
  unfold noteUnder; (repeat' split) <;> simp

@[simp] theorem memsWf_issueSlots {s : State} (h : (mems s).Wf) (n : Nat) (b : Slots) :
    (mems (issueSlots s n b)).Wf := by
  simp [issueSlots, h]

@[simp] theorem nextWf_execBundleIssue {s : State} (h : (mems s).Wf) (n : CoreId) :
    NextWf (execBundleIssue n s) := by
  simp [execBundleIssue, h]

@[simp] theorem mems_openOwed (s : State) (n k : Nat) : mems (openOwed s n k) = mems s := by
  simp [openOwed]

@[simp] theorem nextWf_execHoldEnd {s : State} (h : (mems s).Wf) (n : CoreId) : NextWf (execHoldEnd n s) := by
  simp only [execHoldEnd, onClock]; (repeat' split) <;> simp [h]

@[simp] theorem nextWf_execSplicePartialArrival {s : State} (h : (mems s).Wf) (n : CoreId) :
    NextWf (execSplicePartialArrival n s) := by
  simp only [execSplicePartialArrival, onClock]; (repeat' split) <;> simp [h]

@[simp] theorem nextWf_execMmulFinish {s : State} (h : (mems s).Wf) (n : CoreId) : NextWf (execMmulFinish n s) := by
  simp only [execMmulFinish, onClock]; (repeat' split) <;> simp [h]

@[simp] theorem nextWf_execLoop {s : State} (h : (mems s).Wf) (n : CoreId) (f : LoopF) :
    NextWf (execLoop n f s) := by
  simp [execLoop, h]

@[simp] theorem nextWf_execBr {s : State} (h : (mems s).Wf) (n : CoreId) (f : BrF) : NextWf (execBr n f s) := by
  simp [execBr, h]

@[simp] theorem nextWf_execBrSet {s : State} (h : (mems s).Wf) (n : CoreId) (f : BrSetF) :
    NextWf (execBrSet n f s) := by
  simp [execBrSet, h]

@[simp] theorem nextWf_execWaittok {s : State} (h : (mems s).Wf) (n : CoreId) (f : TokF) :
    NextWf (execWaittok n f s) := by
  simp [execWaittok, h]

@[simp] theorem nextWf_execRecvAny {s : State} (h : (mems s).Wf) (n : CoreId) (f : AnyF) :
    NextWf (execRecvAny n f s) := by
  simp [execRecvAny, h]

@[simp] theorem nextWf_execSendtok {s : State} (h : (mems s).Wf) (n : CoreId) (f : TokF) :
    NextWf (execSendtok n f s) := by
  simp [execSendtok, h]

@[simp] theorem nextWf_execAction {s : State} (h : (mems s).Wf) (n : CoreId) (f : ActionF) :
    NextWf (execAction n f s) := by
  simp [execAction, h]

@[simp] theorem nextWf_execSlate {s : State} (h : (mems s).Wf) (n : CoreId) (f : SlateF) :
    NextWf (execSlate n f s) := by
  simp [execSlate, h]

@[simp] theorem nextWf_execCut {s : State} (h : (mems s).Wf) (n : CoreId) : NextWf (execCut n s) := by
  simp [execCut, h]

@[simp] theorem nextWf_execFence {s : State} (h : (mems s).Wf) (n : CoreId) (kind : BitVec 2) :
    NextWf (execFence n kind s) := by
  simp [execFence, h]

@[simp] theorem nextWf_execTrapcfg {s : State} (h : (mems s).Wf) (n : CoreId) (nan : Bool) :
    NextWf (execTrapcfg n nan s) := by
  simp [execTrapcfg, h]

@[simp] theorem nextWf_execEndTake {s : State} (h : (mems s).Wf) (n : CoreId) : NextWf (execEndTake n s) := by
  simp [execEndTake, h]

@[simp] theorem nextWf_execMcfg {s : State} (h : (mems s).Wf) (n : CoreId) (f : McfgF) :
    NextWf (execMcfg n f s) := by
  simp [execMcfg, h]

@[simp] theorem nextWf_execMmul {s : State} (h : (mems s).Wf) (n : CoreId) (f : MmulF) :
    NextWf (execMmul n f s) := by
  simp [execMmul, h]

@[simp] theorem nextWf_execMew {s : State} (h : (mems s).Wf) (n : CoreId) (f : MewF) : NextWf (execMew n f s) := by
  simp [execMew, h]

@[simp] theorem nextWf_execSpadd {s : State} (h : (mems s).Wf) (n : CoreId) (f : SpaddF) :
    NextWf (execSpadd n f s) := by
  simp [execSpadd, h]

@[simp] theorem nextWf_execSpmerge {s : State} (h : (mems s).Wf) (n : CoreId) (f : SpmergeF) :
    NextWf (execSpmerge n f s) := by
  simp [execSpmerge, h]

@[simp] theorem nextWf_execSpround {s : State} (h : (mems s).Wf) (n : CoreId) (f : SproundF) :
    NextWf (execSpround n f s) := by
  simp [execSpround, h]

@[simp] theorem nextWf_execSpexport {s : State} (h : (mems s).Wf) (n : CoreId) (f : SpexportF) :
    NextWf (execSpexport n f s) := by
  simp [execSpexport, h]

@[simp] theorem nextWf_execSpimport {s : State} (h : (mems s).Wf) (n : CoreId) (f : SpimportF) :
    NextWf (execSpimport n f s) := by
  simp [execSpimport, h]

@[simp] theorem nextWf_execMstagea {s : State} (h : (mems s).Wf) (n : CoreId) (t : BitVec 4) :
    NextWf (execMstagea n t s) := by
  simp [execMstagea, h]

@[simp] theorem nextWf_execMstageb {s : State} (h : (mems s).Wf) (n : CoreId) (t : BitVec 4) :
    NextWf (execMstageb n t s) := by
  simp [execMstageb, h]

@[simp] theorem nextWf_execMdrain {s : State} (h : (mems s).Wf) (n : CoreId) : NextWf (execMdrain n s) := by
  simp [execMdrain, h]

@[simp] theorem nextWf_execVadd {s : State} (h : (mems s).Wf) (n : CoreId) (f : VecF) :
    NextWf (execVadd n f s) := by
  simp [execVadd, h]

@[simp] theorem nextWf_execVmul {s : State} (h : (mems s).Wf) (n : CoreId) (f : VecF) :
    NextWf (execVmul n f s) := by
  simp [execVmul, h]

@[simp] theorem nextWf_execVfma {s : State} (h : (mems s).Wf) (n : CoreId) (f : VecF) :
    NextWf (execVfma n f s) := by
  simp [execVfma, h]

@[simp] theorem nextWf_execVmax {s : State} (h : (mems s).Wf) (n : CoreId) (f : VecF) :
    NextWf (execVmax n f s) := by
  simp [execVmax, h]

@[simp] theorem nextWf_execVcmp {s : State} (h : (mems s).Wf) (n : CoreId) (f : VecF) :
    NextWf (execVcmp n f s) := by
  simp [execVcmp, h]

@[simp] theorem nextWf_execVsel {s : State} (h : (mems s).Wf) (n : CoreId) (f : VecF) :
    NextWf (execVsel n f s) := by
  simp [execVsel, h]

@[simp] theorem nextWf_execVcvt {s : State} (h : (mems s).Wf) (n : CoreId) (f : VecF) :
    NextWf (execVcvt n f s) := by
  simp [execVcvt, h]

@[simp] theorem nextWf_execVred {s : State} (h : (mems s).Wf) (n : CoreId) (f : VecF) :
    NextWf (execVred n f s) := by
  simp [execVred, h]

@[simp] theorem nextWf_execVexp {s : State} (h : (mems s).Wf) (n : CoreId) (f : VecF) :
    NextWf (execVexp n f s) := by
  simp [execVexp, h]

@[simp] theorem nextWf_execVlog {s : State} (h : (mems s).Wf) (n : CoreId) (f : VecF) :
    NextWf (execVlog n f s) := by
  simp [execVlog, h]

@[simp] theorem nextWf_execVrsq {s : State} (h : (mems s).Wf) (n : CoreId) (f : VecF) :
    NextWf (execVrsq n f s) := by
  simp [execVrsq, h]

@[simp] theorem nextWf_execVrcp {s : State} (h : (mems s).Wf) (n : CoreId) (f : VecF) :
    NextWf (execVrcp n f s) := by
  simp [execVrcp, h]

@[simp] theorem nextWf_execVtanh {s : State} (h : (mems s).Wf) (n : CoreId) (f : VecF) :
    NextWf (execVtanh n f s) := by
  simp [execVtanh, h]

@[simp] theorem nextWf_execVsig {s : State} (h : (mems s).Wf) (n : CoreId) (f : VecF) :
    NextWf (execVsig n f s) := by
  simp [execVsig, h]

@[simp] theorem nextWf_execVgelu {s : State} (h : (mems s).Wf) (n : CoreId) (f : VecF) :
    NextWf (execVgelu n f s) := by
  simp [execVgelu, h]

@[simp] theorem nextWf_execVsin {s : State} (h : (mems s).Wf) (n : CoreId) (f : VecF) :
    NextWf (execVsin n f s) := by
  simp [execVsin, h]

@[simp] theorem nextWf_execVcos {s : State} (h : (mems s).Wf) (n : CoreId) (f : VecF) :
    NextWf (execVcos n f s) := by
  simp [execVcos, h]

@[simp] theorem nextWf_execVrand {s : State} (h : (mems s).Wf) (n : CoreId) (f : VecF) :
    NextWf (execVrand n f s) := by
  simp [execVrand, h]

@[simp] theorem nextWf_execVrowreplay {s : State} (h : (mems s).Wf) (n : CoreId) (f : VecF) :
    NextWf (execVrowreplay n f s) := by
  simp [execVrowreplay, h]

@[simp] theorem nextWf_execVupd {s : State} (h : (mems s).Wf) (n : CoreId) (f : VupdF) :
    NextWf (execVupd n f s) := by
  simp [execVupd, h]

@[simp] theorem nextWf_execSeti {s : State} (h : (mems s).Wf) (n : CoreId) (f : SetiF) :
    NextWf (execSeti n f s) := by
  simp [execSeti, h]

@[simp] theorem nextWf_execSethi {s : State} (h : (mems s).Wf) (n : CoreId) (f : SetiF) :
    NextWf (execSethi n f s) := by
  simp [execSethi, h]

@[simp] theorem nextWf_execSalu {s : State} (h : (mems s).Wf) (n : CoreId) (f : SaluF) :
    NextWf (execSalu n f s) := by
  simp [execSalu, h]

@[simp] theorem nextWf_execTadj {s : State} (h : (mems s).Wf) (n : CoreId) (f : TadjF) :
    NextWf (execTadj n f s) := by
  simp [execTadj, h]

@[simp] theorem nextWf_execSetvl {s : State} (h : (mems s).Wf) (n : CoreId) (a : BitVec 5) :
    NextWf (execSetvl n a s) := by
  simp [execSetvl, h]

@[simp] theorem nextWf_execXfer {s : State} (h : (mems s).Wf) (n : CoreId) (f : XferF) :
    NextWf (execXfer n f s) := by
  simp [execXfer, h]

@[simp] theorem nextWf_execMovg {s : State} (h : (mems s).Wf) (n : CoreId) (f : XferF) :
    NextWf (execMovg n f s) := by
  simp [execMovg, h]

@[simp] theorem nextWf_execHash {s : State} (h : (mems s).Wf) (n : CoreId) (f : XferF) :
    NextWf (execHash n f s) := by
  simp [execHash, h]

@[simp] theorem nextWf_execFill {s : State} (h : (mems s).Wf) (n : CoreId) (f : XferF) :
    NextWf (execFill n f s) := by
  simp [execFill, h]

@[simp] theorem nextWf_execCmpm {s : State} (h : (mems s).Wf) (n : CoreId) (f : XferF) :
    NextWf (execCmpm n f s) := by
  simp [execCmpm, h]

@[simp] theorem nextWf_execSwp {s : State} (h : (mems s).Wf) (n : CoreId) (f : XferF) : NextWf (execSwp n f s) := by
  simp [execSwp, h]

/-! ### Commands and steps -/

/-- Every command leaves canonical memories canonical. -/
theorem nextWf_exec {s : State} (h : (mems s).Wf) (i : Instr) : NextWf (exec i s) := by
  cases i <;> simp [exec, h]

/-- So does a step with no command waiting. -/
theorem memsWf_idle {s : State} (h : (mems s).Wf) : (mems (idle s)).Wf := by
  simp [idle, h]

/-- So does every step. -/
theorem nextWf_step {s : State} (h : (mems s).Wf) : NextWf (step s) := by
  unfold step
  split
  · simpa using memsWf_idle h
  · exact nextWf_exec (by simpa using h) _

end Sys2Proof.Machine

/-- Settles O5: of all commands only writes of bytes touch these memories, and each write keeps the canonical form
(`memWf_mset`, `memWf_mwrite`); each function of the model either leaves them (its `mems_` lemma) or writes them so (its
`memsWf_` lemma), and with it each command (`nextWf_exec`). -/
theorem stepKeepsMemoriesCanonical : Obligations.StepKeepsMemoriesCanonical :=
  fun _ t h ht => nextWf_step h t ht

end

section
/-! PROOFS. Scope: pages and frames of a context: what the entry of a page reads after an update of the same page, of
another page, and of the tables beside it; the lowest free frame of a parity; an access to a page (O30). -/

open Sys2Proof.Machine

namespace Sys2Proof.Machine

/-! ### Contexts -/

/-- The context that was updated. -/
@[simp] theorem ctx_modCtx_same (s : State) (r : Nat) (f : Ctx → Ctx) : ctx (modCtx s r f) r = f (ctx s r) := by
  simp [modCtx]

/-- An update of a context leaves the others. -/
theorem ctx_modCtx_ne {s : State} {r q : Nat} {f : Ctx → Ctx} (h : r ≠ q) : ctx (modCtx s r f) q = ctx s q :=
  ctx_setCtx_ne h

/-- Contexts are read from their table alone. -/
theorem ctx_congr {s t : State} (h : t.ctxs = s.ctxs) (r : Nat) : ctx t r = ctx s r := by
  simp [ctx, h]

/-! ### Tables -/

/-- Deleting an entry leaves the others. -/
theorem tfind_tdel_ne {α : Type} (t : Tbl α) {k m : Nat} (h : k ≠ m) : tfind (tdel t k) m = tfind t m := by
  induction t with
  | nil => rfl
  | cons e t ih =>
    obtain ⟨j, a⟩ := e
    by_cases hj : j = k
    · have hm : j ≠ m := hj ▸ h
      simpa [tdel, tfind, hj, h] using ih
    · simp only [tdel, List.filter_cons, bne_iff_ne, ne_eq, hj, not_false_eq_true, ↓reduceIte, tfind]
      split
      · rfl
      · exact ih

/-! ### Pages -/

/-- The page entry that was set. -/
@[simp] theorem page_setPage_same (s : State) (r pg : Nat) (p : Page) :
    tfind (ctx (setPage s r pg p) r).vs.pages pg = some p := by
  simp [setPage]

/-- Setting a page entry leaves the others of the context. -/
theorem page_setPage_ne {s : State} {r pg q : Nat} {p : Page} (h : pg ≠ q) :
    tfind (ctx (setPage s r pg p) r).vs.pages q = tfind (ctx s r).vs.pages q := by
  simp [setPage, tfind_tset_ne _ _ h]

/-- Setting a page entry leaves the other contexts. -/
theorem ctx_setPage_ne {s : State} {r q pg : Nat} {p : Page} (h : r ≠ q) : ctx (setPage s r pg p) q = ctx s q :=
  ctx_modCtx_ne h

@[simp] theorem setPage_frames (s : State) (r pg : Nat) (p : Page) : (setPage s r pg p).frames = s.frames := rfl
@[simp] theorem setPage_regs (s : State) (r pg : Nat) (p : Page) : (setPage s r pg p).regs = s.regs := rfl

/-- A page that is there is changed. -/
theorem modPage_of_some {s : State} {r pg : Nat} {p : Page} (h : tfind (ctx s r).vs.pages pg = some p)
    (f : Page → Page) : modPage s r pg f = setPage s r pg (f p) := by
  simp [modPage, h]

/-- An unmapped page has no entry to change. -/
theorem modPage_of_none {s : State} {r pg : Nat} (h : tfind (ctx s r).vs.pages pg = none) (f : Page → Page) :
    modPage s r pg f = s := by
  simp [modPage, h]

/-! ### Frames -/

/-- The lowest free number keeps the parity it is looked for in. -/
theorem lowestFree_mod_two (t : Tbl FrameUse) (cand : Nat) : lowestFree t cand % 2 = cand % 2 := by
  induction t generalizing cand with
  | nil => rfl
  | cons e t ih =>
    simp only [lowestFree]
    split
    · rw [ih]; omega
    · exact ih cand

/-- The lowest free number is not below where the search begins. -/
theorem le_lowestFree (t : Tbl FrameUse) (cand : Nat) : cand ≤ lowestFree t cand := by
  induction t generalizing cand with
  | nil => exact le_rfl
  | cons e t ih =>
    simp only [lowestFree]
    split
    · have := ih (cand + 2); omega
    · exact ih cand

/-- Below every key the search ends where it begins. -/
theorem lowestFree_of_above {t : Tbl FrameUse} {lo cand : Nat} (h : above lo t) (hc : cand ≤ lo) :
    lowestFree t cand = cand := by
  induction t with
  | nil => rfl
  | cons e t ih =>
    have he : lo < e.1 := h e (List.mem_cons_self ..)
    simp only [lowestFree]
    rw [if_neg (by omega)]
    exact ih fun x hx => h x (List.mem_cons_of_mem _ hx)

/-- In a table with rising keys the frame found has no entry, or a free one. -/
theorem tfind_lowestFree {t : Tbl FrameUse} (h : tsorted t = true) (cand : Nat) :
    tfind t (lowestFree t cand) = none ∨ tfind t (lowestFree t cand) = some .free := by
  induction t generalizing cand with
  | nil => exact .inl rfl
  | cons e t ih =>
    obtain ⟨f, u⟩ := e
    obtain ⟨ha, hs⟩ := tsorted_cons.1 h
    simp only [lowestFree, tfind]
    split
    · next hf =>
      have hlow := le_lowestFree t (cand + 2)
      rw [if_neg (by omega)]
      exact ih hs (cand + 2)
    · next hf =>
      split
      · next hg =>
        have hle := le_lowestFree t cand
        have hc : f = cand := by
          rw [hg]
          exact lowestFree_of_above ha (by omega)
        exact .inr (by simpa [hc] using hf)
      · exact ih hs cand

/-- A local frame taken is the page's. -/
theorem tfind_localPlace (s : State) (r : CtxId) (pg : Nat) :
    tfind (localPlace s r.val pg).1.frames (localPlace s r.val pg).2 = some (.page r pg) := by
  simp [localPlace]

/-- A table placed for a page changes no context. -/
@[simp] theorem addTable_ctxs (s : State) (r pg : Nat) : (addTable s r pg).ctxs = s.ctxs := by
  simp only [addTable]; split <;> rfl

/-- A table placed for a page changes no frame. -/
@[simp] theorem addTable_frames (s : State) (r pg : Nat) : (addTable s r pg).frames = s.frames := by
  simp only [addTable]; split <;> rfl

/-- A page mapped in local DDR, where nothing is sent. -/
theorem mapPage_local {s : State} {r pg : Nat} {p : Page} (h : p.loc = .local_) :
    mapPage s r pg p = modCtx (addTable s r pg) r fun c =>
      { c with vs := { c.vs with pages := tset c.vs.pages pg p
                                 waits := c.vs.waits.filter (fun w => w.1 != pg) } } := by
  simp [mapPage, farPage, h]

/-- The entry of a page mapped in local DDR. -/
theorem page_mapPage_same {s : State} {r pg : Nat} {p : Page} (h : p.loc = .local_) :
    tfind (ctx (mapPage s r pg p) r).vs.pages pg = some p := by
  simp [mapPage_local h]

/-- A page mapped in local DDR leaves the context's other pages. -/
theorem page_mapPage_ne {s : State} {r pg q : Nat} {p : Page} (h : p.loc = .local_) (hq : q ≠ pg) :
    tfind (ctx (mapPage s r pg p) r).vs.pages q = tfind (ctx s r).vs.pages q := by
  simp [mapPage_local h, tfind_tset_ne _ _ hq.symm, ctx_congr (addTable_ctxs s r pg)]

/-- A page mapped in local DDR leaves the frames. -/
theorem mapPage_frames {s : State} {r pg : Nat} {p : Page} (h : p.loc = .local_) :
    (mapPage s r pg p).frames = s.frames := by
  simp [mapPage_local h]

/-! ### An access -/

/-- An access of a registered context, within its address space, touches the page. -/
theorem exec_pageAccess {s : State} {r : CtxId} {va : Nat} (hr : registered (ctx s r.val) = true) (hv : va < 2 ^ 48)
    (hk : clockRuns s (pageClock (pageOf va)) = true) (write : Bool) :
    exec (.pageAccess r va write) s = .next (touchPage s r.val (pageOf va) write .access).1 := by
  change execPageAccess r va write s = _
  rw [execPageAccess, onClock_runs hk, if_pos (by simpa [hr] using hv)]

/-- A touch that the page lets on counts. -/
theorem touchPage_of_ok {s : State} {r pg : Nat} {p : Page} {write : Bool} (hp : tfind (ctx s r).vs.pages pg = some p)
    (ha : pageAllows s r p write = .ok) (who : Waiter) :
    touchPage s r pg write who = (setPage s r pg { p with accesses := p.accesses + 1 }, .ok) := by
  simp [touchPage, hp, ha]

/-- Beyond the quota nothing is mapped. -/
theorem touchPage_of_quota {s : State} {r pg : Nat} (hp : tfind (ctx s r).vs.pages pg = none)
    (hq : cget s r F.ctxPgquotaQuota 0 ≤ (ctx s r).vs.pages.length) (write : Bool) (who : Waiter) :
    touchPage s r pg write who = (s, .fault 0x1A) := by
  simp [touchPage, hp, hq]

/-- A first touch, where a local frame may be had, maps the page there. -/
theorem touchPage_of_localFree {s : State} {r pg : Nat} (hp : tfind (ctx s r).vs.pages pg = none)
    (hq : (ctx s r).vs.pages.length < cget s r F.ctxPgquotaQuota 0) (hf : localFree s r (pg % 2) = true) (write : Bool)
    (who : Waiter) :
    touchPage s r pg write who = (mapPage (localPlace s r pg).1 r pg
      { pageNew .local_ (localPlace s r pg).2 (BitVec.ofNat 12 (ownDev s)) false 0 with accesses := 1 }, .ok) := by
  simp [touchPage, hp, Nat.not_le.2 hq, placePage, hf, pageNew]

/-- The accesses that have waited for a place too long are given up, where the page has none. -/
theorem exec_placementTimeout {s : State} {va : Nat} (hk : clockRuns s (pageClock (pageOf va)) = true) (r : CtxId) :
    exec (.placementTimeout r va) s =
      let t := modCtx s r.val fun c =>
        { c with vs := { c.vs with waits := c.vs.waits.filter (fun w => w.1 != pageOf va) } }
      .next (if (tfind (ctx s r.val).vs.pages (pageOf va)).isSome then t
        else (((ctx s r.val).vs.waits.filter (fun w => w.1 == pageOf va)).map (·.2)).foldl
          (fun s w => placeFail s r.val (pageOf va) w) t) := by
  change execPlacementTimeout r va s = _
  rw [execPlacementTimeout, onClock_runs hk]
  simp

end Sys2Proof.Machine

/-- Settles O30: an access is one touch of its page, which by the page's entry, the quota and the free frames counts,
stops or maps; the frame mapped is the lowest free one of the page's parity. -/
theorem pageAccessesMapOrFault : Obligations.PageAccessesMapOrFault := by
  refine ⟨fun s r va write hr hv hk hsort => ⟨fun p hp ha => ?_, fun hp hq => ?_, fun hp hq hf => ?_⟩,
    fun s r va hk => ⟨fun hp => ?_, fun hp => ?_⟩, fun s r pg ch hc => ?_⟩
  · rw [exec_pageAccess hr hv hk, touchPage_of_ok hp ha]
  · rw [exec_pageAccess hr hv hk, touchPage_of_quota hp hq]
  · rw [exec_pageAccess hr hv hk, touchPage_of_localFree hp hq hf]
    refine ⟨_, (localPlace s r.val (pageOf va)).2, rfl, ?_, tfind_lowestFree hsort _, ?_, page_mapPage_same rfl,
      fun q hq => page_mapPage_ne rfl hq⟩
    · exact (lowestFree_mod_two ..).trans (Nat.mod_mod ..)
    · rw [mapPage_frames rfl, tfind_localPlace]
  · rw [exec_placementTimeout hk]
    simp [hp]
  · rw [exec_placementTimeout hk]
    simp [hp]
  · simp [placeFail, hc]

end

section
/-! PROOFS. Scope: what packets and writes to host memory leave: contexts, frames, waiting promotions, and the registers
below those of the links. -/

open Sys2Proof.Machine

namespace Sys2Proof.Machine

/-- The registers below those of the links. -/
def lowRegs (s : State) (k : Nat) : Option Nat := if k < 0x300000 * 64 then tfind s.regs k else none

/-- What the page managers keep, with the registers below those of the links. -/
def paged (s : State) : Tbl Ctx × Tbl FrameUse × Tbl (Nat × List (CtxId × Nat)) × (Nat → Option Nat) :=
  (s.ctxs, s.frames, s.promote, lowRegs s)

/-- A field of a register below those of the links. -/
theorem fget_of_lowRegs {s t : State} (h : lowRegs t = lowRegs s) {f : Fld} {i j : Nat}
    (hk : f.key i j < 0x300000 * 64) : fget t f i j = fget s f i j := by
  have := congrFun h (f.key i j)
  simp only [lowRegs, if_pos hk] at this
  simp [fget, tget, this]

/-- Equal registers are equal low registers. -/
theorem lowRegs_congr {s t : State} (h : t.regs = s.regs) : lowRegs t = lowRegs s := by
  funext k; simp [lowRegs, h]

/-- A register of a link is not a low one. -/
theorem lowRegs_fset {s : State} {f : Fld} {i j : Nat} (hk : 0x300000 * 64 ≤ f.key i j) (v : Nat) :
    lowRegs (fset s f i j v) = lowRegs s := by
  funext k
  simp only [lowRegs, fset_regs]
  split
  · exact tfind_tset_ne _ _ (by omega)
  · rfl

theorem paged_ctxs {s t : State} (h : paged t = paged s) : t.ctxs = s.ctxs := congrArg (·.1) h
theorem paged_frames {s t : State} (h : paged t = paged s) : t.frames = s.frames := congrArg (·.2.1) h
theorem paged_promote {s t : State} (h : paged t = paged s) : t.promote = s.promote := congrArg (·.2.2.1) h
theorem paged_lowRegs {s t : State} (h : paged t = paged s) : lowRegs t = lowRegs s := congrArg (·.2.2.2) h

@[simp] theorem paged_ite {c : Prop} [Decidable c] (s t : State) :
    paged (if c then s else t) = if c then paged s else paged t := apply_ite paged c s t

/-- What an update that may fail makes of the state, or the state. -/
theorem paged_getD {o : Option State} {s : State} (h : ∀ t, o = some t → paged t = paged s) :
    paged (o.getD s) = paged s := by
  cases o with
  | none => rfl
  | some t => exact h t rfl

@[simp] theorem paged_emit (s : State) (o : Out) : paged (emit s o) = paged s := (rfl)
@[simp] theorem paged_hostWrite (s : State) (a : Nat) (bs : Bytes) : paged (hostWrite s a bs) = paged s := (rfl)
@[simp] theorem paged_drawFree (s : State) : paged (drawFree s).2 = paged s := (rfl)
@[simp] theorem paged_modPort (s : State) (p : Nat) (f : Port → Port) : paged (modPort s p f) = paged s := (rfl)
@[simp] theorem paged_intPauseAll (s : State) : paged (intPauseAll s) = paged s := (rfl)

@[simp] theorem paged_hostPut (s : State) (a : Nat) (bs : Bytes) (bad : Bool) :
    paged (hostPut s a bs bad) = paged s := by
  simp [hostPut]

@[simp] theorem paged_countTx (s : State) (p n : Nat) : paged (fcount s F.lnkTxbytesCount p 0 n) = paged s := by
  have h : lowRegs (fcount s F.lnkTxbytesCount p 0 n) = lowRegs s :=
    lowRegs_fset (by simp [Fld.key, F.lnkTxbytesCount]; omega) _
  exact congrArg (fun l => (s.ctxs, s.frames, s.promote, l)) h

@[simp] theorem paged_sendFlit (s : State) (p : Nat) (ctrl : Bool) (payload : Bytes) :
    paged (sendFlit s p ctrl payload) = paged s := (rfl)

@[simp] theorem paged_freed (s : State) (p : Nat) (pk : Packet) : paged (freed s p pk) = paged s := (rfl)

@[simp] theorem paged_sendStream (s : State) (p : Nat) : paged (sendStream s p) = paged s :=
  (foldl_keeps paged (fun s _ => paged_sendFlit s p false _) _ _).trans (paged_modPort ..)

@[simp] theorem paged_transmit (s : State) (p : Nat) (pk : Packet) : paged (transmit s p pk) = paged s := by
  simp [transmit]

@[simp] theorem paged_outPort (s : State) (p : Nat) (came : Option Nat) (pk : Packet) :
    paged (outPort s p came pk) = paged s := by
  unfold outPort
  split
  · cases came <;> simp
  · simp

theorem paged_sendPkt {s t : State} {pk : Packet} (h : sendPkt s pk = some t) : paged t = paged s := by
  obtain ⟨p, -, rfl⟩ := Option.map_eq_some_iff.1 h
  simp

/-- A request sent, or held for the twin. -/
theorem paged_request {s t : State} {pk : Packet} {reqid : Option Nat} {chan : Option (ChanRef × Nat)}
    {coll : Option (EdgeId × Nat)} {r : Option Nat} (h : request s pk reqid chan coll r = some t) :
    paged t = paged s := by
  obtain ⟨u, hu, rfl⟩ := Option.map_eq_some_iff.1 h
  change paged u = paged s
  split at hu
  · exact paged_sendPkt hu
  · split at hu <;> cases hu <;> rfl

@[simp] theorem paged_farPut (s : State) (r : Nat) (p : Page) (loc : PageLoc) (frame : Nat) (dev : BitVec 12)
    (va n : Nat) : paged (farPut s r p loc frame dev va n) = paged s := by
  unfold farPut
  split
  · exact paged_getD fun _ => paged_request
  · exact paged_hostPut ..
  · rfl

@[simp] theorem paged_farPage (s : State) (r pg : Nat) (p : Page) (loc : PageLoc) (frame : Nat) (dev : BitVec 12) :
    paged (farPage s r pg p loc frame dev) = paged s := by
  unfold farPage
  split
  · exact foldl_keeps paged (fun _ _ => paged_farPut ..) _ _
  · exact foldl_keeps paged (fun _ _ => paged_farPut ..) _ _
  · rfl

@[simp] theorem paged_farStore (s : State) (r va n : Nat) : paged (farStore s r va n) = paged s := by
  refine foldl_keeps paged (fun s pg => ?_) _ s
  split
  · exact paged_farPut ..
  · rfl

@[simp] theorem paged_poolFresh (s : State) : paged (poolFresh s) = paged s := by
  unfold poolFresh; split <;> rfl

theorem paged_farPlace {s t : State} {par : Nat} {loc : PageLoc} {f : Nat} {d : BitVec 12}
    (h : farPlace s par = some (t, loc, f, d)) : paged t = paged s := by
  unfold farPlace at h
  split at h
  · cases h; simp
  · obtain ⟨i, -, hi⟩ := Option.map_eq_some_iff.1 h
    cases hi
    simp

/-- A place taken changes no context. -/
theorem ctxs_placePage {s t : State} {r pg : Nat} {prot : Bool} {key : BitVec 4} {p : Page}
    (h : placePage s r pg prot key = some (t, p)) : t.ctxs = s.ctxs := by
  unfold placePage at h
  split at h
  · cases h; rfl
  · split at h
    · cases h
    · obtain ⟨⟨u, q⟩, hu, hi⟩ := Option.map_eq_some_iff.1 h
      cases hi
      exact paged_ctxs (paged_farPlace hu)

/-! ### The low registers -/

@[simp] theorem lowRegs_addTable (s : State) (r pg : Nat) : lowRegs (addTable s r pg) = lowRegs s := by
  simp only [addTable]; split <;> rfl

@[simp] theorem lowRegs_modCtx (s : State) (r : Nat) (f : Ctx → Ctx) : lowRegs (modCtx s r f) = lowRegs s := (rfl)

@[simp] theorem lowRegs_setPage (s : State) (r pg : Nat) (p : Page) : lowRegs (setPage s r pg p) = lowRegs s := (rfl)

@[simp] theorem lowRegs_modPage (s : State) (r pg : Nat) (f : Page → Page) :
    lowRegs (modPage s r pg f) = lowRegs s := by
  unfold modPage; split <;> simp

@[simp] theorem lowRegs_localPlace (s : State) (r pg : Nat) : lowRegs (localPlace s r pg).1 = lowRegs s := (rfl)

@[simp] theorem lowRegs_intPauseAll (s : State) : lowRegs (intPauseAll s) = lowRegs s := (rfl)

@[simp] theorem lowRegs_beginMove (s : State) (r pg : Nat) (loc : PageLoc) (frame : Nat) (dev : BitVec 12) :
    lowRegs (beginMove s r pg loc frame dev) = lowRegs s := lowRegs_modPage ..

@[simp] theorem lowRegs_mapPage (s : State) (r pg : Nat) (p : Page) : lowRegs (mapPage s r pg p) = lowRegs s := by
  simp [mapPage, paged_lowRegs (paged_farPage ..)]

theorem lowRegs_placePage {s t : State} {r pg : Nat} {prot : Bool} {key : BitVec 4} {p : Page}
    (h : placePage s r pg prot key = some (t, p)) : lowRegs t = lowRegs s := by
  unfold placePage at h
  split at h
  · cases h; rfl
  · split at h
    · cases h
    · obtain ⟨⟨u, q⟩, hu, hi⟩ := Option.map_eq_some_iff.1 h
      cases hi
      exact paged_lowRegs (paged_farPlace hu)

@[simp] theorem releaseFrame_ctxs (s : State) (p : Page) : (releaseFrame s p).ctxs = s.ctxs := by
  unfold releaseFrame
  cases p.move <;> simp only <;> (repeat' split) <;> rfl

@[simp] theorem lowRegs_releaseFrame (s : State) (p : Page) : lowRegs (releaseFrame s p) = lowRegs s := by
  unfold releaseFrame
  cases p.move <;> simp only <;> (repeat' split) <;> rfl

@[simp] theorem lowRegs_unmapPage (s : State) (r pg : Nat) : lowRegs (unmapPage s r pg) = lowRegs s := by
  unfold unmapPage; split <;> simp

end Sys2Proof.Machine

end

section
/-! PROOFS. Scope: the page commands of Table 9.5 on one page (O31). -/

open Sys2Proof.Machine

namespace Sys2Proof.Machine

/-! ### Zeros written over poisoned lines -/

/-- The byte written to a virtual space is the byte read. -/
theorem vsGet_vsSet_same {vs : VSpace} (h : memWf vs.mem = true) (a : Nat) (b : Byte) : vsGet (vsSet vs a b) a = b := by
  change mget (mset vs.mem a (b ^^^ lostMask vs a)) a ^^^ lostMask vs a = b
  rw [mget_mset_same h, BitVec.xor_assoc, BitVec.xor_self, BitVec.xor_zero]

/-- A byte written to a virtual space leaves the others. -/
theorem vsGet_vsSet_ne {vs : VSpace} {a x : Nat} (h : a ≠ x) (b : Byte) : vsGet (vsSet vs a b) x = vsGet vs x := by
  change mget (mset vs.mem a (b ^^^ lostMask vs a)) x ^^^ lostMask vs x = _
  rw [mget_mset_ne h]
  rfl

/-- A zero written makes no byte other than zero. -/
theorem vsGet_vsSet_zero {vs : VSpace} (h : memWf vs.mem = true) {a x : Nat} (hx : x = a ∨ vsGet vs x = 0) :
    vsGet (vsSet vs a 0) x = 0 := by
  by_cases hxa : a = x
  · rw [hxa, vsGet_vsSet_same h]
  · rw [vsGet_vsSet_ne hxa]
    exact hx.resolve_left (Ne.symm hxa)

/-- A write to a virtual space changes its bytes alone. -/
theorem vsWrite_eq (vs : VSpace) (va : Nat) (bs : Bytes) :
    vsWrite vs va bs = { vs with mem := (vsWrite vs va bs).mem } := by
  induction bs generalizing vs va with
  | nil => rfl
  | cons b bs ih => exact ih (vsSet vs va b) (va + 1)

@[simp] theorem vsWrite_pages (vs : VSpace) (va : Nat) (bs : Bytes) : (vsWrite vs va bs).pages = vs.pages := by
  rw [vsWrite_eq]

@[simp] theorem vsWrite_poison (vs : VSpace) (va : Nat) (bs : Bytes) : (vsWrite vs va bs).poison = vs.poison := by
  rw [vsWrite_eq]

/-- A write to a virtual space keeps the form of its memory. -/
theorem memWf_vsWrite {vs : VSpace} (h : memWf vs.mem = true) (va : Nat) (bs : Bytes) :
    memWf (vsWrite vs va bs).mem = true := by
  induction bs generalizing vs va with
  | nil => exact h
  | cons b bs ih => exact ih (vs := vsSet vs va b) (memWf_mset h) (va + 1)

/-- Where zeros are written, and where a zero was, a zero is read. -/
theorem vsGet_vsWrite_zeros {vs : VSpace} (h : memWf vs.mem = true) {va n x : Nat}
    (hx : (va ≤ x ∧ x < va + n) ∨ vsGet vs x = 0) : vsGet (vsWrite vs va (List.replicate n 0)) x = 0 := by
  induction n generalizing vs va with
  | zero => exact hx.resolve_left (by omega)
  | succ n ih =>
    refine ih (vs := vsSet vs va 0) (memWf_mset h) ?_
    by_cases hb : va + 1 ≤ x ∧ x < va + 1 + n
    · exact .inl hb
    · exact .inr (vsGet_vsSet_zero h (hx.imp_left fun hr => by omega))

/-- The lines of a list set to zero. -/
def zeroLines (vs : VSpace) (ls : List Nat) : VSpace :=
  ls.foldl (fun v l => vsWrite v (64 * l) (List.replicate 64 0)) vs

theorem zeroLines_cons (vs : VSpace) (l : Nat) (ls : List Nat) :
    zeroLines vs (l :: ls) = zeroLines (vsWrite vs (64 * l) (List.replicate 64 0)) ls := by
  simp only [zeroLines, List.foldl_cons]

@[simp] theorem zeroLines_pages (vs : VSpace) (ls : List Nat) : (zeroLines vs ls).pages = vs.pages := by
  induction ls generalizing vs with
  | nil => rfl
  | cons l ls ih => rw [zeroLines_cons, ih, vsWrite_pages]

@[simp] theorem zeroLines_poison (vs : VSpace) (ls : List Nat) : (zeroLines vs ls).poison = vs.poison := by
  induction ls generalizing vs with
  | nil => rfl
  | cons l ls ih => rw [zeroLines_cons, ih, vsWrite_poison]

/-- A byte of a line set to zero, or that was zero before, is zero. -/
theorem vsGet_zeroLines {vs : VSpace} (h : memWf vs.mem = true) {ls : List Nat} {x : Nat}
    (hx : x / 64 ∈ ls ∨ vsGet vs x = 0) : vsGet (zeroLines vs ls) x = 0 := by
  induction ls generalizing vs with
  | nil => exact hx.resolve_left (List.not_mem_nil)
  | cons l ls ih =>
    rw [zeroLines_cons]
    refine ih (memWf_vsWrite h ..) ?_
    rcases hx with hm | hz
    · rcases List.mem_cons.1 hm with hl | hm
      · exact .inr (vsGet_vsWrite_zeros h (.inl (by omega)))
      · exact .inl hm
    · exact .inr (vsGet_vsWrite_zeros h (.inr hz))

/-! ### Marks -/

/-- An entry that is found is listed. -/
theorem mem_of_tfind {α : Type} {t : Tbl α} {k : Nat} {v : α} (h : tfind t k = some v) : (k, v) ∈ t := by
  induction t with
  | nil => cases h
  | cons e t ih =>
    obtain ⟨j, a⟩ := e
    simp only [tfind] at h
    split at h
    · next hj => cases h; simp [hj]
    · exact List.mem_cons_of_mem _ (ih h)

/-- A filter on keys finds nothing under a key it drops. -/
theorem tfind_filter_drop {α : Type} (t : Tbl α) {f : Nat → Bool} {k : Nat} (h : f k = false) :
    tfind (t.filter fun e => f e.1) k = none := by
  cases hk : tfind (t.filter fun e => f e.1) k with
  | none => rfl
  | some v =>
    have := (List.mem_filter.1 (mem_of_tfind hk)).2
    simp [h] at this

/-- A filter on keys finds what was there under a key it keeps. -/
theorem tfind_filter_keep {α : Type} (t : Tbl α) {f : Nat → Bool} {k : Nat} (h : f k = true) :
    tfind (t.filter fun e => f e.1) k = tfind t k := by
  induction t with
  | nil => rfl
  | cons e t ih =>
    obtain ⟨j, a⟩ := e
    by_cases hj : f j = true
    · simp only [List.filter_cons, hj, if_true, tfind, ih]
    · have hne : j ≠ k := fun hjk => hj (hjk ▸ h)
      rw [List.filter_cons_of_neg (by simpa using hj), ih, tfind, if_neg hne]

/-- The poisoned lines of a page. -/
def badLines (vs : VSpace) (pg : Nat) : List Nat := (vs.poison.map (·.1)).filter (fun l => l / 32768 == pg)

/-- A poisoned line is among those of its page. -/
theorem mem_badLines {vs : VSpace} {pg l : Nat} (hl : l / 32768 = pg) (hb : tget vs.poison l false = true) :
    l ∈ badLines vs pg := by
  simp only [tget] at hb
  cases hf : tfind vs.poison l with
  | none => simp [hf] at hb
  | some v =>
    exact List.mem_filter.2 ⟨List.mem_map.2 ⟨_, mem_of_tfind hf, rfl⟩, by simpa using hl⟩

/-- A virtual space with the poisoned lines of a page at zero and without their marks. -/
def cleared (vs : VSpace) (pg : Nat) : VSpace :=
  { zeroLines vs (badLines vs pg) with poison := vs.poison.filter fun l => l.1 / 32768 != pg }

/-- The context of a page that is cleared. -/
theorem ctx_clearPage {s : State} {r pg : Nat} {p : Page} (hp : tfind (ctx s r).vs.pages pg = some p) :
    (ctx (clearPage s r pg) r).vs =
      { cleared (ctx s r).vs pg with pages := tset (ctx s r).vs.pages pg { p with poisoned := false } } := by
  have hs : clearPage s r pg = (badLines (ctx s r).vs pg).foldl (fun s l => farStore s r (64 * l) 64)
      (modPage (modCtx s r fun c => { c with vs := { zeroLines c.vs (badLines (ctx s r).vs pg) with
        poison := (zeroLines c.vs (badLines (ctx s r).vs pg)).poison.filter fun l => l.1 / 32768 != pg } }) r pg
        fun p => { p with poisoned := false }) := rfl
  rw [hs, ctx_congr (paged_ctxs (foldl_keeps paged (fun _ _ => paged_farStore ..) _ _)),
    modPage_of_some (p := p) (by simpa using hp)]
  simp [setPage, cleared]

/-- What a byte is hidden behind depends on the marks of lost pages alone. -/
theorem lostMask_congr {vs : VSpace} {pg : Nat} {p q : Page} (hp : tfind vs.pages pg = some p) (hl : q.lost = p.lost)
    (x : Nat) : lostMask { vs with pages := tset vs.pages pg q } x = lostMask vs x := by
  by_cases hx : pg = pageOf x
  · subst hx
    simp [lostMask, hp, hl]
  · simp [lostMask, tfind_tset_ne _ _ hx]

/-- A poisoned line of a page that is cleared reads zeros. -/
theorem vsGet_clearPage {s : State} {r pg l o : Nat} {p : Page} (hp : tfind (ctx s r).vs.pages pg = some p)
    (hm : memWf (ctx s r).vs.mem = true) (hl : l / 32768 = pg) (hb : tget (ctx s r).vs.poison l false = true)
    (ho : o < 64) : vsGet (ctx (clearPage s r pg) r).vs (64 * l + o) = 0 := by
  have hz : vsGet (zeroLines (ctx s r).vs (badLines (ctx s r).vs pg)) (64 * l + o) = 0 :=
    vsGet_zeroLines hm (.inl (by rw [show (64 * l + o) / 64 = l by omega]; exact mem_badLines hl hb))
  have hmask := lostMask_congr hp (q := { p with poisoned := false }) rfl (64 * l + o)
  rw [ctx_clearPage hp, ← hz, vsGet, vsGet]
  refine congrArg (mget (zeroLines (ctx s r).vs (badLines (ctx s r).vs pg)).mem (64 * l + o) ^^^ ·) (hmask.trans ?_)
  simp only [lostMask, zeroLines_pages]

/-! ### One page -/

/-- A page freed is unmapped. -/
theorem page_unmapPage {s : State} {r pg : Nat} {p : Page} (hp : tfind (ctx s r).vs.pages pg = some p) :
    tfind (ctx (unmapPage s r pg) r).vs.pages pg = none := by
  simp [unmapPage, hp]

/-- What is deleted is not found, and stays so when more is deleted. -/
theorem tfind_tdel_of_none {α : Type} {t : Tbl α} {k : Nat} (h : tfind t k = none) (m : Nat) :
    tfind (tdel t m) k = none := by
  by_cases hm : m = k
  · rw [hm]; exact tfind_tdel_same t k
  · rw [tfind_tdel_ne t hm, h]

/-- The frame of a local page freed is free. -/
theorem frame_unmapPage {s : State} {r pg : Nat} {p : Page} (hp : tfind (ctx s r).vs.pages pg = some p)
    (hl : p.loc = .local_) : tfind (unmapPage s r pg).frames p.frame = none := by
  simp only [unmapPage, hp, modCtx_frames, releaseFrame, hl, if_true]
  cases p.move with
  | none => exact tfind_tdel_same ..
  | some m =>
    simp only
    split
    · exact tfind_tdel_of_none (tfind_tdel_same ..) _
    · exact tfind_tdel_same ..

/-- The commands on a page within the address space. -/
theorem pgOne_of_lt {pg : Nat} (h : pg < 2 ^ 27) (s : State) (r op attr : Nat) (key : BitVec 4) :
    pgOne s r op attr key pg =
      let mirror (b : Bool) : State := if attr.testBit 1 then modPage s r pg fun p => { p with mirror := b } else s
      match op with
      | 1 => pgAlloc s r pg (attr.testBit 0) key
      | 2 => pgFree s r pg
      | 3 => .ok (mirror true)
      | 4 => .ok (mirror false)
      | 5 => pgPin s r pg
      | 6 => .ok (modPage s r pg fun p => { p with pin := false })
      | 7 => .ok (clearPage s r pg)
      | _ => .error 2 := if_neg (Nat.not_le.2 h)

/-- What each command does to a page that is mapped. -/
theorem pgOne_of_mapped {s : State} {r pg : Nat} {p : Page} (hpg : pg < 2 ^ 27)
    (hp : tfind (ctx s r).vs.pages pg = some p) (attr : Nat) (key : BitVec 4) :
    ((attr.testBit 0 && keyEmpty s r key) = false → pgOne s r 1 attr key pg = .ok s) ∧
      (p.printing = true → pgOne s r 2 attr key pg = .error 6) ∧
      (p.printing = false → ∃ t, pgOne s r 2 attr key pg = .ok t ∧ tfind (ctx t r).vs.pages pg = none ∧
        (p.loc = .local_ → tfind t.frames p.frame = none)) ∧
      (attr.testBit 1 = true → pgOne s r 3 attr key pg = .ok (setPage s r pg { p with mirror := true }) ∧
        pgOne s r 4 attr key pg = .ok (setPage s r pg { p with mirror := false })) ∧
      (p.move = none → p.loc = .local_ → pgOne s r 5 attr key pg = .ok (setPage s r pg { p with pin := true })) ∧
      pgOne s r 6 attr key pg = .ok (setPage s r pg { p with pin := false }) ∧
      (memWf (ctx s r).vs.mem = true → ∃ t q, pgOne s r 7 attr key pg = .ok t ∧
        tfind (ctx t r).vs.pages pg = some q ∧ q.poisoned = false ∧
        ∀ l, l / 32768 = pg → tget (ctx t r).vs.poison l false = false ∧
          (tget (ctx s r).vs.poison l false = true → ∀ o, o < 64 → vsGet (ctx t r).vs (64 * l + o) = 0)) := by
  simp only [pgOne_of_lt hpg]
  refine ⟨fun hk => ?_, fun hr => ?_, fun hr => ?_, fun hm => ⟨?_, ?_⟩, fun _ hl => ?_, ?_, fun hm => ?_⟩
  · simp only [pgAlloc, hk, hp, Option.isSome_some, if_true, Bool.false_eq_true, if_false]
  · simp [pgFree, hp, hr]
  · exact ⟨unmapPage s r pg, by simp [pgFree, hp, hr], page_unmapPage hp, frame_unmapPage hp⟩
  · rw [if_pos hm, modPage_of_some hp]
  · rw [if_pos hm, modPage_of_some hp]
  · simp [pgPin, hp, hl, modPage_of_some hp]
  · rw [modPage_of_some hp]
  · refine ⟨_, { p with poisoned := false }, rfl, by simp [ctx_clearPage hp], rfl, fun l hl => ⟨?_, fun hb o ho =>
      vsGet_clearPage hp hm hl hb ho⟩⟩
    have hd := tfind_filter_drop (ctx s r).vs.poison (f := fun k => k / 32768 != pg) (k := l) (by simp [hl])
    simp [ctx_clearPage hp, cleared, tget, hd]

/-- `ALLOC` of a protected page needs its key. -/
theorem pgOne_alloc_keyless {s : State} {r pg attr : Nat} {key : BitVec 4} (hpg : pg < 2 ^ 27)
    (ha : attr.testBit 0 = true) (hk : keyEmpty s r key = true) : pgOne s r 1 attr key pg = .error 4 := by
  simp [pgOne_of_lt hpg, pgAlloc, ha, hk]

/-- `ALLOC` needs the quota. -/
theorem pgOne_alloc_quota {s : State} {r pg attr : Nat} {key : BitVec 4} (hpg : pg < 2 ^ 27)
    (hp : tfind (ctx s r).vs.pages pg = none) (hk : (attr.testBit 0 && keyEmpty s r key) = false)
    (hq : cget s r F.ctxPgquotaQuota 0 ≤ (ctx s r).vs.pages.length) : pgOne s r 1 attr key pg = .error 1 := by
  simp only [pgOne_of_lt hpg, pgAlloc, hk, hp, hq, Option.isSome_none, if_true, Bool.false_eq_true, if_false]

end Sys2Proof.Machine

end

section
/-! PROOFS. Scope: a page command over its pages (O31): how a run of pages ends, the registers that tell how the command
ended, and the write of `CTX_PGCMD` that starts it. -/

open Sys2Proof.Machine

namespace Sys2Proof.Machine

/-! ### One page: results and registers -/

theorem lowRegs_pgAlloc {s t : State} {r pg : Nat} {prot : Bool} {key : BitVec 4}
    (h : pgAlloc s r pg prot key = .ok t) : lowRegs t = lowRegs s := by
  unfold pgAlloc at h
  split at h
  · cases h
  · split at h
    · cases h; rfl
    · split at h
      · cases h
      · split at h
        · next hp => cases h; rw [lowRegs_mapPage, lowRegs_placePage hp]
        · cases h

theorem lowRegs_pgFree {s t : State} {r pg : Nat} (h : pgFree s r pg = .ok t) : lowRegs t = lowRegs s := by
  unfold pgFree at h
  split at h
  · split at h
    · cases h
    · cases h; exact lowRegs_unmapPage ..
  · cases h; rfl

theorem lowRegs_pgPin {s t : State} {r pg : Nat} (h : pgPin s r pg = .ok t) : lowRegs t = lowRegs s := by
  unfold pgPin at h
  split at h
  · cases h; rfl
  · split at h
    · cases h; exact lowRegs_modPage ..
    · cases h

/-- A command other than `CLEARPOISON` leaves the low registers. -/
theorem lowRegs_pgOne {s t : State} {r op attr pg : Nat} {key : BitVec 4} (hop : op ≠ 7)
    (h : pgOne s r op attr key pg = .ok t) : lowRegs t = lowRegs s := by
  unfold pgOne at h
  split at h
  · cases h
  · simp only at h
    split at h
    · exact lowRegs_pgAlloc h
    · exact lowRegs_pgFree h
    · cases h; split <;> simp
    · cases h; split <;> simp
    · exact lowRegs_pgPin h
    · cases h; simp
    · exact absurd rfl hop
    · cases h

/-- The results of a page fit in `RESULT`. -/
theorem pgOne_error_lt {s : State} {r op attr pg e : Nat} {key : BitVec 4} (h : pgOne s r op attr key pg = .error e) :
    e < 16 := by
  unfold pgOne pgAlloc pgFree pgPin at h
  (repeat' split at h) <;> cases h <;> decide

/-- What precedes a page leaves the low registers. -/
theorem lowRegs_pgPrep (s : State) (r op pg : Nat) : lowRegs (pgPrep s r op pg) = lowRegs s := by
  unfold pgPrep
  split
  · split
    · rfl
    · simp
  · rfl

/-! ### A run of pages -/

/-- A run that has not ended waits at the page it has reached. -/
theorem pgWaits_of_pgRun {n : Nat} {s : State} {r op attr first k : Nat} {key : BitVec 4}
    (h : (pgRun n s r op attr key (first + k) k).2.1 = none) :
    pgWaits (pgRun n s r op attr key (first + k) k).1 r op (first + (pgRun n s r op attr key (first + k) k).2.2) =
      true := by
  induction n generalizing s k with
  | zero => cases h
  | succ n ih =>
    by_cases hw : pgWaits (pgPrep s r op (first + k)) r op (first + k) = true
    · simp only [pgRun, hw, if_true]
    · cases ho : pgOne (pgPrep s r op (first + k)) r op attr key (first + k) with
      | error e => simp [pgRun, hw, ho] at h
      | ok t =>
        simp only [pgRun, hw, ho, Nat.add_assoc] at h ⊢
        exact ih h

/-- The result of a run fits in `RESULT`. -/
theorem pgRun_result_lt {n : Nat} {s : State} {r op attr pg k result : Nat} {key : BitVec 4}
    (h : (pgRun n s r op attr key pg k).2.1 = some result) : result < 16 := by
  induction n generalizing s pg k with
  | zero => cases h; decide
  | succ n ih =>
    by_cases hw : pgWaits (pgPrep s r op pg) r op pg = true
    · simp [pgRun, hw] at h
    · cases ho : pgOne (pgPrep s r op pg) r op attr key pg with
      | error e =>
        simp only [pgRun, hw, ho] at h
        cases h
        exact pgOne_error_lt ho
      | ok t =>
        simp only [pgRun, hw, ho] at h
        exact ih h

/-- A run of a command other than `CLEARPOISON` leaves the low registers. -/
theorem lowRegs_pgRun {op : Nat} (hop : op ≠ 7) (n : Nat) (s : State) (r attr : Nat) (key : BitVec 4) (pg k : Nat) :
    lowRegs (pgRun n s r op attr key pg k).1 = lowRegs s := by
  induction n generalizing s pg k with
  | zero => rfl
  | succ n ih =>
    by_cases hw : pgWaits (pgPrep s r op pg) r op pg = true
    · simp only [pgRun, hw, if_true, lowRegs_pgPrep]
    · cases ho : pgOne (pgPrep s r op pg) r op attr key pg with
      | error e => simp only [pgRun, hw, ho, if_false, Bool.false_eq_true, lowRegs_pgPrep]
      | ok t =>
        simp only [pgRun, hw, ho, if_false, Bool.false_eq_true]
        rw [ih, lowRegs_pgOne hop ho, lowRegs_pgPrep]

/-! ### The end of a command -/

/-- A write of a field leaves the fields beside it in the same block of registers. -/
theorem fget_fset_sibling {f g : Fld} (hs : f.s1 = g.s1) (hd : f.off * 64 + f.lo ≠ g.off * 64 + g.lo) (s : State)
    (i v : Nat) : fget (fset s f i 0 v) g i 0 = fget s g i 0 :=
  fget_fset_ne (by simp only [Fld.key, hs]; omega)

/-- The registers of a command that has ended. -/
def pgEnded (s : State) (sl result k : Nat) : State :=
  fset (fset (fset (fset s F.ctxPgcmdGo sl 0 0) F.ctxPgstatResult sl 0 result) F.ctxPgstatDonepages sl 0 k)
    F.ctxPgstatDone sl 0 1

/-- What `CTX_PGSTAT` and `GO` read at the end of a command. -/
theorem fget_pgEnded (s : State) (sl result k : Nat) :
    fget (pgEnded s sl result k) F.ctxPgstatResult sl 0 = result % 2 ^ 4 ∧
      fget (pgEnded s sl result k) F.ctxPgstatDonepages sl 0 = k % 2 ^ 32 ∧
      fget (pgEnded s sl result k) F.ctxPgstatDone sl 0 = 1 ∧ fget (pgEnded s sl result k) F.ctxPgcmdGo sl 0 = 0 := by
  refine ⟨?_, ?_, ?_, ?_⟩ <;> simp (disch := decide) only [pgEnded, fget_fset_sibling, fget_fset_same] <;> rfl

/-- A command ends in its registers, a `CLEARPOISON` that has done pages in the log besides. -/
theorem pgFinish_eq (s : State) (sl r result k : Nat) :
    pgFinish s sl r result k = pgEnded (if fget s F.ctxPgcmdOp sl 0 = 7 ∧ k ≠ 0
      then logClear s r (fget s F.ctxPgvaVa sl 0) k else s) sl result k := rfl

/-- The command of the registers: the state, the result where it has ended, and the pages done. -/
def pgOutcome (s : State) (sl r : Nat) : State × Option Nat × Nat :=
  let op := fget s F.ctxPgcmdOp sl 0
  if op = 0 ∨ 7 < op ∨ fget s F.ctxPgcntPages sl 0 = 0 then (s, some 2, 0)
  else if (op = 1 ∨ op = 2 ∨ op = 7) ∧ stepsOpen (ctx s r) = true then (s, some 3, 0)
  else pgRun (fget s F.ctxPgcntPages sl 0) s r op (fget s F.ctxPgcmdAttr sl 0)
    (BitVec.ofNat 4 (fget s F.ctxPgcmdKeyslot sl 0)) (pageOf (fget s F.ctxPgvaVa sl 0)) 0

/-- A command leaves its outcome in its registers. -/
theorem pgCommand_eq (s : State) (sl r : Nat) :
    pgCommand s sl r = match (pgOutcome s sl r).2.1 with
      | some result => pgFinish (pgOutcome s sl r).1 sl r result (pgOutcome s sl r).2.2
      | none => fset (fset (pgOutcome s sl r).1 F.ctxPgcmdGo sl 0 1) F.ctxPgstatDonepages sl 0
          (pgOutcome s sl r).2.2 := by
  simp only [pgCommand, pgOutcome]
  split
  · rfl
  · have hq : ((fget s F.ctxPgcmdOp sl 0 == 1 || fget s F.ctxPgcmdOp sl 0 == 2 || fget s F.ctxPgcmdOp sl 0 == 7) &&
        stepsOpen (ctx s r)) = true ↔ (fget s F.ctxPgcmdOp sl 0 = 1 ∨ fget s F.ctxPgcmdOp sl 0 = 2 ∨
        fget s F.ctxPgcmdOp sl 0 = 7) ∧ stepsOpen (ctx s r) = true := by
      simp [or_assoc]
    simp only [hq]
    split
    · rfl
    · rfl

/-- The result of a command fits in `RESULT`. -/
theorem pgOutcome_result_lt {s : State} {sl r result : Nat} (h : (pgOutcome s sl r).2.1 = some result) :
    result < 16 := by
  simp only [pgOutcome] at h
  split at h
  · cases h; decide
  · split at h
    · cases h; decide
    · exact pgRun_result_lt h

/-- A command that waits waits at a page. -/
theorem pgWaits_of_pgOutcome {s : State} {sl r : Nat} (h : (pgOutcome s sl r).2.1 = none) :
    pgWaits (pgOutcome s sl r).1 r (fget s F.ctxPgcmdOp sl 0)
      (pageOf (fget s F.ctxPgvaVa sl 0) + (pgOutcome s sl r).2.2) = true := by
  simp only [pgOutcome] at h ⊢
  split at h
  · cases h
  · split at h
    · cases h
    · next h1 h2 =>
      rw [if_neg h1, if_neg h2]
      exact pgWaits_of_pgRun (first := pageOf _) (k := 0) h

/-- A command other than `CLEARPOISON` is not logged at its end. -/
theorem pgFinish_of_ne {s : State} {sl r : Nat} (hs : sl < 8) (hop : fget s F.ctxPgcmdOp sl 0 ≠ 7) (result : Nat) :
    pgFinish (pgOutcome s sl r).1 sl r result (pgOutcome s sl r).2.2 =
      pgEnded (pgOutcome s sl r).1 sl result (pgOutcome s sl r).2.2 := by
  have hlow : lowRegs (pgOutcome s sl r).1 = lowRegs s := by
    simp only [pgOutcome]
    split
    · rfl
    · split
      · rfl
      · exact lowRegs_pgRun hop ..
  have hkeep : fget (pgOutcome s sl r).1 F.ctxPgcmdOp sl 0 = fget s F.ctxPgcmdOp sl 0 :=
    fget_of_lowRegs hlow (by simp [Fld.key, F.ctxPgcmdOp]; omega)
  rw [pgFinish_eq, if_neg (by rw [hkeep]; exact fun h => hop h.1)]

/-! ### The write that starts it -/

/-- A write of register fields leaves the contexts. -/
theorem writeFields_ctxs (s : State) (w : RegWrite) (fs : List Fld) (i j : Nat) :
    (writeFields s w fs i j).ctxs = s.ctxs := by
  refine foldl_keeps State.ctxs (fun s f => ?_) fs s
  obtain h | h | h := writeField_cases w i j s f <;> rw [h] <;> rfl

/-- Each command of Table 9.5 is a write of `CTX_PGCMD`. -/
theorem exec_pageCommand {s : State} {sl : SlotId} {w : RegWrite} {c : Instr}
    (hc : c ∈ [Instr.alloc sl w, .free sl w, .setattr sl w, .clrattr sl w, .pin sl w, .unpin sl w, .clearPoison sl w])
    (ho : writeOpen s false = true) : exec c s = .next (pgWrite sl w s) := by
  simp only [List.mem_cons, List.not_mem_nil, or_false] at hc
  rcases hc with rfl | rfl | rfl | rfl | rfl | rfl | rfl <;> exact onBar_open ho fun s => .next (pgWrite sl w s)

/-- A write with `GO` runs the command of a resident slot. -/
theorem pgWrite_of_go {s : State} {sl : SlotId} {w : RegWrite} {r : Nat} (hg : fbit s F.ctxPgcmdGo sl.val 0 = false)
    (hw : wbit w F.ctxPgcmdGo = true) (hr : slotCtx s sl.val = some r) :
    pgWrite sl w s =
      pgCommand (writeFields s w [F.ctxPgcmdOp, F.ctxPgcmdAttr, F.ctxPgcmdKeyslot] sl.val 0) sl.val r := by
  have hr' : slotCtx (writeFields s w [F.ctxPgcmdOp, F.ctxPgcmdAttr, F.ctxPgcmdKeyslot] sl.val 0) sl.val = some r := by
    rw [← hr, slotCtx, writeFields_ctxs, slotCtx]
  simp only [pgWrite, hg, hw, hr', Bool.false_eq_true, if_false]

/-- A command that has ended tells so in its registers; one other than `CLEARPOISON` changes no context and no frame
beside its pages. -/
theorem pgCommand_ended {s : State} {sl r result : Nat} (hs : sl < 8) (h : (pgOutcome s sl r).2.1 = some result) :
    let u := pgCommand s sl r
    fget u F.ctxPgstatResult sl 0 = result ∧ fget u F.ctxPgstatDonepages sl 0 = (pgOutcome s sl r).2.2 % 2 ^ 32 ∧
      fget u F.ctxPgstatDone sl 0 = 1 ∧ fget u F.ctxPgcmdGo sl 0 = 0 ∧
      (fget s F.ctxPgcmdOp sl 0 ≠ 7 →
        u.ctxs = (pgOutcome s sl r).1.ctxs ∧ u.frames = (pgOutcome s sl r).1.frames) := by
  have hu : pgCommand s sl r = pgFinish (pgOutcome s sl r).1 sl r result (pgOutcome s sl r).2.2 := by
    rw [pgCommand_eq, h]
  simp only [hu]
  obtain ⟨hres, hpages, hdone, hgo⟩ := fget_pgEnded (if fget (pgOutcome s sl r).1 F.ctxPgcmdOp sl 0 = 7 ∧
    (pgOutcome s sl r).2.2 ≠ 0 then logClear (pgOutcome s sl r).1 r (fget (pgOutcome s sl r).1 F.ctxPgvaVa sl 0)
      (pgOutcome s sl r).2.2 else (pgOutcome s sl r).1) sl result (pgOutcome s sl r).2.2
  refine ⟨hres.trans (Nat.mod_eq_of_lt (pgOutcome_result_lt h)), hpages, hdone, hgo, fun hop => ?_⟩
  rw [pgFinish_of_ne hs hop]
  exact ⟨rfl, rfl⟩

/-- A command that waits leaves `GO` at 1 and the pages done. -/
theorem pgCommand_waits {s : State} {sl r : Nat} (h : (pgOutcome s sl r).2.1 = none) :
    let u := pgCommand s sl r
    fget u F.ctxPgcmdGo sl 0 = 1 ∧ fget u F.ctxPgstatDonepages sl 0 = (pgOutcome s sl r).2.2 % 2 ^ 32 ∧
      u.ctxs = (pgOutcome s sl r).1.ctxs := by
  have hu : pgCommand s sl r =
      fset (fset (pgOutcome s sl r).1 F.ctxPgcmdGo sl 0 1) F.ctxPgstatDonepages sl 0 (pgOutcome s sl r).2.2 := by
    rw [pgCommand_eq, h]
  simp only [hu]
  refine ⟨?_, fget_fset_same .., rfl⟩
  simp (disch := decide) only [fget_fset_sibling, fget_fset_same]
  rfl

end Sys2Proof.Machine

/-- Settles O31: a write with `GO` is the command's outcome (`pgWrite_of_go`, `pgCommand_eq`) put in its registers
(`pgCommand_ended`, `pgCommand_waits`), and each command does to one page what `pgOne_of_mapped` says. -/
theorem pageCommandsRunPageByPage : Obligations.PageCommandsRunPageByPage := by
  refine ⟨fun s sl w r c hc ho hg hw hr => ?_, fun s r pg attr key p hpg => ⟨pgOne_alloc_keyless hpg,
    pgOne_alloc_quota hpg, fun hp => pgOne_of_mapped hpg hp attr key⟩⟩
  intro t op n first barred e
  have hexec : exec c s = .next (pgCommand t sl.val r) := by
    rw [exec_pageCommand hc ho, pgWrite_of_go hg hw hr]
  have he : e = pgOutcome t sl.val r := by
    rw [pgOutcome, ctx_congr (writeFields_ctxs s w _ sl.val 0) r]
  rw [he]
  refine ⟨fun result h => ?_, fun h => ?_⟩
  · exact ⟨_, hexec, pgCommand_ended sl.isLt h⟩
  · obtain ⟨hgo, hpages, hctxs⟩ := pgCommand_waits h
    exact ⟨_, hexec, hgo, hpages, hctxs, pgWaits_of_pgOutcome h⟩

end

section
/-! PROOFS. Scope: migrations (O32): what a page begun to move or promoted leaves; the drain and the copy of one page. -/

open Sys2Proof.Machine

namespace Sys2Proof.Machine

/-! ### Pages changed -/

/-- A page changed leaves every other page. -/
theorem page_modPage_ne {s : State} {r q pg pg' : Nat} {f : Page → Page} (h : (r, pg) ≠ (q, pg')) :
    tfind (ctx (modPage s r pg f) q).vs.pages pg' = tfind (ctx s q).vs.pages pg' := by
  unfold modPage
  split
  · by_cases hr : r = q
    · subst hr
      exact page_setPage_ne fun hp => h (by rw [hp])
    · rw [ctx_setPage_ne hr]
  · rfl

/-- A page changed leaves the slots of the contexts. -/
theorem slot_modPage (s : State) (r pg : Nat) (f : Page → Page) (q : Nat) :
    (ctx (modPage s r pg f) q).slot = (ctx s q).slot := by
  unfold modPage
  split
  · by_cases hr : r = q
    · subst hr; simp [setPage]
    · rw [ctx_setPage_ne hr]
  · rfl

@[simp] theorem modPage_frames (s : State) (r pg : Nat) (f : Page → Page) : (modPage s r pg f).frames = s.frames := by
  unfold modPage; split <;> rfl

@[simp] theorem modPage_regs (s : State) (r pg : Nat) (f : Page → Page) : (modPage s r pg f).regs = s.regs := by
  unfold modPage; split <;> rfl

@[simp] theorem dropFrame_ctxs (s : State) (loc : PageLoc) (f : Nat) : (dropFrame s loc f).ctxs = s.ctxs := by
  unfold dropFrame; split <;> rfl

@[simp] theorem dropFrame_regs (s : State) (loc : PageLoc) (f : Nat) : (dropFrame s loc f).regs = s.regs := by
  unfold dropFrame; split <;> rfl

@[simp] theorem dropFrame_promote (s : State) (loc : PageLoc) (f : Nat) : (dropFrame s loc f).promote = s.promote := by
  unfold dropFrame; split <;> rfl

/-! ### A command that stands still -/

/-- No page command of a context is under way. -/
def pgIdle (s : State) (r : Nat) : Prop := ∀ sl, (ctx s r).slot = some sl → fget s F.ctxPgcmdGo sl.val 0 = 0

theorem pgIdle_of_cget {s : State} {r : Nat} (h : cget s r F.ctxPgcmdGo 0 = 0) : pgIdle s r := by
  intro sl hsl
  simpa [cget, hsl] using h

/-- `GO` is a low register. -/
theorem ctxPgcmdGo_low (sl : Fin 8) : F.ctxPgcmdGo.key sl.val 0 < 0x300000 * 64 := by
  simp [Fld.key, F.ctxPgcmdGo]; omega

/-- Whether a command is under way depends on the slot and the low registers. -/
theorem pgIdle_congr {s t : State} {r : Nat} (hs : (ctx t r).slot = (ctx s r).slot) (hl : lowRegs t = lowRegs s)
    (h : pgIdle s r) : pgIdle t r := by
  intro sl hsl
  rw [fget_of_lowRegs hl (ctxPgcmdGo_low sl)]
  exact h sl (hs ▸ hsl)

/-- Where no command is under way none goes on. -/
theorem resumePg_of_idle {s : State} {r : Nat} (h : pgIdle s r) : resumePg s r = s := by
  unfold resumePg
  split
  · next sl hsl => rw [if_neg (by simp [fbit, h sl hsl])]
  · rfl

/-! ### Promotions -/

/-- One promotion leaves every page but its own, the slots and the registers. -/
theorem promoteOne_frame (par : Nat) (a : State × Nat × List (CtxId × Nat)) (e : CtxId × Nat) :
    (∀ q pg, (e.1.val, e.2) ≠ (q, pg) →
      tfind (ctx (promoteOne par a e).1 q).vs.pages pg = tfind (ctx a.1 q).vs.pages pg) ∧
      (∀ q, (ctx (promoteOne par a e).1 q).slot = (ctx a.1 q).slot) ∧
      lowRegs (promoteOne par a e).1 = lowRegs a.1 := by
  simp only [promoteOne]
  split
  · split
    · exact ⟨fun _ _ _ => rfl, fun _ => rfl, rfl⟩
    · split
      · exact ⟨fun _ _ _ => rfl, fun _ => rfl, rfl⟩
      · exact ⟨fun _ _ h => page_modPage_ne h, fun q => slot_modPage _ _ _ _ q, lowRegs_modPage ..⟩
  · exact ⟨fun _ _ _ => rfl, fun _ => rfl, rfl⟩

/-- One promotion leaves a page that may not move. -/
theorem page_promoteOne_kept {par : Nat} {a : State × Nat × List (CtxId × Nat)} {e : CtxId × Nat} {r pg : Nat}
    {p : Page} (hp : tfind (ctx a.1 r).vs.pages pg = some p) (hk : (p.pin || p.printing || p.poisoned) = true) :
    tfind (ctx (promoteOne par a e).1 r).vs.pages pg = some p := by
  by_cases he : (e.1.val, e.2) = (r, pg)
  · cases he
    have hm : (!mayMove (ctx a.1 e.1.val) e.2 p) = true := by
      simp only [mayMove, Bool.not_eq_true']
      revert hk
      cases p.pin <;> cases p.printing <;> cases p.poisoned <;> simp
    simp only [promoteOne, hp, hm, or_true, if_true]
  · rw [(promoteOne_frame par a e).1 r pg he, hp]

/-- Promotions leave a page that is not among them. -/
theorem page_promoteAll_ne {es : List (CtxId × Nat)} {r : CtxId} {pg : Nat} (h : (r, pg) ∉ es) (s : State)
    (par left : Nat) :
    tfind (ctx (promoteAll s par left es) r.val).vs.pages pg = tfind (ctx s r.val).vs.pages pg := by
  have hfold (a : State × Nat × List (CtxId × Nat)) :
      tfind (ctx (es.foldl (promoteOne par) a).1 r.val).vs.pages pg = tfind (ctx a.1 r.val).vs.pages pg := by
    induction es generalizing a with
    | nil => rfl
    | cons e es ih =>
      obtain ⟨hne, hes⟩ := not_or.1 (mt List.mem_cons.2 h)
      refine (ih hes _).trans ((promoteOne_frame par a e).1 r.val pg fun he => hne ?_)
      obtain ⟨hr, hpg⟩ := Prod.mk.inj he
      exact Prod.ext (Fin.ext hr.symm) hpg.symm
  exact hfold (s, left, [])

/-- Promotions leave a page that may not move. -/
theorem page_promoteAll_kept {es : List (CtxId × Nat)} {s : State} {r pg : Nat} {p : Page}
    (hp : tfind (ctx s r).vs.pages pg = some p) (hk : (p.pin || p.printing || p.poisoned) = true) (par left : Nat) :
    tfind (ctx (promoteAll s par left es) r).vs.pages pg = some p :=
  List.foldlRecOn (motive := fun a : State × Nat × List (CtxId × Nat) => tfind (ctx a.1 r).vs.pages pg = some p) es
    (promoteOne par) (b := (s, left, [])) hp fun _ ha _ _ => page_promoteOne_kept ha hk

/-- Promotions leave the slots and the low registers. -/
theorem promoteAll_frame (s : State) (par left : Nat) (es : List (CtxId × Nat)) :
    (∀ q, (ctx (promoteAll s par left es) q).slot = (ctx s q).slot) ∧
      lowRegs (promoteAll s par left es) = lowRegs s :=
  List.foldlRecOn (motive := fun a : State × Nat × List (CtxId × Nat) =>
      (∀ q, (ctx a.1 q).slot = (ctx s q).slot) ∧ lowRegs a.1 = lowRegs s) es
    (promoteOne par) (b := (s, left, [])) ⟨fun _ => rfl, rfl⟩ fun a ⟨hs, hl⟩ e _ =>
      ⟨fun q => ((promoteOne_frame par a e).2.1 q).trans (hs q), (promoteOne_frame par a e).2.2.trans hl⟩

/-! ### The copy of a page -/

/-- SWITCH and RELEASE: the entry names the new place, the old frame is free. -/
def movedPage (s : State) (r pg : Nat) (p : Page) (m : PageMove) : State :=
  setPage (dropFrame s p.loc p.frame) r pg { p with loc := m.loc, frame := m.frame, dev := m.dev, move := none }

/-- A move is settled by SWITCH and RELEASE, its count, and where a local frame may be free the promotions that wait. -/
theorem settleMove_eq (s : State) (r pg : Nat) (p : Page) (m : PageMove) :
    settleMove s r pg p m =
      if m.loc = .local_ then fcount (movedPage s r pg p m) F.memMigcntIn 0 0 1
      else promoteAll (fcount (movedPage s r pg p m) F.memMigcntOut 0 0 1) (pg % 2) (tget s.promote (pg % 2) (0, [])).1
        (tget s.promote (pg % 2) (0, [])).2 := by
  have h : (movedPage s r pg p m).promote = s.promote := dropFrame_promote ..
  simp only [← h]
  rfl

@[simp] theorem page_movedPage (s : State) (r pg : Nat) (p : Page) (m : PageMove) :
    tfind (ctx (movedPage s r pg p m) r).vs.pages pg =
      some { p with loc := m.loc, frame := m.frame, dev := m.dev, move := none } := page_setPage_same ..

/-- The frame of a local page is free once its entry names another. -/
theorem frame_movedPage {p : Page} (h : p.loc = .local_) (s : State) (r pg : Nat) (m : PageMove) :
    tfind (movedPage s r pg p m).frames p.frame = none := by
  simp [movedPage, dropFrame, h]

/-- The page of a copy that succeeds is at its new place, unless a promotion takes it up again. -/
theorem page_settleMove {s : State} {r : CtxId} {pg : Nat} {p : Page} {m : PageMove}
    (h : (r, pg) ∉ (tget s.promote (pg % 2) (0, [])).2) :
    tfind (ctx (settleMove s r.val pg p m) r.val).vs.pages pg =
      some { p with loc := m.loc, frame := m.frame, dev := m.dev, move := none } := by
  rw [settleMove_eq]
  split
  · rw [ctx_congr (fcount_ctxs ..), page_movedPage]
  · rw [page_promoteAll_ne h, ctx_congr (fcount_ctxs ..), page_movedPage]

/-- The frame left by a copy that succeeds is free, unless a promotion takes it. -/
theorem frame_settleMove {s : State} {r pg : Nat} {p : Page} {m : PageMove} (hl : p.loc = .local_)
    (h : m.loc = .local_ ∨ (tget s.promote (pg % 2) (0, [])).2 = []) :
    tfind (settleMove s r pg p m).frames p.frame = none := by
  rw [settleMove_eq]
  split
  · exact frame_movedPage hl s r pg m
  · next hm =>
    rw [h.resolve_left hm]
    exact frame_movedPage hl s r pg m

/-- The counters of the migrations leave `GO`. -/
theorem pgIdle_fcount {s : State} {r : Nat} (h : pgIdle s r) {f : Fld} (hf : f.lo % 64 ≠ 10) :
    pgIdle (fcount s f 0 0 1) r := by
  intro sl hsl
  rw [fget_fcount_ne (by simp [Fld.key, F.ctxPgcmdGo]; omega)]
  exact h sl hsl

/-- A move that is settled starts no page command. -/
theorem pgIdle_settleMove {s : State} {r : Nat} (h : pgIdle s r) (pg : Nat) (p : Page) (m : PageMove) :
    pgIdle (settleMove s r pg p m) r := by
  have hset : pgIdle (movedPage s r pg p m) r :=
    pgIdle_congr (by simp [movedPage, setPage, ctx_congr (dropFrame_ctxs ..)]) (lowRegs_congr (dropFrame_regs ..)) h
  rw [settleMove_eq]
  split
  · exact pgIdle_fcount hset (by decide)
  · obtain ⟨hs, hl⟩ := promoteAll_frame (fcount (movedPage s r pg p m) F.memMigcntOut 0 0 1) (pg % 2)
      (tget s.promote (pg % 2) (0, [])).1 (tget s.promote (pg % 2) (0, [])).2
    exact pgIdle_congr (hs r) hl (pgIdle_fcount hset (by decide))

/-- The drain of a page that migrates. -/
theorem exec_migrationDrain {s : State} {r : CtxId} {pg : Nat} {p : Page} {m : PageMove}
    (hp : tfind (ctx s r.val).vs.pages pg = some p) (hk : clockRuns s (pageClock pg) = true) (hm : p.move = some m) :
    exec (.migrationDrain r pg) s = .next (setPage s r.val pg { p with move := some { m with drained := true } }) := by
  change execMigrationDrain r pg s = _
  rw [execMigrationDrain, onClock_runs hk, modPage_of_some hp, hm]
  rfl

/-- A copy that fails: the entry stays, and the new place is free. -/
theorem exec_migrationCopy_failed {s : State} {r : CtxId} {pg : Nat} {p : Page} {m : PageMove}
    (hp : tfind (ctx s r.val).vs.pages pg = some p) (hk : clockRuns s (pageClock pg) = true) (hm : p.move = some m)
    (hd : m.drained = true) (hg : pgIdle s r.val) :
    exec (.migrationCopy r pg false) s =
      .next (intPauseAll (setPage (dropFrame s m.loc m.frame) r.val pg { p with move := none })) := by
  change execMigrationCopy r pg false s = _
  have hi : pgIdle (intPauseAll (setPage (dropFrame s m.loc m.frame) r.val pg { p with move := none })) r.val :=
    pgIdle_congr (by simp [ctx_congr (paged_ctxs (paged_intPauseAll _)), setPage, ctx_congr (dropFrame_ctxs ..)])
      (lowRegs_congr (by simp [intPauseAll])) hg
  rw [execMigrationCopy, onClock_runs hk]
  simp only [hp, hm, hd, Bool.not_true, Bool.not_false, Bool.false_eq_true, if_false, if_true, resumePg_of_idle hi]

/-- A copy that succeeds: the page is put at its new place, and the move is settled. -/
theorem exec_migrationCopy_done {s : State} {r : CtxId} {pg : Nat} {p : Page} {m : PageMove}
    (hp : tfind (ctx s r.val).vs.pages pg = some p) (hk : clockRuns s (pageClock pg) = true) (hm : p.move = some m)
    (hd : m.drained = true) (hg : pgIdle s r.val) (hh : (m.loc = .host ∨ p.loc = .host) → hostUp s = true) :
    exec (.migrationCopy r pg true) s =
      .next (intPauseAll (settleMove (farPage s r.val pg p m.loc m.frame m.dev) r.val pg p m)) := by
  change execMigrationCopy r pg true s = _
  have hfar := paged_farPage s r.val pg p m.loc m.frame m.dev
  have hi : pgIdle (intPauseAll (settleMove (farPage s r.val pg p m.loc m.frame m.dev) r.val pg p m)) r.val :=
    pgIdle_settleMove (pgIdle_congr (by rw [ctx_congr (paged_ctxs hfar)]) (paged_lowRegs hfar) hg) pg p m
  have hw : ¬((m.loc = .host ∨ p.loc = .host) ∧ (!hostUp s) = true) := fun h => by simp [hh h.1] at h
  rw [execMigrationCopy, onClock_runs hk]
  simp only [hp, hm, hd, Bool.not_true, Bool.false_eq_true, if_false, if_neg hw, resumePg_of_idle hi]

end Sys2Proof.Machine

end

section
/-! PROOFS. Scope: the end of an epoch (O32): the registers it takes over, the pages it leaves, the access counters it
clears. -/

open Sys2Proof.Machine

namespace Sys2Proof.Machine

/-! ### Registers copied -/

/-- Fields copied one by one to places of their own. -/
def copyFields (g : Fld → Fld) (l : List (Fld × Nat)) (s : State) : State :=
  l.foldl (fun s f => fset s (g f.1) 0 f.2 (fget s f.1 0 f.2)) s

/-- Copies leave the fields that none of them goes to. -/
theorem fget_copyFields_ne {g : Fld → Fld} {l : List (Fld × Nat)} {h : Fld} {j : Nat}
    (hd : ∀ f ∈ l, (g f.1).key 0 f.2 ≠ h.key 0 j) (s : State) : fget (copyFields g l s) h 0 j = fget s h 0 j := by
  induction l generalizing s with
  | nil => rfl
  | cons f l ih =>
    obtain ⟨hf, hl⟩ := List.forall_mem_cons.1 hd
    exact (ih hl _).trans (fget_fset_ne hf)

/-- Each copy reads the field it was made of, where the copies differ in place from each other and from the fields. -/
theorem fget_copyFields {g : Fld → Fld} {l : List (Fld × Nat)}
    (hp : l.Pairwise fun a b => (g b.1).key 0 b.2 ≠ (g a.1).key 0 a.2)
    (hd : ∀ a ∈ l, ∀ b ∈ l, (g a.1).key 0 a.2 ≠ b.1.key 0 b.2) (s : State) {f : Fld × Nat} (hf : f ∈ l) :
    fget (copyFields g l s) (g f.1) 0 f.2 = fget s f.1 0 f.2 % 2 ^ (g f.1).w := by
  induction l generalizing s with
  | nil => cases hf
  | cons a l ih =>
    obtain ⟨ha, hl⟩ := List.pairwise_cons.1 hp
    rcases List.mem_cons.1 hf with rfl | hf
    · exact (fget_copyFields_ne ha _).trans (fget_fset_same ..)
    · have hrest := ih hl (fun a ha b hb => hd a (List.mem_cons_of_mem _ ha) b (List.mem_cons_of_mem _ hb))
        (fset s (g a.1) 0 a.2 (fget s a.1 0 a.2)) hf
      rw [fget_fset_ne (hd a (List.mem_cons_self ..) f (List.mem_cons_of_mem _ hf))] at hrest
      exact hrest

/-- Copies are registers alone. -/
theorem copyFields_ctxs (g : Fld → Fld) (l : List (Fld × Nat)) (s : State) : (copyFields g l s).ctxs = s.ctxs := by
  induction l generalizing s with
  | nil => rfl
  | cons f l ih => exact (ih _).trans (fset_ctxs ..)

/-- The copies that a page manager works with differ in place from each other and from the registers. -/
theorem epochFields_apart (e : Fin 2) :
    (epochFields.Pairwise fun a b => (inForce e.val b.1).key 0 b.2 ≠ (inForce e.val a.1).key 0 a.2) ∧
      ∀ a ∈ epochFields, ∀ b ∈ epochFields, (inForce e.val a.1).key 0 a.2 ≠ b.1.key 0 b.2 := by
  revert e
  decide

/-- The registers of an epoch are low ones. -/
theorem epochFields_low : ∀ f ∈ epochFields, f.1.key 0 f.2 < 0x300000 * 64 := by decide

/-! ### Pages of a tile -/

/-- In a table with rising keys an entry listed is the entry found. -/
theorem tfind_of_mem {α : Type} {t : Tbl α} (hs : tsorted t = true) {k : Nat} {v : α} (h : (k, v) ∈ t) :
    tfind t k = some v := by
  induction t with
  | nil => cases h
  | cons e t ih =>
    obtain ⟨j, a⟩ := e
    obtain ⟨ha, ht⟩ := tsorted_cons.1 hs
    rcases List.mem_cons.1 h with hk | hk
    · cases hk
      simp [tfind]
    · rw [tfind, if_neg (Nat.ne_of_lt (ha _ hk)), ih ht hk]

/-- The pages of a tile are pages of the contexts. -/
theorem mem_tilePages {s : State} {par : Nat} {e : Nat × Nat × Page} :
    e ∈ tilePages s par ↔ ∃ x ∈ s.ctxs, ∃ p ∈ x.2.vs.pages, p.1 % 2 = par ∧ e = (x.1, p.1, p.2) := by
  simp only [tilePages, List.mem_mergeSort, List.mem_flatten, List.mem_map]
  constructor
  · rintro ⟨l, ⟨x, hx, rfl⟩, hl⟩
    obtain ⟨p, hp, rfl⟩ := List.mem_map.1 hl
    obtain ⟨hpx, hpar⟩ := List.mem_filter.1 hp
    exact ⟨x, hx, p, hpx, by simpa using hpar, rfl⟩
  · rintro ⟨x, hx, p, hp, hpar, rfl⟩
    exact ⟨_, ⟨x, hx, rfl⟩, List.mem_map.2 ⟨p, List.mem_filter.2 ⟨hp, by simpa using hpar⟩, rfl⟩⟩

/-- The page of a tile that is listed is the page that is found. -/
theorem page_of_mem_tilePages {s : State} {par : Nat} {e : Nat × Nat × Page} (hc : tsorted s.ctxs = true)
    (hp : ∀ x ∈ s.ctxs, tsorted x.2.vs.pages = true) (he : e ∈ tilePages s par) :
    tfind (ctx s e.1).vs.pages e.2.1 = some e.2.2 := by
  obtain ⟨x, hx, p, hpx, -, rfl⟩ := mem_tilePages.1 he
  rw [ctx, tget, tfind_of_mem hc hx]
  exact tfind_of_mem (hp x hx) hpx

/-! ### Demotions -/

/-- What pins, ships or poisons a page keeps it from moving. -/
theorem mayMove_of_kept {p : Page} (hk : (p.pin || p.printing || p.poisoned) = true) (x : Ctx) (pg : Nat) :
    mayMove x pg p = false := by
  simp only [Bool.or_eq_true] at hk
  rcases hk with (h | h) | h <;> simp [mayMove, h]

/-- One demotion leaves the low registers. -/
theorem lowRegs_demoteOne (par : Nat) (a : State × Nat) (e : Nat × Nat × Page) :
    lowRegs (demoteOne par a e).1 = lowRegs a.1 := by
  simp only [demoteOne]
  split
  · rfl
  · split
    · next hf => exact (lowRegs_beginMove ..).trans (paged_lowRegs (paged_farPlace hf))
    · rfl

/-- One demotion leaves a page that may not move. -/
theorem page_demoteOne_kept {par : Nat} {a : State × Nat} {e : Nat × Nat × Page} {r pg : Nat} {p : Page}
    (hp : tfind (ctx a.1 r).vs.pages pg = some p) (hk : (p.pin || p.printing || p.poisoned) = true)
    (he : (e.1, e.2.1) = (r, pg) → e.2.2 = p) : tfind (ctx (demoteOne par a e).1 r).vs.pages pg = some p := by
  by_cases hrp : (e.1, e.2.1) = (r, pg)
  · simpa only [demoteOne, he hrp, mayMove_of_kept hk, Bool.not_false, or_true, true_or, if_true] using hp
  · simp only [demoteOne]
    split
    · exact hp
    · split
      · next hf => rw [beginMove, page_modPage_ne hrp, ctx_congr (paged_ctxs (paged_farPlace hf)), hp]
      · exact hp

/-- The demotions of an epoch, where they are on. -/
def demoted (s : State) (par : Nat) : State × Nat :=
  if fbit s (inForce par F.memMigDemote) 0 0 then
    (tilePages s par).foldl (demoteOne par) (s, fget s (inForce par F.memMigRate) 0 0)
  else (s, fget s (inForce par F.memMigRate) 0 0)

/-- Demotions leave the low registers. -/
theorem lowRegs_demoted (s : State) (par : Nat) : lowRegs (demoted s par).1 = lowRegs s := by
  unfold demoted
  split
  · exact List.foldlRecOn (motive := fun a : State × Nat => lowRegs a.1 = lowRegs s) _ (demoteOne par) rfl
      fun a ha e _ => (lowRegs_demoteOne par a e).trans ha
  · rfl

/-- Demotions leave a page that may not move. -/
theorem page_demoted_kept {s : State} {r pg : Nat} {p : Page} (hc : tsorted s.ctxs = true)
    (hs : ∀ x ∈ s.ctxs, tsorted x.2.vs.pages = true) (hp : tfind (ctx s r).vs.pages pg = some p)
    (hk : (p.pin || p.printing || p.poisoned) = true) (par : Nat) :
    tfind (ctx (demoted s par).1 r).vs.pages pg = some p := by
  unfold demoted
  split
  · refine List.foldlRecOn (motive := fun a : State × Nat => tfind (ctx a.1 r).vs.pages pg = some p) _ (demoteOne par)
      hp fun a ha e he => page_demoteOne_kept ha hk fun hrp => ?_
    cases hrp
    exact Option.some.inj ((page_of_mem_tilePages hc hs he).symm.trans hp)
  · exact hp

/-! ### Access counters -/

/-- A table whose entries are changed one by one. -/
theorem tfind_map {α : Type} (g : Nat → α → α) (t : Tbl α) (k : Nat) :
    tfind (t.map fun e => (e.1, g e.1 e.2)) k = (tfind t k).map (g k) := by
  induction t with
  | nil => rfl
  | cons e t ih =>
    obtain ⟨j, a⟩ := e
    simp only [List.map_cons, tfind]
    split
    · next hj => rw [hj]; rfl
    · exact ih

/-- The counter of a page cleared, where the page is of the tile. -/
def clearedPage (par pg : Nat) (p : Page) : Page := if pg % 2 = par then { p with accesses := 0 } else p

/-- The counters of a context's pages cleared. -/
def clearedCtx (par : Nat) (x : Ctx) : Ctx :=
  { x with vs := { x.vs with pages := x.vs.pages.map fun p => (p.1, clearedPage par p.1 p.2) } }

/-- The counters of a tile are cleared context by context. -/
theorem clearAccesses_ctxs (s : State) (par : Nat) :
    (clearAccesses s par).ctxs = s.ctxs.map fun e => (e.1, clearedCtx par e.2) := by
  have hpage (p : Nat × Page) :
      (if p.1 % 2 = par then (p.1, { p.2 with accesses := 0 }) else p) = (p.1, clearedPage par p.1 p.2) := by
    unfold clearedPage; split <;> rfl
  simp only [clearAccesses, clearedCtx, hpage]

/-- What is found of a context whose counters are cleared. -/
theorem ctx_clearAccesses (s : State) (par r : Nat) : ctx (clearAccesses s par) r = clearedCtx par (ctx s r) := by
  rw [ctx, tget, clearAccesses_ctxs, tfind_map (fun _ => clearedCtx par), ctx, tget]
  cases tfind s.ctxs r <;> rfl

/-- A page found stays, but for its counter. -/
theorem page_clearAccesses {s : State} {r pg : Nat} {p : Page} (hp : tfind (ctx s r).vs.pages pg = some p) (par : Nat) :
    tfind (ctx (clearAccesses s par) r).vs.pages pg = some (clearedPage par pg p) := by
  rw [ctx_clearAccesses]
  exact (tfind_map (clearedPage par) ..).trans (by rw [hp]; rfl)

/-- After the counters of a tile are cleared each of them is 0. -/
theorem accesses_clearAccesses {s : State} {par : Nat} {x : Nat × Ctx} (hx : x ∈ (clearAccesses s par).ctxs)
    {p : Nat × Page} (hp : p ∈ x.2.vs.pages) (hpar : p.1 % 2 = par) : p.2.accesses = 0 := by
  rw [clearAccesses_ctxs] at hx
  obtain ⟨y, -, rfl⟩ := List.mem_map.1 hx
  obtain ⟨q, -, rfl⟩ := List.mem_map.1 hp
  simp only at hpar
  simp [clearedPage, hpar]

/-! ### The epoch -/

/-- What migration, where it is on, makes of a tile at the end of an epoch. -/
def migrated (s : State) (par : Nat) : State :=
  if fbit s (inForce par F.memMigEn) 0 0 = true then
    clearAccesses (promoteAll (demoted s par).1 par (demoted s par).2
      ((hotPages s par).map fun h => (Fin.ofNat 64 h.1, h.2.1))) par
  else s

/-- Migration leaves the low registers. -/
theorem lowRegs_migrated (s : State) (par : Nat) : lowRegs (migrated s par) = lowRegs s := by
  unfold migrated
  split
  · exact ((promoteAll_frame ..).2).trans (lowRegs_demoted s par)
  · rfl

/-- Migration leaves a page that may not move, but for its counter. -/
theorem page_migrated_kept {s : State} {r pg : Nat} {p : Page} (hc : tsorted s.ctxs = true)
    (hs : ∀ x ∈ s.ctxs, tsorted x.2.vs.pages = true) (hp : tfind (ctx s r).vs.pages pg = some p)
    (hk : (p.pin || p.printing || p.poisoned) = true) (par : Nat) :
    ∃ a, tfind (ctx (migrated s par) r).vs.pages pg = some { p with accesses := a } := by
  unfold migrated
  split
  · rw [page_clearAccesses (page_promoteAll_kept (page_demoted_kept hc hs hp hk par) hk ..)]
    unfold clearedPage
    split
    · exact ⟨0, rfl⟩
    · exact ⟨p.accesses, rfl⟩
  · exact ⟨p.accesses, hp⟩

/-- A frame lent or given back changes no context and no low register. -/
theorem lendStep_frame (s : State) (par : Nat) :
    (lendStep s par).ctxs = s.ctxs ∧ lowRegs (lendStep s par) = lowRegs s := by
  simp only [lendStep]
  split
  · exact ⟨rfl, rfl⟩
  · split
    · split <;> exact ⟨rfl, rfl⟩
    · split <;> exact ⟨rfl, rfl⟩
    · exact ⟨rfl, rfl⟩

/-- The end of an epoch: migration, lending, and the registers taken over. -/
theorem exec_migrationEpoch {s : State} {e : EdgeId} (hk : clockRuns s (edgeClock e.val) = true) :
    exec (.migrationEpoch e) s =
      .next (intPauseAll (copyFields (inForce e.val) epochFields (lendStep (migrated s e.val) e.val))) := by
  change execMigrationEpoch e s = _
  rw [execMigrationEpoch, onClock_runs hk]
  unfold migrated demoted
  by_cases hm : fbit s (inForce e.val F.memMigEn) 0 0 = true
  · simp only [hm, Bool.not_true, Bool.false_eq_true, if_false, if_true]
    rfl
  · simp only [hm, Bool.not_false, if_true]
    rfl

theorem intPauseAll_regs (s : State) : (intPauseAll s).regs = s.regs := rfl

/-- The contexts after an epoch are those of the migration. -/
theorem ctxs_epoch (s : State) (par : Nat) :
    (intPauseAll (copyFields (inForce par) epochFields (lendStep (migrated s par) par))).ctxs =
      (migrated s par).ctxs := by
  rw [paged_ctxs (paged_intPauseAll _), copyFields_ctxs, (lendStep_frame _ _).1]

/-- The registers in force after an epoch are those of its end. -/
theorem fget_epoch (s : State) (e : Fin 2) {f : Fld × Nat} (hf : f ∈ epochFields) :
    fget (intPauseAll (copyFields (inForce e.val) epochFields (lendStep (migrated s e.val) e.val)))
      (inForce e.val f.1) 0 f.2 = fget s f.1 0 f.2 % 2 ^ f.1.w := by
  have hlow : lowRegs (lendStep (migrated s e.val) e.val) = lowRegs s :=
    (lendStep_frame ..).2.trans (lowRegs_migrated s e.val)
  rw [fget_congr (intPauseAll_regs _), ← fget_of_lowRegs hlow (epochFields_low f hf)]
  exact fget_copyFields (epochFields_apart e).1 (epochFields_apart e).2 _ hf

end Sys2Proof.Machine

end

section
/-! PROOFS. Scope: what the page commands of one context leave of another: its record, and `GO` of its slot (O32). -/

open Sys2Proof.Machine

namespace Sys2Proof.Machine

/-- A context, and `GO` of a slot. -/
def pageView (r : Nat) (sl : Fin 8) (s : State) : Ctx × Nat := (ctx s r, fget s F.ctxPgcmdGo sl.val 0)

/-- A context and `GO` are read from the contexts and the low registers. -/
theorem pageView_congr {s t : State} {r : Nat} {sl : Fin 8} (hc : t.ctxs = s.ctxs) (hl : lowRegs t = lowRegs s) :
    pageView r sl t = pageView r sl s := by
  simp only [pageView, ctx_congr hc, fget_of_lowRegs hl (ctxPgcmdGo_low sl)]

/-- What packets and writes to host memory leave. -/
theorem pageView_of_paged {s t : State} {r : Nat} {sl : Fin 8} (h : paged t = paged s) :
    pageView r sl t = pageView r sl s := pageView_congr (paged_ctxs h) (paged_lowRegs h)

/-- A field other than `GO` does not stand where `GO` does. -/
theorem key_ne_ctxPgcmdGo {f : Fld} (hf : f.lo % 64 ≠ 10) (i j a : Nat) : f.key i j ≠ F.ctxPgcmdGo.key a 0 := by
  simp only [Fld.key, F.ctxPgcmdGo]
  omega

/-- A write of another field leaves the context and `GO`. -/
theorem pageView_fset {s : State} {r : Nat} {sl : Fin 8} {f : Fld} (hf : f.lo % 64 ≠ 10) (i j v : Nat) :
    pageView r sl (fset s f i j v) = pageView r sl s :=
  Prod.ext (ctx_congr (fset_ctxs ..) r) (fget_fset_ne (key_ne_ctxPgcmdGo hf i j sl.val))

/-- A place taken for a page leaves every context and `GO`. -/
theorem pageView_placePage {s t : State} {r q : Nat} {sl : Fin 8} {pg : Nat} {prot : Bool} {key : BitVec 4} {p : Page}
    (h : placePage s q pg prot key = some (t, p)) : pageView r sl t = pageView r sl s :=
  pageView_congr (ctxs_placePage h) (lowRegs_placePage h)

section
variable {r q : Nat} (hq : q ≠ r) {sl : Fin 8}
include hq

theorem pageView_modCtx (s : State) (f : Ctx → Ctx) : pageView r sl (modCtx s q f) = pageView r sl s :=
  Prod.ext (ctx_modCtx_ne hq) rfl

theorem pageView_modPage (s : State) (pg : Nat) (f : Page → Page) :
    pageView r sl (modPage s q pg f) = pageView r sl s := by
  unfold modPage
  split
  · exact pageView_modCtx hq ..
  · rfl

theorem pageView_cset (s : State) {f : Fld} (hf : f.lo % 64 ≠ 10) (j v : Nat) :
    pageView r sl (cset s q f j v) = pageView r sl s := by
  unfold cset
  split
  · exact pageView_fset hf ..
  · exact pageView_modCtx hq ..

/-! ### The rushes log -/

theorem pageView_ringPut (s : State) (bs : Bytes) (len : Nat) :
    pageView r sl (ringPut s q bs len) = pageView r sl s := by
  simp only [ringPut, pageView_cset hq _ (show F.ctxLogHeadCount.lo % 64 ≠ 10 by decide)]
  rfl

theorem pageView_logWrite (s : State) (e : LogEnt) : pageView r sl (logWrite s q e) = pageView r sl s := by
  simp only [logWrite, pageView_ringPut hq, pageView_cset hq _ (show F.logSeq.lo % 64 ≠ 10 by decide)]
  split
  · rfl
  · simp only [pageView_ringPut hq, pageView_cset hq _ (show F.logSeq.lo % 64 ≠ 10 by decide)]

theorem pageView_logPut (s : State) (e : LogEnt) : pageView r sl (logPut s q e) = pageView r sl s := by
  unfold logPut
  split
  · rfl
  · split
    · exact pageView_logWrite hq ..
    · exact pageView_modCtx hq ..

theorem pageView_logClear (s : State) (va k : Nat) : pageView r sl (logClear s q va k) = pageView r sl s := by
  simp only [logClear, logFor]
  split
  · rfl
  · split
    · rfl
    · rw [pageView_logPut hq]
      split
      · next h => cases h
      · exact pageView_modCtx hq ..
      · exact pageView_modCtx hq ..

/-! ### Page commands -/

theorem pageView_mapPage (s : State) (pg : Nat) (p : Page) :
    pageView r sl (mapPage s q pg p) = pageView r sl s := by
  rw [mapPage, pageView_of_paged (paged_farPage ..), pageView_modCtx hq]
  exact pageView_congr (addTable_ctxs ..) (lowRegs_addTable ..)

theorem pageView_clearPage (s : State) (pg : Nat) : pageView r sl (clearPage s q pg) = pageView r sl s := by
  refine (pageView_of_paged (foldl_keeps paged (fun _ _ => paged_farStore ..) _ _)).trans ?_
  rw [pageView_modPage hq, pageView_modCtx hq]

theorem pageView_unmapPage (s : State) (pg : Nat) : pageView r sl (unmapPage s q pg) = pageView r sl s := by
  unfold unmapPage
  split
  · rfl
  · rw [pageView_modCtx hq]
    exact pageView_congr (releaseFrame_ctxs ..) (lowRegs_releaseFrame ..)

theorem pageView_pgPrep (s : State) (op pg : Nat) : pageView r sl (pgPrep s q op pg) = pageView r sl s := by
  unfold pgPrep
  split
  · split
    · rfl
    · exact (pageView_of_paged (paged_intPauseAll _)).trans (pageView_modPage hq ..)
  · rfl

theorem pageView_pgAlloc {s t : State} {pg : Nat} {prot : Bool} {key : BitVec 4}
    (h : pgAlloc s q pg prot key = .ok t) : pageView r sl t = pageView r sl s := by
  unfold pgAlloc at h
  split at h
  · cases h
  · split at h
    · cases h; rfl
    · split at h
      · cases h
      · split at h
        · next hp => cases h; rw [pageView_mapPage hq, pageView_placePage hp]
        · cases h

theorem pageView_pgFree {s t : State} {pg : Nat} (h : pgFree s q pg = .ok t) : pageView r sl t = pageView r sl s := by
  unfold pgFree at h
  split at h
  · split at h
    · cases h
    · cases h; exact pageView_unmapPage hq ..
  · cases h; rfl

theorem pageView_pgPin {s t : State} {pg : Nat} (h : pgPin s q pg = .ok t) : pageView r sl t = pageView r sl s := by
  unfold pgPin at h
  split at h
  · cases h; rfl
  · split at h
    · cases h; exact pageView_modPage hq ..
    · cases h

theorem pageView_pgOne {s t : State} {op attr pg : Nat} {key : BitVec 4} (h : pgOne s q op attr key pg = .ok t) :
    pageView r sl t = pageView r sl s := by
  have hmirror (b : Bool) : pageView r sl (if attr.testBit 1 = true then modPage s q pg fun p => { p with mirror := b }
      else s) = pageView r sl s := by
    split
    · exact pageView_modPage hq ..
    · rfl
  unfold pgOne at h
  split at h
  · cases h
  · simp only at h
    split at h
    · exact pageView_pgAlloc hq h
    · exact pageView_pgFree hq h
    · cases h; exact hmirror true
    · cases h; exact hmirror false
    · exact pageView_pgPin hq h
    · cases h; exact pageView_modPage hq ..
    · cases h; exact pageView_clearPage hq ..
    · cases h

theorem pageView_pgRun (n : Nat) (s : State) (op attr : Nat) (key : BitVec 4) (pg k : Nat) :
    pageView r sl (pgRun n s q op attr key pg k).1 = pageView r sl s := by
  induction n generalizing s pg k with
  | zero => rfl
  | succ n ih =>
    by_cases hw : pgWaits (pgPrep s q op pg) q op pg = true
    · simp only [pgRun, hw, if_true, pageView_pgPrep hq]
    · cases ho : pgOne (pgPrep s q op pg) q op attr key pg with
      | error e => simp only [pgRun, hw, ho, if_false, Bool.false_eq_true, pageView_pgPrep hq]
      | ok t =>
        simp only [pgRun, hw, ho, if_false, Bool.false_eq_true]
        rw [ih, pageView_pgOne hq ho, pageView_pgPrep hq]

/-- A command of another slot leaves the context and `GO`. -/
theorem pageView_pgFrom {s : State} {sl' : Fin 8} (hsl : sl' ≠ sl) (k : Nat) :
    pageView r sl (pgFrom s sl'.val q k) = pageView r sl s := by
  have hgo (u : State) (v : Nat) : pageView r sl (fset u F.ctxPgcmdGo sl'.val 0 v) = pageView r sl u := by
    refine Prod.ext (ctx_congr (fset_ctxs ..) r) (fget_fset_ne ?_)
    have hne : sl'.val ≠ sl.val := fun h => hsl (Fin.ext h)
    simp only [Fld.key, F.ctxPgcmdGo]
    omega
  have hended (u : State) (result k : Nat) : pageView r sl (pgEnded u sl'.val result k) = pageView r sl u := by
    simp only [pgEnded, pageView_fset (f := F.ctxPgstatDone) (by decide),
      pageView_fset (f := F.ctxPgstatDonepages) (by decide), pageView_fset (f := F.ctxPgstatResult) (by decide), hgo]
  simp only [pgFrom]
  split
  · rw [pgFinish_eq, hended]
    split
    · rw [pageView_logClear hq, pageView_pgRun hq]
    · rw [pageView_pgRun hq]
  · rw [pageView_fset (by decide), hgo, pageView_pgRun hq]

/-- A command of another context that goes on leaves a context, and `GO` of every slot that stands still. -/
theorem pageView_resumePg {s : State} (hgo : fget s F.ctxPgcmdGo sl.val 0 = 0) :
    pageView r sl (resumePg s q) = pageView r sl s := by
  unfold resumePg
  split
  · next sl' _ =>
    split
    · next hg =>
      refine pageView_pgFrom hq (fun h => ?_) _
      subst h
      simp [fbit, hgo] at hg
    · rfl
  · rfl

/-- A command of another context that goes on leaves a context. -/
theorem ctx_resumePg_ne (s : State) : ctx (resumePg s q) r = ctx s r := by
  unfold resumePg
  split
  · next sl' _ =>
    split
    · obtain ⟨sl, hsl⟩ := exists_ne sl'
      exact congrArg (·.1) (pageView_pgFrom hq hsl.symm _)
    · rfl
  · rfl

end

/-- A context without a page command under way stays as it is, whatever others go on. -/
theorem resumeAll_idle {s : State} {r : Nat} (h : pgIdle s r) (l : List Nat) :
    ctx (l.foldl resumePg s) r = ctx s r := by
  refine (List.foldlRecOn (motive := fun t => ctx t r = ctx s r ∧ pgIdle t r) l resumePg ⟨rfl, h⟩ ?_).1
  rintro t ⟨hc, hi⟩ q -
  by_cases hq : q = r
  · subst hq
    rw [resumePg_of_idle hi]
    exact ⟨hc, hi⟩
  · refine ⟨(ctx_resumePg_ne hq t).trans hc, fun sl hsl => ?_⟩
    rw [ctx_resumePg_ne hq] at hsl
    have hview : pageView r sl (resumePg t q) = pageView r sl t := pageView_resumePg hq (hi sl hsl)
    exact (congrArg (·.2) hview).trans (hi sl hsl)

end Sys2Proof.Machine

end

section
/-! PROOFS. Scope: a lender that is lost, and the settlement of O32. -/

open Sys2Proof.Machine

namespace Sys2Proof.Machine

/-! ### Lines of a page -/

/-- What is found in one table after another. -/
theorem tfind_append {α : Type} (t u : Tbl α) (k : Nat) : tfind (t ++ u) k = (tfind t k).or (tfind u k) := by
  induction t with
  | nil => rfl
  | cons e t ih =>
    obtain ⟨j, a⟩ := e
    simp only [List.cons_append, tfind]
    split
    · rfl
    · exact ih

/-- Every line of a run of lines is found with its mark. -/
theorem tfind_lines {a n o : Nat} (h : o < n) :
    tfind ((List.range n).map fun i => (a + i, true)) (a + o) = some true := by
  induction n with
  | zero => omega
  | succ n ih =>
    rw [List.range_succ, List.map_append, tfind_append]
    by_cases ho : o < n
    · rw [ih ho]; rfl
    · have hon : o = n := by omega
      subst hon
      cases hf : tfind ((List.range o).map fun i => (a + i, true)) (a + o) with
      | some v =>
        obtain ⟨i, -, hi⟩ := List.mem_map.1 (mem_of_tfind hf)
        obtain ⟨-, rfl⟩ := Prod.mk.inj hi
        rfl
      | none => simp [tfind]

/-- Nothing is found of a line outside a run of lines. -/
theorem tfind_lines_out {a n k : Nat} (h : k < a ∨ a + n ≤ k) :
    tfind ((List.range n).map fun i => (a + i, true)) k = none := by
  cases hf : tfind ((List.range n).map fun i => (a + i, true)) k with
  | none => rfl
  | some v =>
    obtain ⟨i, hi, he⟩ := List.mem_map.1 (mem_of_tfind hf)
    have := List.mem_range.1 hi
    cases he
    omega

/-- Every line of a page that is poisoned whole is poisoned. -/
theorem tfind_poisonPage_same (t : Tbl Bool) {pg o : Nat} (ho : o < 32768) :
    tfind (poisonPage t pg) (pg * 32768 + o) = some true := by
  have hdrop := tfind_filter_drop t (f := fun k => decide (k / 32768 < pg)) (k := pg * 32768 + o)
    (by simp only [decide_eq_false_iff_not]; omega)
  rw [poisonPage, tfind_append, tfind_append, hdrop, Option.none_or, tfind_lines ho, Option.some_or]

/-- Poisoning a page whole leaves the lines of the others. -/
theorem tfind_poisonPage_ne (t : Tbl Bool) {pg k : Nat} (hk : k / 32768 ≠ pg) :
    tfind (poisonPage t pg) k = tfind t k := by
  have hnew : tfind ((List.range 32768).map fun i => (pg * 32768 + i, true)) k = none := tfind_lines_out (by omega)
  rw [poisonPage, tfind_append, tfind_append, hnew, Option.or_none]
  by_cases hlt : k / 32768 < pg
  · rw [tfind_filter_keep t (f := fun k => decide (k / 32768 < pg)) (by simpa using hlt),
      tfind_filter_drop t (f := fun k => decide (pg < k / 32768))
        (by simp only [decide_eq_false_iff_not]; omega), Option.or_none]
  · rw [tfind_filter_drop t (f := fun k => decide (k / 32768 < pg)) (by simpa using hlt),
      tfind_filter_keep t (f := fun k => decide (pg < k / 32768)) (by simp only [decide_eq_true_eq]; omega),
      Option.none_or]

/-! ### Moves given up, pages lost -/

/-- A page changed leaves the marks of the lines. -/
theorem poison_modPage (s : State) (r pg : Nat) (f : Page → Page) (q : Nat) :
    (ctx (modPage s r pg f) q).vs.poison = (ctx s q).vs.poison := by
  unfold modPage
  split
  · by_cases hr : r = q
    · subst hr; simp [setPage]
    · rw [ctx_setPage_ne hr]
  · rfl

/-- The page of a move given up has no move. -/
theorem page_stopMove_same {s : State} {r pg : Nat} {p : Page} (hp : tfind (ctx s r).vs.pages pg = some p) :
    tfind (ctx (stopMove s r pg) r).vs.pages pg = some { p with move := none } := by
  simp only [stopMove, hp, Option.bind_some]
  cases hm : p.move with
  | none => rw [hp, ← hm]
  | some m =>
    simp only
    rw [modPage_of_some (p := p) (by rw [ctx_congr (dropFrame_ctxs ..), hp]), page_setPage_same]

/-- A move given up leaves every other page, the marks, the slots and the registers. -/
theorem stopMove_frame (s : State) (r pg : Nat) :
    (∀ q pg', (r, pg) ≠ (q, pg') →
      tfind (ctx (stopMove s r pg) q).vs.pages pg' = tfind (ctx s q).vs.pages pg') ∧
      (∀ q, (ctx (stopMove s r pg) q).vs.poison = (ctx s q).vs.poison ∧
        (ctx (stopMove s r pg) q).slot = (ctx s q).slot) ∧ (stopMove s r pg).regs = s.regs := by
  unfold stopMove
  split
  · refine ⟨fun q pg' h => ?_, fun q => ⟨?_, ?_⟩, by simp⟩
    · rw [page_modPage_ne h, ctx_congr (dropFrame_ctxs ..)]
    · rw [poison_modPage, ctx_congr (dropFrame_ctxs ..)]
    · rw [slot_modPage, ctx_congr (dropFrame_ctxs ..)]
  · exact ⟨fun _ _ _ => rfl, fun _ => ⟨rfl, rfl⟩, rfl⟩

/-- A page whose frame is lost: nowhere, poisoned whole, and not on the move. -/
def PageLost (r pg : Nat) (s : State) : Prop :=
  ∃ p, tfind (ctx s r).vs.pages pg = some p ∧ p.loc = .none ∧ p.poisoned = true ∧ p.move = none ∧
    ∀ o, o < 32768 → tget (ctx s r).vs.poison (pg * 32768 + o) false = true

/-- A page that is there is lost with its frame. -/
theorem pageLost_losePage {s : State} {r pg : Nat} {p : Page} (hp : tfind (ctx s r).vs.pages pg = some p) :
    PageLost r pg (losePage s r pg) := by
  have hstop := page_stopMove_same hp
  refine ⟨{ p with move := none, loc := .none, poisoned := true, lost := true }, ?_, rfl, rfl, rfl, fun o ho => ?_⟩
  · rw [losePage, modPage_of_some (p := { p with move := none }) (by simpa using hstop), page_setPage_same]
  · rw [losePage, poison_modPage, ctx_modCtx_same, tget]
    simp only [tfind_poisonPage_same _ ho, Option.getD_some]

/-- A page lost leaves every other page with its lines, the slots and the registers. -/
theorem losePage_frame (s : State) (r pg : Nat) :
    (∀ q pg', (r, pg) ≠ (q, pg') →
      tfind (ctx (losePage s r pg) q).vs.pages pg' = tfind (ctx s q).vs.pages pg' ∧
      ∀ o, o < 32768 → tget (ctx (losePage s r pg) q).vs.poison (pg' * 32768 + o) false =
        tget (ctx s q).vs.poison (pg' * 32768 + o) false) ∧
      (∀ q, (ctx (losePage s r pg) q).slot = (ctx s q).slot) ∧ (losePage s r pg).regs = s.regs := by
  obtain ⟨hpage, hctx, hregs⟩ := stopMove_frame s r pg
  refine ⟨fun q pg' h => ⟨?_, fun o ho => ?_⟩, fun q => ?_, ?_⟩
  · rw [losePage, page_modPage_ne h, ← hpage q pg' h]
    by_cases hr : r = q
    · subst hr; simp
    · rw [ctx_modCtx_ne hr]
  · rw [losePage, poison_modPage, ← (hctx q).1]
    by_cases hr : r = q
    · subst hr
      have hne : (pg' * 32768 + o) / 32768 ≠ pg := fun hpg => h (by rw [← hpg]; congr 1; omega)
      simp [tget, tfind_poisonPage_ne _ hne]
    · rw [ctx_modCtx_ne hr]
  · rw [losePage, slot_modPage, ← (hctx q).2]
    by_cases hr : r = q
    · subst hr; simp
    · rw [ctx_modCtx_ne hr]
  · simpa [losePage] using hregs

/-- A page that is there stays there when a page is lost. -/
theorem isSome_losePage {s : State} {r pg : Nat} (h : (tfind (ctx s r).vs.pages pg).isSome = true) (q pg' : Nat) :
    (tfind (ctx (losePage s q pg') r).vs.pages pg).isSome = true := by
  by_cases he : (q, pg') = (r, pg)
  · cases he
    obtain ⟨p, hp⟩ := Option.isSome_iff_exists.1 h
    obtain ⟨p', hp', -⟩ := pageLost_losePage hp
    rw [hp']; rfl
  · rw [((losePage_frame s q pg').1 r pg he).1, h]

/-- A page that is lost stays lost when a page is lost. -/
theorem pageLost_losePage_of_lost {s : State} {r pg : Nat} (h : PageLost r pg s) (q pg' : Nat) :
    PageLost r pg (losePage s q pg') := by
  obtain ⟨p, hp, hloc, hbad, hmove, hlines⟩ := h
  by_cases he : (q, pg') = (r, pg)
  · cases he
    exact pageLost_losePage hp
  · obtain ⟨hpage, hpoison⟩ := (losePage_frame s q pg').1 r pg he
    exact ⟨p, hpage.trans hp, hloc, hbad, hmove, fun o ho => (hpoison o ho).trans (hlines o ho)⟩

/-! ### The loss of a lender -/

/-- Every page of the device with its context. -/
def allPages (s : State) : List (Nat × Nat × Page) := tilePages s 0 ++ tilePages s 1

/-- A page that is found is among all pages. -/
theorem mem_allPages {s : State} {r pg : Nat} {p : Page} (hp : tfind (ctx s r).vs.pages pg = some p) :
    (r, pg, p) ∈ allPages s := by
  have hmem : (r, pg, p) ∈ tilePages s (pg % 2) := by
    rw [ctx, tget] at hp
    cases hr : tfind s.ctxs r with
    | none => rw [hr] at hp; cases hp
    | some x =>
      rw [hr] at hp
      exact mem_tilePages.2 ⟨(r, x), mem_of_tfind hr, (pg, p), mem_of_tfind hp, rfl, rfl⟩
  rcases Nat.mod_two_eq_zero_or_one pg with h | h
  · exact List.mem_append_left _ (h ▸ hmem)
  · exact List.mem_append_right _ (h ▸ hmem)

/-- The moves of pages given up, one after another. -/
def stopMoves (l : List (Nat × Nat × Page)) (s : State) : State := l.foldl (fun s e => stopMove s e.1 e.2.1) s

/-- Pages lost, one after another. -/
def losePages (l : List (Nat × Nat × Page)) (s : State) : State := l.foldl (fun s e => losePage s e.1 e.2.1) s

/-- What the loss of a lender makes of the pages: the migrations to its frames are given up, those on them are lost. -/
def loseLent (dev : BitVec 12) (s : State) : State :=
  losePages ((allPages s).filter fun e => e.2.2.loc == .lent && e.2.2.dev == dev)
    (stopMoves ((allPages s).filter fun e => e.2.2.move.any fun m => m.loc == .lent && m.dev == dev) s)

/-- Where a lender is lost, migrations to it are given up, its pages are lost, and page commands that wait go on. -/
theorem exec_lenderLost {s : State} (hk : clockRuns s (edgeClock 0) = true) (dev : BitVec 12) :
    exec (.lenderLost dev) s =
      .next (((loseLent dev s).ctxs.map (·.1)).foldl resumePg (intPauseAll (loseLent dev s))) := by
  change execLenderLost dev s = _
  rw [execLenderLost, onClock_runs hk]
  rfl

/-- Moves given up leave the pages there, the slots and the registers. -/
theorem stopMoves_frame (l : List (Nat × Nat × Page)) (s : State) (r pg : Nat) :
    (tfind (ctx (stopMoves l s) r).vs.pages pg).isSome = (tfind (ctx s r).vs.pages pg).isSome ∧
      (ctx (stopMoves l s) r).slot = (ctx s r).slot ∧ (stopMoves l s).regs = s.regs := by
  induction l generalizing s with
  | nil => exact ⟨rfl, rfl, rfl⟩
  | cons e l ih =>
    obtain ⟨hsome, hslot, hregs⟩ := ih (stopMove s e.1 e.2.1)
    obtain ⟨hpage, hctx, hr⟩ := stopMove_frame s e.1 e.2.1
    refine ⟨hsome.trans ?_, hslot.trans (hctx r).2, hregs.trans hr⟩
    by_cases he : (e.1, e.2.1) = (r, pg)
    · cases he
      cases hp : tfind (ctx s e.1).vs.pages e.2.1 with
      | none => simp [stopMove, hp]
      | some p => rw [page_stopMove_same hp]; rfl
    · rw [hpage r pg he]

/-- The loss of pages leaves the slots and the registers. -/
theorem losePages_frame (l : List (Nat × Nat × Page)) (s : State) (r : Nat) :
    (ctx (losePages l s) r).slot = (ctx s r).slot ∧ (losePages l s).regs = s.regs := by
  induction l generalizing s with
  | nil => exact ⟨rfl, rfl⟩
  | cons e l ih =>
    obtain ⟨hslot, hregs⟩ := ih (losePage s e.1 e.2.1)
    obtain ⟨-, hls, hlr⟩ := losePage_frame s e.1 e.2.1
    exact ⟨hslot.trans (hls r), hregs.trans hlr⟩

/-- A page that is lost stays lost when pages are. -/
theorem pageLost_losePages_of_lost {s : State} {r pg : Nat} (h : PageLost r pg s) (l : List (Nat × Nat × Page)) :
    PageLost r pg (losePages l s) := by
  induction l generalizing s with
  | nil => exact h
  | cons e l ih => exact ih (pageLost_losePage_of_lost h e.1 e.2.1)

/-- Of the pages lost one after another each that is there is lost. -/
theorem pageLost_losePages {l : List (Nat × Nat × Page)} {s : State} {r pg : Nat} {p : Page} (hl : (r, pg, p) ∈ l)
    (h : (tfind (ctx s r).vs.pages pg).isSome = true) : PageLost r pg (losePages l s) := by
  induction l generalizing s with
  | nil => cases hl
  | cons e l ih =>
    rcases List.mem_cons.1 hl with rfl | hl
    · obtain ⟨q, hq⟩ := Option.isSome_iff_exists.1 h
      exact pageLost_losePages_of_lost (pageLost_losePage hq) l
    · exact ih hl (isSome_losePage h e.1 e.2.1)

/-- A page on a frame of the lender is lost. -/
theorem pageLost_loseLent {s : State} {r pg : Nat} {p : Page} (hp : tfind (ctx s r).vs.pages pg = some p)
    (hl : p.loc = .lent) : PageLost r pg (loseLent p.dev s) := by
  refine pageLost_losePages (p := p) (List.mem_filter.2 ⟨mem_allPages hp, by simp [hl]⟩) ?_
  rw [(stopMoves_frame _ s r pg).1, hp]
  rfl

/-- A context without a page command under way keeps what the loss of a lender made of it. -/
theorem ctx_lenderLost {s : State} {r : Nat} (h : pgIdle s r) (dev : BitVec 12) :
    ctx (((loseLent dev s).ctxs.map (·.1)).foldl resumePg (intPauseAll (loseLent dev s))) r =
      ctx (loseLent dev s) r := by
  have hslot : (ctx (loseLent dev s) r).slot = (ctx s r).slot :=
    (losePages_frame _ _ r).1.trans (stopMoves_frame _ s r 0).2.1
  have hregs : (loseLent dev s).regs = s.regs := (losePages_frame _ _ r).2.trans (stopMoves_frame _ s r 0).2.2
  have hi : pgIdle (intPauseAll (loseLent dev s)) r :=
    pgIdle_congr (by rw [ctx_congr (paged_ctxs (paged_intPauseAll _)), hslot])
      (lowRegs_congr (by rw [intPauseAll_regs, hregs])) h
  rw [resumeAll_idle hi, ctx_congr (paged_ctxs (paged_intPauseAll _))]

end Sys2Proof.Machine

/-- Settles O32: demotions and promotions pass over a page that may not move (`page_migrated_kept`), a copy that ends is
SWITCH and RELEASE or neither (`settleMove_eq`), and of the pages on a lost lender's frames each is lost whatever the
others do (`pageLost_loseLent`). -/
theorem migrationsKeepTheirRules : Obligations.MigrationsKeepTheirRules := by
  refine ⟨fun s e hk hc hs => ⟨_, exec_migrationEpoch hk, fun f hf => fget_epoch s e hf, fun r pg p hp hkept => ?_,
    fun hen x hx p hp hpar => ?_⟩, fun s r pg p m hp => ⟨exec_migrationDrain hp,
    fun hk hm hd hg hh => ⟨fun hdue => ?_, ?_⟩, fun dev hk hg hl hdev => ?_⟩⟩
  · rw [ctx_congr (ctxs_epoch s e.val)]
    exact page_migrated_kept hc hs hp hkept e.val
  · rw [ctxs_epoch s e.val, migrated, if_pos hen] at hx
    exact accesses_clearAccesses hx hp hpar
  · have hfar := paged_farPage s r.val pg p m.loc m.frame m.dev
    rw [← paged_promote hfar] at hdue
    refine ⟨_, exec_migrationCopy_done hp hk hm hd (pgIdle_of_cget hg) hh, ?_, fun hl hm' => ?_⟩
    · rw [ctx_congr (paged_ctxs (paged_intPauseAll _)), page_settleMove hdue]
    · rw [← paged_promote hfar] at hm'
      rw [paged_frames (paged_intPauseAll _), frame_settleMove hl hm']
  · refine ⟨_, exec_migrationCopy_failed hp hk hm hd (pgIdle_of_cget hg), ?_, ?_⟩
    · rw [ctx_congr (paged_ctxs (paged_intPauseAll _)), page_setPage_same]
    · rw [intPauseAll_regs, setPage_regs, dropFrame_regs]
  · subst hdev
    obtain ⟨q, hq⟩ := pageLost_loseLent hp hl
    refine ⟨_, q, exec_lenderLost hk p.dev, ?_⟩
    rwa [ctx_lenderLost (pgIdle_of_cget hg)]

end

section
/-! PROOFS. Scope: lines of the DDR channels (O33): what a read counts, records and writes back. -/

open Sys2Proof.Machine

namespace Sys2Proof.Machine

/-! ### Fault records -/

/-- A write of a register below those of DDR leaves the registers from there on. -/
theorem fget_fset_above {f g : Fld} {i j a b : Nat} (hf : f.key i j < 0x200000 * 64) (hg : 0x200000 * 64 ≤ g.key a b)
    (s : State) (v : Nat) : fget (fset s f i j v) g a b = fget s g a b :=
  fget_fset_ne (by omega)

theorem fget_dailyPut {g : Fld} {a b : Nat} (hg : 0x200000 * 64 ≤ g.key a b) (s : State) (bs : Bytes) :
    fget (dailyPut s bs) g a b = fget s g a b :=
  fget_fset_above (f := F.relDlheadCount) (by decide) hg ..

/-- A record of the log of the day is dropped and counted, or put, after padding where it would cross the ring's end. -/
theorem dailyRing_cases (s : State) (rec : Bytes) :
    dailyRing s rec = fcount s F.relStatDldrop 0 0 1 ∨ dailyRing s rec = dailyPut s rec ∨
      ∃ pad, dailyRing s rec = dailyPut (dailyPut s pad) rec := by
  unfold dailyRing
  extract_lets size h free left pad
  by_cases hfull : free < pad + rec.length ∨ !hostUp s
  · exact .inl (if_pos hfull)
  · rw [if_neg hfull]
    by_cases hpad : pad = 0
    · exact .inr (.inl (by rw [if_pos hpad]))
    · exact .inr (.inr ⟨List.replicate pad 0, by rw [if_neg hpad]⟩)

theorem fget_dailyRing {g : Fld} {a b : Nat} (hg : 0x200000 * 64 ≤ g.key a b) (s : State) (rec : Bytes) :
    fget (dailyRing s rec) g a b = fget s g a b := by
  obtain h | h | ⟨pad, h⟩ := dailyRing_cases s rec <;> rw [h]
  · exact fget_fset_above (f := F.relStatDldrop) (by decide) hg ..
  · exact fget_dailyPut hg ..
  · rw [fget_dailyPut hg, fget_dailyPut hg]

/-- A record of the log of the day leaves the registers from those of DDR on. -/
theorem fget_faultRecord {g : Fld} {a b : Nat} (hg : 0x200000 * 64 ≤ g.key a b) (s : State) (unit : Nat × Nat)
    (cls action : Nat) (steps : List (Nat × Nat)) : fget (faultRecord s unit cls action steps) g a b = fget s g a b := by
  simp only [faultRecord, daily]
  split
  · rfl
  · exact fget_dailyRing hg ..

/-- What the contents of lines and their marks are read from. -/
def lineView (s : State) : Tbl Ctx × Tbl FrameUse × Mem × Tbl Bool := (s.ctxs, s.frames, s.ddr, s.ddrPoison)

theorem lineView_faultRecord (s : State) (unit : Nat × Nat) (cls action : Nat) (steps : List (Nat × Nat)) :
    lineView (faultRecord s unit cls action steps) = lineView s := by
  have hring (u : State) (rec : Bytes) : lineView (dailyRing u rec) = lineView u := by
    obtain h | h | ⟨pad, h⟩ := dailyRing_cases u rec <;> rw [h] <;> rfl
  simp only [faultRecord, daily]
  split
  · rfl
  · exact hring ..

/-! ### What a read counts and records -/

/-- The devices that hold the wrong symbols of a line, recorded. -/
def noteDevices (ch addr : Nat) (es : List (Nat × Nat)) (s : State) : State :=
  es.foldl (fun s e =>
    let d := symbolDevice addr (Fin.ofNat 40 e.1)
    let seen := fget s F.ddrDeverrSeen ch 0
    fset (fset s F.ddrElogDevice ch 0 d) F.ddrDeverrSeen ch 0 (if seen.testBit d then seen else seen + 2 ^ d)) s

/-- The devices recorded leave the other registers of the channel. -/
theorem fget_noteDevices {g : Fld} (hs : g.s1 = 0x1000) (hd : g.off * 64 + g.lo ≠ 0x200018 * 64 + 42)
    (hd' : g.off * 64 + g.lo ≠ 0x200020 * 64) (ch addr : Nat) (es : List (Nat × Nat)) (s : State) :
    fget (noteDevices ch addr es s) g ch 0 = fget s g ch 0 := by
  refine foldl_keeps (fun s => fget s g ch 0) (fun s e => ?_) es s
  simp only
  rw [fget_fset_sibling hs.symm (Ne.symm hd'), fget_fset_sibling hs.symm (Ne.symm hd)]

/-- A line with wrong symbols that is corrected is counted and recorded. -/
theorem noteCorrected_regs {es : List (Nat × Nat)} (h : es ≠ []) (s : State) (ch addr : Nat) :
    (noteCorrected s ch addr es).regs =
      (noteDevices ch addr es (errorLog (fcount s F.ddrCeCount ch 0 1) ch addr 1)).regs := by
  have he : es.isEmpty = false := by simpa using h
  simp only [noteCorrected, he, Bool.false_eq_true, if_false]
  rfl

/-- The registers of a channel after an error is counted and recorded. -/
theorem fget_errorLog (s : State) (f : Fld) (ch addr kind : Nat) :
    fget (errorLog (fcount s f ch 0 1) ch addr kind) F.ddrElogAddr ch 0 = addr % 2 ^ 42 ∧
      fget (errorLog (fcount s f ch 0 1) ch addr kind) F.ddrElogKind ch 0 = kind % 4 := by
  refine ⟨?_, fget_fset_same ..⟩
  simp (disch := decide) only [errorLog, fget_fset_sibling, fget_fset_same]
  rfl

/-- The record of an error leaves the counters of the channel. -/
theorem fget_errorLog_count {g : Fld} (hs : g.s1 = 0x1000) (ha : g.off * 64 + g.lo ≠ 0x200018 * 64)
    (hk : g.off * 64 + g.lo ≠ 0x200018 * 64 + 47) (s : State) (ch addr kind : Nat) :
    fget (errorLog s ch addr kind) g ch 0 = fget s g ch 0 := by
  rw [errorLog, fget_fset_sibling hs.symm (Ne.symm hk), fget_fset_sibling hs.symm (Ne.symm ha)]

/-- What a corrected line leaves in the registers of its channel. -/
theorem fget_noteCorrected {es : List (Nat × Nat)} (h : es ≠ []) (s : State) (ch addr : Nat) :
    let t := noteCorrected s ch addr es
    fget t F.ddrCeCount ch 0 = min (2 ^ 32 - 1) (fget s F.ddrCeCount ch 0 + 1) ∧
      fget t F.ddrUeCount ch 0 = fget s F.ddrUeCount ch 0 ∧ fget t F.ddrElogAddr ch 0 = addr % 2 ^ 42 ∧
      fget t F.ddrElogKind ch 0 = 1 := by
  obtain ⟨haddr, hkind⟩ := fget_errorLog s F.ddrCeCount ch addr 1
  have hdev {g : Fld} (hs : g.s1 = 0x1000) (hd : g.off * 64 + g.lo ≠ 0x200018 * 64 + 42)
      (hd' : g.off * 64 + g.lo ≠ 0x200020 * 64) : fget (noteCorrected s ch addr es) g ch 0 =
        fget (errorLog (fcount s F.ddrCeCount ch 0 1) ch addr 1) g ch 0 := by
    rw [fget_congr (noteCorrected_regs h s ch addr), fget_noteDevices hs hd hd']
  refine ⟨(hdev rfl (by decide) (by decide)).trans ?_, (hdev rfl (by decide) (by decide)).trans ?_,
    (hdev rfl (by decide) (by decide)).trans haddr, (hdev rfl (by decide) (by decide)).trans hkind⟩
  · exact (fget_errorLog_count rfl (by decide) (by decide) ..).trans (fget_fcount_same ..)
  · exact (fget_errorLog_count rfl (by decide) (by decide) ..).trans
      (fget_fset_sibling (f := F.ddrCeCount) (g := F.ddrUeCount) rfl (by decide) ..)

/-- What an uncorrectable line leaves in the registers of its channel. -/
theorem fget_noteUncorrectable (s : State) (ch addr : Nat) :
    let t := noteUncorrectable s ch addr
    fget t F.ddrUeCount ch 0 = min (2 ^ 32 - 1) (fget s F.ddrUeCount ch 0 + 1) ∧
      fget t F.ddrCeCount ch 0 = fget s F.ddrCeCount ch 0 ∧ fget t F.ddrElogAddr ch 0 = addr % 2 ^ 42 ∧
      fget t F.ddrElogKind ch 0 = 2 := by
  obtain ⟨haddr, hkind⟩ := fget_errorLog s F.ddrUeCount ch addr 2
  have hrec {g : Fld} (hg : 0x200000 ≤ g.off) : fget (noteUncorrectable s ch addr) g ch 0 =
      fget (errorLog (fcount s F.ddrUeCount ch 0 1) ch addr 2) g ch 0 :=
    fget_faultRecord (by simp only [Fld.key]; omega) ..
  refine ⟨(hrec (by decide)).trans ?_, (hrec (by decide)).trans ?_, (hrec (by decide)).trans haddr,
    (hrec (by decide)).trans hkind⟩
  · exact (fget_errorLog_count rfl (by decide) (by decide) ..).trans (fget_fcount_same ..)
  · exact (fget_errorLog_count rfl (by decide) (by decide) ..).trans
      (fget_fset_sibling (f := F.ddrUeCount) (g := F.ddrCeCount) rfl (by decide) ..)

/-- An uncorrectable line noted leaves lines and marks. -/
theorem lineView_noteUncorrectable (s : State) (ch addr : Nat) :
    lineView (noteUncorrectable s ch addr) = lineView s := lineView_faultRecord ..

/-- An uncorrectable line noted leaves the system area where it is. -/
theorem inSystemArea_noteUncorrectable (s : State) (ch addr p : Nat) :
    inSystemArea (noteUncorrectable s ch addr) p = inSystemArea s p := by
  have hcap : fget (noteUncorrectable s ch addr) F.memStatCapgib 0 0 = fget s F.memStatCapgib 0 0 := by
    have hne (f : Fld) (hf : f.off * 64 + f.lo < 0x200800 * 64) (h1 : f.s1 = 0x1000) (h64 : f.lo < 64)
        (hlo : f.off % 0x1000 < 0x800) : f.key ch 0 ≠ F.memStatCapgib.key 0 0 := by
      simp only [Fld.key, F.memStatCapgib, h1]; omega
    rw [noteUncorrectable, fget_faultRecord (by decide), errorLog,
      fget_fset_ne (hne _ (by decide) rfl (by decide) (by decide)),
      fget_fset_ne (hne _ (by decide) rfl (by decide) (by decide)),
      fget_fcount_ne (hne _ (by decide) rfl (by decide) (by decide))]
  unfold inSystemArea allFrames
  rw [hcap]

/-! ### What a read writes back -/

/-- The line written back: its bytes as read, and its mark as decoded. -/
def writeBack (s : State) (p : Nat) (err : List (BitVec 16)) (mark : Bool) (es : List (Nat × Nat)) (bad : Bool) :
    State :=
  if !mark ∨ inSystemArea s p then s
  else
    let s := changeLine s p (lineMask err es)
    match bad, linePoisoned s p with
    | true, false => poisonLine s p
    | false, true => cleanLine s p
    | _, _ => s

/-- A read of a line that is right, or corrected. -/
theorem lineRead_of_some {s : State} {ch addr : Nat} {err : List (BitVec 16)} {b : Bool} {es : List (Nat × Nat)}
    (h : lineDecode err (linePoisoned s (physOf s ch addr)) = (b, some es)) (copy : List (BitVec 16)) (mark : Bool) :
    lineRead s ch addr err copy mark = writeBack (noteCorrected s ch addr es) (physOf s ch addr) err mark es b := by
  simp only [lineRead, h]
  rfl

/-- A read of an uncorrectable line outside the system area. -/
theorem lineRead_of_none {s : State} {ch addr : Nat} {err : List (BitVec 16)} {b : Bool}
    (h : lineDecode err (linePoisoned s (physOf s ch addr)) = (b, none))
    (ha : inSystemArea s (physOf s ch addr) = false) (copy : List (BitVec 16)) (mark : Bool) :
    lineRead s ch addr err copy mark = writeBack (noteUncorrectable s ch addr) (physOf s ch addr) err mark [] true := by
  simp only [lineRead, h]
  rw [if_neg (by rw [inSystemArea_noteUncorrectable, ha]; decide)]
  rfl

@[simp] theorem changeLine_regs (s : State) (p : Nat) (mask : Bytes) : (changeLine s p mask).regs = s.regs := by
  unfold changeLine
  split
  · rfl
  · split <;> rfl

@[simp] theorem changeLine_frames (s : State) (p : Nat) (mask : Bytes) : (changeLine s p mask).frames = s.frames := by
  unfold changeLine
  split
  · rfl
  · split <;> rfl

@[simp] theorem poisonLine_regs (s : State) (p : Nat) : (poisonLine s p).regs = s.regs := by
  unfold poisonLine
  split
  · exact modPage_regs ..
  · rfl
  · rfl

@[simp] theorem cleanLine_regs (s : State) (p : Nat) : (cleanLine s p).regs = s.regs := by
  unfold cleanLine
  split <;> rfl

/-- A line written back leaves the registers. -/
theorem writeBack_regs (s : State) (p : Nat) (err : List (BitVec 16)) (mark : Bool) (es : List (Nat × Nat))
    (bad : Bool) : (writeBack s p err mark es bad).regs = s.regs := by
  unfold writeBack
  split
  · rfl
  · simp only
    split <;> simp

/-- A line of a page that is poisoned is poisoned. -/
theorem linePoisoned_poisonLine {s : State} {p pg : Nat} {r : CtxId}
    (h : tfind s.frames (pageOf p) = some (.page r pg)) : linePoisoned (poisonLine s p) p = true := by
  have hf : (poisonLine s p).frames = s.frames := by
    simp only [poisonLine, h, modPage_frames, modCtx_frames]
  have hc : tget (ctx (poisonLine s p) r.val).vs.poison (pg * 32768 + p % 2 ^ 21 / 64) false = true := by
    simp only [poisonLine, h, poison_modPage, ctx_modCtx_same, tget_tset_same]
  simp only [linePoisoned, hf, h, hc]

/-- An uncorrectable line of a page is poisoned when it is written back. -/
theorem linePoisoned_writeBack {s : State} {p pg : Nat} {r : CtxId} (h : tfind s.frames (pageOf p) = some (.page r pg))
    (ha : inSystemArea s p = false) (err : List (BitVec 16)) (es : List (Nat × Nat)) :
    linePoisoned (writeBack s p err true es true) p = true := by
  rw [writeBack, if_neg (by simp [ha])]
  cases hp : linePoisoned (changeLine s p (lineMask err es)) p with
  | false =>
    simp only [hp]
    exact linePoisoned_poisonLine (r := r) (pg := pg) (by rw [changeLine_frames, h])
  | true => simp only [hp]

/-! ### A line as it was written -/

/-- A line without a wrong symbol decodes to itself, poisoned or not: under the other form it shows eight wrong symbols,
more than can be corrected. Both are closed facts of the code, evaluated in the kernel. -/
theorem lineDecode_zero (b : Bool) : lineDecode (List.replicate 40 0) b = (b, some []) := by
  cases b <;> decide +kernel

/-- Nothing is changed by a mask of zeros. -/
theorem changeLine_zero (s : State) (p : Nat) : changeLine s p (lineMask (List.replicate 40 0) []) = s :=
  if_pos (by decide +kernel)

/-- A line that comes back as it was written changes nothing. -/
theorem lineRead_zero (s : State) (ch addr : Nat) (copy : List (BitVec 16)) (mark : Bool) :
    lineRead s ch addr (List.replicate 40 0) copy mark = s := by
  rw [lineRead_of_some (lineDecode_zero _), show noteCorrected s ch addr [] = s from rfl, writeBack]
  split
  · rfl
  · simp only [changeLine_zero]
    cases linePoisoned s (physOf s ch addr) <;> rfl

end Sys2Proof.Machine

end

section
/-! PROOFS. Scope: DDR training, and the settlement of O33. -/

open Sys2Proof.Machine

namespace Sys2Proof.Machine

/-! ### The states of the channels -/

/-- The states of two channels stand in different places. -/
theorem ddrStatState_key_ne {a b : Nat} (h : a ≠ b) : F.ddrStatState.key a 0 ≠ F.ddrStatState.key b 0 := by
  simp only [Fld.key, F.ddrStatState]; omega

/-- Channels put in one state. -/
theorem fget_putStates {l : List Nat} {ch : Nat} (h : ch ∈ l) (s : State) (v : Nat) :
    fget (l.foldl (fun s ch => fset s F.ddrStatState ch 0 v) s) F.ddrStatState ch 0 = v % 2 ^ 3 := by
  have hkeep (l : List Nat) (s : State) (hs : fget s F.ddrStatState ch 0 = v % 2 ^ 3) :
      fget (l.foldl (fun s ch => fset s F.ddrStatState ch 0 v) s) F.ddrStatState ch 0 = v % 2 ^ 3 := by
    refine List.foldlRecOn (motive := fun t => fget t F.ddrStatState ch 0 = v % 2 ^ 3) l _ hs fun t ht a _ => ?_
    by_cases ha : a = ch
    · rw [ha]; exact fget_fset_same ..
    · rw [fget_fset_ne (ddrStatState_key_ne ha), ht]
  induction l generalizing s with
  | nil => cases h
  | cons a l ih =>
    rcases List.mem_cons.1 h with rfl | h
    · exact hkeep l _ (fget_fset_same ..)
    · exact ih h _

/-- A field of the memory's own registers does not stand where a channel's does. -/
theorem memStat_key_ne {f : Fld} (hf : f.off = 0x200808 ∨ f.off = 0x10E200) (h1 : f.s1 = 0) (h2 : f.s2 = 0)
    (hlo : f.lo < 64) (ch : Nat) : f.key 0 0 ≠ F.ddrStatState.key ch 0 := by
  simp only [Fld.key, F.ddrStatState, h1, h2]
  omega

/-! ### The end of training -/

/-- One channel after training, by whether it trains and is not retired. -/
theorem trainChannel_state (s : State) (mode : Nat) (m : DdrModule) (ch : Nat) :
    fget (trainChannel s mode (m, ch)) F.ddrStatState ch 0 = if !channelRetired s ch && m.trains then 2 else 3 := by
  have hret (v : Nat) : channelRetired (fset s F.ddrStatCap ch 0 v) ch = channelRetired s ch := rfl
  simp only [trainChannel, hret]
  cases channelRetired s ch <;> cases m.trains <;>
    simp (disch := decide) [fget_fset_sibling] <;> rfl

/-- The training of one channel leaves the states of the others. -/
theorem trainChannel_state_ne {a ch : Nat} (h : a ≠ ch) (s : State) (mode : Nat) (m : DdrModule) :
    fget (trainChannel s mode (m, a)) F.ddrStatState ch 0 = fget s F.ddrStatState ch 0 := by
  have hcap (s : State) (v : Nat) : fget (fset s F.ddrStatCap a 0 v) F.ddrStatState ch 0 = fget s F.ddrStatState ch 0 :=
    fget_fset_ne (by simp only [Fld.key, F.ddrStatState, F.ddrStatCap]; omega)
  have hmode (s : State) (v : Nat) :
      fget (fset s F.ddrStatMode a 0 v) F.ddrStatState ch 0 = fget s F.ddrStatState ch 0 :=
    fget_fset_ne (by simp only [Fld.key, F.ddrStatState, F.ddrStatMode]; omega)
  simp only [trainChannel]
  split
  · rw [fget_fset_ne (ddrStatState_key_ne h), hcap]
  · rw [hmode, fget_fset_ne (ddrStatState_key_ne h), hcap]

/-- The training of a channel retires none. -/
theorem trainChannel_nv (s : State) (mode : Nat) (p : DdrModule × Nat) : (trainChannel s mode p).nv = s.nv := by
  simp only [trainChannel]
  split <;> rfl

/-- Whether a channel is retired is read from the repair store. -/
theorem channelRetired_congr {s t : State} (h : t.nv = s.nv) (ch : Nat) :
    channelRetired t ch = channelRetired s ch := by
  simp only [channelRetired, unitRetired, goodRecords, h]

/-- The channels from `n` on trained one after another. -/
def trainAll (s : State) (mode : Nat) (l : List DdrModule) (n : Nat) : State :=
  (l.zipIdx n).foldl (fun s p => trainChannel s mode p) s

/-- The state of each channel after training. -/
theorem trainAll_state (l : List DdrModule) (s : State) (mode n ch : Nat) (d : DdrModule) :
    fget (trainAll s mode l n) F.ddrStatState ch 0 =
      if n ≤ ch ∧ ch < n + l.length then (if !channelRetired s ch && (l.getD (ch - n) d).trains then 2 else 3)
      else fget s F.ddrStatState ch 0 := by
  induction l generalizing s n with
  | nil => rw [if_neg (by simp only [List.length_nil]; omega)]; rfl
  | cons m l ih =>
    have hstep : trainAll s mode (m :: l) n = trainAll (trainChannel s mode (m, n)) mode l (n + 1) := rfl
    rw [hstep, ih, channelRetired_congr (trainChannel_nv ..)]
    by_cases hn : ch = n
    · subst hn
      rw [if_neg (by omega), if_pos (by simp), trainChannel_state]
      simp
    · rw [trainChannel_state_ne (Ne.symm hn)]
      by_cases hin : n + 1 ≤ ch ∧ ch < n + 1 + l.length
      · have hin' : n ≤ ch ∧ ch < n + (m :: l).length := by simp only [List.length_cons]; omega
        rw [if_pos hin, if_pos hin', show ch - n = (ch - (n + 1)) + 1 by omega, List.getD_cons_succ]
      · have hout : ¬(n ≤ ch ∧ ch < n + (m :: l).length) := by simp only [List.length_cons]; omega
        rw [if_neg hin, if_neg hout]

/-- The channels of a tile that are up are those that training brought up. -/
theorem usableChannels_length {t : State} {ok : Nat → Bool} {tile : Nat}
    (h : ∀ k, k < 8 → fget t F.ddrStatState (8 * tile + k) 0 = if ok (8 * tile + k) then 2 else 3) :
    (usableChannels t tile).length = ((List.range 8).filter fun k => ok (8 * tile + k)).length := by
  rw [usableChannels, List.filter_map, List.length_map]
  refine congrArg List.length (List.filter_congr fun k hk => ?_)
  simp only [Function.comp, h k (List.mem_range.1 hk)]
  cases ok (8 * tile + k) <;> rfl

/-- A write of the memory's own registers leaves the states of the channels. -/
theorem fget_memStat {f : Fld} (hf : f.off = 0x200808 ∨ f.off = 0x10E200) (h1 : f.s1 = 0) (h2 : f.s2 = 0)
    (hlo : f.lo < 64) (s : State) (v ch : Nat) :
    fget (fset s f 0 0 v) F.ddrStatState ch 0 = fget s F.ddrStatState ch 0 :=
  fget_fset_ne (memStat_key_ne hf h1 h2 hlo ch)

/-- A failure of the memory with a code. -/
theorem fget_memFail (s : State) {code : Nat} (h : code < 16) :
    fget (memFail s code) F.memStatInit 0 0 = 2 ∧ fget (memFail s code) F.memStatFailcode 0 0 = code ∧
      ∀ ch, fget (memFail s code) F.ddrStatState ch 0 = fget s F.ddrStatState ch 0 := by
  refine ⟨?_, (fget_fset_same ..).trans (Nat.mod_eq_of_lt h), fun ch => ?_⟩
  · simp (disch := decide) only [memFail, fget_fset_sibling, fget_fset_same]
    rfl
  · rw [memFail, fget_memStat (f := F.memStatFailcode) (.inl rfl) rfl rfl (by decide),
      fget_memStat (f := F.memStatInit) (.inl rfl) rfl rfl (by decide)]

/-- `READY` stands apart from the registers of the memory. -/
theorem settleReady_cases (s : State) : settleReady s = fset s F.hostStatReady 0 0 1 ∨ settleReady s = s := by
  unfold settleReady
  split
  · exact .inl rfl
  · exact .inr rfl

/-- The memory with a capacity in force. -/
def memReady (s : State) (gib : Nat) : State := settleReady (fset (fset s F.memStatCapgib 0 0 gib) F.memStatInit 0 0 1)

/-- A memory that is ready, with its capacity. -/
theorem fget_memReady (s : State) {gib : Nat} (h : gib < 2 ^ 32) :
    fget (memReady s gib) F.memStatInit 0 0 = 1 ∧ fget (memReady s gib) F.memStatCapgib 0 0 = gib ∧
      ∀ ch, fget (memReady s gib) F.ddrStatState ch 0 = fget s F.ddrStatState ch 0 := by
  have hinit : fget (fset (fset s F.memStatCapgib 0 0 gib) F.memStatInit 0 0 1) F.memStatInit 0 0 = 1 :=
    fget_fset_same ..
  have hcap : fget (fset (fset s F.memStatCapgib 0 0 gib) F.memStatInit 0 0 1) F.memStatCapgib 0 0 = gib := by
    simp (disch := decide) only [fget_fset_sibling, fget_fset_same]
    exact Nat.mod_eq_of_lt h
  have hstate (ch : Nat) : fget (fset (fset s F.memStatCapgib 0 0 gib) F.memStatInit 0 0 1) F.ddrStatState ch 0 =
      fget s F.ddrStatState ch 0 := by
    rw [fget_memStat (f := F.memStatInit) (.inl rfl) rfl rfl (by decide),
      fget_memStat (f := F.memStatCapgib) (.inl rfl) rfl rfl (by decide)]
  obtain hr | hr := settleReady_cases (fset (fset s F.memStatCapgib 0 0 gib) F.memStatInit 0 0 1) <;>
    simp only [memReady, hr]
  · refine ⟨?_, ?_, fun ch => ?_⟩
    · rw [fget_fset_ne (by decide), hinit]
    · rw [fget_fset_ne (by decide), hcap]
    · rw [fget_memStat (f := F.hostStatReady) (.inr rfl) rfl rfl (by decide), hstate]
  · exact ⟨hinit, hcap, hstate⟩

/-! ### The commands -/

/-- A bad population. -/
theorem exec_ddrTrainingDone_bad {s : State} {found : List DdrModule} (hl : found.length = 16)
    (ht : ∀ ch, ch < 16 → fget s F.ddrStatState ch 0 = 1) (hp : populationOk found = false) :
    exec (.ddrTrainingDone found) s =
      .next (memFail ((List.range 16).foldl (fun s ch => fset s F.ddrStatState ch 0 5) s) 1) := by
  change execDdrTrainingDone found s = _
  have hall : (List.range 16).all (fun ch => fget s F.ddrStatState ch 0 == 1) = true :=
    List.all_eq_true.2 fun ch hch => by simp [ht ch (List.mem_range.1 hch)]
  rw [execDdrTrainingDone, if_neg (by simp [hl]), if_neg (by simp [hall]), if_pos (by simp [hp])]

/-- A population that is right, trained: it fails with too few channels in a tile, and else is ready with its
capacity. -/
theorem exec_ddrTrainingDone_ok {s : State} {found : List DdrModule} (hl : found.length = 16)
    (ht : ∀ ch, ch < 16 → fget s F.ddrStatState ch 0 = 1) (hp : populationOk found = true) :
    ∃ mode, exec (.ddrTrainingDone found) s =
      let u := trainAll s mode found 0
      let n (t : Nat) : Nat := (usableChannels u t).length
      .next (if n 0 < 6 ∨ n 1 < 6 then memFail u 2
        else memReady u (2 * (min (n 0) (n 1) * moduleGib (found.headD ⟨0, 0, 0, false⟩).capCode.toNat))) := by
  refine ⟨(found.map (·.mode.toNat)).foldl min (fget s F.ddrTrainMode 0 0), ?_⟩
  change execDdrTrainingDone found s = _
  have hall : (List.range 16).all (fun ch => fget s F.ddrStatState ch 0 == 1) = true :=
    List.all_eq_true.2 fun ch hch => by simp [ht ch (List.mem_range.1 hch)]
  rw [execDdrTrainingDone, if_neg (by simp [hl]), if_neg (by simp [hall]), if_neg (by simp [hp])]
  exact (apply_ite Host.Outcome.next _ _ _).symm

/-- A module has at most 256 GiB. -/
theorem moduleGib_le (code : Nat) : moduleGib code ≤ 256 := by
  unfold moduleGib
  split <;> decide

/-- A read of a channel that is up. -/
theorem exec_ddrRead {s : State} {ch : Fin 16} (hk : clockRuns s (ddrClock ch.val) = true)
    (hu : channelUp s ch.val = true) (addr : Nat) (err copy : List (BitVec 16)) :
    exec (.ddrRead ch addr err copy) s = .next (lineRead s ch.val addr err copy true) := by
  change execDdrRead ch addr err copy s = _
  rw [execDdrRead, onClock_runs hk, if_pos hu]

/-- A patrol read of a channel that is up, while scrub is on. -/
theorem exec_patrolScrub {s : State} {ch : Fin 16} (hk : clockRuns s (ddrClock ch.val) = true)
    (hu : channelUp s ch.val = true) (addr : Nat) (err copy : List (BitVec 16)) (raced : Bool) :
    exec (.patrolScrub ch addr err copy raced) s =
      .next (if fbit s F.memScrubEn 0 0 then lineRead s ch.val addr err copy (!raced) else s) := by
  change execPatrolScrub ch addr err copy raced s = _
  rw [execPatrolScrub, onClock_runs hk, hu, Bool.true_and]

/-- Training puts every channel in training. -/
theorem exec_ddrTraining {s : State} (hb : trainBegun s = false) (hi : fget s F.memStatInit 0 0 = 0)
    (hs : fget s F.secStatBoot 0 0 = 2) :
    ∃ t, exec .ddrTraining s = .next t ∧ ∀ ch, ch < 16 → fget t F.ddrStatState ch 0 = 1 := by
  change ∃ t, execDdrTraining s = .next t ∧ _
  rw [execDdrTraining, if_neg (by simp [hb, hi, hs])]
  exact ⟨_, rfl, fun ch hch => fget_putStates (List.mem_range.2 hch) _ 1⟩

/-- A read of a line that is corrected. -/
theorem ddrRead_corrected {s : State} {ch : Fin 16} {addr : Nat} {err : List (BitVec 16)} {b : Bool}
    {es : List (Nat × Nat)} (hk : clockRuns s (ddrClock ch.val) = true) (hu : channelUp s ch.val = true) (hes : es ≠ [])
    (hd : lineDecode err (linePoisoned s (physOf s ch.val addr)) = (b, some es)) (copy : List (BitVec 16)) :
    ∃ t, exec (.ddrRead ch addr err copy) s = .next t ∧
      fget t F.ddrCeCount ch.val 0 = min (2 ^ 32 - 1) (fget s F.ddrCeCount ch.val 0 + 1) ∧
      fget t F.ddrUeCount ch.val 0 = fget s F.ddrUeCount ch.val 0 ∧ fget t F.ddrElogAddr ch.val 0 = addr % 2 ^ 42 ∧
      fget t F.ddrElogKind ch.val 0 = 1 := by
  refine ⟨_, exec_ddrRead hk hu addr err copy, ?_⟩
  rw [lineRead_of_some hd]
  simp only [fget_congr (writeBack_regs ..)]
  exact fget_noteCorrected hes s ch.val addr

/-- A read of an uncorrectable line outside the system area. -/
theorem ddrRead_uncorrectable {s : State} {ch : Fin 16} {addr : Nat} {err : List (BitVec 16)} {b : Bool}
    (hk : clockRuns s (ddrClock ch.val) = true) (hu : channelUp s ch.val = true)
    (ha : inSystemArea s (physOf s ch.val addr) = false)
    (hd : lineDecode err (linePoisoned s (physOf s ch.val addr)) = (b, none)) (copy : List (BitVec 16)) :
    ∃ t, exec (.ddrRead ch addr err copy) s = .next t ∧
      fget t F.ddrUeCount ch.val 0 = min (2 ^ 32 - 1) (fget s F.ddrUeCount ch.val 0 + 1) ∧
      fget t F.ddrCeCount ch.val 0 = fget s F.ddrCeCount ch.val 0 ∧ fget t F.ddrElogAddr ch.val 0 = addr % 2 ^ 42 ∧
      fget t F.ddrElogKind ch.val 0 = 2 ∧
      ∀ r pg, tfind s.frames (pageOf (physOf s ch.val addr)) = some (.page r pg) →
        linePoisoned t (physOf s ch.val addr) = true := by
  refine ⟨_, exec_ddrRead hk hu addr err copy, ?_⟩
  rw [lineRead_of_none hd ha]
  simp only [fget_congr (writeBack_regs ..)]
  obtain ⟨hue, hce, haddr, hkind⟩ := fget_noteUncorrectable s ch.val addr
  have hframes : (noteUncorrectable s ch.val addr).frames = s.frames :=
    congrArg (·.2.1) (lineView_noteUncorrectable s ch.val addr)
  refine ⟨hue, hce, haddr, hkind, fun r pg hf => linePoisoned_writeBack (r := r) (pg := pg) ?_ ?_ err []⟩
  · rw [hframes, hf]
  · rw [inSystemArea_noteUncorrectable, ha]

/-- A patrol read of an uncorrectable line that another write has reached writes nothing back. -/
theorem patrolScrub_raced {s : State} {ch : Fin 16} {addr : Nat} {err : List (BitVec 16)} {b : Bool}
    (hk : clockRuns s (ddrClock ch.val) = true) (hu : channelUp s ch.val = true)
    (hs : fbit s F.memScrubEn 0 0 = true) (ha : inSystemArea s (physOf s ch.val addr) = false)
    (hd : lineDecode err (linePoisoned s (physOf s ch.val addr)) = (b, none)) (copy : List (BitVec 16)) :
    ∃ t, exec (.patrolScrub ch addr err copy true) s = .next t ∧ t.ctxs = s.ctxs ∧ t.ddr = s.ddr ∧
      fget t F.ddrUeCount ch.val 0 = min (2 ^ 32 - 1) (fget s F.ddrUeCount ch.val 0 + 1) := by
  refine ⟨_, exec_patrolScrub hk hu addr err copy true, ?_⟩
  have hview := lineView_noteUncorrectable s ch.val addr
  rw [if_pos hs, lineRead_of_none hd ha, Bool.not_true, writeBack, if_pos (.inl rfl)]
  exact ⟨congrArg (·.1) hview, congrArg (·.2.2.1) hview, (fget_noteUncorrectable s ch.val addr).1⟩

/-- Whether training brings a channel up. -/
def comesUp (s : State) (found : List DdrModule) (ch : Nat) : Bool :=
  !channelRetired s ch && (found.getD ch ⟨0, 0, 0, false⟩).trains

/-- The channels of a tile that training brings up. -/
def tileUp (s : State) (found : List DdrModule) (tile : Nat) : Nat :=
  ((List.range 8).filter fun k => comesUp s found (8 * tile + k)).length

/-- The states of the channels, and what the memory says, after training. -/
theorem ddrTrainingDone_states {s : State} {found : List DdrModule} (hl : found.length = 16)
    (ht : ∀ ch, ch < 16 → fget s F.ddrStatState ch 0 = 1) (hp : populationOk found = true) :
    ∃ t, exec (.ddrTrainingDone found) s = .next t ∧
      (∀ ch, ch < 16 → fget t F.ddrStatState ch 0 = if comesUp s found ch then 2 else 3) ∧
      (tileUp s found 0 < 6 ∨ tileUp s found 1 < 6 →
        fget t F.memStatInit 0 0 = 2 ∧ fget t F.memStatFailcode 0 0 = 2) ∧
      (6 ≤ tileUp s found 0 → 6 ≤ tileUp s found 1 → fget t F.memStatInit 0 0 = 1 ∧ fget t F.memStatCapgib 0 0 =
        2 * (min (tileUp s found 0) (tileUp s found 1) *
          moduleGib (found.headD ⟨0, 0, 0, false⟩).capCode.toNat)) := by
  obtain ⟨mode, hexec⟩ := exec_ddrTrainingDone_ok hl ht hp
  have hstate (ch : Nat) (hch : ch < 16) :
      fget (trainAll s mode found 0) F.ddrStatState ch 0 = if comesUp s found ch then 2 else 3 := by
    rw [trainAll_state found s mode 0 ch ⟨0, 0, 0, false⟩, if_pos (by omega)]
    rfl
  have h0 : (usableChannels (trainAll s mode found 0) 0).length = tileUp s found 0 :=
    usableChannels_length fun k hk => hstate (8 * 0 + k) (by omega)
  have h1 : (usableChannels (trainAll s mode found 0) 1).length = tileUp s found 1 :=
    usableChannels_length fun k hk => hstate (8 * 1 + k) (by omega)
  simp only [h0, h1] at hexec
  refine ⟨_, hexec, ?_⟩
  by_cases hfew : tileUp s found 0 < 6 ∨ tileUp s found 1 < 6
  · obtain ⟨hinit, hcode, hkeep⟩ := fget_memFail (trainAll s mode found 0) (code := 2) (by decide)
    rw [if_pos hfew]
    exact ⟨fun ch hch => (hkeep ch).trans (hstate ch hch), fun _ => ⟨hinit, hcode⟩, fun h6 h6' => by omega⟩
  · have hn : tileUp s found 0 ≤ 8 := (List.length_filter_le ..).trans_eq List.length_range
    have hle : min (tileUp s found 0) (tileUp s found 1) * moduleGib (found.headD ⟨0, 0, 0, false⟩).capCode.toNat ≤
        8 * 256 := Nat.mul_le_mul ((Nat.min_le_left ..).trans hn) (moduleGib_le _)
    obtain ⟨hinit, hcap, hkeep⟩ := fget_memReady (trainAll s mode found 0) (gib := 2 * (min (tileUp s found 0)
      (tileUp s found 1) * moduleGib (found.headD ⟨0, 0, 0, false⟩).capCode.toNat)) (by omega)
    rw [if_neg hfew]
    exact ⟨fun ch hch => (hkeep ch).trans (hstate ch hch), fun h => absurd h hfew, fun _ _ => ⟨hinit, hcap⟩⟩

end Sys2Proof.Machine

/-- Settles O33: a read is the note of its error and the line written back (`lineRead_of_some`, `lineRead_of_none`),
which touches no register; training gives each channel its state in turn (`trainAll_state`), from which the count of a
tile's usable channels follows. -/
theorem ddrTrainsAndReads : Obligations.DdrTrainsAndReads := by
  refine ⟨fun s ch addr err copy hk hu => ⟨rfl, fun he => ?_, fun hs => ?_, fun hs raced => ?_, fun ha =>
      ⟨fun b es hes hd => ddrRead_corrected hk hu hes hd copy, fun b hd => ⟨ddrRead_uncorrectable hk hu ha hd copy,
        fun hs => patrolScrub_raced hk hu hs ha hd copy⟩⟩⟩,
    fun s found => ⟨exec_ddrTraining, fun hl ht => ⟨fun hp => ?_, ddrTrainingDone_states hl ht⟩⟩⟩
  · rw [exec_ddrRead hk hu, he, lineRead_zero]
  · rw [exec_patrolScrub hk hu, exec_ddrRead hk hu, if_pos hs, Bool.not_false]
  · rw [exec_patrolScrub hk hu, if_neg (by simp [hs])]
  · obtain ⟨hinit, hcode, -⟩ := fget_memFail
      ((List.range 16).foldl (fun s ch => fset s F.ddrStatState ch 0 5) s) (code := 1) (by decide)
    exact ⟨_, exec_ddrTrainingDone_bad hl ht hp, hinit, hcode⟩

end

section
/-! PROOFS. Scope: the shares of a collective and the exact sums that go round its ring (R88, R95, R364, R365), and
obligation O41. -/

open Sys2Proof.Machine

namespace Sys2Proof.Machine

/-- Share q of a group is the segments from floor(q S / G) on, up to those of share q + 1. -/
theorem shareOf_eq_iff {d : Bytes} {seg : Nat} (hG : 0 < cG d) (hS : 0 < cS d) (q : Nat) :
    shareOf d seg = q ↔ q * cS d / cG d ≤ seg ∧ seg < (q + 1) * cS d / cG d := by
  have hpos : 0 < (seg + 1) * cG d := Nat.mul_pos seg.succ_pos hG
  have hfrom : q * cS d / cG d ≤ seg ↔ q ≤ shareOf d seg := by
    rw [shareOf, Nat.le_div_iff_mul_le hS, ← Nat.lt_succ_iff, Nat.div_lt_iff_lt_mul hG, Nat.succ_eq_add_one]
    omega
  have hto : seg < (q + 1) * cS d / cG d ↔ shareOf d seg < q + 1 := by
    rw [shareOf, Nat.div_lt_iff_lt_mul hS, ← Nat.succ_le_iff, Nat.le_div_iff_mul_le hG, Nat.succ_eq_add_one]
    omega
  rw [hfrom, hto]
  omega

/-- The class of a sum is NaN where the inputs clash or the sum fits no accumulator, and that of either input
otherwise. -/
theorem xpAdd_cls (rank : Nat) (a b : Addend) :
    (xpAdd rank a b).cls =
      if (a.tag ≠ b.tag ∨ a.int ≠ b.int) ∨ xpOver (dyAdd a.v b.v) = true then 3 else a.cls ||| b.cls := by
  simp [xpAdd]

end Sys2Proof.Machine

/-- Settles O41: the bounds of a share are divisions, which turn into bounds of the share (`shareOf_eq_iff`); the sum is
formed exactly on dyadics (`dyVal_dyAdd`), and its class is a choice (`xpAdd_cls`). -/
theorem collectiveSharesAndSums : Obligations.CollectiveSharesAndSums := by
  refine ⟨fun d seg q hG hseg _ => shareOf_eq_iff hG (by omega) q, fun rank a b => ⟨dyVal_dyAdd a.v b.v, rfl,
    fun h => if_pos h, fun h => if_neg h, fun h => ?_, fun htag hint hover => ?_⟩⟩
  · rw [xpAdd_cls, if_pos (.inl h)]
  · have hfits : xpOver (dyAdd a.v b.v) = false := hover
    rw [xpAdd_cls, if_neg (by simp [htag, hint, hfits])]

end

section
/-! PROOFS. Scope: link ports: a port read after an update, what control messages, packets and the records of an event
leave of the registers and of the ports. -/

open Sys2Proof.Machine

namespace Sys2Proof.Machine

/-! ### Ports -/

/-- The port that was updated. -/
@[simp] theorem port_modPort_same (s : State) (p : Nat) (f : Port → Port) : port (modPort s p f) p = f (port s p) := by
  simp [port, modPort]

/-- An update of a port leaves the others. -/
theorem port_modPort_ne {s : State} {p q : Nat} (h : p ≠ q) (f : Port → Port) : port (modPort s p f) q = port s q := by
  simp [port, modPort, tget_tset_ne _ _ _ h]

/-- Ports are read from their table alone. -/
theorem port_congr {s t : State} (h : t.fab = s.fab) (p : Nat) : port t p = port s p := by
  simp [port, h]

@[simp] theorem port_fset (s : State) (f : Fld) (i j v p : Nat) : port (fset s f i j v) p = port s p := rfl
@[simp] theorem port_fcount (s : State) (f : Fld) (i j n p : Nat) : port (fcount s f i j n) p = port s p := rfl
@[simp] theorem port_emit (s : State) (o : Out) (p : Nat) : port (emit s o) p = port s p := rfl

/-- A register does not depend on the ports. -/
@[simp] theorem fget_modPort (s : State) (p : Nat) (g : Port → Port) (f : Fld) (i j : Nat) :
    fget (modPort s p g) f i j = fget s f i j := rfl

/-! ### Control messages -/

/-- The state without its ports and without what it has sent. -/
def exceptPorts (s : State) : State := { s with fab := { s.fab with ports := [] }, out := [] }

/-- A port without what a control message changes as it leaves: sequence numbers and credits, what it owes, and the keys by
which packets go out. -/
def portRest (q : Port) : Port :=
  { q with seq := 0, nakOwed := false, ackOwed := false, txCount := 0, credits := [], owed := [], buf := [], msgs := [],
           out := [], keys := none }

/-- What control messages leave: no register and no record changes, and every port keeps its rest. -/
def ctrlView (s : State) : State × (Nat → Port) := (exceptPorts s, fun p => portRest (port s p))

theorem ctrlView_modPort {f : Port → Port} (h : ∀ q, portRest (f q) = portRest q) (s : State) (p : Nat) :
    ctrlView (modPort s p f) = ctrlView s := by
  refine Prod.ext rfl (funext fun q => ?_)
  by_cases hq : p = q
  · subst hq
    simpa [ctrlView] using h _
  · simp [ctrlView, port_modPort_ne hq]

theorem ctrlView_emit (s : State) (o : Out) : ctrlView (emit s o) = ctrlView s := rfl

theorem ctrlView_putFlit (s : State) (p : Nat) (f : SentFlit) : ctrlView (putFlit s p f) = ctrlView s :=
  (ctrlView_emit ..).trans (ctrlView_modPort (fun _ => by rfl) ..)

theorem ctrlView_sendFlit (s : State) (p : Nat) (ctrl : Bool) (payload : Bytes) :
    ctrlView (sendFlit s p ctrl payload) = ctrlView s :=
  (ctrlView_putFlit ..).trans (ctrlView_modPort (fun _ => by rfl) ..)

theorem ctrlView_flushPort (s : State) (p : Nat) : ctrlView (flushPort s p) = ctrlView s := by
  simp only [flushPort]
  split
  · rfl
  · exact (ctrlView_sendFlit ..).trans (ctrlView_modPort (fun _ => by rfl) ..)

theorem ctrlView_sendCtrl (s : State) (p : Nat) (m : Nat × List Nat) : ctrlView (sendCtrl s p m) = ctrlView s := by
  simp only [sendCtrl]
  split
  · exact (ctrlView_modPort (fun _ => by rfl) ..).trans <| (ctrlView_sendFlit ..).trans <|
      (ctrlView_modPort (fun _ => by rfl) ..).trans (ctrlView_flushPort ..)
  · exact (ctrlView_sendFlit ..).trans (ctrlView_modPort (fun _ => by rfl) ..)

theorem ctrlView_drainCtrl (s : State) (p : Nat) : ctrlView (drainCtrl s p) = ctrlView s := by
  refine (foldl_keeps ctrlView (fun s m => ?_) _ _).trans (ctrlView_modPort (fun _ => by rfl) ..)
  split
  · exact ctrlView_sendCtrl ..
  · exact ctrlView_modPort (fun _ => by rfl) ..

theorem ctrlView_portMsg (s : State) (p msg : Nat) (data : List Nat) : ctrlView (portMsg s p msg data) = ctrlView s := by
  simp only [portMsg]
  split
  · exact (ctrlView_drainCtrl ..).trans (ctrlView_modPort (fun _ => by rfl) ..)
  · rfl

theorem ctrlView_portBytes (s : State) (p msg : Nat) (bs : Bytes) : ctrlView (portBytes s p msg bs) = ctrlView s :=
  ctrlView_portMsg ..

/-- What control messages leave of the state, but for its ports and for what it has sent. -/
theorem exceptPorts_of_ctrlView {s t : State} (h : ctrlView t = ctrlView s) : exceptPorts t = exceptPorts s := congrArg (·.1) h

/-- What control messages leave of a port. -/
theorem portRest_of_ctrlView {s t : State} (h : ctrlView t = ctrlView s) (p : Nat) :
    portRest (port t p) = portRest (port s p) := congrFun (congrArg (·.2) h) p

/-- A part of a port that control messages leave. -/
theorem portPart_of_ctrlView {β : Type} (π : Port → β) (hπ : ∀ q, π (portRest q) = π q) {s t : State}
    (h : ctrlView t = ctrlView s) (p : Nat) : π (port t p) = π (port s p) := by
  rw [← hπ, portRest_of_ctrlView h p, hπ]

/-- Control messages leave the registers. -/
theorem regs_of_ctrlView {s t : State} (h : ctrlView t = ctrlView s) : t.regs = s.regs :=
  show (exceptPorts t).regs = (exceptPorts s).regs from congrArg State.regs (exceptPorts_of_ctrlView h)

/-- A field after control messages. -/
theorem fget_of_ctrlView {s t : State} (h : ctrlView t = ctrlView s) (f : Fld) (i j : Nat) :
    fget t f i j = fget s f i j := fget_congr (regs_of_ctrlView h) f i j

/-! ### The registers of the links -/

/-- Whether a field belongs to `LNK_CTL`, `LNK_STAT`, `LNK_PARTNER`, `LNK_FEC` or to the `NAK`s of `LNK_RETRY`; the other
counters of a link go on as it sends. -/
def lnkField (f : Fld) : Bool :=
  decide (f.s1 = 0x1000 ∧ 0x300000 * 64 ≤ f.off * 64 + f.lo ∧ f.off * 64 + f.lo < 0x300020 * 64 + 32)

/-- Those fields of the 48 ports. -/
def linkRegs (s : State) (f : Fld) (p : Nat) : Nat := if lnkField f ∧ p < 48 then fget s f p 0 else 0

theorem fget_of_linkRegs {s t : State} (h : linkRegs t = linkRegs s) {f : Fld} (hf : lnkField f = true) {p : Nat}
    (hp : p < 48) : fget t f p 0 = fget s f p 0 := by
  simpa [linkRegs, hf, hp] using congrFun (congrFun h f) p

theorem linkRegs_of_fget {s t : State}
    (h : ∀ f p, lnkField f = true → p < 48 → fget t f p 0 = fget s f p 0) : linkRegs t = linkRegs s := by
  funext f p
  unfold linkRegs
  split
  next hf => exact h f p hf.1 hf.2
  next => rfl

theorem linkRegs_congr {s t : State} (h : t.regs = s.regs) : linkRegs t = linkRegs s :=
  linkRegs_of_fget fun f p _ _ => fget_congr h f p 0

/-- Where those fields lie. -/
theorem key_of_lnkField {f : Fld} (hf : lnkField f = true) {p : Nat} (hp : p < 48) :
    0x300000 * 64 ≤ f.key p 0 ∧ f.key p 0 < 0x330000 * 64 ∧ f.key p 0 % (0x1000 * 64) < 0x20 * 64 + 32 := by
  obtain ⟨hs, hlo, hhi⟩ := of_decide_eq_true hf
  simp only [Fld.key, hs]
  omega

/-- Control messages leave the fields of the links. -/
theorem linkRegs_of_ctrlView {s t : State} (h : ctrlView t = ctrlView s) : linkRegs t = linkRegs s :=
  linkRegs_congr (regs_of_ctrlView h)

/-- A field elsewhere may change. -/
theorem linkRegs_fset {f : Fld} {i j : Nat} (h : f.key i j < 0x300000 * 64 ∨ 0x330000 * 64 ≤ f.key i j ∨
    0x20 * 64 + 32 ≤ f.key i j % (0x1000 * 64)) (s : State) (v : Nat) : linkRegs (fset s f i j v) = linkRegs s := by
  refine linkRegs_of_fget fun g p hg hp => fget_fset_ne ?_
  have hkey := key_of_lnkField hg hp
  omega

theorem linkRegs_fcount {f : Fld} {i j : Nat} (h : f.key i j < 0x300000 * 64 ∨ 0x330000 * 64 ≤ f.key i j ∨
    0x20 * 64 + 32 ≤ f.key i j % (0x1000 * 64)) (s : State) (n : Nat) : linkRegs (fcount s f i j n) = linkRegs s :=
  linkRegs_fset h ..

/-- A write of a field after what leaves those of the links. -/
theorem linkRegs_fset_congr {s t : State} (h : linkRegs t = linkRegs s) (f : Fld) (i j v : Nat) :
    linkRegs (fset t f i j v) = linkRegs (fset s f i j v) := by
  refine linkRegs_of_fget fun g p hg hp => ?_
  by_cases hk : f.key i j = g.key p 0
  · simp [fget, fset, hk]
  · rw [fget_fset_ne hk, fget_fset_ne hk, fget_of_linkRegs h hg hp]

/-! ### Packets -/

/-- What packets that leave on ports leave in place: the fields of the links, all records, and the ports but for their
queues. -/
def sendView (s : State) : State × (Fld → Nat → Nat) × (Nat → Port) :=
  ({ exceptPorts s with regs := [] }, linkRegs s, fun p => { portRest (port s p) with queue := [] })

theorem sendView_of_ctrlView {s t : State} (h : ctrlView t = ctrlView s) : sendView t = sendView s := by
  refine Prod.ext ?_ (Prod.ext (linkRegs_congr (regs_of_ctrlView h)) (funext fun p => ?_))
  · exact congrArg (fun u : State => { u with regs := [] }) (exceptPorts_of_ctrlView h)
  · exact congrArg (fun q : Port => { q with queue := [] }) (portRest_of_ctrlView h p)

theorem sendView_fcount {f : Fld} {i j : Nat} (h : f.key i j < 0x300000 * 64 ∨ 0x330000 * 64 ≤ f.key i j ∨
    0x20 * 64 + 32 ≤ f.key i j % (0x1000 * 64)) (s : State) (n : Nat) : sendView (fcount s f i j n) = sendView s :=
  Prod.ext rfl (Prod.ext (linkRegs_fcount h s n) rfl)

theorem sendView_modPort {f : Port → Port}
    (h : ∀ q, { portRest (f q) with queue := [] } = { portRest q with queue := [] }) (s : State) (p : Nat) :
    sendView (modPort s p f) = sendView s := by
  refine Prod.ext rfl (Prod.ext rfl (funext fun q => ?_))
  by_cases hq : p = q
  · subst hq
    simpa [sendView] using h _
  · simp [sendView, port_modPort_ne hq]

theorem sendView_emit (s : State) (o : Out) : sendView (emit s o) = sendView s := rfl

theorem sendView_sendFlit (s : State) (p : Nat) (ctrl : Bool) (payload : Bytes) :
    sendView (sendFlit s p ctrl payload) = sendView s := sendView_of_ctrlView (ctrlView_sendFlit ..)

theorem sendView_freed (s : State) (p : Nat) (pk : Packet) : sendView (freed s p pk) = sendView s :=
  sendView_modPort (fun _ => by rfl) ..

theorem sendView_sendStream (s : State) (p : Nat) : sendView (sendStream s p) = sendView s :=
  (foldl_keeps sendView (fun s _ => sendView_sendFlit s p false _) _ _).trans (sendView_modPort (fun _ => by rfl) ..)

theorem sendView_transmit (s : State) (p : Nat) (pk : Packet) : sendView (transmit s p pk) = sendView s :=
  (sendView_sendStream ..).trans <| (sendView_modPort (fun _ => by rfl) ..).trans <| (sendView_emit ..).trans <|
    sendView_fcount (by simp only [Fld.key, F.lnkTxbytesCount]; omega) ..

theorem sendView_outPort (s : State) (p : Nat) (came : Option Nat) (pk : Packet) :
    sendView (outPort s p came pk) = sendView s := by
  unfold outPort
  split
  · cases came with
    | none => exact sendView_transmit ..
    | some i => exact (sendView_freed ..).trans (sendView_transmit ..)
  · exact sendView_modPort (fun _ => by rfl) ..

/-- A packet that is dropped for its age is counted. -/
theorem sendView_dropLife (s : State) (n : Nat) : sendView (fcount s F.fabDropLife 0 0 n) = sendView s :=
  sendView_fcount (by decide) ..

theorem sendView_drainPackets (s : State) (p : Nat) : sendView (drainPackets s p) = sendView s := by
  refine (foldl_keeps sendView (fun s w => ?_) _ _).trans (sendView_modPort (fun _ => by rfl) ..)
  split
  · split
    · exact (sendView_freed ..).trans (sendView_dropLife ..)
    · exact sendView_dropLife ..
  · exact sendView_outPort ..

theorem sendView_drainPort (s : State) (p : Nat) : sendView (drainPort s p) = sendView s := by
  have hctrl : sendView (drainCtrl s p) = sendView s := sendView_of_ctrlView (ctrlView_drainCtrl ..)
  simp only [drainPort]
  split
  · exact (sendView_drainPackets ..).trans hctrl
  · exact hctrl

theorem sendView_replayFlits (s : State) (p : Nat) : sendView (replayFlits s p) = sendView s :=
  (foldl_keeps sendView (fun s f => sendView_of_ctrlView (ctrlView_putFlit s p f)) _ _).trans
    (sendView_fcount (by simp only [Fld.key, F.lnkRetryReplays]; omega) ..)

/-- Packets that leave on ports leave the fields of the links. -/
theorem linkRegs_of_sendView {s t : State} (h : sendView t = sendView s) : linkRegs t = linkRegs s :=
  congrArg (·.2.1) h

/-- A field of a link after packets have left on ports. -/
theorem fget_of_sendView {s t : State} (h : sendView t = sendView s) {f : Fld} (hf : lnkField f = true) {p : Nat}
    (hp : p < 48) : fget t f p 0 = fget s f p 0 := fget_of_linkRegs (linkRegs_of_sendView h) hf hp

/-- Packets that leave on ports leave the timecode block. -/
theorem time_of_sendView {s t : State} (h : sendView t = sendView s) : t.time = s.time := congrArg (·.1.time) h

/-- What packets leave of a port. -/
theorem portRest_of_sendView {s t : State} (h : sendView t = sendView s) (p : Nat) :
    { portRest (port t p) with queue := [] } = { portRest (port s p) with queue := [] } :=
  congrFun (congrArg (·.2.2) h) p

/-- A part of a port that packets leave. -/
theorem portPart_of_sendView {β : Type} (π : Port → β) (hπ : ∀ q, π { portRest q with queue := [] } = π q) {s t : State}
    (h : sendView t = sendView s) (p : Nat) : π (port t p) = π (port s p) := by
  rw [← hπ, portRest_of_sendView h p, hπ]

/-! ### Events of a port -/

theorem linkRegs_emit (s : State) (o : Out) : linkRegs (emit s o) = linkRegs s := rfl
theorem linkRegs_modPort (s : State) (p : Nat) (f : Port → Port) : linkRegs (modPort s p f) = linkRegs s := rfl

theorem linkRegs_faultRecord (s : State) (unit : Nat × Nat) (cls action : Nat) (steps : List (Nat × Nat)) :
    linkRegs (faultRecord s unit cls action steps) = linkRegs s :=
  linkRegs_of_fget fun f p hf hp => fget_faultRecord (by have := key_of_lnkField hf hp; omega) ..

/-- A summary bit of `GLB_IRQSTAT` lies below the links. -/
theorem linkRegs_glbIrq {f : Fld} (h : f.key 0 0 < 0x300000 * 64) (s : State) : linkRegs (glbIrq s f) = linkRegs s := by
  obtain h' | h' := glbIrq_cases s f <;> rw [h'] <;> exact linkRegs_fset (.inl h) ..

theorem linkRegs_portEvent (s : State) (p : Nat) (f : Fld) : linkRegs (portEvent s p f) = linkRegs (fset s f p 0 1) :=
  linkRegs_glbIrq (by decide) _

theorem linkRegs_enterAcquire (s : State) : linkRegs (enterAcquire s) = linkRegs s :=
  (linkRegs_fset (f := F.tcStatState) (by decide) ..).trans (linkRegs_fset (f := F.tcStatBehind) (by decide) ..)

theorem linkRegs_follow (s : State) : linkRegs (follow s) = linkRegs s := by
  unfold follow
  split
  · next p h _ =>
    have hup : linkRegs (fset (fset (fset s F.tcStatUpport 0 0 p) F.tcStatMasterdev 0 0 h.master.toNat) F.tcStatStratum
        0 0 (min 254 (h.stratum.toNat + 1))) = linkRegs s :=
      (linkRegs_fset (f := F.tcStatStratum) (by decide) ..).trans <|
        (linkRegs_fset (f := F.tcStatMasterdev) (by decide) ..).trans (linkRegs_fset (f := F.tcStatUpport) (by decide) ..)
    simp only
    split
    · exact (linkRegs_enterAcquire _).trans hup
    · exact (linkRegs_fset (f := F.tcStatState) (by decide) ..).trans hup
    · exact hup
  · split
    · exact linkRegs_fset (f := F.tcStatState) (by decide) ..
    · rfl

theorem linkRegs_unhear (s : State) (p : Nat) : linkRegs (unhear s p) = linkRegs s := by
  simp only [unhear]
  split
  · rfl
  · exact linkRegs_follow _

theorem linkRegs_settleReady (s : State) : linkRegs (settleReady s) = linkRegs s := by
  obtain h | h := settleReady_cases s <;> rw [h]
  exact linkRegs_fset (f := F.hostStatReady) (by decide) ..

theorem linkRegs_leftDetect (s : State) (p : Nat) : linkRegs (leftDetect s p) = linkRegs s :=
  (linkRegs_settleReady _).trans (linkRegs_modPort ..)

/-- Of a link that is dropped, the partner and the lanes go. -/
theorem linkRegs_dropLink (s : State) (p : Nat) :
    linkRegs (dropLink s p) = linkRegs (fset (fset s F.lnkPartnerValid p 0 0) F.lnkStatLanes p 0 0) :=
  linkRegs_unhear _ p

/-- The fields of a link that is dropped for another state. -/
def droppedTo (s : State) (p st : Nat) : State :=
  fset (fset (fset s F.lnkPartnerValid p 0 0) F.lnkStatLanes p 0 0) F.lnkStatState p 0 st

theorem linkRegs_toDetect (s : State) (p : Nat) : linkRegs (toDetect s p) = linkRegs (droppedTo s p 1) :=
  linkRegs_fset_congr (linkRegs_dropLink s p) ..

theorem linkRegs_portFail (s : State) (p code : Nat) : linkRegs (portFail s p code) =
    linkRegs (fset (fset (droppedTo s p 8) F.lnkStatReason p 0 code) F.lnkStatFailevt p 0 1) := by
  refine (linkRegs_leftDetect ..).trans <| (linkRegs_faultRecord ..).trans <| (linkRegs_portEvent ..).trans ?_
  exact linkRegs_fset_congr (linkRegs_fset_congr (linkRegs_fset_congr (linkRegs_dropLink s p) ..) ..) ..

theorem linkRegs_toOff (s : State) (p : Nat) : linkRegs (toOff s p) =
    linkRegs (fset (fset (fset (fset s F.lnkPartnerValid p 0 0) F.lnkStatLanes p 0 0) F.lnkCtlEn p 0 0)
      F.lnkStatState p 0 0) := by
  refine (linkRegs_settleReady _).trans ?_
  exact linkRegs_fset_congr (linkRegs_fset_congr (linkRegs_dropLink s p) ..) ..

/-- A port that has failed shows its state, its code and the event. -/
theorem fget_portFail (s : State) {p code : Nat} (hp : p < 48) (hc : code < 256) :
    fget (portFail s p code) F.lnkStatState p 0 = 8 ∧ fget (portFail s p code) F.lnkStatReason p 0 = code ∧
      fget (portFail s p code) F.lnkStatFailevt p 0 = 1 := by
  have h {f : Fld} (hf : lnkField f = true) := fget_of_linkRegs (linkRegs_portFail s p code) hf hp
  rw [h (by decide), h (by decide), h (by decide), droppedTo]
  simp (disch := decide) only [fget_fset_sibling, fget_fset_same]
  exact ⟨rfl, Nat.mod_eq_of_lt hc, rfl⟩

/-- A failure leaves the other fields of the link. -/
theorem fget_portFail_ne (s : State) {p : Nat} (hp : p < 48) (code : Nat) {g : Fld} (hg : lnkField g = true)
    (hne : ∀ f ∈ [F.lnkPartnerValid, F.lnkStatLanes, F.lnkStatState, F.lnkStatReason, F.lnkStatFailevt],
      f.off * 64 + f.lo ≠ g.off * 64 + g.lo) : fget (portFail s p code) g p 0 = fget s g p 0 := by
  have hs : 0x1000 = g.s1 := (of_decide_eq_true hg).1.symm
  simp only [List.forall_mem_cons, List.not_mem_nil, false_implies, implies_true, and_true] at hne
  obtain ⟨hvalid, hlanes, hstate, hreason, hevent⟩ := hne
  rw [fget_of_linkRegs (linkRegs_portFail s p code) hg hp, fget_fset_sibling hs hevent, fget_fset_sibling hs hreason,
    droppedTo, fget_fset_sibling hs hstate, fget_fset_sibling hs hlanes, fget_fset_sibling hs hvalid]

/-- A port back in DETECT. -/
theorem fget_toDetect (s : State) {p : Nat} (hp : p < 48) : fget (toDetect s p) F.lnkStatState p 0 = 1 := by
  rw [fget_of_linkRegs (linkRegs_toDetect s p) (by decide) hp, droppedTo, fget_fset_same]
  rfl

/-- A port in OFF has no lanes and no partner. -/
theorem fget_toOff (s : State) {p : Nat} (hp : p < 48) :
    fget (toOff s p) F.lnkStatState p 0 = 0 ∧ fget (toOff s p) F.lnkCtlEn p 0 = 0 ∧
      fget (toOff s p) F.lnkStatLanes p 0 = 0 ∧ fget (toOff s p) F.lnkPartnerValid p 0 = 0 := by
  have h {f : Fld} (hf : lnkField f = true) := fget_of_linkRegs (linkRegs_toOff s p) hf hp
  rw [h (by decide), h (by decide), h (by decide), h (by decide)]
  simp (disch := decide) only [fget_fset_sibling, fget_fset_same, Nat.zero_mod, and_self]

/-! ### Enable and disable -/

/-- An enable of a port that is off, by the check of the fields that the write has left: refused. -/
theorem exec_linkEnable_refused {s : State} {p : PortId} {w : RegWrite} (ho : writeOpen s false = true)
    (hoff : fbit s F.lnkCtlEn p.val 0 = false) (hw : wbit w F.lnkCtlEn = true) {code : Nat}
    (hc : linkCheck (putLink s p.val w) p.val = some code) :
    exec (.linkEnable p w) s = .next (refuse (fset (putLink s p.val w) F.lnkStatReason p.val 0 code) 3 p.val code) := by
  change execLinkEnable p w s = _
  rw [execLinkEnable, onBar_open ho]
  simp only [hoff, hw, hc, Bool.not_true, Bool.or_self, Bool.false_eq_true, if_false]

/-- An enable of a port that is off, by the check of the fields that the write has left: taken. -/
theorem exec_linkEnable_taken {s : State} {p : PortId} {w : RegWrite} (ho : writeOpen s false = true)
    (hoff : fbit s F.lnkCtlEn p.val 0 = false) (hw : wbit w F.lnkCtlEn = true)
    (hc : linkCheck (putLink s p.val w) p.val = none) :
    ∃ t, exec (.linkEnable p w) s = .next (fset (fset t F.lnkCtlEn p.val 0 1) F.lnkStatState p.val 0 1) := by
  refine ⟨modPort (putLink s p.val w) p.val fun q =>
    { q with holdDetect := !fbit (putLink s p.val w) F.hostStatReady 0 0 }, ?_⟩
  change execLinkEnable p w s = _
  rw [execLinkEnable, onBar_open ho]
  simp only [hoff, hw, hc, Bool.not_true, Bool.or_self, Bool.false_eq_true, if_false]

/-- A disable takes a port that is not retired to OFF. -/
theorem exec_linkDisable {s : State} {p : PortId} {w : RegWrite} (ho : writeOpen s false = true)
    (hc : covered w.half F.lnkCtlEn = true) (hw : wbit w F.lnkCtlEn = false)
    (hst : portState (putLink s p.val w) p.val ≠ 9) :
    exec (.linkDisable p w) s = .next (toOff (putLink s p.val w) p.val) := by
  change execLinkDisable p w s = _
  rw [execLinkDisable, onBar_open ho]
  exact if_neg (by simp [hc, hw, hst])

end Sys2Proof.Machine

/-- Settles O34: an enable is decided by the check of the fields that the write has left (`exec_linkEnable_refused`,
`exec_linkEnable_taken`); a disable is the way to OFF (`exec_linkDisable`, `fget_toOff`). -/
theorem linkEnableAndDisable : Obligations.LinkEnableAndDisable := by
  refine fun s p w ho => ⟨fun hoff hw => ⟨fun code hcode => exec_linkEnable_refused ho hoff hw hcode, fun hnone => ?_⟩,
    fun hc hw hst => ?_⟩
  · obtain ⟨t, ht⟩ := exec_linkEnable_taken ho hoff hw hnone
    refine ⟨_, ht, ?_, ?_⟩
    · rw [fget_fset_same]
      rfl
    · simp (disch := decide) only [fget_fset_sibling, fget_fset_same]
      rfl
  · obtain ⟨hstate, hen, hlanes, hvalid⟩ := fget_toOff (putLink s p.val w) p.isLt
    exact ⟨_, exec_linkDisable ho hc hw hst, hstate, hen, hlanes, hvalid⟩

end

section
/-! PROOFS. Scope: the registers of the fabric: routes, class floors, receive windows (R354, R359, R371), and
obligation O40. -/

open Sys2Proof.Machine

namespace Sys2Proof.Machine

/-- A refusal leaves the registers from those of DDR on. -/
theorem fget_refuse {g : Fld} {a b : Nat} (hg : 0x200000 * 64 ≤ g.key a b) (s : State) (source index code : Nat) :
    fget (refuse s source index code) g a b = fget s g a b := by
  have hirq (t : State) : fget (glbIrq t F.glbIrqstatRefuse) g a b = fget t g a b := by
    obtain h | h := glbIrq_cases t F.glbIrqstatRefuse <;> rw [h] <;>
      exact fget_fset_above (f := F.glbIrqstatRefuse) (by decide) hg ..
  rw [refuse, hirq]
  refine (fget_fset_above (f := F.glbRefuseCount) (by decide) hg ..).trans ?_
  refine (fget_fset_above (f := F.glbRefuseIndex) (by decide) hg ..).trans ?_
  refine (fget_fset_above (f := F.glbRefuseSource) (by decide) hg ..).trans ?_
  exact fget_fset_above (f := F.glbRefuseCode) (by decide) hg ..

/-- The entry that a write of `FAB_RTDATA` in full gives: the ports and the valid bit. -/
def routeValue (w : RegWrite) : BitVec 64 := BitVec.ofNat 64 (wval w F.fabRtdataPorts + wval w F.fabRtdataValid * 2 ^ 63)

/-- The route table with an entry; one of 0 is left out. -/
def putRoute (t : Tbl (BitVec 64)) (e : Nat) (v : BitVec 64) : Tbl (BitVec 64) := if v = 0 then tdel t e else tset t e v

theorem tget_putRoute_same (t : Tbl (BitVec 64)) (e : Nat) (v : BitVec 64) : tget (putRoute t e v) e 0 = v := by
  unfold putRoute
  split
  next hv => simp [tget, hv]
  next => simp

theorem tget_putRoute_ne (t : Tbl (BitVec 64)) {e k : Nat} (h : e ≠ k) (v : BitVec 64) :
    tget (putRoute t e v) k 0 = tget t k 0 := by
  unfold putRoute
  split
  · simp [tget, tfind_tdel_ne t h]
  · exact tget_tset_ne t v 0 h

/-- A write of both halves stores the whole entry. -/
theorem exec_routeEntryWrite {s : State} {w : RegWrite} (ho : writeOpen s false = true) (hb : w.half = .both) :
    exec (.routeEntryWrite w) s = .next (fset { s with fab := { s.fab with
      routes := putRoute s.fab.routes (fget s F.fabRtidxEntry 0 0) (routeValue w) } } F.fabRtidxEntry 0 0
        (fget s F.fabRtidxEntry 0 0 + 1)) := by
  have hv : wval w F.fabRtdataPorts = w.data.toNat % 2 ^ 32 + w.data.toNat / 2 ^ 32 % 2 ^ 16 * 2 ^ 32 := by
    simp only [wval, bitsOf, F.fabRtdataPorts]
    omega
  change execRouteEntryWrite w s = _
  rw [execRouteEntryWrite, onBar_open ho, routeValue, hv]
  simp [hb, covered, putRoute]

/-- A class floor that leaves the sum within 1,856 is taken. -/
theorem exec_creditFloorWrite_taken {s : State} {c : Fin 8} {w : RegWrite} (ho : writeOpen s false = true)
    (hc : covered w.half F.fabCrfloorFloor = true)
    (hsum : ((List.range 8).map fun k => if k = c.val then wval w F.fabCrfloorFloor
      else fget s F.fabCrfloorFloor 0 k).sum ≤ 1856) :
    exec (.creditFloorWrite c w) s = .next (fset s F.fabCrfloorFloor 0 c.val (wval w F.fabCrfloorFloor)) := by
  change execCreditFloorWrite c w s = _
  rw [execCreditFloorWrite, onBar_open ho, hc]
  exact if_neg (Nat.not_lt.2 hsum)

/-- A class floor beyond that is refused. -/
theorem exec_creditFloorWrite_refused {s : State} {c : Fin 8} {w : RegWrite} (ho : writeOpen s false = true)
    (hc : covered w.half F.fabCrfloorFloor = true)
    (hsum : 1856 < ((List.range 8).map fun k => if k = c.val then wval w F.fabCrfloorFloor
      else fget s F.fabCrfloorFloor 0 k).sum) :
    exec (.creditFloorWrite c w) s = .next (refuse (fset s F.fabStatReason 0 0 0x2A) 4 c.val 0x2A) := by
  change execCreditFloorWrite c w s = _
  rw [execCreditFloorWrite, onBar_open ho, hc]
  exact if_pos hsum

/-- What is left of the units landed in a window once they are forgotten lies in later windows. -/
theorem tfind_clearUnits (t : Tbl Nat) (i u : Nat) (h : (tfind (clearUnits t i) (i * 2 ^ 32 + u)).isSome = true) :
    2 ^ 32 ≤ u := by
  by_contra hu
  have hwin : ((i * 2 ^ 32 + u) / 2 ^ 32 != i) = false := by
    rw [bne_eq_false_iff_eq]
    omega
  rw [clearUnits, tfind_filter_drop t (f := fun k => k / 2 ^ 32 != i) hwin] at h
  cases h

/-- A window that is enabled begins at a total of 0, with no unit landed. -/
theorem exec_rqWindowEnable {s : State} {i : Fin 32} {w : RegWrite} (ho : writeOpen s false = true)
    (hw : wbit w F.fabRqcfgEn = true) (hoff : fbit s F.fabRqcfgEn 0 i.val = false) :
    ∃ t : State, exec (.rqWindowEnable i w) s =
      .next (fset (fset { t with fab := { t.fab with rqUnits := clearUnits t.fab.rqUnits i.val } }
        F.fabRqcfgEn 0 i.val 1) F.fabRqcfgTotal 0 i.val 0) := by
  have hc : covered w.half F.fabRqcfgEn = true := by
    rw [wbit, Bool.and_eq_true] at hw
    exact hw.1
  refine ⟨writeFields s w [F.fabRqcfgUnitlog2, F.fabRqcfgUnits] 0 i.val, ?_⟩
  change execRqWindowEnable i w s = _
  rw [execRqWindowEnable, onBar_open ho]
  simp only [hoff, hc, hw, Bool.not_true, Bool.false_eq_true, if_false]

end Sys2Proof.Machine

/-- Settles O40: the entry written is what the table then holds (`tget_putRoute_same`, `tget_putRoute_ne`); a floor is taken
or refused by the sum; of the landed units of a window none stays below the next one (`tfind_clearUnits`). -/
theorem fabricRegisterWrites : Obligations.FabricRegisterWrites := by
  refine fun s w ho => ⟨fun hb => ⟨_, exec_routeEntryWrite ho hb, tget_putRoute_same .., fun e he =>
      tget_putRoute_ne _ he.symm _, fget_fset_same ..⟩,
    fun c hc => ⟨exec_creditFloorWrite_taken ho hc, fun hsum => ⟨_, exec_creditFloorWrite_refused ho hc hsum, ?_, ?_⟩⟩,
    fun k hw hoff => ?_⟩
  · rw [fget_refuse (by decide), fget_fset_same]
    rfl
  · rw [fget_refuse (by simp only [Fld.key, F.fabCrfloorFloor]; omega), fget_fset_ne]
    simp only [Fld.key, F.fabCrfloorFloor, F.fabStatReason]
    omega
  · obtain ⟨t, ht⟩ := exec_rqWindowEnable ho hw hoff
    refine ⟨_, ht, ?_, by rw [fget_fset_same]; rfl, fun u => tfind_clearUnits _ _ u⟩
    rw [fget_fset_ne (by simp only [Fld.key, F.fabRqcfgEn, F.fabRqcfgTotal]; omega), fget_fset_same]
    rfl

end

section
/-! PROOFS. Scope: ports that come up and vanish (R338 to R346, R377, Table 10.3): masks of lanes, the states in turn, lanes
retired in service, ports that lose their signal; obligation O35. -/

open Sys2Proof.Machine

namespace Sys2Proof.Machine

/-! ### Masks -/

/-- The number whose bits below `n` are those that a test picks. -/
def bitsBelow (n : Nat) (ok : Nat → Bool) : Nat := ((List.range n).filter ok).foldl (fun a l => a + 2 ^ l) 0

theorem maskOut_eq (m x : Nat) : maskOut m x = bitsBelow 8 fun l => m.testBit l && !x.testBit l := rfl

theorem bitsBelow_succ (n : Nat) (ok : Nat → Bool) :
    bitsBelow (n + 1) ok = if ok n then 2 ^ n + bitsBelow n ok else bitsBelow n ok := by
  simp only [bitsBelow, List.range_succ, List.filter_append, List.foldl_append]
  cases h : ok n
  · simp [h]
  · simp [h, Nat.add_comm]

theorem bitsBelow_lt (n : Nat) (ok : Nat → Bool) : bitsBelow n ok < 2 ^ n := by
  induction n with
  | zero => exact Nat.one_pos
  | succ n ih =>
    rw [bitsBelow_succ]
    split <;> omega

theorem testBit_bitsBelow {n l : Nat} (h : l < n) (ok : Nat → Bool) : (bitsBelow n ok).testBit l = ok l := by
  induction n with
  | zero => omega
  | succ n ih =>
    rw [bitsBelow_succ]
    obtain hl | rfl : l < n ∨ l = n := by omega
    · split
      · rw [Nat.testBit_two_pow_add_gt hl, ih hl]
      · exact ih hl
    · have hout : (bitsBelow l ok).testBit l = false := Nat.testBit_lt_two_pow (bitsBelow_lt l ok)
      split
      next hok => rw [Nat.testBit_two_pow_add_eq, hout, hok, Bool.not_false]
      next hok => rw [hout, Bool.eq_false_iff.2 hok]

theorem maskOut_lt (m x : Nat) : maskOut m x < 256 := bitsBelow_lt 8 _

/-- A mask without a lane that it has is another mask. -/
theorem maskOut_ne {m : Nat} {l : Fin 8} (h : m.testBit l.val = true) : maskOut m (2 ^ l.val) ≠ m := by
  intro heq
  have hbit : (maskOut m (2 ^ l.val)).testBit l.val = false := by
    rw [maskOut_eq, testBit_bitsBelow l.isLt]
    simp
  rw [heq, h] at hbit
  cases hbit

/-! ### What an event of a port leaves -/

theorem glbIrq_time (s : State) (f : Fld) : (glbIrq s f).time = s.time := by
  obtain h | h := glbIrq_cases s f <;> rw [h] <;> rfl

theorem glbIrq_fab (s : State) (f : Fld) : (glbIrq s f).fab = s.fab := by
  obtain h | h := glbIrq_cases s f <;> rw [h] <;> rfl

theorem faultRecord_fab (s : State) (unit : Nat × Nat) (cls action : Nat) (steps : List (Nat × Nat)) :
    (faultRecord s unit cls action steps).fab = s.fab := by
  have hring (u : State) (rec : Bytes) : (dailyRing u rec).fab = u.fab := by
    obtain h | h | ⟨pad, h⟩ := dailyRing_cases u rec <;> rw [h] <;> rfl
  simp only [faultRecord, daily]
  split
  · rfl
  · exact hring ..

theorem unhear_fab (s : State) (p : Nat) : (unhear s p).fab = s.fab := by
  have hfollow (u : State) : (follow u).fab = u.fab := by
    unfold follow
    split
    · simp only
      split <;> rfl
    · split <;> rfl
  simp only [unhear]
  split
  · rfl
  · exact hfollow _

/-- A port back in DETECT has the fields beside its partner, lanes and state as they were. -/
theorem fget_toDetect_ne (s : State) {p : Nat} (hp : p < 48) {g : Fld} (hg : lnkField g = true)
    (hne : ∀ f ∈ [F.lnkPartnerValid, F.lnkStatLanes, F.lnkStatState], f.off * 64 + f.lo ≠ g.off * 64 + g.lo) :
    fget (toDetect s p) g p 0 = fget s g p 0 := by
  have hs : 0x1000 = g.s1 := (of_decide_eq_true hg).1.symm
  simp only [List.forall_mem_cons, List.not_mem_nil, false_implies, implies_true, and_true] at hne
  obtain ⟨hvalid, hlanes, hstate⟩ := hne
  rw [fget_of_linkRegs (linkRegs_toDetect s p) hg hp, droppedTo, fget_fset_sibling hs hstate,
    fget_fset_sibling hs hlanes, fget_fset_sibling hs hvalid]

/-- A port in OFF has the fields beside its partner, lanes, state and `EN` as they were. -/
theorem fget_toOff_ne (s : State) {p : Nat} (hp : p < 48) {g : Fld} (hg : lnkField g = true)
    (hne : ∀ f ∈ [F.lnkPartnerValid, F.lnkStatLanes, F.lnkCtlEn, F.lnkStatState],
      f.off * 64 + f.lo ≠ g.off * 64 + g.lo) : fget (toOff s p) g p 0 = fget s g p 0 := by
  have hs : 0x1000 = g.s1 := (of_decide_eq_true hg).1.symm
  simp only [List.forall_mem_cons, List.not_mem_nil, false_implies, implies_true, and_true] at hne
  obtain ⟨hvalid, hlanes, hen, hstate⟩ := hne
  rw [fget_of_linkRegs (linkRegs_toOff s p) hg hp, fget_fset_sibling hs hstate, fget_fset_sibling hs hen,
    fget_fset_sibling hs hlanes, fget_fset_sibling hs hvalid]

/-! ### DETECT and TRAIN -/

/-- A command that ends in the failure of a port with a code. -/
def PortFails (p code : Nat) (o : Host.Outcome State Fault Refusal) : Prop :=
  ∃ u, o = .next u ∧ fget u F.lnkStatState p 0 = 8 ∧ fget u F.lnkStatReason p 0 = code ∧ fget u F.lnkStatFailevt p 0 = 1

theorem portFails_of_eq {o : Host.Outcome State Fault Refusal} {s : State} {p code : Nat} (hp : p < 48)
    (hc : code < 256) (h : o = .next (portFail s p code)) : PortFails p code o :=
  ⟨_, h, fget_portFail s hp hc⟩

/-- Signal on enough lanes ends DETECT. -/
theorem exec_detectBurst {s : State} {p : PortId} {lanes : BitVec 8} (hk : clockRuns s (portClock p.val) = true)
    (hst : portState s p.val = 1) (hw : powerState s ≠ 2) (ht : (port s p.val).testing = false)
    (hn : fget s F.lnkCtlMinlanes p.val 0 ≤ laneCount (usableLanes s p.val lanes.toNat)) :
    exec (.detectBurst p lanes) s =
      .next (leftDetect (fset (emit s (.onPort p msgBurst [])) F.lnkStatState p.val 0 2) p.val) := by
  have hw' : fget s F.pwrStatState 0 0 ≠ 2 := hw
  change execDetectBurst p lanes s = _
  rw [execDetectBurst, onClock_runs hk, if_neg (by simp [hst, hw', ht])]
  exact if_pos hn

/-- Agreed lanes end TRAIN, and this end shows itself. -/
theorem exec_linkTraining {s : State} {p : PortId} {lanes : BitVec 8} (hk : clockRuns s (portClock p.val) = true)
    (hst : portState s p.val = 2)
    (hn : fget s F.lnkCtlMinlanes p.val 0 ≤ laneCount (usableLanes s p.val lanes.toNat)) :
    ∃ u, exec (.linkTraining p (some lanes)) s = .next u ∧ linkRegs u = linkRegs
      (fset (fset s F.lnkStatLanes p.val 0 (usableLanes s p.val lanes.toNat)) F.lnkStatState p.val 0 3) := by
  change ∃ u, execLinkTraining p (some lanes) s = .next u ∧ _
  rw [execLinkTraining, onClock_runs hk, if_neg (not_not.2 hst)]
  refine ⟨_, if_neg (Nat.not_lt.2 hn), ?_⟩
  exact (linkRegs_of_ctrlView (ctrlView_portBytes ..)).trans (linkRegs_modPort ..)

/-- A training that fails goes back to DETECT, or at the third time in succession the port fails. -/
theorem trainingFailed_cases (s : State) (p : Nat) :
    ∃ t, ((port s p).fails < 2 → trainingFailed s p = toDetect t p) ∧
      (2 ≤ (port s p).fails → ∃ t, trainingFailed s p = portFail t p 0x23) :=
  ⟨_, fun h => if_neg (by omega), fun h => ⟨_, if_pos (by omega)⟩⟩

/-- No agreed lanes, or no end in time: the training has failed. -/
theorem exec_trainingFails {s : State} {p : PortId} {c : Instr} (hk : clockRuns s (portClock p.val) = true)
    (hst : portState s p.val = 2) (hc : c ∈ [Instr.linkTraining p none, .linkStateTimeout p]) :
    exec c s = .next (trainingFailed s p.val) := by
  simp only [List.mem_cons, List.not_mem_nil, or_false] at hc
  obtain rfl | rfl := hc
  · change execLinkTraining p none s = _
    rw [execLinkTraining, onClock_runs hk, if_neg (not_not.2 hst)]
  · change execLinkStateTimeout p s = _
    rw [execLinkStateTimeout, onClock_runs hk]
    simp only [hst]

/-! ### IDENT -/

theorem identCode_congr {s t : State} {p : Nat} (hr : t.regs = s.regs) (hn : t.nv = s.nv)
    (hp : (port t p).nonce = (port s p).nonce) (i : IdentInfo) : identCode t p i = identCode s p i := by
  have hlife : lifeNow t = lifeNow s := by rw [lifeNow, hn, lifeNow]
  have hdev : ownDev t = ownDev s := fget_congr hr ..
  unfold identCode
  rw [hlife, hdev, hp, fget_congr hr F.fabCfgSpaceid, fget_congr hr F.lnkCtlRole, fget_congr hr F.secCfgLinkdbg]

theorem identCode_lt {s : State} {p : Nat} {i : IdentInfo} {code : Nat} (h : identCode s p i = some code) :
    code < 256 := by
  simp only [identCode] at h
  repeat' split at h
  all_goals cases h <;> decide

/-- The check of a partner is not changed by the quote that this end sends. -/
theorem identCode_quoteSent (s : State) (p : Nat) (quote : Bytes) (i : IdentInfo) :
    identCode (portBytes (drawFree s).2 p msgIdent quote) p i = identCode s p i := by
  have hv := ctrlView_portBytes (drawFree s).2 p msgIdent quote
  exact identCode_congr (regs_of_ctrlView hv) (congrArg (·.1.nv) hv) (portPart_of_ctrlView Port.nonce (fun _ => rfl) hv p) i

/-- An exchange of keys that begins leaves the registers. -/
theorem linkRegs_beginKeyx (s : State) (p : Nat) : linkRegs (beginKeyx s p) = linkRegs s := by
  simp only [beginKeyx]
  split
  · exact (linkRegs_of_ctrlView (ctrlView_portBytes ..)).trans (linkRegs_modPort ..)
  · exact linkRegs_modPort ..

/-- A partner that passes the check is taken over, and KEYX begins. -/
theorem exec_ident_taken {s : State} {p : PortId} {i : IdentInfo} (hk : clockRuns s (portClock p.val) = true)
    (hst : portState s p.val = 3) (hi : identCode s p.val i = none) :
    ∃ t u, exec (.ident p (some i)) s = .next u ∧ linkRegs u = linkRegs (fset (fset (fset (fset t F.lnkPartnerDev p.val 0
      i.dev.toNat) F.lnkPartnerPort p.val 0 i.port.toNat) F.lnkPartnerValid p.val 0 1) F.lnkStatState p.val 0 4) := by
  refine ⟨portBytes (drawFree s).2 p.val msgIdent (quoteOf s i.nonce []), ?_⟩
  change ∃ u, execIdent p (some i) s = .next u ∧ _
  rw [execIdent, onClock_runs hk, if_neg (not_not.2 hst)]
  simp only [identCode_quoteSent, hi]
  exact ⟨_, rfl, (linkRegs_beginKeyx ..).trans (linkRegs_fset_congr (linkRegs_modPort ..) ..)⟩

/-- A partner that fails the check fails the port with the check's code. -/
theorem exec_ident_refused {s : State} {p : PortId} {i : IdentInfo} {code : Nat}
    (hk : clockRuns s (portClock p.val) = true) (hst : portState s p.val = 3) (hi : identCode s p.val i = some code) :
    ∃ t, exec (.ident p (some i)) s = .next (portFail t p.val code) := by
  refine ⟨portBytes (drawFree s).2 p.val msgIdent (quoteOf s i.nonce []), ?_⟩
  change execIdent p (some i) s = _
  rw [execIdent, onClock_runs hk, if_neg (not_not.2 hst)]
  simp only [identCode_quoteSent, hi]

/-- No partner shows itself. -/
theorem exec_ident_none {s : State} {p : PortId} (hk : clockRuns s (portClock p.val) = true)
    (hst : portState s p.val = 3) : exec (.ident p none) s = .next (portFail s p.val 0x25) := by
  change execIdent p none s = _
  rw [execIdent, onClock_runs hk, if_neg (not_not.2 hst)]

/-! ### KEYX and TIMECAL -/

/-- An exchange of keys that has succeeded has its keys agreed. -/
theorem agreed_endKeyx (s : State) (p : Nat) (partner : Bytes) :
    (port (endKeyx s p partner) p).agreed = some (linkKeys s p partner) := by
  simp [endKeyx]

theorem exec_keyx_done {s : State} {p : PortId} (hk : clockRuns s (portClock p.val) = true)
    (hst : portState s p.val = 4) (partner : Bytes) : exec (.keyx p (some partner)) s =
      .next (fset (firstKeys (endKeyx s p.val partner) p.val) F.lnkStatState p.val 0 5) := by
  change execKeyx p (some partner) s = _
  rw [execKeyx, onClock_runs hk, if_neg (not_not.2 hst)]

theorem exec_keyx_none {s : State} {p : PortId} (hk : clockRuns s (portClock p.val) = true)
    (hst : portState s p.val = 4) : exec (.keyx p none) s = .next (portFail s p.val 0x26) := by
  change execKeyx p none s = _
  rw [execKeyx, onClock_runs hk, if_neg (not_not.2 hst)]

/-- 64 marker exchanges fix the delay, and the port is UP. -/
theorem exec_timecal {s : State} {p : PortId} {ms : List Marker} (hk : clockRuns s (portClock p.val) = true)
    (hst : portState s p.val = 5) (hms : ms.length = 64) : exec (.timecal p ms) s = .next
      (portEvent (fset (putDelay s p.val (linkDelay ms)) F.lnkStatState p.val 0 6) p.val F.lnkStatUpevt) := by
  change execTimecal p ms s = _
  rw [execTimecal, onClock_runs hk, if_neg (not_not.2 hst), if_neg (not_not.2 hms)]

/-- The end of the time of IDENT, KEYX and TIMECAL. -/
theorem exec_linkStateTimeout {s : State} {p : PortId} (hk : clockRuns s (portClock p.val) = true) :
    (portState s p.val = 3 → exec (.linkStateTimeout p) s = .next (portFail s p.val 0x25)) ∧
      (portState s p.val = 4 → exec (.linkStateTimeout p) s = .next (portFail s p.val 0x26)) ∧
      (portState s p.val = 5 → exec (.linkStateTimeout p) s = .next (toDetect s p.val)) := by
  change (_ → execLinkStateTimeout p s = _) ∧ (_ → execLinkStateTimeout p s = _) ∧ (_ → execLinkStateTimeout p s = _)
  rw [execLinkStateTimeout, onClock_runs hk]
  exact ⟨fun h => by simp only [h], fun h => by simp only [h], fun h => by simp only [h]⟩

/-! ### Lanes that fail -/

/-- The lanes of a mask newly retired, with the event and a record of each. -/
def laneEvents (s : State) (p m : Nat) : State :=
  ((List.range 8).filter (fun l => m.testBit l && !(port s p).bad.getLsbD l)).foldl
    (fun s l => faultRecord s (5, 8 * p + l) 0x04 3 [])
    (portEvent (modPort s p fun q => { q with bad := q.bad ||| BitVec.ofNat 8 m }) p F.lnkStatLaneevt)

theorem linkRegs_laneEvents (s : State) (p m : Nat) :
    linkRegs (laneEvents s p m) = linkRegs (fset s F.lnkStatLaneevt p 0 1) := by
  refine (foldl_keeps linkRegs (fun s l => linkRegs_faultRecord ..) _ _).trans ?_
  exact (linkRegs_portEvent ..).trans (linkRegs_fset_congr (linkRegs_modPort ..) ..)

theorem bad_laneEvents (s : State) (p m : Nat) :
    (port (laneEvents s p m) p).bad = (port s p).bad ||| BitVec.ofNat 8 m := by
  have hfab : (laneEvents s p m).fab = (modPort s p fun q => { q with bad := q.bad ||| BitVec.ofNat 8 m }).fab :=
    (foldl_keeps State.fab (fun s l => faultRecord_fab ..) _ _).trans (glbIrq_fab ..)
  rw [port_congr hfab, port_modPort_same]

/-- A port that goes on in RELANE on the lanes left. -/
def relaned (s : State) (p left : Nat) : State :=
  unhear (portMsg (fset (fset s F.lnkStatLanes p 0 left) F.lnkStatState p 0 7) p msgLanes [left]) p

theorem linkRegs_relaned (s : State) (p left : Nat) :
    linkRegs (relaned s p left) = linkRegs (fset (fset s F.lnkStatLanes p 0 left) F.lnkStatState p 0 7) :=
  (linkRegs_unhear ..).trans (linkRegs_of_ctrlView (ctrlView_portMsg ..))

theorem bad_relaned (s : State) (p left : Nat) : (port (relaned s p left) p).bad = (port s p).bad := by
  rw [relaned, port_congr (unhear_fab ..)]
  exact portPart_of_ctrlView Port.bad (fun _ => rfl) (ctrlView_portMsg ..) p

/-- A lane in use that fails on a port that carries traffic: the port fails, or goes on in RELANE. -/
theorem retireLanes_live {s : State} {p : Nat} (hp : p < 48) {lane : Fin 8}
    (hst : portState s p = 6 ∨ portState s p = 7) (hon : (fget s F.lnkStatLanes p 0).testBit lane.val = true)
    (hnew : (port s p).bad.getLsbD lane.val = false) :
    retireLanes s p (2 ^ lane.val) =
      if laneCount (maskOut (fget s F.lnkStatLanes p 0) (2 ^ lane.val)) < fget s F.lnkCtlMinlanes p 0
      then portFail (laneEvents s p (2 ^ lane.val)) p 0x29
      else relaned (laneEvents s p (2 ^ lane.val)) p (maskOut (fget s F.lnkStatLanes p 0) (2 ^ lane.val)) := by
  have hhit : ((List.range 8).filter fun l => (2 ^ lane.val).testBit l && !(port s p).bad.getLsbD l).isEmpty = false := by
    rw [List.isEmpty_eq_false_iff_exists_mem]
    exact ⟨lane.val, List.mem_filter.2 ⟨List.mem_range.2 lane.isLt, by simp only [hnew, Nat.testBit_two_pow_self, Bool.not_false, Bool.and_self]⟩⟩
  have hmin : fget (laneEvents s p (2 ^ lane.val)) F.lnkCtlMinlanes p 0 = fget s F.lnkCtlMinlanes p 0 := by
    rw [fget_of_linkRegs (linkRegs_laneEvents ..) (by decide) hp]
    simp (disch := decide) only [fget_fset_sibling]
  unfold retireLanes
  extract_lets st hit active left s₁ s₂ s₃ s₄
  have hev : s₃ = laneEvents s p (2 ^ lane.val) := rfl
  have hst' : st = 6 ∨ st = 7 := hst
  rw [if_neg (by rw [not_or, Nat.not_le]; exact ⟨by simp [hit, hhit], by omega⟩), if_neg (maskOut_ne hon), hev, hmin]
  refine if_congr Iff.rfl rfl ?_
  rw [if_pos hst']
  rfl

/-- No lane is retired by an empty mask. -/
theorem retireLanes_zero (s : State) (p : Nat) : retireLanes s p 0 = s := by
  unfold retireLanes
  exact if_pos (.inl (by simp))

theorem exec_laneFault {s : State} {p : PortId} {lane : Fin 8} (hk : clockRuns s (portClock p.val) = true)
    (hst : portState s p.val ≠ 0) : exec (.laneFault p lane) s = .next (retireLanes s p.val (2 ^ lane.val)) := by
  change execLaneFault p lane s = _
  rw [execLaneFault, onClock_runs hk, if_neg hst]

/-- A lane in use that fails on a port that carries traffic. -/
theorem laneFault_outcome {s : State} {p : PortId} {lane : Fin 8} (hk : clockRuns s (portClock p.val) = true)
    (hst : portState s p.val = 6 ∨ portState s p.val = 7)
    (hon : (fget s F.lnkStatLanes p.val 0).testBit lane.val = true)
    (hnew : (port s p.val).bad.getLsbD lane.val = false) :
    let left := maskOut (fget s F.lnkStatLanes p.val 0) (2 ^ lane.val)
    ∃ u, exec (.laneFault p lane) s = .next u ∧ fget u F.lnkStatLaneevt p.val 0 = 1 ∧
      (fget s F.lnkCtlMinlanes p.val 0 ≤ laneCount left → portState u p.val = 7 ∧ fget u F.lnkStatLanes p.val 0 = left ∧
        (port u p.val).bad = (port s p.val).bad ||| BitVec.ofNat 8 (2 ^ lane.val)) ∧
      (laneCount left < fget s F.lnkCtlMinlanes p.val 0 → portState u p.val = 8 ∧
        fget u F.lnkStatReason p.val 0 = 0x29) := by
  intro left
  have hp : p.val < 48 := p.isLt
  have hexec := exec_laneFault (lane := lane) hk (by omega : portState s p.val ≠ 0)
  rw [retireLanes_live hp hst hon hnew] at hexec
  generalize hv : laneEvents s p.val (2 ^ lane.val) = v at hexec
  have hevent : fget v F.lnkStatLaneevt p.val 0 = 1 := by
    rw [← hv, fget_of_linkRegs (linkRegs_laneEvents ..) (by decide) hp, fget_fset_same]
    rfl
  by_cases hfew : laneCount left < fget s F.lnkCtlMinlanes p.val 0
  · rw [if_pos hfew] at hexec
    obtain ⟨hstate, hreason, -⟩ := fget_portFail v (code := 0x29) hp (by decide)
    refine ⟨_, hexec, ?_, fun h => absurd h (Nat.not_le.2 hfew), fun _ => ⟨hstate, hreason⟩⟩
    rw [fget_portFail_ne v hp _ (by decide) (by decide), hevent]
  · rw [if_neg hfew] at hexec
    have hregs {f : Fld} (hf : lnkField f = true) := fget_of_linkRegs (linkRegs_relaned v p.val left) hf hp
    refine ⟨_, hexec, ?_, fun _ => ⟨?_, ?_, ?_⟩, fun h => absurd h hfew⟩
    · rw [hregs (by decide)]
      simpa (disch := decide) only [fget_fset_sibling] using hevent
    · rw [portState, hregs (by decide), fget_fset_same]
      rfl
    · rw [hregs (by decide)]
      simp (disch := decide) only [fget_fset_sibling, fget_fset_same]
      exact Nat.mod_eq_of_lt (maskOut_lt ..)
    · rw [bad_relaned, ← hv, bad_laneEvents]

/-! ### The end of RELANE -/

/-- Flits that are sent again without failing the port leave the registers of the links and the timecode block. -/
theorem replayPort_frame {s : State} {p : Nat} (h : flitsOut (port s p) = 0 ∨ (port s p).replays < 7) :
    linkRegs (replayPort s p) = linkRegs s ∧ (replayPort s p).time = s.time := by
  unfold replayPort
  split
  · exact ⟨rfl, rfl⟩
  next hne =>
    rw [if_neg (by omega)]
    have hv := sendView_replayFlits s p
    exact ⟨(linkRegs_modPort ..).trans (linkRegs_of_sendView hv), (time_of_sendView hv : (replayFlits s p).time = s.time)⟩

/-- RELANE ends in UP with a new delay. -/
theorem exec_relaneComplete {s : State} {p : PortId} {ms : List Marker} (hk : clockRuns s (portClock p.val) = true)
    (hst : portState s p.val = 7) (hms : ms.length = 64) (hagain : (port s p.val).again = 0) :
    exec (.relaneComplete p true ms) s =
      let t := modPort (fset (putDelay s p.val (linkDelay ms)) F.lnkStatState p.val 0 6) p.val fun q =>
        { q with again := 0 }
      .next (drainPort (replayPort t p.val) p.val) := by
  have hagain' : (port (fset (putDelay s p.val (linkDelay ms)) F.lnkStatState p.val 0 6) p.val).again = 0 := hagain
  change execRelaneComplete p true ms s = _
  rw [execRelaneComplete, onClock_runs hk, if_neg (not_not.2 hst), if_neg (by decide), if_neg (not_not.2 hms)]
  simp only [hagain']
  rw [show (0 : BitVec 8).toNat = 0 from rfl, retireLanes_zero]
  exact congrArg _ (if_pos (fget_fset_same (putDelay s p.val (linkDelay ms)) F.lnkStatState p.val 0 6))

/-- The port is in UP, with the new delay. -/
theorem relaneComplete_outcome {s : State} {p : PortId} {ms : List Marker} (hk : clockRuns s (portClock p.val) = true)
    (hst : portState s p.val = 7) (hms : ms.length = 64) (hagain : (port s p.val).again = 0)
    (hreplay : flitsOut (port s p.val) = 0 ∨ (port s p.val).replays < 7) :
    ∃ u, exec (.relaneComplete p true ms) s = .next u ∧ portState u p.val = 6 ∧
      tget u.time.delay p.val 0 = linkDelay ms := by
  refine ⟨_, exec_relaneComplete hk hst hms hagain, ?_⟩
  generalize ht : modPort (fset (putDelay s p.val (linkDelay ms)) F.lnkStatState p.val 0 6) p.val
    (fun q => { q with again := 0 }) = t
  have hreplay' : flitsOut (port t p.val) = 0 ∨ (port t p.val).replays < 7 := by
    rw [← ht, port_modPort_same]
    exact hreplay
  obtain ⟨hregs, htime⟩ := replayPort_frame hreplay'
  have hsent := sendView_drainPort (replayPort t p.val) p.val
  rw [portState, fget_of_sendView hsent (by decide) p.isLt, fget_of_linkRegs hregs (by decide) p.isLt,
    time_of_sendView hsent, htime, ← ht]
  exact ⟨fget_fset_same (putDelay s p.val (linkDelay ms)) F.lnkStatState p.val 0 6, tget_tset_same ..⟩

theorem exec_relaneComplete_failed {s : State} {p : PortId} (hk : clockRuns s (portClock p.val) = true)
    (hst : portState s p.val = 7) (ms : List Marker) :
    exec (.relaneComplete p false ms) s = .next (portFail s p.val 0x29) := by
  change execRelaneComplete p false ms s = _
  rw [execRelaneComplete, onClock_runs hk, if_neg (not_not.2 hst)]
  rfl

/-! ### Loss of signal -/

/-- The copies that a lost link cuts off are given up; no register changes. -/
theorem abortCopies_regs (s : State) : (abortCopies s).regs = s.regs := by
  refine (intPauseAll_regs _).trans (foldl_keeps State.regs (fun s e => ?_) _ _)
  have hdrop (loc : PageLoc) (f : Nat) : (dropFrame s loc f).regs = s.regs := by
    unfold dropFrame
    split <;> rfl
  split
  · split
    · exact (setPage_regs ..).trans (hdrop ..)
    · rfl
  · rfl

/-- A port that has lost its signal, with the event counted. -/
def signalLost (s : State) (p : Nat) : State := portEvent (fcount s F.lnkStatLoscnt p 0 1) p F.lnkStatDownevt

theorem fget_signalLost (s : State) {p : Nat} (hp : p < 48) :
    fget (signalLost s p) F.lnkStatLoscnt p 0 = min (2 ^ 16 - 1) (fget s F.lnkStatLoscnt p 0 + 1) ∧
      fget (signalLost s p) F.lnkStatDownevt p 0 = 1 ∧
      ∀ g, lnkField g = true → F.lnkStatLoscnt.off * 64 + F.lnkStatLoscnt.lo ≠ g.off * 64 + g.lo →
        F.lnkStatDownevt.off * 64 + F.lnkStatDownevt.lo ≠ g.off * 64 + g.lo →
        fget (signalLost s p) g p 0 = fget s g p 0 := by
  have h {g : Fld} (hg : lnkField g = true) := fget_of_linkRegs (linkRegs_portEvent _ p F.lnkStatDownevt) hg hp
    (s := fset (fcount s F.lnkStatLoscnt p 0 1) F.lnkStatDownevt p 0 1)
  refine ⟨?_, ?_, fun g hg hl hd => ?_⟩
  · rw [signalLost, h (by decide), fget_fset_sibling (by decide) (by decide), fget_fcount_same]
    rfl
  · rw [signalLost, h (by decide), fget_fset_same]
    rfl
  · have hs : 0x1000 = g.s1 := (of_decide_eq_true hg).1.symm
    rw [signalLost, h hg, fget_fset_sibling hs hd, fcount, fget_fset_sibling hs hl]

theorem portDown_eq (s : State) (p : Nat) (hp : p < 48) : portDown s p =
    if fbit s F.lnkCtlAuto p 0 then toDetect (signalLost s p) p else toOff (signalLost s p) p := by
  obtain ⟨-, -, hkeep⟩ := fget_signalLost s hp
  have hauto : fbit (signalLost s p) F.lnkCtlAuto p 0 = fbit s F.lnkCtlAuto p 0 := by
    rw [fbit, hkeep _ (by decide) (by decide) (by decide), fbit]
  rw [← hauto]
  rfl

theorem exec_lossOfSignal {s : State} {p : PortId} (hk : clockRuns s (portClock p.val) = true)
    (hlo : 2 ≤ portState s p.val) (hhi : portState s p.val ≤ 7) :
    exec (.lossOfSignal p) s = .next (abortCopies (portDown s p.val)) := by
  change execLossOfSignal p s = _
  rw [execLossOfSignal, onClock_runs hk, if_pos ⟨hlo, hhi⟩]

/-- A port that loses its signal goes back to DETECT, or to OFF, with the episode counted and no reason. -/
theorem lossOfSignal_outcome {s : State} {p : PortId} (hk : clockRuns s (portClock p.val) = true)
    (hlo : 2 ≤ portState s p.val) (hhi : portState s p.val ≤ 7) :
    ∃ u, exec (.lossOfSignal p) s = .next u ∧
      fget u F.lnkStatLoscnt p.val 0 = min (2 ^ 16 - 1) (fget s F.lnkStatLoscnt p.val 0 + 1) ∧
      fget u F.lnkStatDownevt p.val 0 = 1 ∧ fget u F.lnkStatReason p.val 0 = fget s F.lnkStatReason p.val 0 ∧
      (fbit s F.lnkCtlAuto p.val 0 = true → portState u p.val = 1) ∧
      (fbit s F.lnkCtlAuto p.val 0 = false → portState u p.val = 0 ∧ fget u F.lnkCtlEn p.val 0 = 0) := by
  have hp : p.val < 48 := p.isLt
  refine ⟨_, exec_lossOfSignal hk hlo hhi, ?_⟩
  obtain ⟨hcount, hdown, hkeep⟩ := fget_signalLost s hp
  have hreason := hkeep F.lnkStatReason (by decide) (by decide) (by decide)
  simp only [portState, fget_congr (abortCopies_regs _), portDown_eq s p.val hp]
  cases hauto : fbit s F.lnkCtlAuto p.val 0
  · have hoff {g : Fld} (hg : lnkField g = true) := fget_toOff_ne (signalLost s p.val) hp hg
    obtain ⟨hstate, hen, -⟩ := fget_toOff (signalLost s p.val) hp
    simp only [Bool.false_eq_true, if_false, false_implies, true_implies, true_and]
    rw [hoff (by decide) (by decide), hoff (by decide) (by decide), hoff (by decide) (by decide)]
    exact ⟨hcount, hdown, hreason, hstate, hen⟩
  · have hdet {g : Fld} (hg : lnkField g = true) := fget_toDetect_ne (signalLost s p.val) hp hg
    simp only [if_true, true_implies, Bool.true_eq_false, false_implies, and_true]
    rw [hdet (by decide) (by decide), hdet (by decide) (by decide), hdet (by decide) (by decide)]
    exact ⟨hcount, hdown, hreason, fget_toDetect _ hp⟩

end Sys2Proof.Machine

/-- Settles O35: each command is what its lemma says where its clock runs and the port is in the state (`exec_detectBurst`
to `exec_lossOfSignal`), and what a message, a record or a packet leaves is what it ends with in the registers
(`linkRegs`). -/
theorem portsComeUpAndVanish : Obligations.PortsComeUpAndVanish := by
  refine ⟨fun s p hk => ?_, fun s p hk => ?_⟩
  · have hp : p.val < 48 := p.isLt
    obtain ⟨hident, hkeyx, htimecal⟩ := exec_linkStateTimeout (s := s) hk
    refine ⟨fun lanes hst hw ht hn => ⟨_, exec_detectBurst hk hst hw ht hn, ?_⟩, fun hst => ⟨fun lanes hn => ?_,
      fun c hc => ?_⟩, fun hst => ⟨fun i hi => ?_, fun i code hi => ?_, portFails_of_eq hp (by decide)
        (exec_ident_none hk hst), portFails_of_eq hp (by decide) (hident hst)⟩,
      fun hst => ⟨fun partner => ⟨⟨_, exec_keyx_done hk hst partner, fget_fset_same .., ?_⟩,
        portFails_of_eq hp (by decide) (exec_keyx_none hk hst)⟩, portFails_of_eq hp (by decide) (hkeyx hst)⟩,
      fun hst => ⟨fun ms hms => ⟨_, exec_timecal hk hst hms, ?_⟩, _, htimecal hst, fget_toDetect s hp⟩⟩
    · rw [fget_of_linkRegs (linkRegs_leftDetect ..) (by decide) hp, fget_fset_same]
      rfl
    · obtain ⟨u, hu, hregs⟩ := exec_linkTraining hk hst hn
      refine ⟨u, hu, ?_⟩
      rw [fget_of_linkRegs hregs (by decide) hp, fget_of_linkRegs hregs (by decide) hp]
      simp (disch := decide) only [fget_fset_sibling, fget_fset_same]
      exact ⟨rfl, Nat.mod_eq_of_lt (maskOut_lt ..)⟩
    · obtain ⟨t, hback, hfail⟩ := trainingFailed_cases s p.val
      rw [exec_trainingFails hk hst hc]
      refine ⟨fun h => ⟨_, congrArg _ (hback h), fget_toDetect t hp⟩, fun h => ?_⟩
      obtain ⟨u, hu⟩ := hfail h
      exact portFails_of_eq hp (by decide) (congrArg _ hu)
    · obtain ⟨t, u, hu, hregs⟩ := exec_ident_taken hk hst hi
      refine ⟨u, hu, ?_⟩
      have h {f : Fld} (hf : lnkField f = true) := fget_of_linkRegs hregs hf hp
      rw [h (by decide), h (by decide), h (by decide), h (by decide)]
      simp (disch := decide) only [fget_fset_sibling, fget_fset_same]
      exact ⟨rfl, Nat.mod_eq_of_lt i.dev.isLt, Nat.mod_eq_of_lt i.port.isLt, rfl⟩
    · obtain ⟨t, ht⟩ := exec_ident_refused hk hst hi
      exact portFails_of_eq hp (identCode_lt hi) ht
    · simp [firstKeys, agreed_endKeyx]
    · have h {f : Fld} (hf : lnkField f = true) := fget_of_linkRegs
        (linkRegs_portEvent (fset (putDelay s p.val (linkDelay ms)) F.lnkStatState p.val 0 6) p.val F.lnkStatUpevt) hf hp
      rw [h (by decide), h (by decide), portEvent, glbIrq_time]
      simp (disch := decide) only [fget_fset_sibling, fget_fset_same]
      exact ⟨rfl, rfl, tget_tset_same ..⟩
  · refine ⟨fun lane hst hon hnew => laneFault_outcome hk hst hon hnew, fun ms hst hms => ⟨fun hagain hreplay =>
      relaneComplete_outcome hk hst hms hagain hreplay, _, exec_relaneComplete_failed hk hst ms, ?_⟩,
      fun hlo hhi => lossOfSignal_outcome hk hlo hhi⟩
    obtain ⟨hstate, hreason, -⟩ := fget_portFail s (code := 0x29) p.isLt (by decide)
    exact ⟨hstate, hreason⟩

end

section
/-! PROOFS. Scope: flits that a port receives (R335 to R338, R342), and a new exchange of keys on a live link; obligation
O36. -/

open Sys2Proof.Machine

namespace Sys2Proof.Machine

/-! ### The counters of a link -/

/-- Whether a field belongs to `LNK_FEC` or to the `NAK`s of `LNK_RETRY`. -/
def counterField (f : Fld) : Bool := lnkField f && decide (0x300018 * 64 ≤ f.off * 64 + f.lo)

theorem lnkField_of_counter {f : Fld} (h : counterField f = true) : lnkField f = true :=
  (Bool.and_eq_true_iff.1 h).1

/-- A field of `LNK_CTL`, `LNK_STAT` or `LNK_PARTNER` is none of the counters. -/
theorem counter_ne {f g : Fld} (hf : f.off * 64 + f.lo < 0x300018 * 64) (hg : counterField g = true) :
    f.off * 64 + f.lo ≠ g.off * 64 + g.lo := by
  have h := of_decide_eq_true (Bool.and_eq_true_iff.1 hg).2
  omega

/-- A write of such a field leaves the counters. -/
theorem counter_fset {f g : Fld} (hs : f.s1 = 0x1000) (hf : f.off * 64 + f.lo < 0x300018 * 64)
    (hg : counterField g = true) (s : State) (p v : Nat) : fget (fset s f p 0 v) g p 0 = fget s g p 0 :=
  fget_fset_sibling (hs.trans (of_decide_eq_true (lnkField_of_counter hg)).1.symm) (counter_ne hf hg) ..

theorem counter_portFail {p : Nat} (hp : p < 48) {g : Fld} (hg : counterField g = true) (s : State) (code : Nat) :
    fget (portFail s p code) g p 0 = fget s g p 0 :=
  fget_portFail_ne s hp code (lnkField_of_counter hg) <| by
    simp only [List.forall_mem_cons, List.not_mem_nil, false_implies, implies_true, and_true]
    exact ⟨counter_ne (by decide) hg, counter_ne (by decide) hg, counter_ne (by decide) hg, counter_ne (by decide) hg,
      counter_ne (by decide) hg⟩

/-- What the retirement of lanes comes to. -/
theorem retireLanes_cases (s : State) (p m : Nat) :
    let left := maskOut (fget s F.lnkStatLanes p 0) m
    retireLanes s p m = s ∨ retireLanes s p m = laneEvents s p m ∨
      retireLanes s p m = portFail (laneEvents s p m) p 0x29 ∨
      retireLanes s p m = fset (laneEvents s p m) F.lnkStatLanes p 0 left ∨
      retireLanes s p m = relaned (laneEvents s p m) p left := by
  intro left
  unfold retireLanes
  extract_lets st hit active left' s₁ s₂ s₃ s₄
  split
  · exact .inl rfl
  · split
    · exact .inr (.inl rfl)
    · split
      · exact .inr (.inr (.inl rfl))
      · split
        · exact .inr (.inr (.inr (.inr rfl)))
        · exact .inr (.inr (.inr (.inl rfl)))

theorem counter_retireLanes {p : Nat} (hp : p < 48) {g : Fld} (hg : counterField g = true) (s : State) (m : Nat) :
    fget (retireLanes s p m) g p 0 = fget s g p 0 := by
  have hev : fget (laneEvents s p m) g p 0 = fget s g p 0 := by
    rw [fget_of_linkRegs (linkRegs_laneEvents ..) (lnkField_of_counter hg) hp, counter_fset rfl (by decide) hg]
  obtain h | h | h | h | h := retireLanes_cases s p m <;> rw [h]
  · exact hev
  · rw [counter_portFail hp hg, hev]
  · rw [counter_fset rfl (by decide) hg, hev]
  · rw [fget_of_linkRegs (linkRegs_relaned ..) (lnkField_of_counter hg) hp, counter_fset rfl (by decide) hg,
      counter_fset rfl (by decide) hg, hev]

theorem counter_noteFixed {p : Nat} (hp : p < 48) {g : Fld} (hg : counterField g = true) (s : State)
    (fixed : List Nat) : fget (noteFixed s p fixed) g p 0 = fget s g p 0 := by
  simp only [noteFixed]
  split
  · rfl
  · exact (counter_retireLanes hp hg ..).trans (fget_modPort ..)

/-! ### Replays -/

/-- The replay buffer sent again, as the replay number `n` of its first flit. -/
def replayed (s : State) (p : Nat) : State :=
  modPort (replayFlits s p) p fun q => { q with replays := (port s p).replays + 1 }

theorem linkRegs_replayed (s : State) (p : Nat) : linkRegs (replayed s p) = linkRegs s :=
  (linkRegs_modPort ..).trans (linkRegs_of_sendView (sendView_replayFlits ..))

/-- The flits not acknowledged are sent again, and the eighth time fails the port. -/
theorem replayPort_eq (s : State) (p : Nat) : replayPort s p =
    if flitsOut (port s p) = 0 then s
    else if 7 ≤ (port s p).replays then portFail (replayed s p) p 0x28 else replayed s p := by
  unfold replayPort
  refine if_congr Iff.rfl rfl (if_congr ?_ rfl rfl)
  omega

theorem counter_replayPort {p : Nat} (hp : p < 48) {g : Fld} (hg : counterField g = true) (s : State) :
    fget (replayPort s p) g p 0 = fget s g p 0 := by
  have hre : fget (replayed s p) g p 0 = fget s g p 0 :=
    fget_of_linkRegs (linkRegs_replayed s p) (lnkField_of_counter hg) hp
  rw [replayPort_eq]
  split
  · rfl
  · split
    · rw [counter_portFail hp hg, hre]
    · exact hre

theorem counter_drainPort {p : Nat} (hp : p < 48) {g : Fld} (hg : counterField g = true) (s : State) :
    fget (drainPort s p) g p 0 = fget s g p 0 :=
  fget_of_sendView (sendView_drainPort s p) (lnkField_of_counter hg) hp

/-- A port with nothing that waits stays as it is. -/
theorem port_drainPort_idle {s : State} {p : Nat} (hm : (port s p).msgs = []) (hq : (port s p).queue = []) :
    port (drainPort s p) p = port s p := by
  have hctrl : port (drainCtrl s p) p = port s p := by
    rw [drainCtrl, hm, List.foldl_nil, port_modPort_same, ← hm]
  simp only [drainPort]
  split
  · rw [drainPackets, hctrl, hq, List.foldl_nil, port_modPort_same, hctrl, ← hq]
  · exact hctrl

/-! ### The packet stream -/

/-- Packets taken out of the stream leave the fields of the links. -/
theorem linkRegs_rxPackets {k : Nat} {s t : State} {p : Nat} (h : rxPackets k s p = some t) :
    linkRegs t = linkRegs s := by
  induction k generalizing s with
  | zero => rw [← Option.some.inj h]
  | succ k ih =>
    unfold rxPackets at h
    lift_lets at h
    extract_lets q bs hd n ks s' at h
    split at h
    · exact (ih h).trans (linkRegs_modPort ..)
    · split at h
      · rw [← Option.some.inj h]
      · split at h
        · cases h
        · exact (ih h).trans <|
            (linkRegs_fcount (f := F.lnkRxbytesCount) (by simp only [Fld.key, F.lnkRxbytesCount]; omega) ..).trans
              (linkRegs_modPort ..)

/-- An empty stream holds no packet. -/
theorem rxPackets_nil {s : State} {p : Nat} (h : (port s p).stream = []) (k : Nat) :
    rxPackets (k + 1) s p = some s := by
  simp [rxPackets, h]

/-! ### A flit taken -/

/-- A state whose port has taken over what a flit in order brings. -/
def flitTaken (s : State) (p : Nat) (f : Flit) : State := ctrlFreed (modPort s p (flitIn f)) p f

theorem ctrlFreed_cases (s : State) (p : Nat) (f : Flit) :
    ctrlFreed s p f = s ∨ f.ctrl = true ∧ ctrlFreed s p f = owe s p (ctrlPool s p) 1 := by
  unfold ctrlFreed
  split
  next h => exact .inr ⟨(Bool.and_eq_true_iff.1 h).1, rfl⟩
  next => exact .inl rfl

theorem flitTaken_regs (s : State) (p : Nat) (f : Flit) : (flitTaken s p f).regs = s.regs := by
  obtain h | ⟨-, h⟩ := ctrlFreed_cases (modPort s p (flitIn f)) p f <;> rw [flitTaken, h] <;> rfl

/-- Of a control message the port owes a credit. -/
theorem port_flitTaken (s : State) (p : Nat) (f : Flit) :
    ∃ n, port (flitTaken s p f) p = { flitIn f (port s p) with owed := n } := by
  obtain h | ⟨-, h⟩ := ctrlFreed_cases (modPort s p (flitIn f)) p f <;> rw [flitTaken, h]
  · exact ⟨_, port_modPort_same ..⟩
  · rw [owe, port_modPort_same, port_modPort_same]
    exact ⟨_, rfl⟩

theorem port_flitTaken_data (s : State) (p : Nat) {f : Flit} (hf : f.ctrl = false) :
    port (flitTaken s p f) p = flitIn f (port s p) := by
  obtain h | ⟨hc, -⟩ := ctrlFreed_cases (modPort s p (flitIn f)) p f
  · rw [flitTaken, h, port_modPort_same]
  · rw [hf] at hc
    cases hc

/-- Where a check fails, the port fails. -/
theorem takeFlit_none {s : State} {p : Nat} {f : Flit}
    (h : rxPackets ((flitIn f (port s p)).stream.length / 8 + 1) (flitTaken s p f) p = none) :
    takeFlit s p f = portFail (flitTaken s p f) p 0x27 := by
  obtain ⟨n, hn⟩ := port_flitTaken s p f
  have hs : (port (flitTaken s p f) p).stream = (flitIn f (port s p)).stream := by rw [hn]
  rw [← hs] at h
  unfold takeFlit
  extract_lets v
  change rxPackets ((port v p).stream.length / 8 + 1) v p = none at h
  rw [h]
  rfl

/-- Otherwise a `NAK` has the flits sent again, and what waits goes on. -/
theorem takeFlit_some {s x : State} {p : Nat} {f : Flit}
    (h : rxPackets ((flitIn f (port s p)).stream.length / 8 + 1) (flitTaken s p f) p = some x) :
    takeFlit s p f = drainPort (if f.nak then replayPort (fcount x F.lnkRetryNaks p 0 1) p else x) p := by
  obtain ⟨n, hn⟩ := port_flitTaken s p f
  have hs : (port (flitTaken s p f) p).stream = (flitIn f (port s p)).stream := by rw [hn]
  rw [← hs] at h
  unfold takeFlit
  extract_lets v
  change rxPackets ((port v p).stream.length / 8 + 1) v p = some x at h
  rw [h]

/-- A flit taken leaves the corrections counted. -/
theorem fec_takeFlit {p : Nat} (hp : p < 48) {g : Fld} (hg : g = F.lnkFecCorr ∨ g = F.lnkFecUncorr) (s : State)
    (f : Flit) : fget (takeFlit s p f) g p 0 = fget s g p 0 := by
  have hc : counterField g = true := by
    obtain rfl | rfl := hg <;> decide
  have htaken : fget (flitTaken s p f) g p 0 = fget s g p 0 := fget_congr (flitTaken_regs ..) ..
  cases hx : rxPackets ((flitIn f (port s p)).stream.length / 8 + 1) (flitTaken s p f) p with
  | none => rw [takeFlit_none hx, counter_portFail hp hc, htaken]
  | some x =>
    have hxg : fget x g p 0 = fget s g p 0 :=
      (fget_of_linkRegs (linkRegs_rxPackets hx) (lnkField_of_counter hc) hp).trans htaken
    rw [takeFlit_some hx, counter_drainPort hp hc]
    split
    · rw [counter_replayPort hp hc, fcount, fget_fset_sibling, hxg]
      · obtain rfl | rfl := hg <;> rfl
      · obtain rfl | rfl := hg <;> decide
    · exact hxg

/-! ### A flit received -/

/-- A state that has counted `n` corrections of a flit and `m` codewords that could not be corrected. -/
def flitCounted (s : State) (p n m : Nat) : State :=
  let base := fcount (fcount s F.lnkFecCorr p 0 n) F.lnkFecUncorr p 0 m
  { base with dailies := { base.dailies with fec := tset base.dailies.fec p (tget base.dailies.fec p 0 + n) } }

theorem fec_flitCounted (s : State) (p n m : Nat) :
    fget (flitCounted s p n m) F.lnkFecCorr p 0 = min (2 ^ 32 - 1) (fget s F.lnkFecCorr p 0 + n) ∧
      fget (flitCounted s p n m) F.lnkFecUncorr p 0 = min (2 ^ 32 - 1) (fget s F.lnkFecUncorr p 0 + m) := by
  have hcorr : fget (flitCounted s p n m) F.lnkFecCorr p 0 = fget (fcount s F.lnkFecCorr p 0 n) F.lnkFecCorr p 0 :=
    fget_fset_sibling (by decide) (by decide) ..
  have huncorr : fget (fcount s F.lnkFecCorr p 0 n) F.lnkFecUncorr p 0 = fget s F.lnkFecUncorr p 0 :=
    fget_fset_sibling (by decide) (by decide) ..
  refine ⟨hcorr.trans (fget_fcount_same ..), ?_⟩
  rw [← huncorr]
  exact fget_fcount_same ..

/-- The corrections counted, the other fields of the link stand. -/
theorem fget_flitCounted_ne {g : Fld} (hs : 0x1000 = g.s1)
    (hc : F.lnkFecCorr.off * 64 + F.lnkFecCorr.lo ≠ g.off * 64 + g.lo)
    (hu : F.lnkFecUncorr.off * 64 + F.lnkFecUncorr.lo ≠ g.off * 64 + g.lo) (s : State) (p n m : Nat) :
    fget (flitCounted s p n m) g p 0 = fget s g p 0 :=
  (fget_fset_sibling hs hu ..).trans (fget_fset_sibling hs hc ..)

section
variable {s : State} {p : PortId} {head : BitVec 64} {payload check : Bytes} {f : Flit}
  (hk : clockRuns s (portClock p.val) = true) (hst : portState s p.val = 6 ∨ portState s p.val = 7)
  (hf : flitDecode (leBytes 8 head.toNat ++ payload ++ check) = f)
include hk hst hf

/-- A flit received is counted, noted by lane, and then discarded or taken. -/
theorem exec_flitReceive : exec (.flitReceive p head payload check) s =
    let v := noteFixed (flitCounted s p.val f.fixed.length f.uncorr) p.val f.fixed
    .next (if portState v p.val ≠ 6 ∧ portState v p.val ≠ 7 then v
      else if !f.crcOk ∨ f.seq ≠ (port v p.val).expect then modPort v p.val fun q => { q with nakOwed := true }
      else takeFlit v p.val f) := by
  change execFlitReceive p head payload check s = _
  rw [execFlitReceive, onClock_runs hk, if_neg (by omega)]
  simp only [hf]
  refine Eq.trans ?_ (apply_ite Host.Outcome.next _ _ _).symm
  exact if_congr Iff.rfl rfl (apply_ite Host.Outcome.next _ _ _).symm

/-- Corrections are counted, whatever becomes of the flit. -/
theorem flitReceive_counts : ∃ u, exec (.flitReceive p head payload check) s = .next u ∧
    fget u F.lnkFecCorr p.val 0 = min (2 ^ 32 - 1) (fget s F.lnkFecCorr p.val 0 + f.fixed.length) ∧
    fget u F.lnkFecUncorr p.val 0 = min (2 ^ 32 - 1) (fget s F.lnkFecUncorr p.val 0 + f.uncorr) := by
  obtain ⟨hcorr, huncorr⟩ := fec_flitCounted s p.val f.fixed.length f.uncorr
  rw [← hcorr, ← huncorr]
  refine ⟨_, exec_flitReceive hk hst hf, ?_⟩
  generalize flitCounted s p.val f.fixed.length f.uncorr = b
  have hnote {g : Fld} (hg : counterField g = true) := counter_noteFixed p.isLt hg b f.fixed
  split
  · exact ⟨hnote (by decide), hnote (by decide)⟩
  · split
    · exact ⟨hnote (by decide), hnote (by decide)⟩
    · rw [fec_takeFlit p.isLt (.inl rfl), fec_takeFlit p.isLt (.inr rfl)]
      exact ⟨hnote (by decide), hnote (by decide)⟩

/-- A flit without corrections, discarded or taken. -/
theorem exec_flitReceive_clean (hfix : f.fixed = []) : exec (.flitReceive p head payload check) s =
    .next (if !f.crcOk ∨ f.seq ≠ (port s p.val).expect
      then modPort (flitCounted s p.val 0 f.uncorr) p.val fun q => { q with nakOwed := true }
      else takeFlit (flitCounted s p.val 0 f.uncorr) p.val f) := by
  have hlen : f.fixed.length = 0 := by rw [hfix, List.length_nil]
  have hnote : noteFixed (flitCounted s p.val 0 f.uncorr) p.val f.fixed = flitCounted s p.val 0 f.uncorr := by
    rw [hfix]
    rfl
  have hstate : portState (flitCounted s p.val 0 f.uncorr) p.val = portState s p.val :=
    fget_flitCounted_ne (by decide) (by decide) (by decide) ..
  rw [exec_flitReceive hk hst hf, hlen]
  simp only [hnote, hstate]
  rw [if_neg (by omega)]
  rfl

/-- A flit with a bad CRC or out of order is discarded. -/
theorem flitReceive_discarded (hfix : f.fixed = []) (hbad : f.crcOk = false ∨ f.seq ≠ (port s p.val).expect) :
    ∃ u, exec (.flitReceive p head payload check) s = .next u ∧
      port u p.val = { port s p.val with nakOwed := true } ∧ portState u p.val = portState s p.val := by
  refine ⟨_, (exec_flitReceive_clean hk hst hf hfix).trans (congrArg _ (if_pos ?_)), port_modPort_same ..,
    fget_flitCounted_ne (by decide) (by decide) (by decide) ..⟩
  simpa using hbad

variable (hfix : f.fixed = []) (hcrc : f.crcOk = true) (hseq : f.seq = (port s p.val).expect)
include hfix hcrc hseq

/-- The next flit in order is taken. -/
theorem exec_flitReceive_taken : exec (.flitReceive p head payload check) s =
    .next (takeFlit (flitCounted s p.val 0 f.uncorr) p.val f) :=
  (exec_flitReceive_clean hk hst hf hfix).trans (congrArg _ (if_neg (by simp [hcrc, hseq])))

/-- Its packets taken out of the stream, the port goes on. -/
theorem flitReceive_packets {x : State} (hnak : f.nak = false)
    (hx : rxPackets ((flitIn f (port s p.val)).stream.length / 8 + 1)
      (flitTaken (flitCounted s p.val 0 f.uncorr) p.val f) p.val = some x) :
    exec (.flitReceive p head payload check) s = .next (drainPort x p.val) := by
  rw [exec_flitReceive_taken hk hst hf hfix hcrc hseq, takeFlit_some hx, hnak]
  rfl

/-- A packet that fails its check fails the port. -/
theorem flitReceive_forged (hx : rxPackets ((flitIn f (port s p.val)).stream.length / 8 + 1)
      (flitTaken (flitCounted s p.val 0 f.uncorr) p.val f) p.val = none) :
    ∃ u, exec (.flitReceive p head payload check) s = .next u ∧ portState u p.val = 8 ∧
      fget u F.lnkStatReason p.val 0 = 0x27 := by
  refine ⟨_, (exec_flitReceive_taken hk hst hf hfix hcrc hseq).trans (congrArg _ (takeFlit_none hx)), ?_⟩
  obtain ⟨hstate, hreason, -⟩ := fget_portFail (flitTaken (flitCounted s p.val 0 f.uncorr) p.val f) (code := 0x27) p.isLt
    (by decide)
  exact ⟨hstate, hreason⟩

variable (hstream : (flitIn f (port s p.val)).stream = [])
include hstream

/-- Without a packet and with nothing that waits, the port is as the flit leaves it. -/
theorem flitReceive_quiet (hnak : f.nak = false) (hq : (port s p.val).queue = []) (hm : (port s p.val).msgs = []) :
    ∃ u, exec (.flitReceive p head payload check) s = .next u ∧
      port u p.val = port (flitTaken (flitCounted s p.val 0 f.uncorr) p.val f) p.val := by
  obtain ⟨n, hn⟩ := port_flitTaken (flitCounted s p.val 0 f.uncorr) p.val f
  have hx : rxPackets ((flitIn f (port s p.val)).stream.length / 8 + 1)
      (flitTaken (flitCounted s p.val 0 f.uncorr) p.val f) p.val = some _ := rxPackets_nil (by rw [hn]; exact hstream) _
  refine ⟨_, flitReceive_packets hk hst hf hfix hcrc hseq hnak hx, port_drainPort_idle ?_ ?_⟩
  · rw [hn]
    exact hm
  · rw [hn]
    exact hq

/-- A `NAK` is counted, and the flits not acknowledged go again. -/
theorem flitReceive_nak (hnak : f.nak = true) :
    ∃ u, exec (.flitReceive p head payload check) s = .next u ∧
      fget u F.lnkRetryNaks p.val 0 = min (2 ^ 32 - 1) (fget s F.lnkRetryNaks p.val 0 + 1) ∧
      (flitsOut (flitIn f (port s p.val)) ≠ 0 → 7 ≤ (flitIn f (port s p.val)).replays →
        portState u p.val = 8 ∧ fget u F.lnkStatReason p.val 0 = 0x28) ∧
      (flitsOut (flitIn f (port s p.val)) ≠ 0 → (flitIn f (port s p.val)).replays < 7 →
        (port u p.val).replays = (flitIn f (port s p.val)).replays + 1) := by
  have hp : p.val < 48 := p.isLt
  obtain ⟨n, hn⟩ := port_flitTaken (flitCounted s p.val 0 f.uncorr) p.val f
  have hnaks : fget (flitTaken (flitCounted s p.val 0 f.uncorr) p.val f) F.lnkRetryNaks p.val 0 =
      fget s F.lnkRetryNaks p.val 0 :=
    (fget_congr (flitTaken_regs ..) ..).trans (fget_flitCounted_ne (by decide) (by decide) (by decide) ..)
  have hx : rxPackets ((flitIn f (port s p.val)).stream.length / 8 + 1)
      (flitTaken (flitCounted s p.val 0 f.uncorr) p.val f) p.val = some _ := rxPackets_nil (by rw [hn]; exact hstream) _
  have hexec := exec_flitReceive_taken hk hst hf hfix hcrc hseq
  rw [takeFlit_some hx, if_pos hnak] at hexec
  refine ⟨_, hexec, ?_⟩
  generalize flitTaken (flitCounted s p.val 0 f.uncorr) p.val f = v at hn hnaks
  have hport : port (fcount v F.lnkRetryNaks p.val 0 1) p.val = { flitIn f (port s p.val) with owed := n } := hn
  have hcount : fget (fcount v F.lnkRetryNaks p.val 0 1) F.lnkRetryNaks p.val 0 =
      min (2 ^ 32 - 1) (fget s F.lnkRetryNaks p.val 0 + 1) := by
    rw [fget_fcount_same, hnaks]
    rfl
  generalize fcount v F.lnkRetryNaks p.val 0 1 = t at hport hcount
  have hout : flitsOut (port t p.val) = flitsOut (flitIn f (port s p.val)) := by
    rw [hport]
    rfl
  have hrep : (port t p.val).replays = (flitIn f (port s p.val)).replays := by rw [hport]
  have hsent := sendView_drainPort (replayPort t p.val) p.val
  rw [← hout, ← hrep]
  refine ⟨?_, fun hne h7 => ?_, fun hne h7 => ?_⟩
  · rw [counter_drainPort hp (by decide), counter_replayPort hp (by decide), hcount]
  · obtain ⟨hstate, hreason, -⟩ := fget_portFail (replayed t p.val) (code := 0x28) hp (by decide)
    rw [portState, fget_of_sendView hsent (by decide) hp, fget_of_sendView hsent (by decide) hp, replayPort_eq,
      if_neg hne, if_pos h7]
    exact ⟨hstate, hreason⟩
  · rw [portPart_of_sendView Port.replays (fun _ => rfl) hsent, replayPort_eq, if_neg hne, if_neg (by omega), replayed,
      port_modPort_same]

end

/-! ### New keys -/

/-- Of a port, the keys and the count of what comes in, and the packets that wait: an exchange of keys leaves them. -/
def rxPart (q : Port) : Option LinkKeys × Nat × List (Packet × Option Nat) := (q.rxKeys, q.rxCount, q.queue)

theorem rxPart_of_ctrlView {s t : State} (h : ctrlView t = ctrlView s) (p : Nat) :
    rxPart (port t p) = rxPart (port s p) := portPart_of_ctrlView rxPart (fun _ => rfl) h p

theorem rxPart_beginKeyx (s : State) (p : Nat) : rxPart (port (beginKeyx s p) p) = rxPart (port s p) := by
  have hmade : rxPart (port (modPort (drawFree s).2 p fun q => { q with made := s.freeCtr }) p) = rxPart (port s p) := by
    rw [port_modPort_same]
    rfl
  simp only [beginKeyx]
  split
  · exact (rxPart_of_ctrlView (ctrlView_portBytes ..) p).trans hmade
  · exact hmade

/-- The messages of an exchange that ends. -/
theorem endKeyx_eq (s : State) (p : Nat) (partner : Bytes) :
    ∃ t script, ctrlView t = ctrlView s ∧ endKeyx s p partner =
      modPort t p fun q => { q with agreed := some (linkKeys s p partner), script := script } := by
  refine ⟨_, _, ?_, rfl⟩
  split
  · exact ctrlView_portBytes ..
  · exact (ctrlView_portBytes ..).trans (ctrlView_portBytes ..)

theorem rxPart_endKeyx (s : State) (p : Nat) (partner : Bytes) :
    rxPart (port (endKeyx s p partner) p) = rxPart (port s p) := by
  obtain ⟨t, script, hv, h⟩ := endKeyx_eq s p partner
  rw [h, port_modPort_same]
  exact rxPart_of_ctrlView hv p

theorem linkRegs_endKeyx (s : State) (p : Nat) (partner : Bytes) :
    linkRegs (endKeyx s p partner) = linkRegs s := by
  obtain ⟨t, script, hv, h⟩ := endKeyx_eq s p partner
  rw [h]
  exact (linkRegs_modPort ..).trans (linkRegs_of_ctrlView hv)

/-- Of a port, what the switch to agreed keys turns on. -/
def keyPart (q : Port) : Option LinkKeys × Option LinkKeys × Nat × List (Nat × List Nat) :=
  (q.agreed, q.keys, q.txCount, q.msgs)

theorem keyPart_sendFlit (s : State) (p : Nat) (ctrl : Bool) (payload : Bytes) :
    keyPart (port (sendFlit s p ctrl payload) p) = keyPart (port s p) := by
  simp only [sendFlit, putFlit, port_emit, port_modPort_same]
  rfl

theorem keyPart_flushPort (s : State) (p : Nat) : keyPart (port (flushPort s p) p) = keyPart (port s p) := by
  simp only [flushPort]
  split
  · rfl
  · rw [keyPart_sendFlit, port_modPort_same]
    rfl

/-- The message that announces the switch makes it; another leaves the keys. -/
theorem keyPart_sendCtrl (s : State) (p : Nat) (m : Nat × List Nat) :
    keyPart (port (sendCtrl s p m) p) = if m.1 = msgSwitch
      then ((port s p).agreed, (port s p).agreed, 0, (port s p).msgs) else keyPart (port s p) := by
  simp only [sendCtrl]
  by_cases hm : m.1 = msgSwitch
  · rw [if_pos hm, if_pos hm, if_pos hm, port_modPort_same]
    have h := (keyPart_sendFlit (modPort (flushPort s p) p fun q =>
      { q with credits := tset q.credits (ctrlPool s p) (tget q.credits (ctrlPool s p) 0 + 1) }) p true
      (ctrlPayload m.1 m.2)).trans ((congrArg keyPart (port_modPort_same ..)).trans (keyPart_flushPort s p))
    obtain ⟨ha, -, -, hmsgs⟩ : _ ∧ _ ∧ _ ∧ _ := by simpa only [keyPart, Prod.mk.injEq] using h
    simp only [keyPart, ha, hmsgs]
  · rw [if_neg hm, if_neg hm, if_neg hm, keyPart_sendFlit, port_modPort_same]
    rfl

/-- New keys are agreed, and a message that announces them waits at the port or in a list, or packets go out under them from
counter 0 on. -/
def Switching (ks : Option LinkKeys) (l : List (Nat × List Nat)) (q : Port) : Prop :=
  q.agreed = ks ∧ ((∃ m ∈ q.msgs ++ l, m.1 = msgSwitch) ∨ q.keys = ks ∧ q.txCount = 0)

theorem switching_congr {ks : Option LinkKeys} {l : List (Nat × List Nat)} {q q' : Port} (h : keyPart q' = keyPart q) :
    Switching ks l q' ↔ Switching ks l q := by
  obtain ⟨ha, hkeys, hn, hm⟩ : _ ∧ _ ∧ _ ∧ _ := by simpa only [keyPart, Prod.mk.injEq] using h
  rw [Switching, Switching, ha, hkeys, hn, hm]

/-- A control message that waited sent, or kept waiting. -/
def tryCtrl (p : Nat) (s : State) (m : Nat × List Nat) : State :=
  if ctrlTakes s p m.1 then sendCtrl s p m else modPort s p fun q => { q with msgs := q.msgs ++ [m] }

theorem switching_tryCtrl {ks : Option LinkKeys} {l : List (Nat × List Nat)} {s : State} {p : Nat} {m : Nat × List Nat}
    (h : Switching ks (m :: l) (port s p)) : Switching ks l (port (tryCtrl p s m) p) := by
  unfold tryCtrl
  split
  · have hkey := keyPart_sendCtrl s p m
    by_cases hm : m.1 = msgSwitch
    · rw [if_pos hm] at hkey
      obtain ⟨ha, hkeys, hn, -⟩ : _ ∧ _ ∧ _ ∧ _ := by simpa only [keyPart, Prod.mk.injEq] using hkey
      exact ⟨ha.trans h.1, .inr ⟨hkeys.trans h.1, hn⟩⟩
    · rw [if_neg hm] at hkey
      rw [switching_congr hkey]
      obtain ⟨ha, ⟨m', hmem, hm'⟩ | hdone⟩ := h
      · have hne : m' ≠ m := fun e => hm (e ▸ hm')
        refine ⟨ha, .inl ⟨m', ?_, hm'⟩⟩
        simpa [hne] using hmem
      · exact ⟨ha, .inr hdone⟩
  · rw [port_modPort_same]
    simpa [Switching] using h

theorem switching_drainCtrl {ks : Option LinkKeys} {s : State} {p : Nat} (h : Switching ks [] (port s p)) :
    Switching ks [] (port (drainCtrl s p) p) := by
  have hfold (l : List (Nat × List Nat)) (t : State) (ht : Switching ks l (port t p)) :
      Switching ks [] (port (l.foldl (tryCtrl p) t) p) := by
    induction l generalizing t with
    | nil => exact ht
    | cons m l ih => exact ih _ (switching_tryCtrl ht)
  refine hfold (port s p).msgs _ ?_
  rw [port_modPort_same]
  simpa [Switching] using h

/-- Where no packet waits, a port goes on with its control messages alone. -/
theorem keyPart_drainPort {s : State} {p : Nat} (hq : (port s p).queue = []) :
    keyPart (port (drainPort s p) p) = keyPart (port (drainCtrl s p) p) := by
  have hq' : (port (drainCtrl s p) p).queue = [] :=
    (portPart_of_ctrlView Port.queue (fun _ => rfl) (ctrlView_drainCtrl s p) p).trans hq
  simp only [drainPort]
  split
  · rw [drainPackets, hq', List.foldl_nil, port_modPort_same]
    rfl
  · rfl

/-- An exchange that ends on a port in UP announces its keys. -/
def switchSent (s : State) (p : Nat) (partner : Bytes) : State :=
  portMsg (endKeyx (beginKeyx s p) p partner) p msgSwitch []

theorem exec_rekey {s : State} {p : PortId} (hk : clockRuns s (portClock p.val) = true) (hst : portState s p.val = 6)
    (partner : Bytes) : exec (.rekey p (some partner)) s = .next (drainPort (switchSent s p.val partner) p.val) := by
  change execRekey p (some partner) s = _
  rw [execRekey, onClock_runs hk, if_neg (not_not.2 hst)]
  rfl

theorem exec_rekey_none {s : State} {p : PortId} (hk : clockRuns s (portClock p.val) = true)
    (hst : portState s p.val = 6) : exec (.rekey p none) s = .next (portFail s p.val 0x26) := by
  change execRekey p none s = _
  rw [execRekey, onClock_runs hk, if_neg (not_not.2 hst)]

theorem exec_rekey_waits {s : State} {p : PortId} (hk : clockRuns s (portClock p.val) = true)
    (hst : portState s p.val ≠ 6) (partner : Option Bytes) : exec (.rekey p partner) s = .next s := by
  change execRekey p partner s = _
  rw [execRekey, onClock_runs hk, if_pos hst]

theorem rxPart_switchSent (s : State) (p : Nat) (partner : Bytes) :
    rxPart (port (switchSent s p partner) p) = rxPart (port s p) :=
  (rxPart_of_ctrlView (ctrlView_portMsg ..) p).trans ((rxPart_endKeyx ..).trans (rxPart_beginKeyx ..))

theorem linkRegs_switchSent (s : State) (p : Nat) (partner : Bytes) :
    linkRegs (switchSent s p partner) = linkRegs s :=
  (linkRegs_of_ctrlView (ctrlView_portMsg ..)).trans ((linkRegs_endKeyx ..).trans (linkRegs_beginKeyx ..))

/-- A message on a port that carries traffic goes with those that wait. -/
theorem portMsg_live {s : State} {p : Nat} (h : fget s F.lnkStatState p 0 = 6 ∨ fget s F.lnkStatState p 0 = 7)
    (msg : Nat) (data : List Nat) : portMsg s p msg data =
      drainCtrl (modPort (emit s (.onPort (Fin.ofNat 48 p) msg data)) p fun q =>
        { q with msgs := q.msgs ++ (ctrlParts data.length data).map fun d => (msg, d) }) p := if_pos h

/-- The announcement waits, or it has left and the keys are switched. -/
theorem switching_switchSent {s : State} {p : Nat} (hp : p < 48) (hst : portState s p = 6) (partner : Bytes) :
    Switching (some (linkKeys (beginKeyx s p) p partner)) [] (port (switchSent s p partner) p) := by
  have hst' : fget (endKeyx (beginKeyx s p) p partner) F.lnkStatState p 0 = 6 := by
    rw [fget_of_linkRegs ((linkRegs_endKeyx ..).trans (linkRegs_beginKeyx ..)) (by decide) hp]
    exact hst
  have hagreed := agreed_endKeyx (beginKeyx s p) p partner
  rw [switchSent, portMsg_live (.inl hst')]
  generalize endKeyx (beginKeyx s p) p partner = t at hagreed
  generalize some (linkKeys (beginKeyx s p) p partner) = ks at hagreed
  refine switching_drainCtrl ?_
  rw [port_modPort_same]
  exact ⟨hagreed, .inl ⟨(msgSwitch, []), by simp [ctrlParts], rfl⟩⟩

/-- New keys on a live link. -/
theorem rekey_outcome {s : State} {p : PortId} (hk : clockRuns s (portClock p.val) = true)
    (hst : portState s p.val = 6) (hq : (port s p.val).queue = []) (partner : Bytes) :
    ∃ u, exec (.rekey p (some partner)) s = .next u ∧ (port u p.val).rxKeys = (port s p.val).rxKeys ∧
      (port u p.val).rxCount = (port s p.val).rxCount ∧ portState u p.val = 6 ∧
      (port u p.val).agreed = some (linkKeys (beginKeyx s p.val) p.val partner) ∧
      ((port u p.val).msgs = [] → (port u p.val).txCount = 0 ∧
        (port u p.val).keys = some (linkKeys (beginKeyx s p.val) p.val partner)) := by
  refine ⟨_, exec_rekey hk hst partner, ?_⟩
  obtain ⟨hkeys, hcount, hqueue⟩ : _ ∧ _ ∧ _ := by
    simpa only [rxPart, Prod.mk.injEq] using rxPart_switchSent s p.val partner
  have hsent := sendView_drainPort (switchSent s p.val partner) p.val
  have hsw : Switching (some (linkKeys (beginKeyx s p.val) p.val partner)) []
      (port (drainPort (switchSent s p.val partner) p.val) p.val) := by
    rw [switching_congr (keyPart_drainPort (hqueue.trans hq))]
    exact switching_drainCtrl (switching_switchSent p.isLt hst partner)
  refine ⟨?_, ?_, ?_, hsw.1, fun hmsgs => ?_⟩
  · rw [portPart_of_sendView Port.rxKeys (fun _ => rfl) hsent, hkeys]
  · rw [portPart_of_sendView Port.rxCount (fun _ => rfl) hsent, hcount]
  · rw [portState, fget_of_sendView hsent (by decide) p.isLt,
      fget_of_linkRegs (linkRegs_switchSent ..) (by decide) p.isLt]
    exact hst
  · obtain ⟨-, ⟨m, hm, -⟩ | ⟨hnew, hzero⟩⟩ := hsw
    · rw [hmsgs] at hm
      cases hm
    · exact ⟨hzero, hnew⟩

/-- Flits out that stay unacknowledged fail the port. -/
theorem retryTimeout_outcome {s : State} {p : PortId} (hk : clockRuns s (portClock p.val) = true)
    (hst : portState s p.val = 6 ∨ portState s p.val = 7) (hout : flitsOut (port s p.val) ≠ 0) :
    ∃ u, exec (.retryTimeout p) s = .next u ∧ portState u p.val = 8 ∧ fget u F.lnkStatReason p.val 0 = 0x28 := by
  obtain ⟨hstate, hreason, -⟩ := fget_portFail s (code := 0x28) p.isLt (by decide)
  refine ⟨_, ?_, hstate, hreason⟩
  change execRetryTimeout p s = _
  rw [execRetryTimeout, onClock_runs hk, if_pos ⟨hst, hout⟩]

end Sys2Proof.Machine

/-- Settles O36: a flit is counted, noted by lane and then discarded or taken (`exec_flitReceive`); one that is taken leaves
the port as `port_flitTaken` says, and what its packets, a `NAK` or a failure make of that are lemmas of their own. Of a new
exchange the announcement waits or the keys are switched, whatever control messages go out (`switching_drainCtrl`). -/
theorem flitsAreReceived : Obligations.FlitsAreReceived := by
  intro s p head payload check partner hk hst f q turn w base v
  have hf : flitDecode (Sys2Proof.leBytes 8 head.toNat ++ payload ++ check) = f := rfl
  have hv : v = flitTaken (flitCounted s p.val 0 f.uncorr) p.val f := rfl
  refine ⟨flitReceive_counts hk hst hf, flitReceive_discarded hk hst hf, ?_, ?_, fun hfix hcrc hseq =>
      ⟨fun x hx hnak => flitReceive_packets hk hst hf hfix hcrc hseq hnak hx,
        fun hnak hs hq hm => flitReceive_quiet hk hst hf hfix hcrc hseq hs hnak hq hm,
        flitReceive_forged hk hst hf hfix hcrc hseq, fun hnak hs => ?_⟩,
    retryTimeout_outcome hk hst, fun h6 hq => rekey_outcome hk h6 hq partner, fun h6 => ?_,
    fun h7 => exec_rekey_waits hk (by omega) _⟩
  · rw [hv]
    exact port_flitTaken_data (flitCounted s p.val 0 f.uncorr) p.val
  · rw [hv]
    exact port_flitTaken (flitCounted s p.val 0 f.uncorr) p.val f
  · obtain ⟨u, hu, hcount, hfail, hagain⟩ := flitReceive_nak hk hst hf hfix hcrc hseq hs hnak
    exact ⟨u, hu, hcount, hfail, fun hout h7 _ _ => hagain hout h7⟩
  · obtain ⟨hstate, hreason, -⟩ := fget_portFail s (code := 0x26) p.isLt (by decide)
    exact ⟨_, exec_rekey_none hk h6, hstate, hreason⟩

end

section
/-! PROOFS. Scope: request packets: arrival, service and answers (R349, R353, R356 to R358), and obligation O38. -/

open Sys2Proof.Machine

namespace Sys2Proof.Machine

/-! ### Service -/

/-- The acknowledgement of a request: taken, or refused. -/
def acknowledge (s : State) (pk : Packet) (o : Option State) : State :=
  o.elim (answer s pk 4 1 [] []) fun u => answer u pk 4 0 [] []

/-- The answer to a READ_REQ: its data, or a refusal. -/
def answerRead (s : State) (pk : Packet) (o : Option (Bytes × List Nat)) : State :=
  o.elim (answer s pk 3 1 [] []) fun r => answer s pk 3 0 r.1 r.2

/-- The status of a TOKEN's acknowledgement. -/
def tokenStatus (e : TokEnd) : Nat :=
  match e with
  | .taken => 0
  | .notYet => 2
  | .refused => 1

theorem serveNow_write {s : State} {pk : Packet} (ht : pk.type = 1) (ha : aliasSpace0 s pk = false) :
    serveNow s pk = acknowledge s pk (takeWrite s pk) := by
  simp only [serveNow, ht, ha, Bool.false_eq_true, if_false]
  cases takeWrite s pk <;> rfl

theorem serveNow_atomic {s : State} {pk : Packet} (ht : pk.type = 6) (ha : aliasSpace0 s pk = false) :
    serveNow s pk = acknowledge s pk (takeAtomic s pk) := by
  simp only [serveNow, ht, ha, Bool.false_eq_true, if_false]
  cases takeAtomic s pk <;> rfl

theorem serveNow_read {s : State} {pk : Packet} (ht : pk.type = 2) (ha : aliasSpace0 s pk = false) (h0 : 0 < pk.ext)
    (hn : pk.ext ≤ 4096) : serveNow s pk = answerRead s pk (globalRead s (pktAsker pk) pk.addr pk.ext) := by
  have hok : ¬(aliasSpace0 s pk ∨ pk.ext = 0 ∨ 4096 < pk.ext) := by
    rw [ha]
    simp only [Bool.false_eq_true, false_or]
    omega
  simp only [serveNow, ht, if_neg hok]
  cases globalRead s (pktAsker pk) pk.addr pk.ext <;> rfl

theorem serveNow_token {s u : State} {pk : Packet} {e : TokEnd} (ht : pk.type = 5) (he : takeToken s pk = (u, e)) :
    serveNow s pk = answer u pk 4 (tokenStatus e) [] [] := by
  simp only [serveNow, ht, he]
  cases e <;> rfl

/-- A packet that waits for a fenced core or a pending line stays in the port's buffer. -/
theorem serve_stalled {s : State} {pk : Packet} (h : pktStalled s pk = true) (p : Nat) :
    serve s p pk = { s with fab := { s.fab with stalled := s.fab.stalled ++ [(p, pk)] } } := if_pos h

/-- Any other leaves it, and is served. -/
theorem serve_free {s : State} {pk : Packet} (h : pktStalled s pk = false) (p : Nat) :
    serve s p pk = serveNow (freed s p pk) pk := if_neg (by simp [h])

/-! ### Arrival -/

/-- Each row of a request packet is its arrival. -/
theorem exec_requestPacket {s : State} {p : PortId} {pk : Packet} {c : Instr} {ty : Nat}
    (hk : clockRuns s (portClock p.val) = true)
    (hc : (c, ty) ∈ [(Instr.writePkt p pk, 1), (.readReq p pk, 2), (.tokenPacket p pk, 5), (.atomic p pk, 6)]) :
    exec c s = onRequest ty p pk s := by
  simp only [List.mem_cons, Prod.mk.injEq, List.not_mem_nil, or_false] at hc
  obtain ⟨rfl, rfl⟩ | ⟨rfl, rfl⟩ | ⟨rfl, rfl⟩ | ⟨rfl, rfl⟩ := hc
  · exact onClock_runs hk fun s => onRequest 1 p pk s
  · exact onClock_runs hk fun s => onRequest 2 p pk s
  · exact onClock_runs hk fun s => onRequest 5 p pk s
  · exact onClock_runs hk fun s => onRequest 6 p pk s

/-- A packet of its type and of a length that fits is served where it is for this device. -/
theorem onRequest_eq {s t : State} {p : PortId} {pk : Packet} {ty : Nat} {mine : Bool} (ht : pk.type = ty)
    (hn : pk.data.length ≤ 4096) (hi : inbound s p.val pk = (t, mine)) :
    onRequest ty p pk s = .next (if mine then serve t p.val pk else t) := by
  rw [onRequest, if_neg (not_not.2 ht), if_neg (Nat.not_lt.2 hn), hi]
  cases mine <;> rfl

/-- A packet that is too old is dropped and counted. -/
theorem inbound_old {s : State} {p : Nat} {pk : Packet} (hst : portState s p = 6) (hp : pairUp s p = false)
    (ho : tooOld s pk = true) : inbound s p pk = (dropPkt s p pk F.fabDropLife, false) := by
  rw [inbound, if_neg (not_not.2 hst), hp, ho]
  rfl

/-- A packet for another device goes on, or is dropped. -/
theorem inbound_transit {s : State} {p : Nat} {pk : Packet} (hst : portState s p = 6) (hp : pairUp s p = false)
    (ho : tooOld s pk = false) (hd : aliasOf s pk.dst ≠ ownDev s) : inbound s p pk = (transit s p pk, false) := by
  rw [inbound, if_neg (not_not.2 hst), hp, ho]
  exact if_pos hd

theorem transit_spent {s : State} {p : Nat} {pk : Packet} (h : pk.hops ≤ 1) :
    transit s p pk = dropPkt s p pk F.fabDropNoroute := if_pos h

theorem transit_of_hops {s : State} {p : Nat} {pk : Packet} (h : 1 < pk.hops) : transit s p pk =
    (sendFrom s (some p) { pk with hops := pk.hops - 1 }).getD (dropPkt s p pk F.fabDropNoroute) :=
  if_neg (Nat.not_le.2 h)

end Sys2Proof.Machine

/-- Settles O38: a row is the arrival of its packet (`exec_requestPacket`, `onRequest_eq`), one for this device is served by
its type (`serveNow_write` to `serveNow_token`), and one for another goes on or is dropped (`inbound_transit`). -/
theorem requestPacketsAreServed : Obligations.RequestPacketsAreServed := by
  refine fun s t p pk hk hn => ⟨fun c ty hc ht => ?_, fun hw => serve_stalled hw p.val, fun hw => ?_, fun hst hp =>
    ⟨inbound_old hst hp, fun ho hd => ?_⟩, rfl⟩
  · rw [exec_requestPacket hk hc]
    exact ⟨fun hi => onRequest_eq ht hn hi, fun hi => onRequest_eq ht hn hi⟩
  · rw [serve_free hw]
    refine ⟨fun ht ha => ?_, fun ht ha h0 hmax => ?_, fun ht ha => ?_, fun u ht => ⟨serveNow_token ht, serveNow_token ht,
      serveNow_token ht⟩⟩
    · rw [serveNow_write ht ha]
      cases takeWrite (freed t p.val pk) pk <;> rfl
    · rw [serveNow_read ht ha h0 hmax]
      cases globalRead (freed t p.val pk) (pktAsker pk) pk.addr pk.ext <;> rfl
    · rw [serveNow_atomic ht ha]
      cases takeAtomic (freed t p.val pk) pk <;> rfl
  · rw [inbound_transit hst hp ho hd]
    refine ⟨fun h => by rw [transit_spent h]; rfl, fun v h hv => ?_, fun h hv => ?_⟩
    · rw [transit_of_hops h, hv, Option.getD_some]
    · rw [transit_of_hops h, hv, Option.getD_none]
      rfl

end

section
/-! PROOFS. Scope: the ends of requests: answers, resends and time-outs (R351, R352, R356), and obligation O39. -/

open Sys2Proof.Machine

namespace Sys2Proof.Machine

/-! ### Answers -/

section
variable {s v : State} {p : PortId} {pk : Packet} (hk : clockRuns s (portClock p.val) = true)
  (hi : inbound s p.val pk = (v, true))
include hk hi

/-- Data that nobody asked for are ignored. -/
theorem exec_readResp_stray (ht : pk.type = 3) (ha : answerFor (freed v p.val pk) p.val pk [2] = none) :
    exec (.readResp p pk) s = .next (freed v p.val pk) := by
  change execReadResp p pk s = _
  rw [execReadResp, onClock_runs hk, if_neg (not_not.2 ht)]
  simp only [hi, ha]

/-- Data of the length asked for, or a refusal, end the request. -/
theorem exec_readResp {q : Req} (ht : pk.type = 3) (ha : answerFor (freed v p.val pk) p.val pk [2] = some q)
    (hn : pk.status = 0 → pk.data.length = q.pkt.ext) : exec (.readResp p pk) s =
      .next (readDone (dropReq (reportAnswer (freed v p.val pk) q) q.id) q pk) := by
  change execReadResp p pk s = _
  rw [execReadResp, onClock_runs hk, if_neg (not_not.2 ht)]
  simp only [hi, ha]
  exact if_neg fun h => h.2 (hn h.1)

/-- An acknowledgement that nobody waits for is ignored. -/
theorem exec_ack_stray (ht : pk.type = 4) (ha : answerFor (freed v p.val pk) p.val pk [1, 5, 6, 7] = none) :
    exec (.ack p pk) s = .next (freed v p.val pk) := by
  change execAck p pk s = _
  rw [execAck, onClock_runs hk, if_neg (not_not.2 ht)]
  simp only [hi, ha]

/-- An acknowledgement answers its request. -/
theorem exec_ack {q : Req} (ht : pk.type = 4) (ha : answerFor (freed v p.val pk) p.val pk [1, 5, 6, 7] = some q) :
    exec (.ack p pk) s = .next (ackDone (freed v p.val pk) q pk) := by
  change execAck p pk s = _
  rw [execAck, onClock_runs hk, if_neg (not_not.2 ht)]
  simp only [hi, ha]

end

/-- A burst that has been written lands. -/
theorem ackDone_burst {pk : Packet} (hs : pk.status = 0) {q : Req} {ch : ChanRef} {k : Nat} (hc : q.chan = some (ch, k))
    (s : State) : ackDone s q pk = landBurst (dropReq (reportAnswer s q) q.id) ch k := by
  simp only [ackDone, hs, hc]

/-- A packet of neither a burst nor a snapshot is through. -/
theorem ackDone_plain {pk : Packet} (hs : pk.status = 0) {q : Req} (hc : q.chan = none) (hn : q.snap = none)
    (s : State) : ackDone s q pk = dropReq (reportAnswer s q) q.id := by
  simp only [ackDone, hs, hc, hn]

/-- A packet of a snapshot may have been the last that a disable waited for. -/
theorem ackDone_snap {pk : Packet} (hs : pk.status = 0) {q : Req} {n : Nat} {r : CtxId} (hc : q.chan = none)
    (hn : q.snap = some n) (hr : q.ctx = some r) (s : State) :
    ackDone s q pk = settleDisable (dropReq (reportAnswer s q) q.id) r.val := by
  simp only [ackDone, hs, hc, hn, hr]

/-- A TOKEN or a COLL answered not yet waits to be sent again. -/
theorem ackDone_notYet {pk : Packet} (hs : pk.status = 2) {q : Req} (ht : q.pkt.type = 5 ∨ q.pkt.type = 7) (s : State) :
    ackDone s q pk = modReq s q.id fun x =>
      { x with held := true, first := s.tcount, notYet := some (x.notYet.getD s.tcount) } := by
  simp only [ackDone, hs]
  exact if_pos ht

/-- A request that is refused ends. -/
theorem ackDone_refused {pk : Packet} (hs : pk.status = 1) (q : Req) (s : State) :
    ackDone s q pk = endRequest s q 0x16 stLink 3 := by
  simp only [ackDone, hs]

/-! ### Requests without an answer -/

section
variable {s : State} {id : Nat} {q : Req} (hq : reqOf s id = some q)
include hq

/-- A request that has been silent for `LIFETIME` is sent again. -/
theorem exec_requestResend (hh : q.held = false) (ht : q.pkt.type ≠ 6) (hb : heldBack s id = false)
    (hlife : 1000 * fget s F.fabTimersLifetime 0 0 ≤ (s.tcount % 2 ^ 32 + 2 ^ 32 - q.pkt.birth) % 2 ^ 32) :
    exec (.requestResend id) s = .next (resend s q) := by
  change execRequestResend id s = _
  simp only [execRequestResend, hq]
  exact if_neg (by simp [hh, ht, hb]; omega)

/-- An atomic never is. -/
theorem exec_requestResend_atomic (ht : q.pkt.type = 6) : exec (.requestResend id) s = .next s := by
  change execRequestResend id s = _
  simp only [execRequestResend, hq]
  exact if_pos (.inr (.inl ht))

/-- A request that has been silent too long ends. -/
theorem exec_requestRto (hh : q.held = false) (hb : heldBack s id = false)
    (hlate : q.first + (if q.pkt.type = 6 then 1000 * fget s F.fabTimersLifetime 0 0
      else 10000 * fget s F.fabTimersRto 0 0) ≤ s.tcount) :
    exec (.requestRto id) s = .next (endRequest s q 0x1B stLink 4) := by
  change execRequestRto id s = _
  simp only [execRequestRto, hq]
  refine (if_neg ?_).trans rfl
  simp only [hh, hb, Bool.false_eq_true, false_or]
  exact Nat.not_lt.2 hlate

/-- A request answered not yet is sent again. -/
theorem exec_notYetRetry (hh : q.held = true) : exec (.notYetRetry id) s = .next (resend s q) := by
  change execNotYetRetry id s = _
  simp only [execNotYetRetry, hq, hh, if_true]

/-- Once that has gone on for `COLLTO`, it ends. -/
theorem exec_notYetTimeout {since : Nat} (hn : q.notYet = some since)
    (hlate : since + 1000000 * fget s F.fabTimersCollto 0 0 ≤ s.tcount) :
    exec (.notYetTimeout id) s = .next (endRequest s q 0x1B stTimeout 4) := by
  change execNotYetTimeout id s = _
  simp only [execNotYetTimeout, hq, hn]
  exact if_neg (Nat.not_lt.2 hlate)

end

/-- Sent again, a request has a new `BIRTH`. -/
theorem resend_sent {s t : State} {q : Req} (h : sendPkt s { q.pkt with birth := s.tcount % 2 ^ 32 } = some t) :
    resend s q = modReq t q.id fun x => { x with pkt := { q.pkt with birth := s.tcount % 2 ^ 32 }, held := false } := by
  simp only [resend, h]

end Sys2Proof.Machine

/-- Settles O39: an answer is that of the request it belongs to (`exec_readResp`, `exec_ack`) and does what its status and
the request say (`ackDone_burst` to `ackDone_refused`); a request without one is sent again (`resend_sent`) or ends. -/
theorem requestsEnd : Obligations.RequestsEnd := by
  refine ⟨fun s v p pk hk hi => ⟨exec_readResp_stray hk hi, fun q ht ha hn => exec_readResp hk hi ht ha hn,
      exec_ack_stray hk hi, fun q ht ha => ?_⟩,
    fun s id q hq => ⟨fun hh ht hb hlife t hs => ?_, exec_requestResend_atomic hq, exec_requestRto hq,
      fun hh t hs => ?_, fun since hn hlate => exec_notYetTimeout hq hn hlate⟩⟩
  · rw [exec_ack hk hi ht ha]
    exact ⟨fun ch k hs hc => congrArg _ (ackDone_burst hs hc _), fun hs hc hn => congrArg _ (ackDone_plain hs hc hn _),
      fun n hs hc hn r hr => congrArg _ (ackDone_snap hs hc hn hr _), fun hs ht => congrArg _ (ackDone_notYet hs ht _),
      fun hs => congrArg _ (ackDone_refused hs q _)⟩
  · rw [exec_requestResend hq hh ht hb hlife, resend_sent hs]
  · rw [exec_notYetRetry hq hh, resend_sent hs]

end

section
/-! PROOFS. Scope: collectives: what stands in a context's memory after a write, the commands of a queue, COLL packets
(R360 to R368); obligation O42. -/

open Sys2Proof.Machine

namespace Sys2Proof.Machine

/-! ### The bytes of a context -/

/-- What the bytes of a context's memory are read from: the memory, and which of its pages are lost. -/
def text (r : Nat) (s : State) : Mem × (Nat → Option Bool) :=
  ((ctx s r).vs.mem, fun pg => (tfind (ctx s r).vs.pages pg).map (·.lost))

theorem vsGet_congr {v w : VSpace} (hm : v.mem = w.mem)
    (hp : ∀ pg, (tfind v.pages pg).map (·.lost) = (tfind w.pages pg).map (·.lost)) (x : Nat) : vsGet v x = vsGet w x := by
  have hmask : lostMask v x = lostMask w x := by
    have h := hp (pageOf x)
    unfold lostMask
    cases hv : tfind v.pages (pageOf x) <;> cases hw : tfind w.pages (pageOf x) <;> simp_all
  rw [vsGet, vsGet, hm, hmask]

theorem vsRead_of_text {s t : State} {r : Nat} (h : text r t = text r s) (va n : Nat) :
    vsRead (ctx t r).vs va n = vsRead (ctx s r).vs va n :=
  List.map_congr_left fun _ _ => vsGet_congr (congrArg (·.1) h) (congrFun (congrArg (·.2) h)) _

theorem text_of_vs {s t : State} {r : Nat} (h : (ctx t r).vs = (ctx s r).vs) : text r t = text r s := by
  rw [text, h, text]

/-- A page whose mark of loss stands. -/
theorem text_setPage {s : State} {r pg : Nat} {p q : Page} (hp : tfind (ctx s r).vs.pages pg = some p)
    (hl : q.lost = p.lost) : text r (setPage s r pg q) = text r s := by
  refine Prod.ext (by simp [text, setPage]) (funext fun k => ?_)
  by_cases hk : pg = k
  · subst hk
    simp [text, hp, hl]
  · simp [text, page_setPage_ne hk]

/-- A write leaves the bytes before and behind it. -/
theorem vsGet_vsWrite_ne (vs : VSpace) {va x : Nat} {bs : Bytes} (h : x < va ∨ va + bs.length ≤ x) :
    vsGet (vsWrite vs va bs) x = vsGet vs x := by
  induction bs generalizing vs va with
  | nil => rfl
  | cons b bs ih =>
    rw [List.length_cons] at h
    rw [vsWrite, ih _ (by omega), vsGet_vsSet_ne (by omega)]

/-- The bytes that were written are read. -/
theorem vsRead_vsWrite {vs : VSpace} (h : memWf vs.mem = true) (va : Nat) (bs : Bytes) :
    vsRead (vsWrite vs va bs) va bs.length = bs := by
  induction bs generalizing vs va with
  | nil => rfl
  | cons b bs ih =>
    have hrest := ih (vs := vsSet vs va b) (memWf_mset h) (va + 1)
    simp only [vsRead, List.length_cons, List.range_succ_eq_map, List.map_cons, List.map_map, vsWrite, Nat.add_zero]
    rw [vsGet_vsWrite_ne _ (by omega), vsGet_vsSet_same h]
    refine congrArg (b :: ·) (Eq.trans (List.map_congr_left fun i _ => ?_) hrest)
    rw [Function.comp_apply, Nat.succ_eq_add_one, Nat.add_comm i 1, Nat.add_assoc]

/-- Marks and notes leave the bytes. -/
theorem vsGet_vsNote_vsMark (vs : VSpace) (va n : Nat) (bad : List Nat) (va' n' x : Nat) :
    vsGet (vsNote (vsMark vs va n bad) va' n') x = vsGet vs x := by
  have hmark : (vsMark vs va n bad).mem = vs.mem ∧ (vsMark vs va n bad).pages = vs.pages :=
    List.foldlRecOn (motive := fun v : VSpace => v.mem = vs.mem ∧ v.pages = vs.pages) _ _ ⟨rfl, rfl⟩ fun v hv _ _ => hv
  exact vsGet_congr hmark.1 (fun pg => congrArg (fun t => (tfind t pg).map (·.lost)) hmark.2) x

theorem text_notePagePoison (s : State) (r va : Nat) (bad : List Nat) :
    text r (notePagePoison s r va bad) = text r s := by
  refine foldl_keeps (text r) (fun s o => ?_) bad s
  cases hp : tfind (ctx s r).vs.pages (pageOf (va + o)) with
  | none => rw [modPage_of_none hp]
  | some p =>
    rw [modPage_of_some hp]
    exact text_setPage hp rfl

/-- The bytes of a write stand in the memory. -/
theorem vsRead_putText {s : State} {r : Nat} (h : memWf (ctx s r).vs.mem = true) (va : Nat) (bs : Bytes)
    (bad : List Nat) : vsRead (ctx (putText s r va bs bad) r).vs va bs.length = bs := by
  rw [putText, ctx_congr (paged_ctxs (paged_farStore ..)), vsRead_of_text (text_notePagePoison ..), ctx_modCtx_same]
  refine Eq.trans (List.map_congr_left fun i _ => ?_) (vsRead_vsWrite h va bs)
  exact vsGet_vsNote_vsMark ..

/-- An access to pages that all let it on touches them, and leaves their bytes. -/
theorem touchPages_ok {r : Nat} {write : Bool} (who : Waiter) {pgs : List Nat} {s : State}
    (h : ∀ pg ∈ pgs, ∃ g, tfind (ctx s r).vs.pages pg = some g ∧ pageAllows s r g write = .ok) :
    ∃ t, touchPages pgs s r write who = (t, .ok) ∧ text r t = text r s := by
  induction pgs generalizing s with
  | nil => exact ⟨s, rfl, rfl⟩
  | cons pg pgs ih =>
    obtain ⟨g, hg, hok⟩ := h pg (List.mem_cons_self ..)
    have hrest : ∀ q ∈ pgs, ∃ g', tfind (ctx (setPage s r pg { g with accesses := g.accesses + 1 }) r).vs.pages q = some g' ∧
        pageAllows (setPage s r pg { g with accesses := g.accesses + 1 }) r g' write = .ok := by
      intro q hq
      by_cases hpq : pg = q
      · subst hpq
        exact ⟨_, page_setPage_same .., hok⟩
      · obtain ⟨g', hg', hok'⟩ := h q (List.mem_cons_of_mem _ hq)
        exact ⟨g', (page_setPage_ne hpq).trans hg', hok'⟩
    obtain ⟨t, ht, htext⟩ := ih hrest
    refine ⟨t, ?_, htext.trans (text_setPage hg rfl)⟩
    rw [touchPages, touchPage_of_ok hg hok]
    exact ht

/-- A write to such pages that meets no line on its way to the partner. -/
theorem cvWrite_ok {s : State} {r va : Nat} {bs : Bytes} (hs : lineShips s r va bs.length = false)
    (h : ∀ pg ∈ pagesOf va bs.length, ∃ g, tfind (ctx s r).vs.pages pg = some g ∧ pageAllows s r g true = .ok)
    (hm : memWf (ctx s r).vs.mem = true) (bad : List Nat) (who : Waiter) :
    ∃ t, cvWrite s r va bs bad who = (t, .ok) ∧ vsRead (ctx t r).vs va bs.length = bs := by
  obtain ⟨t, ht, htext⟩ := touchPages_ok who h
  refine ⟨putText t r va bs bad, ?_, vsRead_putText ?_ va bs bad⟩
  · simp only [cvWrite, hs, ht, Bool.false_eq_true, if_false]
  · rw [show (ctx t r).vs.mem = (ctx s r).vs.mem from congrArg (·.1) htext, hm]

/-! ### What leaves the memory of a context -/

theorem ctx_withFab (s : State) (f : Fabric) (r : Nat) : ctx { s with fab := f } r = ctx s r := rfl

theorem ctx_withTokens (s : State) (ts : List TokenMove) (r : Nat) : ctx { s with tokens := ts } r = ctx s r := rfl

/-- An update of a context that leaves its virtual space. -/
theorem vs_modCtx {s : State} {r : Nat} {f : Ctx → Ctx} (h : ∀ c, (f c).vs = c.vs) :
    (ctx (modCtx s r f) r).vs = (ctx s r).vs := by
  rw [ctx_modCtx_same, h]

theorem vs_cset (s : State) (r : Nat) (f : Fld) (j v : Nat) : (ctx (cset s r f j v) r).vs = (ctx s r).vs := by
  unfold cset
  split
  · rfl
  · exact vs_modCtx fun _ => by rfl

theorem vs_collFail (s : State) (e r idx outcome : Nat) :
    (ctx (collFail s e r idx outcome) r).vs = (ctx s r).vs := by
  rw [collFail, vs_cset, vs_cset, vs_cset, ctx_withFab]
  exact vs_modCtx fun _ => by rfl

theorem vs_collPoison (s : State) (r lines : Nat) (seen : Bool) :
    (ctx (collPoison s r lines seen) r).vs = (ctx s r).vs := by
  unfold collPoison
  split
  · rfl
  · exact vs_modCtx fun _ => by rfl

theorem vs_putRun (s : State) (e r : Nat) (x : CollRun) : (ctx (putRun s e r x) r).vs = (ctx s r).vs :=
  vs_modCtx fun _ => by rfl

theorem vs_sendColl (e : EdgeId) (r : Nat) (x : CollRun) (pass seg : Nat) (s : State) (p : Nat × Bytes × List Nat) :
    (ctx (sendColl e r x pass seg s p) r).vs = (ctx s r).vs := by
  simp only [sendColl]
  split
  next ht => rw [ctx_congr (paged_ctxs (paged_request ht))]
  next => exact vs_collFail ..

/-- Lines written, with their marks noted in the step. -/
theorem writeLines_ok {s : State} {r va : Nat} {bs : Bytes} (hs : lineShips s r va bs.length = false)
    (h : ∀ pg ∈ pagesOf va bs.length, ∃ g, tfind (ctx s r).vs.pages pg = some g ∧ pageAllows s r g true = .ok)
    (hm : memWf (ctx s r).vs.mem = true) (bad : List Nat) (who : Waiter) :
    ∃ t, writeLines s r va bs bad who = (t, .ok) ∧ vsRead (ctx t r).vs va bs.length = bs := by
  obtain ⟨t, ht, hread⟩ := cvWrite_ok hs h hm bad who
  refine ⟨collPoison t r bad.length (!bad.isEmpty), ?_, ?_⟩
  · simp only [writeLines, ht]
  · rw [vs_collPoison, hread]

/-- A part of bytes is taken: it stands in the destination. -/
theorem takeBytes_ok {s : State} {e : EdgeId} {r : Nat} {x : CollRun} {pk : Packet} :
    let va := cDst x.desc + pkSeg pk * cSegn x.desc + 64 * pk.ext
    lineShips s r va pk.data.length = false →
    (∀ pg ∈ pagesOf va pk.data.length, ∃ g, tfind (ctx s r).vs.pages pg = some g ∧ pageAllows s r g true = .ok) →
    memWf (ctx s r).vs.mem = true →
    ∃ t, takeBytes s e r x pk = (t, .ok) ∧ vsRead (ctx t r).vs va pk.data.length = pk.data := by
  intro va hs h hm
  obtain ⟨t, ht, hread⟩ := writeLines_ok hs h hm (mapBad pk) (.coll e x.idx)
  simp only [takeBytes, va, ht]
  refine ⟨_, rfl, ?_⟩
  split
  · rw [vs_sendColl, vs_putRun, hread]
  · rw [vs_putRun, hread]

/-! ### Sums -/

/-- A run that has added the exact partials of a packet of the reduce pass to this rank's own. -/
def summed (s : State) (x : CollRun) (pk : Packet) (own : List Addend) : CollRun :=
  let sums := (pkXps pk).zipIdx.map fun a => addendXp (xpAdd (cRank x.desc) a.1 (own.getD (pk.ext + a.2) a.1))
  { x with
    data := sums.zipIdx.foldl (fun m a => tset m (partKey 0 (pkSeg pk) (pk.ext + a.2)) a.1) x.data
    parts := x.parts ++ [(pkSeg pk, 0, pk.ext)], since := s.tcount }

/-- Of an ALLREDUCE, a whole segment goes to the next rank until the share's last rank has it. -/
theorem reduceSeg_on {x : CollRun} {seg : Nat} (hshare : shareOf x.desc seg ≠ cRank x.desc) (hop : cOp x.desc = 1)
    (s : State) (e : EdgeId) (r : Nat) (xs : List Bytes) :
    reduceSeg s e r x seg xs = (sendXps (putRun s e.val r x) e r x 0 seg xs, .ok) := by
  rw [reduceSeg, if_neg hshare, if_neg (by omega)]

section
variable {s u : State} {e : EdgeId} {r : Nat} {x : CollRun} {pk : Packet} {own : List Addend} (hpass : pkPass pk = 0)
  (hown : ownXps s r x.desc (pkSeg pk) (.coll e x.idx) = (u, .ok, own))
include hpass hown

/-- A segment that is not whole waits for its other parts. -/
theorem takeXps_part (hw : wholeSeg (summed s x pk own) 0 (pkSeg pk) = none) :
    takeXps s e r x pk = (putRun u e.val r (summed s x pk own), .ok) := by
  simp only [summed] at hw
  simp only [takeXps, hpass, hown, hw, if_true, summed]

/-- A whole one goes on. -/
theorem takeXps_whole {xs : List Bytes} (hw : wholeSeg (summed s x pk own) 0 (pkSeg pk) = some xs) :
    takeXps s e r x pk = reduceSeg (putRun u e.val r (summed s x pk own)) e r (summed s x pk own) (pkSeg pk) xs := by
  simp only [summed] at hw
  simp only [takeXps, hpass, hown, hw, if_true, summed]

/-- One of an ALLREDUCE goes to the next rank. -/
theorem takeXps_on {xs : List Bytes} (hw : wholeSeg (summed s x pk own) 0 (pkSeg pk) = some xs)
    (hshare : shareOf x.desc (pkSeg pk) ≠ cRank x.desc) (hop : cOp x.desc = 1) :
    takeXps s e r x pk = (sendXps (putRun (putRun u e.val r (summed s x pk own)) e.val r (summed s x pk own)) e r
      (summed s x pk own) 0 (pkSeg pk) xs, .ok) := by
  rw [takeXps_whole hpass hown hw, reduceSeg_on (x := summed s x pk own) hshare hop]

end

/-! ### COLL packets -/

theorem exec_coll {s b : State} {p : PortId} {pk : Packet} (hk : clockRuns s (portClock p.val) = true)
    (ht : pk.type = 7) (hn : pk.data.length ≤ 4096) (hi : inbound s p.val pk = (b, true)) :
    exec (.coll p pk) s = .next (serveColl (freed b p.val pk) pk) := by
  change execColl p pk s = _
  rw [execColl, onClock_runs hk, if_neg (not_not.2 ht), if_neg (Nat.not_lt.2 hn), hi]

/-- An identifier that has not started is answered not yet. -/
theorem serveColl_none {s : State} {pk : Packet} (hf : collFor s pk = none) (hp : collPast s pk = false) :
    serveColl s pk = answer s pk 4 2 [] [] := by
  simp only [serveColl, hf, hp, Bool.false_eq_true, if_false]

section
variable {s : State} {pk : Packet} {c k : Nat} {x : CollRun} (hf : collFor s pk = some (c, k, x))
include hf

/-- A packet that differs from the descriptor fails the collective. -/
theorem serveColl_differs (h : pkOp pk ≠ cOp x.desc ∨ pk.reqid ≠ cS x.desc + (cG x.desc - 1) * 2 ^ 16) :
    serveColl s pk = answer (collFail s k c x.idx stLink) pk 4 1 [] [] := by
  simp only [serveColl, hf]
  exact if_pos (by tauto)

variable (hop : pkOp pk = cOp x.desc) (hid : pk.reqid = cS x.desc + (cG x.desc - 1) * 2 ^ 16)
  (hpart : partOk x pk = true)
include hop hid hpart

/-- A part that has come before changes nothing. -/
theorem serveColl_again (hold : x.parts.contains (pkSeg pk, pkPass pk, pk.ext) = true) :
    serveColl s pk = answer s pk 4 0 [] [] := by
  simp only [serveColl, hf]
  rw [if_neg (by simp [hop, hid, hpart]), if_pos hold]

variable (hnew : x.parts.contains (pkSeg pk, pkPass pk, pk.ext) = false)
include hnew

/-- A part of bytes that is taken is acknowledged. -/
theorem serveColl_bytes {t : State} (hxp : cXp x.desc = false) (ht : takeBytes s (Fin.ofNat 2 k) c x pk = (t, .ok)) :
    serveColl s pk = answer t pk 4 0 [] [] := by
  simp only [serveColl, hf]
  rw [if_neg (by simp [hop, hid, hpart]), if_neg (ne_true_of_eq_false hnew), hxp, if_neg (by decide), ht]

/-- A part of exact partials that is taken is acknowledged. -/
theorem serveColl_xps {t : State} (hxp : cXp x.desc = true) (ht : takeXps s (Fin.ofNat 2 k) c x pk = (t, .ok)) :
    serveColl s pk = answer t pk 4 0 [] [] := by
  simp only [serveColl, hf]
  rw [if_neg (by simp [hop, hid, hpart]), if_neg (ne_true_of_eq_false hnew), if_pos hxp, ht]

end

/-! ### Queues -/

section
variable {s : State} {e : EdgeId} {r : CtxId} (hk : clockRuns s (edgeClock e.val) = true)
include hk

/-- The next entry starts. -/
theorem exec_collectiveStart (hd : (tget (ctx s r.val).colls e.val collInit).dead = none)
    (hs : (tget (ctx s r.val).colls e.val collInit).head < (tget (ctx s r.val).colls e.val collInit).start.toNat)
    (hl : engineLoad s e.val < 16) (hr : (ctx s r.val).slot.isSome = true) (hflt : s.faulted = false) :
    exec (.collectiveStart e r) s = .next (startColl s e r.val (tget (ctx s r.val).colls e.val collInit)) := by
  change execCollectiveStart e r s = _
  rw [execCollectiveStart, onClock_runs hk]
  refine if_neg ?_
  rw [hd, hflt, Option.isNone_eq_false_iff.2 hr]
  simp only [Option.isSome_none, Bool.false_eq_true, false_or, or_false]
  omega

/-- Nothing starts before the token total has reached the next entry. -/
theorem exec_collectiveStart_early
    (hs : (tget (ctx s r.val).colls e.val collInit).start.toNat ≤ (tget (ctx s r.val).colls e.val collInit).head) :
    exec (.collectiveStart e r) s = .next s := by
  change execCollectiveStart e r s = _
  rw [execCollectiveStart, onClock_runs hk]
  exact if_pos (.inr (.inl hs))

/-- The oldest collective, where it is done, is reported. -/
theorem exec_collectiveComplete {x : CollRun} {rest : List CollRun}
    (hx : (tget (ctx s r.val).colls e.val collInit).running = x :: rest) (hd : collDone x = true) :
    let q := tget (ctx s r.val).colls e.val collInit
    let f := if e.val = 0 then F.ctxCollstatDone0 else F.ctxCollstatDone1
    let t := modCtx (cset s r.val f 0 (cget s r.val f 0 + 1)) r.val fun c =>
      { c with colls := tset c.colls e.val ({ q with running := rest, past := q.past ++ [(cCid x.desc, x.parts)] }) }
    ∃ step, exec (.collectiveComplete e r) s = .next { t with tokens := t.tokens ++
      [⟨r, bitsOf (cNotify x.desc) 0 6, bitsOf (cNotify x.desc) 6 5, bitsOf (cNotify x.desc) 11 3,
        BitVec.ofNat 32 (x.idx + 1), step⟩] } := by
  intro q f t
  refine ⟨(ctx t r.val).step.map (·.id), ?_⟩
  change execCollectiveComplete e r s = _
  rw [execCollectiveComplete, onClock_runs hk]
  simp only [hx, hd, Bool.not_true, Bool.false_eq_true, if_false]
  rfl

theorem exec_collectiveTimeout {x : CollRun} (hx : (tget (ctx s r.val).colls e.val collInit).running.find?
      (fun x => !collDone x && decide (x.since + 1000000 * fget s F.fabTimersCollto 0 0 ≤ s.tcount)) = some x) :
    exec (.collectiveTimeout e r) s = .next (collFail s e.val r.val x.idx stTimeout) := by
  change execCollectiveTimeout e r s = _
  rw [execCollectiveTimeout, onClock_runs hk]
  simp only [hx]

end

/-- A field of a context's block reads what was written, in its slot or saved. -/
theorem cget_cset_same (s : State) (r : Nat) (f : Fld) (j v : Nat) : cget (cset s r f j v) r f j = v % 2 ^ f.w := by
  cases hs : (ctx s r).slot with
  | some sl =>
    have hs' : (ctx (fset s f sl.val j v) r).slot = some sl := hs
    simp only [cset, cget, hs, hs', fget_fset_same]
  | none => simp [cset, cget, hs]

/-- Fields of a context's block are read from its slot, its saved fields and the registers. -/
theorem cget_congr {s t : State} {r : Nat} (hr : t.regs = s.regs) (hs : (ctx t r).slot = (ctx s r).slot)
    (hf : (ctx t r).res = (ctx s r).res) (f : Fld) (j : Nat) : cget t r f j = cget s r f j := by
  simp only [cget, hs, hf, fget_congr hr]

theorem tokens_cset (s : State) (r : Nat) (f : Fld) (j v : Nat) : (cset s r f j v).tokens = s.tokens :=
  congrArg Shell.tokens (shell_cset s r f j v)

/-- What a collective that is reported leaves. -/
theorem collectiveComplete_outcome {s : State} {e : EdgeId} {r : CtxId} (hk : clockRuns s (edgeClock e.val) = true)
    {x : CollRun} {rest : List CollRun} (hx : (tget (ctx s r.val).colls e.val collInit).running = x :: rest)
    (hd : collDone x = true) :
    let q := tget (ctx s r.val).colls e.val collInit
    let f := if e.val = 0 then F.ctxCollstatDone0 else F.ctxCollstatDone1
    ∃ u, exec (.collectiveComplete e r) s = .next u ∧
      cget u r.val f 0 = (cget s r.val f 0 + 1) % 2 ^ f.w ∧
      tget (ctx u r.val).colls e.val collInit =
        { q with running := rest, past := q.past ++ [(cCid x.desc, x.parts)] } ∧
      ∃ m, u.tokens = s.tokens ++ [m] ∧ m.ctx = r ∧ m.vx = bitsOf (cNotify x.desc) 0 6 ∧
        m.vy = bitsOf (cNotify x.desc) 6 5 ∧ m.ch = bitsOf (cNotify x.desc) 11 3 ∧
        m.val = BitVec.ofNat 32 (x.idx + 1) := by
  intro q f
  obtain ⟨step, hstep⟩ := exec_collectiveComplete hk hx hd
  refine ⟨_, hstep, ?_, ?_, _, congrArg (· ++ _) (tokens_cset s r.val f 0 _), rfl, rfl, rfl, rfl, rfl⟩
  · rw [← cget_cset_same]
    refine cget_congr (by rfl) ?_ ?_ f 0
    · rw [ctx_withTokens, ctx_modCtx_same]
    · rw [ctx_withTokens, ctx_modCtx_same]
  · rw [ctx_withTokens, ctx_modCtx_same]
    exact tget_tset_same ..

end Sys2Proof.Machine

/-- Settles O42: a command of a queue is what its guard lets it do (`exec_collectiveStart` to `exec_collectiveTimeout`); a
COLL packet is served by what the running collectives say of its part (`serveColl_none` to `serveColl_xps`). The bytes of a
part are read after the write, since all that follows leaves the context's memory (`takeBytes_ok`). -/
theorem collectivesRun : Obligations.CollectivesRun := by
  refine fun s b e r hk => ⟨exec_collectiveStart hk, exec_collectiveStart_early hk,
    fun x rest hx hd => collectiveComplete_outcome hk hx hd, fun x hx => exec_collectiveTimeout hk hx,
    fun p pk hkp ht hn hi => ?_⟩
  intro t
  have hserve : exec (.coll p pk) s = .next (serveColl t pk) := exec_coll hkp ht hn hi
  rw [hserve]
  refine ⟨fun hf hp => congrArg _ (serveColl_none hf hp), fun c k x hf => ⟨fun h => congrArg _ (serveColl_differs hf h),
    fun hop hid hpart hold => congrArg _ (serveColl_again hf hop hid hpart hold), fun hop hid hpart hnew =>
      ⟨fun hxp => ?_, fun hxp hpass u own hown => ?_⟩⟩⟩
  · intro va hs hpages hm
    obtain ⟨v, hv, hread⟩ := takeBytes_ok (e := Fin.ofNat 2 k) (x := x) hs hpages hm
    exact ⟨v, congrArg _ (serveColl_bytes hf hop hid hpart hnew hxp hv), hread⟩
  · refine ⟨fun hw => ?_, fun xs hw hshare h1 => ?_⟩
    · rw [serveColl_xps hf hop hid hpart hnew hxp (takeXps_part hpass hown hw)]
      rfl
    · have hw' : wholeSeg (summed t x pk own) 0 (pkSeg pk) = some xs := hw
      rw [serveColl_xps hf hop hid hpart hnew hxp (takeXps_on hpass hown hw' hshare h1)]
      rfl

end

section
/-! PROOFS. Scope: the step of an empty queue, the markers of the timecode and launch requests (R373 to R381, R385);
obligations O2, O22 and O24. -/

open Sys2Proof.Machine

namespace Sys2Proof.Machine

/-! ### The step of an empty queue -/

/-- R431: with no context registered there is nothing to note. -/
theorem observe_of_no_ctxs {s : State} (h : s.ctxs = []) : observe s = s := by
  cases s
  cases h
  rfl

/-- R520: without a test under way no core is drained for one. -/
theorem drainTest_of_no_test {s : State} (h : s.test.online = none) : drainTest s = s := by
  unfold drainTest
  rw [h]

/-- R193: where no packet waits for a fenced core or a busy line, none is tried again. -/
theorem serveStalled_of_none {s : State} (h : s.fab.stalled = []) : serveStalled s = s := by
  rw [serveStalled, h]
  cases s with
  | mk pending regs tcount time cores ctxs tokens frames promote tables poolGen fab =>
    cases fab
    cases h
    rfl

/-- A port with no bytes left over sends no flit for them. -/
theorem flushPort_of_empty {s : State} {p : Nat} (h : (port s p).out = []) : flushPort s p = s :=
  if_pos (.inl (by rw [h]; rfl))

/-- Whether a port has nothing to acknowledge and nothing to send. -/
def quiet (q : Port) : Prop := q.nakOwed = false ∧ q.ackOwed = false ∧ q.owed = [] ∧ q.out = []

/-- R337: where every port is quiet, none sends anything. -/
theorem idlePorts_of_quiet {s : State} (h : ∀ p, quiet (port s p)) : idlePorts s = s := by
  refine List.foldl_fixed' (fun p => ?_) _
  obtain ⟨hnak, hack, howed, hout⟩ := h p
  split
  · rfl
  · simp [flushPort_of_empty hout, hnak, hack, howed]

/-- With nothing to note, to drain, to try again, to send or to acknowledge, an idle step is one period of the
timecode's clock. -/
theorem idle_of_quiet {s : State} (hc : s.ctxs = []) (ht : s.test.online = none) (hs : s.fab.stalled = [])
    (hp : ∀ p, quiet (port s p)) :
    idle s = nextCount s := by
  rw [idle, observe_of_no_ctxs hc, drainTest_of_no_test ht, serveStalled_of_none hs, idlePorts_of_quiet hp, ite_self]

/-- R373, R381: a count that stands still, or has no power, is left. -/
theorem nextCount_of_stopped {s : State} (h : countRuns s = false) : nextCount s = s :=
  if_pos (by rw [h]; rfl)

/-- R373: a count that runs without a slew advances by one. -/
theorem nextCount_of_no_slew {s : State} (h : countRuns s = true) (hs : s.time.slew = 0) :
    nextCount s = { s with tcount := s.tcount + 1 } := by
  simp [nextCount, h, hs]

/-! ### Markers and acquisition -/

/-- R376: what a port in UP sends: its stamp, its master and stratum, and the stamps of what it has heard. -/
theorem exec_markerSend {s : State} {p : PortId} (hk : clockRuns s (portClock p.val) = true)
    (hup : fget s F.lnkStatState p.val 0 = 6) :
    exec (.markerSend p) s = .next (portMsg (drawFree s).2 p.val msgMarker
      ([stamp s (drawFree s).1, (ownMaster s).1, (ownMaster s).2] ++
        (match tfind s.time.heard p.val with
         | some h => [h.sent.toNat, h.came.toNat]
         | none => []))) := by
  show execMarkerSend p s = _
  exact (onClock_runs hk _).trans (if_neg (not_not_intro hup))

/-- R376: the fraction of a marker's arrival is below 16, so the stamp takes it whole. -/
theorem arrived_eq (s : State) (m : Marker) :
    arrived s m = { m with t4 := 16 * s.tcount + (m.t4 % 16).toNat } := by
  have hfrac : (m.t4 % 16).toNat % 16 = (m.t4 % 16).toNat := Nat.mod_eq_of_lt (by omega)
  simp [arrived, stamp, hfrac]

/-- What a port has heard is the latest marker (R376). -/
def withHeard (s : State) (p : Nat) (m : Marker) : State :=
  { s with time := { s.time with heard := tset s.time.heard p ⟨m.master, m.stratum, m.t3, m.t4⟩ } }

/-- R376, R378, R379: a marker on a port in UP of a device that is not the master is kept, and disciplines the device
where the port is the upstream. -/
theorem exec_marker {s : State} {p : PortId} {came : Marker} (hk : clockRuns s (portClock p.val) = true)
    (hup : fget s F.lnkStatState p.val 0 = 6) (hm : fbit s F.tcCfgMaster 0 0 = false) :
    let t := follow (withHeard s p.val (arrived s came))
    exec (.marker p came) s = .next (match pickUp t with
      | some (u, _) => if u = p.val then upMarker t (tget t.time.delay p.val 0) (arrived s came) else t
      | none => t) := by
  intro t
  have hm' : fbit (withHeard s p.val (arrived s came)) F.tcCfgMaster 0 0 = false := hm
  show execMarker p came s = _
  rw [execMarker, onClock_runs hk, if_neg (not_not_intro hup)]
  show (if fbit (withHeard s p.val (arrived s came)) F.tcCfgMaster 0 0 = true then _ else _) = _
  rw [hm']
  show (match pickUp t with | some (u, _) => _ | none => _) = _
  cases pickUp t with
  | none => rfl
  | some b => exact (apply_ite Host.Outcome.next ..).symm

/-- R380: a device that is not the master and has no context enabled enters ACQUIRE where it is asked to. -/
theorem exec_reacq {s : State} {w : RegWrite} (ho : writeOpen s true = true) (hw : wbit w F.tcCtlReacq = true)
    (hn : noneEnabled s = true) (hm : fbit s F.tcCfgMaster 0 0 = false) :
    exec (.reacq w) s = .next (enterAcquire s) := by
  show execReacq w s = _
  rw [execReacq, onBar_open ho]
  exact if_pos (by rw [hw, hn, hm]; rfl)

/-! ### Launch requests -/

/-- R383: a request for a step or a group that has none pending is no duplicate. -/
theorem no_request_of_pendingFor {s : State} {r : Nat} {w : LaunchOf} (h : pendingFor s r w = none) :
    s.time.launches.any (fun l => l.ctx.val == r && l.what == w) = false := by
  rw [← List.isSome_find?]
  exact congrArg Option.isSome h

section
variable {s : State} {r : CtxId} {what : LaunchOf} {target : Nat} (h : pendingFor s r.val what = none)
include h

/-- R385: a request that comes too late is counted, and its target is 200 counts from now. -/
theorem askLaunch_late (hl : target < s.tcount + 200) :
    askLaunch s r.val what target = { fcount s F.tcLaunchLate 0 0 1 with
      time := { s.time with launches := s.time.launches ++ [⟨r, what, s.tcount + 200⟩] } } := by
  simp [askLaunch, no_request_of_pendingFor h, hl, fcount]

/-- R385: a request that comes in time keeps its target. -/
theorem askLaunch_in_time (hl : s.tcount + 200 ≤ target) :
    askLaunch s r.val what target = { s with
      time := { s.time with launches := s.time.launches ++ [⟨r, what, target⟩] } } := by
  simp [askLaunch, no_request_of_pendingFor h, hl.not_gt]

end

/-- R383, R385, R420: the launch of a step that carries a launch timecode and has no request pending asks for it. -/
theorem exec_stepLaunch_asks {s : State} {r : CtxId} {st : Step} {t : BitVec 64}
    (hq : (ctx s r.val).queue.head? = some st) (hm : mayLaunch s r.val = true) (hl : logRead s r.val st.id = true)
    (ha : st.launchAt = some t) (hp : pendingFor s r.val .home = none) :
    exec (.stepLaunch r) s = .next (askLaunch s r.val .home t.toNat) := by
  show execStepLaunch r s = _
  simp [execStepLaunch, hq, hm, hl, ha, hp]

end Sys2Proof.Machine

/-- Settles O2: where there is nothing to do but count, an idle step is `nextCount` (`idle_of_quiet`), which counts one or
leaves the state. That the timecode counts in the step of an empty queue is log entry 1 (DESIGN CHOICE). -/
theorem idleCountsTheTimecode : Obligations.IdleCountsTheTimecode := by
  intro s hq hc ht hs hp
  have hstep : step s = .next (nextCount s) := by rw [step, hq, ← idle_of_quiet hc ht hs hp]
  exact ⟨fun hr hslew => by rw [hstep, nextCount_of_no_slew hr hslew],
    fun hr => by rw [hstep, nextCount_of_stopped hr]⟩

/-- Settles O22: each command is what its lemma says on a port in UP, or where its write is taken; the stamp of an arrival is
that of `arrived_eq`. The fraction of a stamp that is sent is a free value (log entry 128). -/
theorem markersAndAcquisition : Obligations.MarkersAndAcquisition := by
  intro s p came w m
  refine ⟨fun hk hup => ⟨exec_markerSend hk hup, fun hm => ?_⟩, fun ho hw hn hm => exec_reacq ho hw hn hm, rfl⟩
  have hmark := exec_marker (came := came) hk hup hm
  rw [arrived_eq] at hmark
  exact hmark

/-- Settles O24: a request with none pending is either too late or in time (`askLaunch_late`, `askLaunch_in_time`), and what
is asked for at a launch is the step's own timecode (`exec_stepLaunch_asks`). -/
theorem lateLaunchRequests : Obligations.LateLaunchRequests := by
  intro s r what target h
  refine ⟨?_, fun st t hq hm hl ha hw => exec_stepLaunch_asks hq hm hl ha (hw ▸ h)⟩
  rcases Nat.lt_or_ge target (s.tcount + 200) with hl | hl
  · rw [askLaunch_late h hl, max_eq_right hl.le, if_pos hl]
    exact ⟨rfl, fget_fcount_same s F.tcLaunchLate 0 0 1, rfl⟩
  · rw [askLaunch_in_time h hl, max_eq_left hl, if_neg hl.not_gt]
    exact ⟨rfl, rfl, rfl⟩

end

section
/-! PROOFS. Scope: the launch of steps and launch groups, the end of a step and its record (R383 to R386, R400 to R406,
R420, R586, R587); obligations O23 and O25. -/

open Sys2Proof.Machine

namespace Sys2Proof.Machine

/-! ### Launches -/

section
variable {s : State} {r : CtxId} {st : Step} (hq : (ctx s r.val).queue.head? = some st)
  (hm : mayLaunch s r.val = true) (hl : logRead s r.val st.id = true)
include hq hm hl

/-- R420: a step without a launch timecode launches at once. -/
theorem exec_stepLaunch_at_once (ha : st.launchAt = none) :
    exec (.stepLaunch r) s = .next (launchNow s r.val st) := by
  show execStepLaunch r s = _
  simp [execStepLaunch, hq, hm, hl, ha]

/-- R383: a step with a launch timecode launches once the target of its request has come. -/
theorem exec_stepLaunch_come {t : BitVec 64} {l : PendLaunch} (ha : st.launchAt = some t)
    (hp : pendingFor s r.val .home = some l) (hle : l.target ≤ s.tcount) :
    exec (.stepLaunch r) s = .next (launchNow s r.val st) := by
  show execStepLaunch r s = _
  simp [execStepLaunch, hq, hm, hl, ha, hp, hle]

end

/-- R384, R386: the entries of a group start once the target of its request has come, on a resident context with a step
in progress. -/
theorem exec_launchGroup {s : State} {r : CtxId} {group : BitVec 8} {l : PendLaunch} {st : Step} {g : LaunchGroup}
    (hp : pendingFor s r.val (.group group) = some l) (hle : l.target ≤ s.tcount)
    (hres : (ctx s r.val).st = .resident) (hst : (ctx s r.val).step = some st)
    (hg : (ctx s r.val).img.bind (fun i => i.groups.find? (fun g => g.group == group.toNat)) = some g) :
    exec (.launchGroup r group) s =
      .next (g.cores.foldl (fun s e => launchEntryAt s r.val st e) (takeLaunch s r.val (.group group))) := by
  show execLaunchGroup r group s = _
  simp [execLaunchGroup, hp, hle.not_gt, hres, hst, hg]

/-! ### The end of a step -/

/-- R71, R420: a home-set step that is over gives its cores back and leaves its context. -/
theorem exec_stepEnd_home {s : State} {r : CtxId} {st : Step} {k : Nat}
    (hk : (ctx s r.val).slot.map (·.val) = some k) (hst : (ctx s r.val).step = some st)
    (ho : stepOver s r.val k st = true) :
    exec (.stepEnd r) s =
      .next (closeStep (modCtx (st.cores.foldl (freePart k) s) r.val fun c => { c with step := none }) r.val st) := by
  show execStepEnd r s = _
  simp [execStepEnd, hk, hst, ho, Option.filter]

/-- R400 to R406, R587: the slate, the log entry, the record, the message. -/
theorem exec_completionRecord {s : State} {r : CtxId} {st : Step} (he : (ctx s r.val).ended.head? = some st)
    (hr : recordReady s r.val st = true) :
    exec (.completionRecord r) s = .next (settleDisable (signalRecord (writeRecord
      (logPut (writeSlate s r.val st) r.val (completeEntry s r.val st)) r.val st) r.val) r.val) := by
  show execCompletionRecord r s = _
  rw [execCompletionRecord, he]
  exact if_pos hr

/-- R587: the signal that the coalescing time has held back. -/
theorem exec_completionCoalesceTimeout {s : State} {r : CtxId} (hc : (ctx s r.val).coalesce = true) :
    let t := modCtx s r.val fun c => { c with coalesce := false }
    exec (.completionCoalesceTimeout r) s =
      .next (signal t (cget t r.val F.ctxCqCfgIrqen 0 == 1) (cget t r.val F.ctxCqCfgIrq 0)) := if_pos hc

/-! ### The record of a step -/

theorem digestBytes_length (d : Digest) : (digestBytes d).length = 32 := leBytes_length ..

/-- R586: a record is 128 bytes. -/
theorem completionBytes_length (st : Step) (phase : Nat) : (completionBytes st phase).length = 128 := by
  simp [completionBytes, leBytes_length, digestBytes_length]

/-- Contexts do not depend on the registers. -/
@[simp] theorem ctx_fset (s : State) (f : Fld) (i j v r : Nat) : ctx (fset s f i j v) r = ctx s r := ctx_congr rfl r

/-- Contexts do not depend on the registers. -/
@[simp] theorem ctx_fcount (s : State) (f : Fld) (i j n r : Nat) : ctx (fcount s f i j n) r = ctx s r := ctx_fset ..

/-- Contexts do not depend on the host's memory. -/
@[simp] theorem ctx_hostWrite (s : State) (a : Nat) (bs : Bytes) (r : Nat) : ctx (hostWrite s a bs) r = ctx s r :=
  ctx_congr rfl r

/-- The block of a context with a slot is in the registers (R410). -/
theorem cget_of_slot {s : State} {r : Nat} {sl : Fin 8} (h : (ctx s r).slot = some sl) (f : Fld) (j : Nat) :
    cget s r f j = fget s f sl.val j := by
  rw [cget, h]

/-- A field of the block of a context with a slot is written in the registers (R410). -/
theorem cset_of_slot {s : State} {r : Nat} {sl : Fin 8} (h : (ctx s r).slot = some sl) (f : Fld) (j v : Nat) :
    cset s r f j v = fset s f sl.val j v := by
  rw [cset, h]

/-- A counter of the block of a context with a slot counts in the registers (R410). -/
theorem ccount_of_slot {s : State} {r : Nat} {sl : Fin 8} (h : (ctx s r).slot = some sl) (f : Fld) (j n : Nat) :
    ccount s r f j n = fcount s f sl.val j n := by
  rw [ccount, cset_of_slot h, cget_of_slot h, fcount]

/-- The two counters that a record advances are kept in different places. -/
theorem steps_key_ne_head_key (sl : Fin 8) : F.ctxAcctStepsCount.key sl.val 0 ≠ F.ctxCqHeadCount.key sl.val 0 := by
  simp [Fld.key, F.ctxAcctStepsCount, F.ctxCqHeadCount]

/-- What a record leaves of a context: the step is forgotten, and its identifier kept among the latest (R202). -/
def recorded (replay : Bool) (st : Step) (c : Ctx) : Ctx :=
  { c with
    ended := c.ended.tail, doneIds := pushDone c.doneIds st.id
    log := { c.log with
      replay := c.log.replay.filter (fun e => e.stepId != st.id), subs := c.log.subs.filter (fun e => e.1 != st.id)
      done := if replay then c.log.done ++ [st.id] else c.log.done } }

/-- The address of the slot that the next record of a context takes: `HEAD` mod the ring's size (R586). -/
def recordAt (s : State) (r : Nat) : Nat :=
  cget s r F.ctxCqBaseAddr 0 + 128 * (cget s r F.ctxCqHeadCount 0 % 2 ^ cget s r F.ctxCqCfgSizelog2 0)

/-- The bit of a record that turns each time the ring has been filled (R586). -/
def recordPhase (s : State) (r : Nat) : Nat := (cget s r F.ctxCqHeadCount 0 / 2 ^ cget s r F.ctxCqCfgSizelog2 0 + 1) % 2

/-- R586: the record of a context with a slot is one write to the host's memory, two registers and the context's
bookkeeping. -/
theorem writeRecord_of_slot {s : State} {r : Nat} {sl : Fin 8} (h : (ctx s r).slot = some sl) (st : Step) :
    ∃ replay, writeRecord s r st =
      modCtx (fcount (fset (hostWrite s (recordAt s r) (completionBytes st (recordPhase s r)))
        F.ctxCqHeadCount sl.val 0 ((cget s r F.ctxCqHeadCount 0 + 1) % 2 ^ 64)) F.ctxAcctStepsCount sl.val 0 1)
        r (recorded replay st) := by
  refine ⟨logReplay (ccount (cset (hostWrite s (recordAt s r) (completionBytes st (recordPhase s r))) r
    F.ctxCqHeadCount 0 ((cget s r F.ctxCqHeadCount 0 + 1) % 2 ^ 64)) r F.ctxAcctStepsCount 0 1) r, ?_⟩
  rw [← ccount_of_slot (by rw [ctx_fset, ctx_hostWrite, h]), ← cset_of_slot (by rw [ctx_hostWrite, h])]
  rfl

section
variable {s : State} {r : Nat} {sl : Fin 8} (h : (ctx s r).slot = some sl) (st : Step)
include h

/-- R586: the record stands in the host's memory at its slot. -/
theorem hostMem_writeRecord : (writeRecord s r st).hostMem =
    mwrite s.hostMem (recordAt s r) (completionBytes st (recordPhase s r)) := by
  obtain ⟨replay, ht⟩ := writeRecord_of_slot h st
  rw [ht, modCtx_hostMem, fcount_hostMem, fset_hostMem, hostWrite_hostMem]

/-- What a record leaves of its context. -/
theorem ctx_writeRecord : ∃ replay, ctx (writeRecord s r st) r = recorded replay st (ctx s r) := by
  obtain ⟨replay, ht⟩ := writeRecord_of_slot h st
  exact ⟨replay, by rw [ht, ctx_modCtx_same, ctx_fcount, ctx_fset, ctx_hostWrite]⟩

/-- A context keeps its slot as a record is written. -/
theorem slot_writeRecord : (ctx (writeRecord s r st) r).slot = some sl := by
  obtain ⟨replay, hc⟩ := ctx_writeRecord h st
  rw [hc]
  exact h

/-- R586: `HEAD` advances by one. -/
theorem head_writeRecord (hlt : cget s r F.ctxCqHeadCount 0 < 2 ^ 64 - 1) :
    cget (writeRecord s r st) r F.ctxCqHeadCount 0 = cget s r F.ctxCqHeadCount 0 + 1 := by
  obtain ⟨replay, ht⟩ := writeRecord_of_slot h st
  rw [cget_of_slot (slot_writeRecord h st), ht, modCtx, fget_setCtx, fget_fcount_ne (steps_key_ne_head_key sl),
    fget_fset_same]
  show (cget s r F.ctxCqHeadCount 0 + 1) % 2 ^ 64 % 2 ^ 64 = _
  rw [Nat.mod_mod, Nat.mod_eq_of_lt (by omega)]

/-- R586: the context's step count advances by one. -/
theorem steps_writeRecord : cget (writeRecord s r st) r F.ctxAcctStepsCount 0 =
    min (2 ^ 64 - 1) (cget s r F.ctxAcctStepsCount 0 + 1) := by
  obtain ⟨replay, ht⟩ := writeRecord_of_slot h st
  rw [cget_of_slot (slot_writeRecord h st), ht, modCtx, fget_setCtx, fget_fcount_same,
    fget_fset_ne (steps_key_ne_head_key sl).symm, cget_of_slot h,
    fget_congr (hostWrite_regs ..)]
  rfl

end

end Sys2Proof.Machine

/-- Settles O23: each command is what its lemma says where its guards let it act (`exec_stepLaunch_at_once` to
`exec_launchGroup`); a request for a time that is 200 counts ahead keeps it (`askLaunch_in_time`). -/
theorem stepsLaunch : Obligations.StepsLaunch := by
  refine fun s r => ⟨fun st hq hm hl => ⟨exec_stepLaunch_at_once hq hm hl,
    fun t l ha hp hle => exec_stepLaunch_come hq hm hl ha hp hle, fun t ha hp hle => ?_⟩,
    fun group l st g hp hle hres hst hg => exec_launchGroup hp hle hres hst hg⟩
  rw [exec_stepLaunch_asks hq hm hl ha hp, askLaunch_in_time hp hle]

/-- Settles O25: the commands are what their lemmas say (`exec_stepEnd_home` to `exec_completionCoalesceTimeout`); the record
is one write of 128 bytes and two registers of the context's slot (`writeRecord_of_slot`), whose fields are kept in different
places. -/
theorem stepsEndAndAreRecorded : Obligations.StepsEndAndAreRecorded := by
  refine ⟨fun s r => ⟨fun st k hk hst ho => exec_stepEnd_home hk hst ho, fun st he hr => exec_completionRecord he hr,
    exec_completionCoalesceTimeout⟩, fun s r sl st hs hhead => ?_⟩
  obtain ⟨replay, hc⟩ := ctx_writeRecord hs st
  exact ⟨completionBytes_length .., hostMem_writeRecord hs st, head_writeRecord hs st hhead, steps_writeRecord hs st,
    by rw [hc]; rfl⟩

end

section
/-! PROOFS. Scope: commits to mirrors, check takes and their arbiters (R400, R499, R506 to R509, Table 15.5); obligation
O48. -/

open Sys2Proof.Machine

namespace Sys2Proof.Machine

/-! ### Commits -/

/-- R499: a commit that has arrived takes the place of the one before. -/
theorem exec_mirrorCommit {s : State} {n : CoreId} {r : CtxId} {sl : Fin 8} {m : Mirror} {i : CutImage}
    (hk : clockRuns s (coreClock n.val) = true) (hs : (ctx s r.val).slot = some sl)
    (hm : tfind (core s n.val).mirrors sl.val = some m) (hi : m.coming = some i) :
    exec (.mirrorCommit n r) s = .next (modCore s n.val fun c =>
      { c with mirrors := tset c.mirrors sl.val ⟨some (commitBuddy s r.val n.val m), some i, none⟩ }) := by
  show execMirrorCommit n r s = _
  simp only [execMirrorCommit, onClock_runs hk, hs, hm, hi]

/-! ### Check takes -/

/-- Whether a core may run the check take of a check slot: the slot is closed and has not been checked, and the core is the
first in placement order but for the original's (R428, R508). -/
def mayCheck (s : State) (r n : Nat) : CheckRun → Bool := fun k =>
  k.closed && k.differ.isNone && checkCore s r n [k.core] (checkImage s r k)

/-- Whether a core may settle a mismatch: it is the first in placement order but for the two that have run the take (R428,
R509). -/
def mayArbitrate (s : State) (r n : Nat) : CheckRun → Bool := fun k =>
  k.differ.any fun d => checkCore s r n [k.core, d.1] (checkImage s r k)

/-- A check take counted, in the context's registers and for the health record (R508, R525). -/
def checkCounted (s : State) (r : Nat) : State :=
  let t := ccount s r F.ctxRelstatChecks 0 1
  { t with dailies := { t.dailies with checks := t.dailies.checks + 1 } }

/-- A mismatch counted, in the context's registers and for the health record (R508, R525). -/
def missCounted (s : State) (r : Nat) : State :=
  let t := ccount s r F.ctxRelstatChkmiss 0 1
  { t with dailies := { t.dailies with misses := t.dailies.misses + 1 } }

/-- A check slot that waits for its arbiter, with the two runs that differ (R509). -/
def differing (n : CoreId) (orig check : TakeRun) (since : Nat) (k : CheckRun) : CheckRun :=
  { k with differ := some (n, orig, check), since := since }

/-- The check slots of a context, one of them marked as a mismatch. -/
def noteDiffer (s : State) (r : Nat) (n : CoreId) (slot : CheckRun) (orig check : TakeRun) : State :=
  modCtx s r fun x =>
    { x with checks := x.checks.map fun k => if k = slot then differing n orig check s.tcount k else k }

section
variable {s : State} {n : CoreId} {r : CtxId} {orig : Digest} {check : TakeRun} {k : CheckRun}
  (hk : clockRuns s (coreClock n.val) = true)
  (hf : (ctx s r.val).checks.find? (mayCheck s r.val n.val) = some k)
include hk hf

/-- R508: a check take that agrees with the original frees its slot. -/
theorem exec_checkTake_same (h : sameRun ⟨orig, k.made⟩ check = true) :
    exec (.checkTake n r orig check) s =
      .next (dropCheck (checkCounted s r.val) r.val (mayCheck s r.val n.val)) := by
  unfold mayCheck at hf ⊢
  show execCheckTake n r orig check s = _
  simp only [execCheckTake, onClock_runs hk, hf, h, if_true]
  rfl

/-- R508: a check take that differs is a mismatch, which waits for its arbiter. -/
theorem exec_checkTake_differs (h : sameRun ⟨orig, k.made⟩ check = false) :
    exec (.checkTake n r orig check) s =
      .next (noteDiffer (missCounted (checkCounted s r.val) r.val) r.val n k ⟨orig, k.made⟩ check) := by
  unfold mayCheck at hf
  show execCheckTake n r orig check s = _
  simp only [execCheckTake, onClock_runs hk, hf, h, Bool.false_eq_true, if_false]
  rfl

end

/-! ### What the counts leave -/

/-- The counts for the health record are no field of a context's block. -/
theorem dailies_ccount (s : State) (r : Nat) (f : Fld) (j n : Nat) : (ccount s r f j n).dailies = s.dailies :=
  congrArg Shell.dailies (shell_ccount s r f j n)

/-- No count of a context's block moves the timecode. -/
theorem tcount_ccount (s : State) (r : Nat) (f : Fld) (j n : Nat) : (ccount s r f j n).tcount = s.tcount :=
  congrArg Shell.tcount (shell_ccount s r f j n)

/-- A field of a context's block leaves its check slots. -/
theorem checks_cset (s : State) (r : Nat) (f : Fld) (j v : Nat) :
    (ctx (cset s r f j v) r).checks = (ctx s r).checks := by
  unfold cset
  split
  · rw [ctx_fset]
  · rw [ctx_modCtx_same]

/-- A check take that is counted leaves the check slots. -/
theorem checks_checkCounted (s : State) (r : Nat) : (ctx (checkCounted s r) r).checks = (ctx s r).checks :=
  checks_cset ..

/-- A mismatch that is counted leaves the check slots. -/
theorem checks_missCounted (s : State) (r : Nat) : (ctx (missCounted s r) r).checks = (ctx s r).checks :=
  checks_cset ..

/-- A check take counts as one. -/
theorem dailies_checkCounted (s : State) (r : Nat) :
    (checkCounted s r).dailies = { s.dailies with checks := s.dailies.checks + 1 } := by
  simp only [checkCounted, dailies_ccount]

/-- A mismatch counts as one. -/
theorem dailies_missCounted (s : State) (r : Nat) :
    (missCounted s r).dailies = { s.dailies with misses := s.dailies.misses + 1 } := by
  simp only [missCounted, dailies_ccount]

theorem dailies_dropCheck (s : State) (r : Nat) (ok : CheckRun → Bool) : (dropCheck s r ok).dailies = s.dailies := rfl

theorem dailies_noteDiffer (s : State) (r : Nat) (n : CoreId) (k : CheckRun) (orig check : TakeRun) :
    (noteDiffer s r n k orig check).dailies = s.dailies := rfl

/-- The check slots of a context, once one that a test picks is freed: one fewer. -/
theorem length_checks_dropCheck {s : State} {r : Nat} {ok : CheckRun → Bool} {k : CheckRun}
    (h : (ctx s r).checks.find? ok = some k) :
    (ctx (dropCheck s r ok) r).checks.length + 1 = (ctx s r).checks.length := by
  rw [dropCheck, ctx_modCtx_same]
  exact List.length_eraseP_add_one (List.mem_of_find?_eq_some h) (List.find?_some h)

/-- A mismatch stands among the check slots of its context. -/
theorem differing_mem_noteDiffer {s : State} {r : Nat} {k : CheckRun} (h : k ∈ (ctx s r).checks) (n : CoreId)
    (orig check : TakeRun) :
    differing n orig check s.tcount k ∈ (ctx (noteDiffer s r n k orig check) r).checks := by
  rw [noteDiffer, ctx_modCtx_same]
  exact List.mem_map.2 ⟨k, h, if_pos rfl⟩

/-! ### Arbiters -/

section
variable {s : State} {n : CoreId} {r : CtxId} {arb : TakeRun} {k : CheckRun} {m : CoreId} {o c : TakeRun}
  (hk : clockRuns s (coreClock n.val) = true)
  (hf : (ctx s r.val).checks.find? (mayArbitrate s r.val n.val) = some k) (hd : k.differ = some (m, o, c))
include hk hf hd

/-- R509, Table 15.5: where the arbiter agrees with the original, the checking core is suspect. -/
theorem exec_arbiter_of_original (ho : sameRun arb o = true) : exec (.arbiter n r arb) s =
    .next (autoTest (suspect r.val k.step (dropCheck s r.val (mayArbitrate s r.val n.val)) m)) := by
  unfold mayArbitrate at hf ⊢
  show execArbiter n r arb s = _
  simp only [execArbiter, onClock_runs hk, hf, hd, ho, if_true]

section
variable (ho : sameRun arb o = false)
include ho

/-- R509, Table 15.5: where the arbiter agrees with the check take, the step fails and the original core is suspect. -/
theorem exec_arbiter_of_check (hc : sameRun arb c = true) : exec (.arbiter n r arb) s =
    .next (autoTest (suspect r.val k.step
      (failStep (dropCheck s r.val (mayArbitrate s r.val n.val)) r.val k.step stDigest) k.core)) := by
  unfold mayArbitrate at hf ⊢
  show execArbiter n r arb s = _
  simp only [execArbiter, onClock_runs hk, hf, hd, ho, hc, if_true, Bool.false_eq_true, if_false, List.foldl_cons,
    List.foldl_nil]

/-- R509, Table 15.5: where the arbiter agrees with neither, the step fails and both cores are suspect. -/
theorem exec_arbiter_of_neither (hc : sameRun arb c = false) : exec (.arbiter n r arb) s =
    .next (autoTest (suspect r.val k.step (suspect r.val k.step
      (failStep (dropCheck s r.val (mayArbitrate s r.val n.val)) r.val k.step stDigest) k.core) m)) := by
  unfold mayArbitrate at hf ⊢
  show execArbiter n r arb s = _
  simp only [execArbiter, onClock_runs hk, hf, hd, ho, hc, Bool.false_eq_true, if_false, List.foldl_cons,
    List.foldl_nil]

end

end

/-! ### Agreement of two runs -/

/-- The contributions of a run, point by point. -/
def byPoint (a : TakeRun) : Tbl Digest := a.contribs.foldl (fun t c => tset t c.1 c.2) []

/-- R400, R508: two runs of a take agree in their take digests and in their contributions, point by point. -/
theorem sameRun_iff {a b : TakeRun} : sameRun a b = true ↔ a.digest = b.digest ∧ byPoint a = byPoint b := by
  simp only [sameRun, Bool.and_eq_true, beq_iff_eq]
  rfl

/-- Two runs that contribute to one point each, and differ there, do not agree. -/
theorem sameRun_of_one_point {a b : TakeRun} {p : Nat} {d e : Digest} (ha : a.contribs = [(p, d)])
    (hb : b.contribs = [(p, e)]) (h : d ≠ e) : sameRun a b = false := by
  refine Bool.eq_false_iff.2 fun hs => h ?_
  have hp := (sameRun_iff.1 hs).2
  simpa [byPoint, ha, hb, tset] using hp

end Sys2Proof.Machine

/-- Settles O48: a commit, a check take and an arbiter do what `exec_mirrorCommit`, `exec_checkTake_same`,
`exec_checkTake_differs` and `exec_arbiter_of_original` to `exec_arbiter_of_neither` say; the counts leave the check slots,
so the slot that is freed or marked is the one found. That the digests of takes are operands is log entry 41. -/
theorem checksOfTakes : Obligations.ChecksOfTakes := by
  refine ⟨fun s n r orig check arb hk => ⟨fun sl m i hs hm hi => ?commit, fun k hf => ?check,
      fun k m o c hf hd => ?arbiter⟩,
    fun a b => ⟨fun hne => Bool.eq_false_iff.2 fun hs => hne (sameRun_iff.1 hs).1, sameRun_iff.2 ⟨rfl, rfl⟩,
      fun p d e ha hb hne => sameRun_of_one_point ha hb hne⟩⟩
  case commit =>
    refine ⟨_, commitBuddy s r.val n.val m, exec_mirrorCommit hk hs hm hi, ?_, rfl, fun m hm => core_modCore_ne hm.symm⟩
    rw [core_modCore_same]
    exact tfind_tset_same ..
  case check =>
    cases h : sameRun ⟨orig, k.made⟩ check with
    | true =>
      refine ⟨_, exec_checkTake_same hk hf h, by rw [dailies_dropCheck, dailies_checkCounted],
        fun _ => ⟨by rw [dailies_dropCheck, dailies_checkCounted], ?_⟩, fun hn => absurd hn (by decide)⟩
      rw [← checks_checkCounted s r.val]
      exact length_checks_dropCheck (by rw [checks_checkCounted]; exact hf)
    | false =>
      refine ⟨_, exec_checkTake_differs hk hf h, by rw [dailies_noteDiffer, dailies_missCounted, dailies_checkCounted],
        fun hn => absurd hn (by decide),
        fun _ => ⟨by rw [dailies_noteDiffer, dailies_missCounted, dailies_checkCounted], ?_⟩⟩
      have hcount : (missCounted (checkCounted s r.val) r.val).tcount = s.tcount :=
        (tcount_ccount ..).trans (tcount_ccount ..)
      rw [← hcount]
      refine differing_mem_noteDiffer ?_ n _ check
      rw [checks_missCounted, checks_checkCounted]
      exact List.mem_of_find?_eq_some hf
  case arbiter =>
    exact ⟨exec_arbiter_of_original hk hf hd, exec_arbiter_of_check hk hf hd, exec_arbiter_of_neither hk hf hd⟩

end

section
/-! PROOFS. Scope: the queue of commands, and a command that is well formed and does not complete. -/

open Sys2Proof Sys2Proof.Machine

/-- Settles O1: a step looks at the front of the queue. -/
theorem stepRunsTheFrontCommand : Obligations.StepRunsTheFrontCommand := by
  intro c rest s h
  simp [step, h]

namespace Sys2Proof.Machine

/-! ### A replay of two submissions, the second of a length that no form has -/

/-- A log record of a submission with a payload of `n` bytes. -/
def submitRec (n : Nat) : LogRec := ⟨1, 0, 0, 0, List.replicate 16 0, List.replicate 16 0, List.replicate n 0⟩

/-- `REPLAY_SUBMIT` of two submissions, of which only the first has the length of one. -/
def replayOfTwo : Instr := .replaySubmit 0 [submitRec 64, submitRec 1]

/-- A device whose host link is up, with a resident context whose log replays (R398). -/
def replaying : State :=
  { State.reset with
    ctxs := [(0, { ctxInit with st := .resident, slot := some 0 })]
    regs := [(F.ctxLogCfgMode.key 0 0, 2)]
    pcie := { State.reset.pcie with link := true } }

/-- The form of the row looks at the first submission alone. -/
theorem wf_replayOfTwo : replayOfTwo.wf = true := by decide

theorem replayOpen_replaying : replayOpen replaying 0 = true := by decide

/-- R399: the length of every submission is looked at, the second one's too. -/
theorem exec_replayOfTwo : exec replayOfTwo replaying = .fault (.badOperand "length of a SUBMIT entry") := by
  show execReplaySubmit 0 [submitRec 64, submitRec 1] replaying = _
  rw [execReplaySubmit, if_neg (by simp [replayOpen_replaying])]
  rfl

end Sys2Proof.Machine

/-- Refutes O3: `REPLAY_SUBMIT` is well formed where its first submission has the length of one, and stops where a later
one has not. -/
theorem not_everyWellFormedCommandCompletes : ¬ Obligations.EveryWellFormedCommandCompletes := by
  unfold Obligations.EveryWellFormedCommandCompletes
  intro h
  obtain ⟨t, ht⟩ | ⟨hrow, -⟩ := h replayOfTwo replaying wf_replayOfTwo
  · rw [exec_replayOfTwo] at ht
    cases ht
  · obtain ⟨_, _, _, hr⟩ | ⟨_, _, hr⟩ | ⟨_, _, _, _, hr⟩ := hrow <;> cases hr

end

section
/-! PROOFS. Scope: what outlives the power (R523, R552, R561, R608), under the work of registers, packets, accesses by
address, movers and takes. -/

open Sys2Proof.Machine

namespace Sys2Proof.Machine

/-! ### What outlives the power -/

/-- What of the shell outlives the power: the grade, the repair store and the fuses. -/
def Shell.lasting (d : Shell) : Chip × Nv := (d.chip, d.nv)

/-- An update of the other fields leaves what lasts. -/
@[simp] theorem lasting_update (s : State) (pending : List Instr) (regs : Tbl Nat) (tcount : Nat) (time : TimeSt)
    (cores : Tbl Core) (ctxs : Tbl Ctx) (tokens : List TokenMove) (frames : Tbl FrameUse)
    (promote : Tbl (Nat × List (CtxId × Nat))) (tables : Tbl Nat) (poolGen : Nat) (fab : Fabric) (bulk : Tbl Xfer)
    (keys : Keys) (sec : Sec) (power : Power) (pins : Pins) (i3c : I3c) (pcie : Pcie) (pair : Pair) (test : Test)
    (dailies : Dailies) (jtag : Jtag) (ddr : Mem) (ddrPoison : Tbl Bool) (hostMem : Mem) (out : List Out)
    (faulted : Bool) (freeCtr : Nat) :
    (shell { s with
      pending, regs, tcount, time, cores, ctxs, tokens, frames, promote, tables, poolGen, fab, bulk, keys, sec,
      power, pins, i3c, pcie, pair, test, dailies, jtag, ddr, ddrPoison, hostMem, out, faulted, freeCtr }).lasting =
      (shell s).lasting := (rfl)

@[simp] theorem lasting_ite {c : Prop} [Decidable c] (s t : Shell) :
    (if c then s else t).lasting = if c then s.lasting else t.lasting := apply_ite Shell.lasting c s t

@[simp] theorem lasting_foldl {α : Type} {f : State → α → State}
    (h : ∀ s a, (shell (f s a)).lasting = (shell s).lasting) (l : List α) (s : State) :
    (shell (l.foldl f s)).lasting = (shell s).lasting := foldl_keeps (fun s => (shell s).lasting) h l s

/-- A fold of updates that may fail leaves what lasts where each of them does. -/
theorem lasting_foldlM {α : Type} {f : State → α → Option State}
    (h : ∀ s a t, f s a = some t → (shell t).lasting = (shell s).lasting) {l : List α} {s t : State}
    (ht : l.foldlM f s = some t) : (shell t).lasting = (shell s).lasting := by
  induction l generalizing s with
  | nil => rw [← Option.some.inj ht]
  | cons a l ih =>
    obtain ⟨u, hu, hl⟩ := Option.bind_eq_some_iff.1 ht
    exact (ih hl).trans (h s a u hu)

theorem lasting_foldl_bind {α : Type} {f : State → α → Option State}
    (h : ∀ s a t, f s a = some t → (shell t).lasting = (shell s).lasting) {l : List α} {s t : State}
    (ht : l.foldl (fun o a => o.bind fun s => f s a) (some s) = some t) : (shell t).lasting = (shell s).lasting :=
  lasting_foldlM h ((List.foldlM_eq_foldl _ _ _).trans ht)

/-- What an update that may fail makes of the state, or the state. -/
theorem lasting_getD {o : Option State} {s : State} (h : ∀ t, o = some t → (shell t).lasting = (shell s).lasting) :
    (shell (o.getD s)).lasting = (shell s).lasting := by
  cases o with
  | none => rfl
  | some t => exact h t rfl

/-- The state of a pair that is known. -/
theorem shell_of_eq {α : Type} {p : State × α} {t : State} {a : α} (h : p = (t, a)) : shell t = shell p.1 := by rw [h]

/-! ### Records and interrupts -/

@[simp] theorem lasting_glbIrq (s : State) (f : Fld) : (shell (glbIrq s f)).lasting = (shell s).lasting := by
  simp [glbIrq]

@[simp] theorem lasting_refuse (s : State) (source index code : Nat) :
    (shell (refuse s source index code)).lasting = (shell s).lasting := by
  simp [refuse]

@[simp] theorem lasting_rangeErr (s : State) : (shell (rangeErr s)).lasting = (shell s).lasting := (rfl)

@[simp] theorem lasting_alertPin (s : State) : (shell (alertPin s)).lasting = (shell s).lasting := (rfl)

@[simp] theorem lasting_modFrame (s : State) (n k : Nat) (f : Frame → Frame) :
    (shell (modFrame s n k f)).lasting = (shell s).lasting := (rfl)

@[simp] theorem lasting_wake (s : State) (ns : List Nat) : (shell (wake s ns)).lasting = (shell s).lasting := by
  simp [wake]

/-! ### Writes of register fields -/

@[simp] theorem lasting_writeField (w : RegWrite) (i j : Nat) (s : State) (f : Fld) :
    (shell (writeField w i j s f)).lasting = (shell s).lasting := by
  simp [writeField]

@[simp] theorem lasting_writeFields (s : State) (w : RegWrite) (fs : List Fld) (i j : Nat) :
    (shell (writeFields s w fs i j)).lasting = (shell s).lasting := by
  simp [writeFields]

@[simp] theorem lasting_clearBit (w : RegWrite) (i j : Nat) (s : State) (f : Fld) :
    (shell (clearBit w i j s f)).lasting = (shell s).lasting := by
  simp [clearBit]

@[simp] theorem lasting_clearBits (s : State) (w : RegWrite) (fs : List Fld) (i j : Nat) :
    (shell (clearBits s w fs i j)).lasting = (shell s).lasting := by
  simp [clearBits]

@[simp] theorem lasting_noteRequest (s : State) (src : MbSrc) :
    (shell (noteRequest s src)).lasting = (shell s).lasting := (rfl)

/-! ### What an instruction records beside its elements -/

@[simp] theorem lasting_stopCore (s : State) (n : Nat) (r : StopRec) :
    (shell (stopCore s n r)).lasting = (shell s).lasting := (rfl)

@[simp] theorem lasting_nanTrap (s : State) (x : Cx) (fmt kblock : Nat) (os : List ElemOut) :
    (shell (nanTrap s x fmt kblock os)).lasting = (shell s).lasting := by
  unfold nanTrap; split <;> simp

@[simp] theorem lasting_notePoison (s : State) (n k lines : Nat) :
    (shell (notePoison s n k lines)).lasting = (shell s).lasting := by
  simp [notePoison]

@[simp] theorem lasting_writeOut (s : State) (x : Cx) (ws : List EW) (status : Option Nat) (os : List ElemOut)
    (poison : Bool) (fmt kblock : Nat) :
    (shell (writeOut s x ws status os poison fmt kblock)).lasting = (shell s).lasting := by
  simp [writeOut]

/-! ### Packets and requests -/

@[simp] theorem lasting_replayFlits (s : State) (p : Nat) :
    (shell (replayFlits s p)).lasting = (shell s).lasting := by
  simp [replayFlits]

@[simp] theorem lasting_owe (s : State) (p pool n : Nat) :
    (shell (owe s p pool n)).lasting = (shell s).lasting := (rfl)

@[simp] theorem lasting_drainPackets (s : State) (p : Nat) :
    (shell (drainPackets s p)).lasting = (shell s).lasting := by
  refine (lasting_foldl (fun s w => ?_) _ _).trans (by rw [shell_modPort])
  split
  · split <;> simp
  · simp

@[simp] theorem lasting_drainPort (s : State) (p : Nat) : (shell (drainPort s p)).lasting = (shell s).lasting := by
  simp [drainPort]

@[simp] theorem lasting_idlePorts (s : State) : (shell (idlePorts s)).lasting = (shell s).lasting := by
  simp [idlePorts]

theorem lasting_sendFrom {s : State} {came : Option Nat} {pk : Packet} {t : State} (h : sendFrom s came pk = some t) :
    (shell t).lasting = (shell s).lasting := by
  obtain ⟨a, -, rfl⟩ := Option.map_eq_some_iff.1 h; simp

@[simp] theorem lasting_dropReq (s : State) (id : Nat) : (shell (dropReq s id)).lasting = (shell s).lasting := (rfl)

@[simp] theorem lasting_modReq (s : State) (id : Nat) (f : Req → Req) :
    (shell (modReq s id f)).lasting = (shell s).lasting := (rfl)

@[simp] theorem lasting_answer (s : State) (pk : Packet) (type status : Nat) (data : Bytes) (bad : List Nat) :
    (shell (answer s pk type status data bad)).lasting = (shell s).lasting := by
  unfold answer
  split
  · rfl
  · exact lasting_getD fun t ht => by rw [shell_sendPkt ht]

@[simp] theorem lasting_diverge (s : State) (r kind : Nat) (id : BitVec 64) :
    (shell (diverge s r kind id)).lasting = (shell s).lasting := by
  simp [diverge]

/-! ### Accesses by address -/

@[simp] theorem lasting_poolFresh (s : State) : (shell (poolFresh s)).lasting = (shell s).lasting := by
  simp [poolFresh]

theorem lasting_farPlace {s t : State} {par : Nat} {loc : PageLoc} {f : Nat} {d : BitVec 12}
    (h : farPlace s par = some (t, loc, f, d)) : (shell t).lasting = (shell s).lasting := by
  unfold farPlace at h
  split at h
  · cases h; simp
  · obtain ⟨i, -, hi⟩ := Option.map_eq_some_iff.1 h
    cases hi
    simp

theorem lasting_placePage {s t : State} {r pg : Nat} {prot : Bool} {key : BitVec 4} {p : Page}
    (h : placePage s r pg prot key = some (t, p)) : (shell t).lasting = (shell s).lasting := by
  unfold placePage at h
  split at h
  · cases h; simp
  · split at h
    · cases h
    · obtain ⟨⟨u, q⟩, hu, hi⟩ := Option.map_eq_some_iff.1 h
      cases hi
      exact lasting_farPlace hu

@[simp] theorem lasting_farPage (s : State) (r pg : Nat) (p : Page) (loc : PageLoc) (frame : Nat) (dev : BitVec 12) :
    (shell (farPage s r pg p loc frame dev)).lasting = (shell s).lasting := by
  unfold farPage; split <;> simp

@[simp] theorem lasting_addTable (s : State) (r pg : Nat) :
    (shell (addTable s r pg)).lasting = (shell s).lasting := by
  simp [addTable]

@[simp] theorem lasting_mapPage (s : State) (r pg : Nat) (p : Page) :
    (shell (mapPage s r pg p)).lasting = (shell s).lasting := by
  simp [mapPage]

@[simp] theorem lasting_noteWait (s : State) (r pg : Nat) (who : Waiter) :
    (shell (noteWait s r pg who)).lasting = (shell s).lasting := by
  simp [noteWait]

@[simp] theorem lasting_touchPage (s : State) (r pg : Nat) (write : Bool) (who : Waiter) :
    (shell (touchPage s r pg write who).1).lasting = (shell s).lasting := by
  unfold touchPage
  split
  · split
    · rfl
    · split
      next hp =>
        split
        · rfl
        · simp [lasting_placePage hp]
      next => simp
  · split <;> simp

@[simp] theorem lasting_touchPages (pgs : List Nat) (s : State) (r : Nat) (write : Bool) (who : Waiter) :
    (shell (touchPages pgs s r write who).1).lasting = (shell s).lasting := by
  induction pgs generalizing s with
  | nil => rfl
  | cons pg t ih =>
    unfold touchPages
    split
    next hp => simp [ih, shell_of_eq hp]
    next => simp

@[simp] theorem lasting_cvRead (s : State) (r va n : Nat) (who : Waiter) :
    (shell (cvRead s r va n who).1).lasting = (shell s).lasting := by
  simp only [cvRead]; (repeat' split) <;> simp

@[simp] theorem lasting_cvWrite (s : State) (r va : Nat) (bs : Bytes) (bad : List Nat) (who : Waiter) :
    (shell (cvWrite s r va bs bad who).1).lasting = (shell s).lasting := by
  simp only [cvWrite]; (repeat' split) <;> simp

@[simp] theorem lasting_clearPages (s : State) (r pg n : Nat) :
    (shell (clearPages s r pg n)).lasting = (shell s).lasting := by
  simp [clearPages]

theorem lasting_globalAtomic {s t : State} {q : Asker} {a atom : Nat} {bs : Bytes} {bad : List Nat}
    (h : globalAtomic s q a atom bs bad = some t) : (shell t).lasting = (shell s).lasting := by
  unfold globalAtomic at h
  split at h
  · rw [shell_globalWrite h]
  · cases h

/-! ### The movers -/

@[simp] theorem lasting_chMod (s : State) (ch : ChanRef) (f : Xfer → Xfer) :
    (shell (chMod s ch f)).lasting = (shell s).lasting := by
  unfold chMod; split <;> simp

@[simp] theorem lasting_bulkSignal (s : State) (b : Nat) : (shell (bulkSignal s b)).lasting = (shell s).lasting := by
  simp [bulkSignal]

@[simp] theorem lasting_dropBurst (s : State) (ch : ChanRef) (k : Nat) :
    (shell (dropBurst s ch k)).lasting = (shell s).lasting := (rfl)

@[simp] theorem lasting_moverFault (s : State) (ch : ChanRef) (k code : Nat) :
    (shell (moverFault s ch k code)).lasting = (shell s).lasting := by
  unfold moverFault; split <;> simp

@[simp] theorem lasting_readRemote (s : State) (ch : ChanRef) (x : Xfer) (k a n : Nat) :
    (shell (readRemote s ch x k a n).1).lasting = (shell s).lasting := by
  unfold readRemote
  split
  next hr => rw [shell_request hr]
  next => rfl

@[simp] theorem lasting_spaceRead (s : State) (ch : ChanRef) (x : Xfer) (k sp a n : Nat) :
    (shell (spaceRead s ch x k sp a n).1).lasting = (shell s).lasting := by
  unfold spaceRead
  split
  · rfl
  · split
    · simp
    · rfl
  · split
    · split
      all_goals
        next hr => simp [shell_of_eq hr]
    · rfl
  · split
    · split
      · rfl
      · split <;> rfl
    · simp
  · split <;> rfl

@[simp] theorem lasting_spaceWrite (s : State) (ch : ChanRef) (x : Xfer) (k sp a atom : Nat) (bs : Bytes)
    (bad : List Nat) : (shell (spaceWrite s ch x k sp a atom bs bad).1).lasting = (shell s).lasting := by
  simp only [spaceWrite]
  split
  · split <;> simp
  · split
    · split
      · rfl
      · split <;> simp
    · rfl
  · split
    · split
      all_goals
        next hr => simp [shell_of_eq hr]
    · rfl
  · split
    · split
      · rfl
      · split
        · rfl
        · split
          next hw => rw [shell_globalWrite hw]
          next => rfl
    · split
      next hr => rw [shell_request hr]
      next => rfl
  · split <;> simp

@[simp] theorem lasting_burstRead (s : State) (ch : ChanRef) (x : Xfer) (k off n : Nat) :
    (shell (burstRead s ch x k off n).1).lasting = (shell s).lasting := by
  simp only [burstRead]; (repeat' split) <;> simp

@[simp] theorem lasting_issueBurst (s : State) (ch : ChanRef) (x : Xfer) :
    (shell (issueBurst s ch x)).lasting = (shell s).lasting := by
  simp only [issueBurst]
  split
  · simp
  · split
    all_goals
      next he => simp [shell_of_eq he]

@[simp] theorem lasting_modXferStep (s : State) (ch : ChanRef) (x : Xfer) (f : Step → Step) :
    (shell (modXferStep s ch x f)).lasting = (shell s).lasting := by
  unfold modXferStep; (repeat' split) <;> simp

@[simp] theorem lasting_logInput (s : State) (r : Nat) (sel : Option (Nat × Nat)) (key data : Nat) (bs : Bytes) :
    (shell (logInput s r sel key data bs).1).lasting = (shell s).lasting := by
  simp only [logInput]; (repeat' split) <;> simp

@[simp] theorem lasting_inputEntry (s : State) (ch : ChanRef) (x : Xfer) :
    (shell (inputEntry s ch x)).lasting = (shell s).lasting := by
  unfold inputEntry; split <;> simp

@[simp] theorem lasting_burstData (s : State) (ch : ChanRef) (k : Nat) (bs : Bytes) (bad : List Nat) :
    (shell (burstData s ch k bs bad)).lasting = (shell s).lasting := by
  simp only [burstData]; split <;> simp

@[simp] theorem lasting_readData (s : State) (ch : ChanRef) (k : Nat) (bs : Bytes) (bad : List Nat) :
    (shell (readData s ch k bs bad)).lasting = (shell s).lasting := by
  simp only [readData]; (repeat' split) <;> simp

@[simp] theorem lasting_landBurst (s : State) (ch : ChanRef) (k : Nat) :
    (shell (landBurst s ch k)).lasting = (shell s).lasting := by
  unfold landBurst; split <;> simp

@[simp] theorem lasting_xferPoison (s : State) (ch : ChanRef) (x : Xfer) (lines : Nat) :
    (shell (xferPoison s ch x lines)).lasting = (shell s).lasting := by
  unfold xferPoison; split <;> simp

@[simp] theorem lasting_shadowFill (s : State) (ch : ChanRef) (x : Xfer) (b : Burst) :
    (shell (shadowFill s ch x b)).lasting = (shell s).lasting := by
  unfold shadowFill
  split
  · rfl
  · refine lasting_foldl (fun s i => ?_) _ _
    split <;> simp

@[simp] theorem lasting_landWrite (s : State) (ch : ChanRef) (x : Xfer) (b : Burst) (bs : Bytes) :
    (shell (landWrite s ch x b bs)).lasting = (shell s).lasting := by
  simp only [landWrite]
  split
  · rfl
  · split
    all_goals
      next he => simp [shell_of_eq he]

@[simp] theorem lasting_lastWrite (s : State) (ch : ChanRef) (x : Xfer) :
    (shell (lastWrite s ch x).1).lasting = (shell s).lasting := by
  simp only [lastWrite]; (repeat' split) <;> simp

@[simp] theorem lasting_intPauseAll (s : State) : (shell (intPauseAll s)).lasting = (shell s).lasting := (rfl)

@[simp] theorem lasting_bulkNext (s : State) (b : BulkId) (x : Xfer) (d : Bytes) :
    (shell (bulkNext s b x d)).lasting = (shell s).lasting := by
  unfold bulkNext; split <;> simp

@[simp] theorem lasting_bulkFetch (s : State) (b : BulkId) (x : Xfer) :
    (shell (bulkFetch s b x)).lasting = (shell s).lasting := by
  simp only [bulkFetch]
  generalize (if fbit s F.bmvCtlFwown b.val 0 = true then 3 else 2) = sp
  split
  · rfl
  · split
    · simp
    · split
      all_goals
        next he => simp [shell_of_eq he]

@[simp] theorem lasting_bulkDone (s : State) (b : BulkId) (x : Xfer) :
    (shell (bulkDone s b x)).lasting = (shell s).lasting := by
  simp [bulkDone]

/-! ### Takes and tokens -/

@[simp] theorem lasting_latchPrios (s : State) (n : Nat) :
    (shell (latchPrios s n)).lasting = (shell s).lasting := (rfl)

@[simp] theorem lasting_kickCore (s : State) (n : Nat) : (shell (kickCore s n)).lasting = (shell s).lasting := by
  simp only [kickCore]; (repeat' split) <;> simp

@[simp] theorem lasting_queueTake (s : State) (n k : Nat) :
    (shell (queueTake s n k)).lasting = (shell s).lasting := (rfl)

@[simp] theorem lasting_addTake (s : State) (n k : Nat) : (shell (addTake s n k)).lasting = (shell s).lasting := by
  simp [addTake]

@[simp] theorem lasting_wakeRest (s : State) (n k : Nat) : (shell (wakeRest s n k)).lasting = (shell s).lasting := by
  simp [wakeRest]

@[simp] theorem lasting_applyToken (s : State) (n k q : Nat) (v : BitVec 32) :
    (shell (applyToken s n k q v)).lasting = (shell s).lasting := by
  simp [applyToken]

@[simp] theorem lasting_holdToken (s : State) (r vx vy q : Nat) (step : Option (BitVec 64)) (v : BitVec 32) :
    (shell (holdToken s r vx vy q step v)).lasting = (shell s).lasting := (rfl)

@[simp] theorem lasting_shelfToken (s : State) (r n q : Nat) (v : BitVec 32) :
    (shell (shelfToken s r n q v)).lasting = (shell s).lasting := (rfl)

@[simp] theorem lasting_deliverUnbound (s : State) (r vx vy q : Nat) (v : BitVec 32) :
    (shell (deliverUnbound s r vx vy q v)).lasting = (shell s).lasting := by
  simp only [deliverUnbound]; split <;> simp

@[simp] theorem lasting_deliverBound (s : State) (r vx vy q : Nat) (id : BitVec 64) (v : BitVec 32) :
    (shell (deliverBound s r vx vy q id v).1).lasting = (shell s).lasting := by
  simp only [deliverBound]; (repeat' split) <;> simp

@[simp] theorem lasting_deliverToken (s : State) (r vx vy q : Nat) (step : Option (BitVec 64)) (v : BitVec 32) :
    (shell (deliverToken s r vx vy q step v).1).lasting = (shell s).lasting := by
  simp only [deliverToken]; split <;> simp

@[simp] theorem lasting_sendToken (s : State) (n k : Nat) (peer : ChanPeer) (v : BitVec 32) :
    (shell (sendToken s n k peer v)).lasting = (shell s).lasting := by
  unfold sendToken
  split
  · split
    · simp
    · simp only
      split
      · simp
      · split
        next hr => rw [shell_request hr]
        next => simp
  · rfl

@[simp] theorem lasting_askLaunch (s : State) (r : Nat) (w : LaunchOf) (target : Nat) :
    (shell (askLaunch s r w target)).lasting = (shell s).lasting := by
  simp [askLaunch]

@[simp] theorem lasting_openCheck (s : State) (r k n vx vy : Nat) (take : BitVec 32) :
    (shell (openCheck s r k n vx vy take)).lasting = (shell s).lasting := by
  unfold openCheck; split <;> simp

@[simp] theorem lasting_closeCheck (s : State) (r vx vy : Nat) (take : BitVec 32) (made : Tbl Digest) :
    (shell (closeCheck s r vx vy take made)).lasting = (shell s).lasting := (rfl)

@[simp] theorem lasting_commitMirror (s : State) (n k r : Nat) :
    (shell (commitMirror s n k r)).lasting = (shell s).lasting := by
  simp [commitMirror]

@[simp] theorem lasting_closeTake (s : State) (n k : Nat) :
    (shell (closeTake s n k)).lasting = (shell s).lasting := by
  simp only [closeTake]; split <;> simp

@[simp] theorem lasting_openTake (s : State) (n k : Nat) : (shell (openTake s n k)).lasting = (shell s).lasting := by
  unfold openTake; split <;> simp

@[simp] theorem lasting_cutCore (s : State) (n k : Nat) : (shell (cutCore s n k)).lasting = (shell s).lasting := by
  simp [cutCore]

@[simp] theorem lasting_markFrame (s : State) (n k : Nat) :
    (shell (markFrame s n k)).lasting = (shell s).lasting := (rfl)

@[simp] theorem lasting_turnEntry (s : State) (n k : Nat) (keep : Bool) :
    (shell (turnEntry s n k keep)).lasting = (shell s).lasting := by
  unfold turnEntry; split <;> simp

@[simp] theorem lasting_endPart (s : State) (n k : Nat) (p : PartSt) :
    (shell (endPart s n k p)).lasting = (shell s).lasting := by
  unfold endPart; split <;> simp

@[simp] theorem lasting_yieldCut (s : State) (n k : Nat) : (shell (yieldCut s n k)).lasting = (shell s).lasting := by
  unfold yieldCut; split <;> simp

@[simp] theorem lasting_finishStop (s : State) (n k : Nat) (t : StopRec) :
    (shell (finishStop s n k t)).lasting = (shell s).lasting := by
  unfold finishStop; split <;> simp

/-! ### The end of a step -/

@[simp] theorem lasting_readyCore (s : State) (n k : Nat) (ic : CoreImage) (pc : Nat) (args : List (BitVec 32)) :
    (shell (readyCore s n k ic pc args)).lasting = (shell s).lasting := (rfl)

end Sys2Proof.Machine

end

section
/-! PROOFS. Scope: what outlives the power, under the work of contexts, pages, steps, links, the fabric, snapshots
and reels. -/

open Sys2Proof.Machine

namespace Sys2Proof.Machine

/-! ### Contexts and their cores -/

@[simp] theorem lasting_assignCore (r k : Nat) (img : Image) (code data : Bool) (s : State) (m : CoreId × Nat × Nat) :
    (shell (assignCore r k img code data s m)).lasting = (shell s).lasting := by
  unfold assignCore; split <;> simp

@[simp] theorem lasting_assignMirrors (s : State) (k r : Nat) :
    (shell (assignMirrors s k r)).lasting = (shell s).lasting := by
  refine lasting_foldl (fun s m => ?_) _ _
  split <;> simp

@[simp] theorem lasting_mapShelf (s : State) (r : Nat) (img : Image) :
    (shell (mapShelf s r img)).lasting = (shell s).lasting := by
  refine lasting_foldl (fun s i => ?_) _ _
  split
  next hp => simp [lasting_placePage hp]
  next => rfl

@[simp] theorem lasting_restoreBlock (s : State) (sl : Nat) (t : Tbl Nat) :
    (shell (restoreBlock s sl t)).lasting = (shell s).lasting :=
  (lasting_foldl (fun s _ => lasting_update s ..) _ _).trans (by rw [shell_clearBlock])

@[simp] theorem lasting_killAll (s : State) (r o : Nat) : (shell (killAll s r o)).lasting = (shell s).lasting := by
  simp [killAll]

@[simp] theorem lasting_reelSignal (s : State) (r : Nat) : (shell (reelSignal s r)).lasting = (shell s).lasting := by
  simp [reelSignal]

@[simp] theorem lasting_printSignal (s : State) (r : Nat) :
    (shell (printSignal s r)).lasting = (shell s).lasting := by
  simp [printSignal]

/-! ### Daily records and device faults -/

@[simp] theorem lasting_dailyPut (s : State) (bs : Bytes) : (shell (dailyPut s bs)).lasting = (shell s).lasting := by
  simp [dailyPut]

@[simp] theorem lasting_dailyRing (s : State) (rec : Bytes) :
    (shell (dailyRing s rec)).lasting = (shell s).lasting := by
  simp [dailyRing]

@[simp] theorem lasting_daily (s : State) (type : Nat) (own : List (Nat × Bytes)) :
    (shell (daily s type own)).lasting = (shell s).lasting := by
  simp [daily]

@[simp] theorem lasting_faultRecord (s : State) (unit : Nat × Nat) (cls action : Nat)
    (steps : List (Nat × Nat)) : (shell (faultRecord s unit cls action steps)).lasting = (shell s).lasting := by
  simp [faultRecord]

@[simp] theorem lasting_testRecord (s : State) (unit : Nat × Nat) (result : Nat)
    (place : Option (Nat × Nat)) : (shell (testRecord s unit result place)).lasting = (shell s).lasting := by
  simp [testRecord]

@[simp] theorem lasting_bulkFail (s : State) (b : BulkId) : (shell (bulkFail s b)).lasting = (shell s).lasting := by
  simp [bulkFail]

@[simp] theorem lasting_pgFail (s : State) (r : Nat) : (shell (pgFail s r)).lasting = (shell s).lasting := by
  simp [pgFail]

@[simp] theorem lasting_endedFail (s : State) (r o : Nat) :
    (shell (endedFail s r o)).lasting = (shell s).lasting := (rfl)

@[simp] theorem lasting_raiseAlert (s : State) (f : Fld) : (shell (raiseAlert s f)).lasting = (shell s).lasting := by
  simp [raiseAlert]

@[simp] theorem lasting_collDown (r : Nat) (s : State) (e : Nat × CollQ) :
    (shell (collDown r s e)).lasting = (shell s).lasting := by
  unfold collDown; split <;> simp

@[simp] theorem lasting_testsDown (s : State) : (shell (testsDown s)).lasting = (shell s).lasting := by
  unfold testsDown; split <;> simp

@[simp] theorem lasting_deviceFault (s : State) : (shell (deviceFault s)).lasting = (shell s).lasting := by
  simp [deviceFault]

/-! ### Pages and lines -/

@[simp] theorem lasting_poisonLine (s : State) (p : Nat) : (shell (poisonLine s p)).lasting = (shell s).lasting := by
  unfold poisonLine; split <;> simp

@[simp] theorem lasting_cleanLine (s : State) (p : Nat) : (shell (cleanLine s p)).lasting = (shell s).lasting := by
  unfold cleanLine; split <;> simp

@[simp] theorem lasting_changeLine (s : State) (p : Nat) (mask : Bytes) :
    (shell (changeLine s p mask)).lasting = (shell s).lasting := by
  unfold changeLine; (repeat' split) <;> simp

@[simp] theorem lasting_errorLog (s : State) (ch addr kind : Nat) :
    (shell (errorLog s ch addr kind)).lasting = (shell s).lasting := (rfl)

@[simp] theorem lasting_noteCorrected (s : State) (ch addr : Nat) (es : List (Nat × Nat)) :
    (shell (noteCorrected s ch addr es)).lasting = (shell s).lasting := by
  simp [noteCorrected]

@[simp] theorem lasting_noteUncorrectable (s : State) (ch addr : Nat) :
    (shell (noteUncorrectable s ch addr)).lasting = (shell s).lasting := by
  simp [noteUncorrectable]

@[simp] theorem lasting_otherCopy (s : State) (p : Nat) (copy : List (BitVec 16)) :
    (shell (otherCopy s p copy)).lasting = (shell s).lasting := by
  simp only [otherCopy]; split <;> simp

@[simp] theorem lasting_lineRead (s : State) (ch addr : Nat) (err copy : List (BitVec 16)) (mark : Bool) :
    (shell (lineRead s ch addr err copy mark)).lasting = (shell s).lasting := by
  simp only [lineRead]; (repeat' split) <;> simp

@[simp] theorem lasting_memFail (s : State) (code : Nat) :
    (shell (memFail s code)).lasting = (shell s).lasting := (rfl)

@[simp] theorem lasting_trainChannel (s : State) (mode : Nat) (p : DdrModule × Nat) :
    (shell (trainChannel s mode p)).lasting = (shell s).lasting := by
  simp [trainChannel]

@[simp] theorem lasting_demoteOne (par : Nat) (a : State × Nat) (e : Nat × Nat × Page) :
    (shell (demoteOne par a e).1).lasting = (shell a.1).lasting := by
  simp only [demoteOne]
  split
  · rfl
  · split
    next hp => rw [shell_beginMove, lasting_farPlace hp]
    next => rfl

@[simp] theorem lasting_clearAccesses (s : State) (par : Nat) :
    (shell (clearAccesses s par)).lasting = (shell s).lasting := (rfl)

@[simp] theorem lasting_lendStep (s : State) (par : Nat) : (shell (lendStep s par)).lasting = (shell s).lasting := by
  simp only [lendStep]; (repeat' split) <;> simp

@[simp] theorem lasting_losePage (s : State) (r pg : Nat) :
    (shell (losePage s r pg)).lasting = (shell s).lasting := by
  simp [losePage]

theorem lasting_pgAlloc {s t : State} {r pg : Nat} {prot : Bool} {key : BitVec 4}
    (ht : pgAlloc s r pg prot key = .ok t) : (shell t).lasting = (shell s).lasting := by
  unfold pgAlloc at ht
  split at ht
  · cases ht
  · split at ht
    · cases ht; rfl
    · split at ht
      · cases ht
      · split at ht
        next hp => cases ht; simp [lasting_placePage hp]
        next => cases ht

theorem lasting_pgFree {s t : State} {r pg : Nat} (ht : pgFree s r pg = .ok t) :
    (shell t).lasting = (shell s).lasting := by
  unfold pgFree at ht
  split at ht
  · split at ht
    · cases ht
    · cases ht; simp
  · cases ht; rfl

theorem lasting_pgPin {s t : State} {r pg : Nat} (ht : pgPin s r pg = .ok t) :
    (shell t).lasting = (shell s).lasting := by
  unfold pgPin at ht
  split at ht
  · cases ht; rfl
  · split at ht
    · cases ht; simp
    · cases ht

@[simp] theorem lasting_pgPrep (s : State) (r op pg : Nat) :
    (shell (pgPrep s r op pg)).lasting = (shell s).lasting := by
  unfold pgPrep; split <;> simp

theorem lasting_pgOne {s t : State} {r op attr pg : Nat} {key : BitVec 4} (ht : pgOne s r op attr key pg = .ok t) :
    (shell t).lasting = (shell s).lasting := by
  unfold pgOne at ht
  split at ht
  · cases ht
  · simp only at ht
    split at ht
    · exact lasting_pgAlloc ht
    · exact lasting_pgFree ht
    · cases ht; simp
    · cases ht; simp
    · exact lasting_pgPin ht
    · cases ht; simp
    · cases ht; simp
    · cases ht

@[simp] theorem lasting_pgRun (n : Nat) (s : State) (r op attr : Nat) (key : BitVec 4) (pg k : Nat) :
    (shell (pgRun n s r op attr key pg k).1).lasting = (shell s).lasting := by
  induction n generalizing s pg k with
  | zero => rfl
  | succ n ih =>
    unfold pgRun
    simp only
    split
    · simp
    · split
      next ho => simp [ih, lasting_pgOne ho]
      next => simp

@[simp] theorem lasting_pgFinish (s : State) (sl r result k : Nat) :
    (shell (pgFinish s sl r result k)).lasting = (shell s).lasting := by
  simp [pgFinish]

@[simp] theorem lasting_pgFrom (s : State) (sl r k : Nat) :
    (shell (pgFrom s sl r k)).lasting = (shell s).lasting := by
  simp only [pgFrom]; split <;> simp

@[simp] theorem lasting_pgCommand (s : State) (sl r : Nat) :
    (shell (pgCommand s sl r)).lasting = (shell s).lasting := by
  simp [pgCommand]

@[simp] theorem lasting_resumePg (s : State) (r : Nat) : (shell (resumePg s r)).lasting = (shell s).lasting := by
  unfold resumePg; split <;> simp

@[simp] theorem lasting_pgWrite (s : State) (sl : SlotId) (w : RegWrite) :
    (shell (pgWrite sl w s)).lasting = (shell s).lasting := by
  simp only [pgWrite]; (repeat' split) <;> simp

/-! ### Launches, records and call sheets -/

@[simp] theorem lasting_applyHeld (s : State) (r k : Nat) (st : Step) (unbound : Bool) :
    (shell (applyHeld s r k st unbound)).lasting = (shell s).lasting := by
  refine (lasting_foldl (fun s h => ?_) _ _).trans (by rw [shell_modCtx])
  split <;> simp

@[simp] theorem lasting_fallbackOf (s : State) (r : Nat) (st : Step) :
    (shell (fallbackOf s r st).1).lasting = (shell s).lasting := by
  simp only [fallbackOf]; (repeat' split) <;> simp

@[simp] theorem lasting_launchEntry (s : State) (r : Nat) (st : Step) (type key data : Nat)
    (payload : Bytes) : (shell (launchEntry s r st type key data payload).1).lasting = (shell s).lasting := by
  simp [launchEntry]

@[simp] theorem lasting_intervene (s : State) (r : Nat) (id : BitVec 64) :
    (shell (intervene s r id)).lasting = (shell s).lasting := by
  simp [intervene]

@[simp] theorem lasting_launchLog (s : State) (r : Nat) (st : Step) (fresh : Bool) :
    (shell (launchLog s r st fresh).1).lasting = (shell s).lasting := by
  unfold launchLog
  lift_lets
  extract_lets g early st' s' p₁ p₂ p₃
  have h₃ : (shell p₃.1).lasting = (shell s).lasting := by
    simp only [p₃]
    split <;> simp [p₁, p₂, s']
  split
  · simpa using h₃
  · split
    · simpa using h₃
    · split <;> simpa using h₃

@[simp] theorem lasting_openMirror (s : State) (n k r : Nat) :
    (shell (openMirror s n k r)).lasting = (shell s).lasting := by
  simp [openMirror]

@[simp] theorem lasting_openPart (r k : Nat) (s : State) (n : Nat) :
    (shell (openPart r k s n)).lasting = (shell s).lasting := by
  simp [openPart]

@[simp] theorem lasting_startStep (s : State) (r g : Nat) (st : Step) :
    (shell (startStep s r g st)).lasting = (shell s).lasting := by
  simp [startStep]

@[simp] theorem lasting_dropHead (s : State) (r o : Nat) (st : Step) :
    (shell (dropHead s r o st)).lasting = (shell s).lasting := by
  simp [dropHead]

@[simp] theorem lasting_launchNow (s : State) (r : Nat) (st : Step) :
    (shell (launchNow s r st)).lasting = (shell s).lasting := by
  unfold launchNow; (repeat' split) <;> simp

@[simp] theorem lasting_joinEntry (s : State) (n k pc : Nat) :
    (shell (joinEntry s n k pc)).lasting = (shell s).lasting := by
  simp [joinEntry]

@[simp] theorem lasting_launchEntryAt (s : State) (r : Nat) (st : Step) (e : Nat × Nat × Nat) :
    (shell (launchEntryAt s r st e)).lasting = (shell s).lasting := by
  simp only [launchEntryAt]; (repeat' split) <;> simp

@[simp] theorem lasting_writeSlate (s : State) (r : Nat) (st : Step) :
    (shell (writeSlate s r st)).lasting = (shell s).lasting := by
  simp [writeSlate]

@[simp] theorem lasting_writeRecord (s : State) (r : Nat) (st : Step) :
    (shell (writeRecord s r st)).lasting = (shell s).lasting := by
  simp [writeRecord]

@[simp] theorem lasting_signalRecord (s : State) (r : Nat) :
    (shell (signalRecord s r)).lasting = (shell s).lasting := by
  simp [signalRecord]

@[simp] theorem lasting_refuseSheet (s : State) (r code adv : Nat) :
    (shell (refuseSheet s r code adv)).lasting = (shell s).lasting := by
  simp [refuseSheet]

@[simp] theorem lasting_acceptStep (s : State) (r : Nat) (d args : Bytes) (count : Nat)
    (log : Bool) : (shell (acceptStep s r d args count log)).lasting = (shell s).lasting := by
  simp [acceptStep]

@[simp] theorem lasting_headBy (s : State) (r n : Nat) : (shell (headBy s r n)).lasting = (shell s).lasting := by
  simp [headBy]

@[simp] theorem lasting_takeSlots (fuel : Nat) (slots : List (Option Bytes)) (s : State) (r tail : Nat) :
    (shell (takeSlots fuel slots s r tail)).lasting = (shell s).lasting := by
  induction fuel generalizing s slots with
  | zero => rfl
  | succ fuel ih => unfold takeSlots; simp only; (repeat' split) <;> simp [ih]

@[simp] theorem lasting_pollOne (s : State) (rd : SheetRead) :
    (shell (pollOne s rd)).lasting = (shell s).lasting := by
  unfold pollOne; (repeat' split) <;> simp

@[simp] theorem lasting_startClock (s : State) (r tc : Nat) :
    (shell (startClock s r tc)).lasting = (shell s).lasting := by
  simp [startClock]

@[simp] theorem lasting_readRing (es : List LogRec) (s : State) (r : Nat) :
    (shell (readRing es s r)).lasting = (shell s).lasting := by
  induction es generalizing s with
  | nil => rfl
  | cons e es ih =>
    unfold readRing
    split
    · rfl
    · simp [ih]

@[simp] theorem lasting_acceptDue (n : Nat) (s : State) (r : Nat) :
    (shell (acceptDue n s r)).lasting = (shell s).lasting := by
  induction n generalizing s with
  | zero => rfl
  | succ n ih => unfold acceptDue; (repeat' split) <;> simp [ih]

/-! ### Shelving and return -/

@[simp] theorem lasting_putCtl (s : State) (sl : Nat) (w : RegWrite) :
    (shell (putCtl s sl w)).lasting = (shell s).lasting := by
  simp [putCtl]

@[simp] theorem lasting_refuseContext (s : State) (sl code : Nat) (partner : Option Counterpart) :
    (shell (refuseContext s sl code partner)).lasting = (shell s).lasting := by
  unfold refuseContext
  simp only
  split <;> simp

@[simp] theorem lasting_admitContext (s : State) (sl : SlotId) (img : Image) :
    (shell (admitContext s sl img)).lasting = (shell s).lasting := by
  unfold admitContext
  simp only [shell_cset]
  rw [lasting_foldl fun s f => by rw [shell_cset], lasting_mapShelf]
  simp

@[simp] theorem lasting_observe (s : State) : (shell (observe s)).lasting = (shell s).lasting := (rfl)

@[simp] theorem lasting_parkRest (k : Nat) (s : State) (m : CoreId × Nat × Nat) :
    (shell (parkRest k s m)).lasting = (shell s).lasting := by
  simp [parkRest]

@[simp] theorem lasting_beginShelve (s : State) (r : Nat) :
    (shell (beginShelve s r)).lasting = (shell s).lasting := by
  unfold beginShelve; split <;> simp

@[simp] theorem lasting_completeShelve (s : State) (r : Nat) :
    (shell (completeShelve s r)).lasting = (shell s).lasting := by
  unfold completeShelve; split <;> simp

@[simp] theorem lasting_endShelve (s : State) (r : CtxId) : (shell (endShelve s r)).lasting = (shell s).lasting := by
  simp [endShelve]

@[simp] theorem lasting_beginReturn (s : State) (r : Nat) :
    (shell (beginReturn s r)).lasting = (shell s).lasting := by
  unfold beginReturn; split <;> simp

@[simp] theorem lasting_unshelveCore (k : Nat) (s : State) (e : ShelfCore) :
    (shell (unshelveCore k s e)).lasting = (shell s).lasting := by
  simp [unshelveCore]

@[simp] theorem lasting_endReturn (s : State) (r : Nat) : (shell (endReturn s r)).lasting = (shell s).lasting := by
  simp [endReturn]

@[simp] theorem lasting_completeReturn (s : State) (r : Nat) (bytes : Option Bytes) :
    (shell (completeReturn s r bytes)).lasting = (shell s).lasting := by
  simp only [completeReturn]; (repeat' split) <;> simp

@[simp] theorem lasting_claimCore (r k : Nat) (args : List (BitVec 32)) (entry : Nat) (s : State)
    (p : Nat × CoreImage) : (shell (claimCore r k args entry s p)).lasting = (shell s).lasting := (rfl)

@[simp] theorem lasting_startFloat (s : State) (r : Nat) (st : Step) (ps : List (Nat × CoreImage)) :
    (shell (startFloat s r st ps)).lasting = (shell s).lasting := by
  simp [startFloat]

@[simp] theorem lasting_losePart (n : Nat) (s : State) (k : Nat) :
    (shell (losePart n s k)).lasting = (shell s).lasting := by
  unfold losePart; split <;> simp

@[simp] theorem lasting_loseCore (s : State) (r n : Nat) : (shell (loseCore s r n)).lasting = (shell s).lasting := by
  unfold loseCore; split <;> simp

/-! ### Time -/

@[simp] theorem lasting_nextCount (s : State) : (shell (nextCount s)).lasting = (shell s).lasting := by
  simp [nextCount]

@[simp] theorem lasting_enterFree (s : State) : (shell (enterFree s)).lasting = (shell s).lasting := (rfl)

@[simp] theorem lasting_acquireStep (s : State) (target : Nat) :
    (shell (acquireStep s target)).lasting = (shell s).lasting := by
  simp [acquireStep]

@[simp] theorem lasting_timeAlarm (s : State) (f : Fld) : (shell (timeAlarm s f)).lasting = (shell s).lasting := by
  simp [timeAlarm]

@[simp] theorem lasting_upMarker (s : State) (d : ℤ) (m : Marker) :
    (shell (upMarker s d m)).lasting = (shell s).lasting := by
  simp only [upMarker]; split <;> simp

@[simp] theorem lasting_startTicks (s : State) (g : Nat) :
    (shell (startTicks s g)).lasting = (shell s).lasting := (rfl)

/-! ### Links -/

@[simp] theorem lasting_portEvent (s : State) (p : Nat) (f : Fld) :
    (shell (portEvent s p f)).lasting = (shell s).lasting := by
  simp [portEvent]

@[simp] theorem lasting_leftDetect (s : State) (p : Nat) : (shell (leftDetect s p)).lasting = (shell s).lasting := by
  simp [leftDetect]

@[simp] theorem lasting_portFail (s : State) (p code : Nat) :
    (shell (portFail s p code)).lasting = (shell s).lasting := by
  simp [portFail]

@[simp] theorem lasting_toDetect (s : State) (p : Nat) : (shell (toDetect s p)).lasting = (shell s).lasting := by
  simp [toDetect]

@[simp] theorem lasting_retireLanes (s : State) (p m : Nat) :
    (shell (retireLanes s p m)).lasting = (shell s).lasting := by
  simp [retireLanes]

@[simp] theorem lasting_putDelay (s : State) (p : Nat) (d : ℤ) :
    (shell (putDelay s p d)).lasting = (shell s).lasting := (rfl)

@[simp] theorem lasting_replayPort (s : State) (p : Nat) : (shell (replayPort s p)).lasting = (shell s).lasting := by
  simp [replayPort]

@[simp] theorem lasting_putLink (s : State) (p : Nat) (w : RegWrite) :
    (shell (putLink s p w)).lasting = (shell s).lasting := by
  simp [putLink]

@[simp] theorem lasting_portBytes (s : State) (p msg : Nat) (bs : Bytes) :
    (shell (portBytes s p msg bs)).lasting = (shell s).lasting := by
  simp [portBytes]

@[simp] theorem lasting_trainingFailed (s : State) (p : Nat) :
    (shell (trainingFailed s p)).lasting = (shell s).lasting := by
  simp [trainingFailed]

@[simp] theorem lasting_beginKeyx (s : State) (p : Nat) : (shell (beginKeyx s p)).lasting = (shell s).lasting := by
  simp [beginKeyx]

@[simp] theorem lasting_endKeyx (s : State) (p : Nat) (partner : Bytes) :
    (shell (endKeyx s p partner)).lasting = (shell s).lasting := by
  simp [endKeyx]

@[simp] theorem lasting_firstKeys (s : State) (p : Nat) : (shell (firstKeys s p)).lasting = (shell s).lasting := (rfl)

theorem lasting_rxPackets {k : Nat} {s t : State} {p : Nat} (h : rxPackets k s p = some t) :
    (shell t).lasting = (shell s).lasting := by
  induction k generalizing s with
  | zero => rw [← Option.some.inj h]
  | succ k ih =>
    unfold rxPackets at h
    lift_lets at h
    extract_lets q bs hd n ks s' at h
    split at h
    · simpa using ih h
    · split at h
      · rw [← Option.some.inj h]
      · split at h
        · cases h
        · simpa [s'] using ih h

@[simp] theorem lasting_ctrlFreed (s : State) (p : Nat) (f : Flit) :
    (shell (ctrlFreed s p f)).lasting = (shell s).lasting := by
  simp [ctrlFreed]

@[simp] theorem lasting_takeFlit (s : State) (p : Nat) (f : Flit) :
    (shell (takeFlit s p f)).lasting = (shell s).lasting := by
  simp only [takeFlit]
  split
  · simp
  next hr => split <;> simp [lasting_rxPackets hr]

@[simp] theorem lasting_noteFixed (s : State) (p : Nat) (fixed : List Nat) :
    (shell (noteFixed s p fixed)).lasting = (shell s).lasting := by
  simp [noteFixed]

@[simp] theorem lasting_portDown (s : State) (p : Nat) : (shell (portDown s p)).lasting = (shell s).lasting := by
  simp [portDown]

@[simp] theorem lasting_abortCopies (s : State) : (shell (abortCopies s)).lasting = (shell s).lasting := by
  refine (lasting_intPauseAll _).trans (lasting_foldl (fun s e => ?_) _ _)
  split
  · split <;> simp
  · rfl

/-! ### Packets served and answered -/

@[simp] theorem lasting_rqLand (a n : Nat) (s : State) (i : Nat) :
    (shell (rqLand a n s i)).lasting = (shell s).lasting := (rfl)

theorem lasting_takeWrite {s t : State} {pk : Packet} (h : takeWrite s pk = some t) :
    (shell t).lasting = (shell s).lasting := by
  simp only [takeWrite] at h
  split at h
  · cases h
  · obtain ⟨u, hu, rfl⟩ := Option.map_eq_some_iff.1 h
    simp [shell_globalWrite hu]

theorem lasting_takeAtomic {s t : State} {pk : Packet} (h : takeAtomic s pk = some t) :
    (shell t).lasting = (shell s).lasting := by
  simp only [takeAtomic] at h
  split at h
  · cases h
  · exact lasting_globalAtomic h

@[simp] theorem lasting_takeToken (s : State) (pk : Packet) :
    (shell (takeToken s pk).1).lasting = (shell s).lasting := by
  simp [takeToken]

@[simp] theorem lasting_serveNow (s : State) (pk : Packet) : (shell (serveNow s pk)).lasting = (shell s).lasting := by
  simp only [serveNow]
  split
  · split
    next hw =>
      split at hw
      · cases hw
      · simp [lasting_takeWrite hw]
    next => simp
  · split <;> simp
  · split
    all_goals
      next ht => simp [shell_of_eq ht]
  · split
    next hw =>
      split at hw
      · cases hw
      · simp [lasting_takeAtomic hw]
    next => simp
  · rfl

@[simp] theorem lasting_serve (s : State) (p : Nat) (pk : Packet) :
    (shell (serve s p pk)).lasting = (shell s).lasting := by
  simp [serve]

@[simp] theorem lasting_serveStalled (s : State) : (shell (serveStalled s)).lasting = (shell s).lasting := by
  simp [serveStalled]

@[simp] theorem lasting_dropPkt (s : State) (p : Nat) (pk : Packet) (f : Fld) :
    (shell (dropPkt s p pk f)).lasting = (shell s).lasting := (rfl)

@[simp] theorem lasting_transit (s : State) (p : Nat) (pk : Packet) :
    (shell (transit s p pk)).lasting = (shell s).lasting := by
  unfold transit
  split
  · simp
  · cases hp : sendFrom s (some p) { pk with hops := pk.hops - 1 } with
    | none => simp
    | some t => exact lasting_sendFrom hp

@[simp] theorem lasting_inbound (s : State) (p : Nat) (pk : Packet) :
    (shell (inbound s p pk).1).lasting = (shell s).lasting := by
  simp [inbound]

@[simp] theorem lasting_tokenOutcome (s : State) (q : Req) (o : Nat) :
    (shell (tokenOutcome s q o)).lasting = (shell s).lasting := by
  unfold tokenOutcome; split <;> simp

@[simp] theorem lasting_collFail (s : State) (e r idx outcome : Nat) :
    (shell (collFail s e r idx outcome)).lasting = (shell s).lasting := by
  simp [collFail]

@[simp] theorem lasting_endRequest (s : State) (q : Req) (fault outcome print : Nat) :
    (shell (endRequest s q fault outcome print)).lasting = (shell s).lasting := by
  unfold endRequest; split <;> simp

@[simp] theorem lasting_linkEnd (s : State) (q : Req) : (shell (linkEnd s q)).lasting = (shell s).lasting := by
  simp [linkEnd]

@[simp] theorem lasting_resend (s : State) (q : Req) : (shell (resend s q)).lasting = (shell s).lasting := by
  simp only [resend]
  split
  next hs => simp [shell_sendPkt hs]
  next => simp

@[simp] theorem lasting_reportAnswer (s : State) (q : Req) :
    (shell (reportAnswer s q)).lasting = (shell s).lasting := by
  simp [reportAnswer]

@[simp] theorem lasting_readDone (s : State) (q : Req) (pk : Packet) :
    (shell (readDone s q pk)).lasting = (shell s).lasting := by
  unfold readDone; (repeat' split) <;> simp

@[simp] theorem lasting_ackDone (s : State) (q : Req) (pk : Packet) :
    (shell (ackDone s q pk)).lasting = (shell s).lasting := by
  unfold ackDone; (repeat' split) <;> simp

/-! ### Snapshots -/

@[simp] theorem lasting_destTable (s : State) (r n : Nat) :
    (shell (destTable s r n).1).lasting = (shell s).lasting := by
  simp only [destTable]
  split
  · rfl
  · split
    all_goals
      next hr => simp [shell_of_eq hr]

@[simp] theorem lasting_printCheck (s : State) (r : Nat) :
    (shell (printCheck s r).1).lasting = (shell s).lasting := by
  simp only [printCheck]
  split
  · rfl
  · split
    · next hd => simp [shell_of_eq hd]
    · next hd =>
        (repeat' split) <;> simp [shell_of_eq hd]

@[simp] theorem lasting_printGo (s : State) (r : Nat) : (shell (printGo s r)).lasting = (shell s).lasting := by
  unfold printGo
  split
  all_goals
    next hp => simp [shell_of_eq hp]

theorem lasting_shipPage {s t : State} {r pg dst : Nat} (h : shipPage s r pg dst = some t) :
    (shell t).lasting = (shell s).lasting := by
  refine lasting_foldl_bind (fun s i t ht => ?_) h
  obtain ⟨u, hu, rfl⟩ := Option.map_eq_some_iff.1 ht
  simp [shell_request hu]

@[simp] theorem lasting_shipPages (ps : List (Nat × Nat)) (s : State) (r : Nat) :
    (shell (shipPages ps s r)).lasting = (shell s).lasting := by
  induction ps generalizing s with
  | nil => rfl
  | cons p ps ih =>
    rw [shipPages_cons]
    split
    next hp => exact (ih _).trans (lasting_shipPage hp)
    next => simp

@[simp] theorem lasting_printDone (s : State) (r : Nat) (p : Snap) :
    (shell (printDone s r p)).lasting = (shell s).lasting := by
  simp [printDone]

/-! ### Reels -/

@[simp] theorem lasting_reelRefuse (s : State) (r e : Nat) :
    (shell (reelRefuse s r e)).lasting = (shell s).lasting := by
  simp [reelRefuse]

@[simp] theorem lasting_putLines (s : State) (r : Nat) : (shell (putLines s r)).lasting = (shell s).lasting := by
  unfold putLines; split <;> simp

@[simp] theorem lasting_toDevice (s : State) (dev msg : Nat) (data : List Nat) :
    (shell (toDevice s dev msg data)).lasting = (shell s).lasting := by
  unfold toDevice; split <;> simp

@[simp] theorem lasting_sendChunk (s : State) (dev gen shard chunk : Nat) (data : Bytes) :
    (shell (sendChunk s dev gen shard chunk data)).lasting = (shell s).lasting := by
  simp [sendChunk]

@[simp] theorem lasting_readChunk (s : State) (r : Nat) (h : Shard) (i : Nat) :
    (shell (readChunk s r h i)).lasting = (shell s).lasting := by
  simp [readChunk]

@[simp] theorem lasting_readNext (s : State) (r tile : Nat) :
    (shell (readNext s r tile)).lasting = (shell s).lasting := by
  unfold readNext; (repeat' split) <;> simp

@[simp] theorem lasting_reelStaged (s : State) (r : Nat) : (shell (reelStaged s r)).lasting = (shell s).lasting := by
  simp [reelStaged]

@[simp] theorem lasting_reelGoLoad (s : State) (r : Nat) (manifest : Option Bytes) :
    (shell (reelGoLoad s r manifest)).lasting = (shell s).lasting := by
  unfold reelGoLoad; (repeat' split) <;> simp

@[simp] theorem lasting_reelCtl (s : State) (sl : Nat) (w : RegWrite) (manifest : Option Bytes) :
    (shell (reelCtl s sl w manifest)).lasting = (shell s).lasting := by
  simp only [reelCtl]; split <;> simp

@[simp] theorem lasting_chunkFail (kind r : Nat) (h : Shard) (s : State) (i : Nat) :
    (shell (chunkFail kind r h s i)).lasting = (shell s).lasting := by
  simp only [chunkFail]; (repeat' split) <;> simp

@[simp] theorem lasting_shardFail (s : State) (r : Nat) (h : Shard) :
    (shell (shardFail s r h)).lasting = (shell s).lasting := by
  simp [shardFail]

theorem lasting_chunkPage {s t : State} {r : Nat} {l : ReelLoad} {h : Shard} {i : Nat}
    (ht : chunkPage s r l h i = .wait t ∨ chunkPage s r l h i = .there t) :
    (shell t).lasting = (shell s).lasting := by
  simp only [chunkPage] at ht
  split at ht
  · split at ht
    · split at ht
      · cases ht.resolve_right (by simp); rfl
      · cases ht.resolve_left (by simp); rfl
    · cases ht.resolve_right (by simp); rfl
  · split at ht
    · simp at ht
    · split at ht
      next p hp =>
        split at ht
        · cases ht.resolve_right (by simp); rfl
        · cases ht.resolve_left (by simp)
          simp [lasting_placePage (p := p.2) hp]
      next => cases ht.resolve_right (by simp); simp

@[simp] theorem lasting_settleShard (s : State) (r : Nat) (h : Shard) :
    (shell (settleShard s r h)).lasting = (shell s).lasting := by
  unfold settleShard; split <;> simp

@[simp] theorem lasting_takeChunk (s : State) (r : Nat) (l : ReelLoad) (h : Shard) (i : Nat) (data sealed_ : Bytes) :
    (shell (takeChunk s r l h i data sealed_)).lasting = (shell s).lasting := by
  unfold takeChunk
  split
  next he => exact lasting_chunkPage (.inl he)
  next => simp
  next t he =>
    simp only [lasting_settleShard, lasting_readNext, lasting_putLines]
    split <;> simp [lasting_chunkPage (.inr he)]

@[simp] theorem lasting_giveChunk (s : State) (r : Nat) (l : ReelLoad) (h : Shard) (i va : Nat) (dev : BitVec 12) :
    (shell (giveChunk s r l h i va dev)).lasting = (shell s).lasting := by
  unfold giveChunk; split <;> simp

@[simp] theorem lasting_switchPage (r off : Nat) (s : State) (pg : Nat) :
    (shell (switchPage r off s pg)).lasting = (shell s).lasting := by
  simp only [switchPage]; split <;> simp

end Sys2Proof.Machine

end

section
/-! PROOFS. Scope: what outlives the power, under tests, security, the stand-in pair, power, resets, the host, the
reduce engines and the bundles of a core. -/

open Sys2Proof.Machine

namespace Sys2Proof.Machine

/-! ### Faults, retakes and tests -/

@[simp] theorem lasting_loseMirrors (s : State) (n : Nat) :
    (shell (loseMirrors s n)).lasting = (shell s).lasting := (rfl)

@[simp] theorem lasting_fence (s : State) (n : Nat) : (shell (fence s n)).lasting = (shell s).lasting := (rfl)

@[simp] theorem lasting_rehome (s : State) (r k n m : Nat) (img : Image) (e : ShelfCore) :
    (shell (rehome s r k n m img e)).lasting = (shell s).lasting := by
  unfold rehome; split <;> simp

@[simp] theorem lasting_claimMirrors (s : State) (r b size : Nat) :
    (shell (claimMirrors s r b size)).lasting = (shell s).lasting := (rfl)

@[simp] theorem lasting_freeMirrors (s : State) (r b size : Nat) :
    (shell (freeMirrors s r b size)).lasting = (shell s).lasting := (rfl)

@[simp] theorem lasting_turnBuddy (s : State) (r m : Nat) (ic : CoreImage) (old : Option CoreId) :
    (shell (turnBuddy s r m ic old)).lasting = (shell s).lasting := by
  cases old <;> simp [turnBuddy]

@[simp] theorem lasting_noteRetake (s : State) (r vx vy : Nat) (i : CutImage) :
    (shell (noteRetake s r vx vy i)).lasting = (shell s).lasting := by
  simp [noteRetake]

@[simp] theorem lasting_recoverCounts (s : State) (r k n vx vy : Nat) :
    (shell (recoverCounts s r k n vx vy)).lasting = (shell s).lasting := by
  simp [recoverCounts]

@[simp] theorem lasting_moveMirrors (s : State) (r k n m size : Nat) :
    (shell (moveMirrors s r k n m size)).lasting = (shell s).lasting :=
  (rfl)

theorem lasting_moveHome {s t : State} {n k : Nat} (h : moveHome s n k = some t) :
    (shell t).lasting = (shell s).lasting := by
  simp only [moveHome] at h
  split at h
  · rw [← Option.some.inj h]
  · split at h
    · rw [← Option.some.inj h]
      simp
    · cases h

theorem lasting_moveAll {s t : State} {n : Nat} (h : moveAll s n = some t) : (shell t).lasting = (shell s).lasting :=
  lasting_foldl_bind (fun _ _ _ => lasting_moveHome) h

@[simp] theorem lasting_drainTest (s : State) : (shell (drainTest s)).lasting = (shell s).lasting := by
  unfold drainTest
  split
  · split
    · rfl
    · simp only
      split
      next hm => simp [lasting_moveAll hm]
      next => simp
  · rfl

@[simp] theorem lasting_testEnd (s : State) (result : Nat) :
    (shell (testEnd s result)).lasting = (shell s).lasting := (rfl)

@[simp] theorem lasting_portToTest (s : State) (p : Nat) : (shell (portToTest s p)).lasting = (shell s).lasting := by
  simp [portToTest]

@[simp] theorem lasting_laneToTest (s : State) (p lane : Nat) :
    (shell (laneToTest s p lane)).lasting = (shell s).lasting := by
  simp [laneToTest]

@[simp] theorem lasting_testStart (s : State) (kind i lane : Nat) :
    (shell (testStart s kind i lane)).lasting = (shell s).lasting := by
  simp [testStart]

@[simp] theorem lasting_autoTest (s : State) : (shell (autoTest s)).lasting = (shell s).lasting := by
  simp [autoTest]

@[simp] theorem lasting_failEnded (s : State) (r : Nat) (id : BitVec 64) (o : Nat) :
    (shell (failEnded s r id o)).lasting = (shell s).lasting := by
  simp [failEnded]

@[simp] theorem lasting_failStep (s : State) (r : Nat) (id : BitVec 64) (o : Nat) :
    (shell (failStep s r id o)).lasting = (shell s).lasting := by
  simp [failStep]

@[simp] theorem lasting_dropCheck (s : State) (r : Nat) (ok : CheckRun → Bool) :
    (shell (dropCheck s r ok)).lasting = (shell s).lasting :=
  (rfl)

@[simp] theorem lasting_suspect (s : State) (r : Nat) (id : BitVec 64) (n : CoreId) :
    (shell (suspect r id s n)).lasting = (shell s).lasting := by
  simp [suspect]

/-! ### Reads that clear -/

@[simp] theorem lasting_clearRc (i j : Nat) (s : State) (f : Fld) :
    (shell (clearRc i j s f)).lasting = (shell s).lasting := by
  simp [clearRc]

@[simp] theorem lasting_readClears (s : State) (r : RegD) (i j : Nat) (h : Half) :
    (shell (readClears s r i j h)).lasting = (shell s).lasting := by
  simp [readClears]

/-! ### Keys, mailboxes and debug -/

@[simp] theorem lasting_fetchOver (s : State) : (shell (fetchOver s)).lasting = (shell s).lasting := (rfl)

@[simp] theorem lasting_bootReject (s : State) (code : Nat) :
    (shell (bootReject s code)).lasting = (shell s).lasting := by
  simp [bootReject]

@[simp] theorem lasting_dropPageKeys (s : State) (sel : Nat → Bool) :
    (shell (dropPageKeys s sel)).lasting = (shell s).lasting := by
  simp [dropPageKeys]

@[simp] theorem lasting_emptyStore (s : State) : (shell (emptyStore s)).lasting = (shell s).lasting := by
  simp [emptyStore]

@[simp] theorem lasting_powerFlag (s : State) (f : Fld) : (shell (powerFlag s f)).lasting = (shell s).lasting := by
  simp [powerFlag]

@[simp] theorem lasting_enterRetain (s : State) : (shell (enterRetain s)).lasting = (shell s).lasting := by
  simp [enterRetain]

@[simp] theorem lasting_retain (s : State) : (shell (retain s)).lasting = (shell s).lasting := by
  simp only [retain]; split <;> simp

@[simp] theorem lasting_mbAnswer (s : State) (src : MbSrc) (result : Nat) (resp : Bytes) :
    (shell (mbAnswer s src result resp)).lasting = (shell s).lasting := by
  unfold mbAnswer
  split
  · simp
  · simp only [shell_fset, lasting_update]

@[simp] theorem lasting_mbDone (s : State) (src : MbSrc) (result : Nat) (resp : Bytes) :
    (shell (mbDone s src result resp)).lasting = (shell s).lasting := by
  simp [mbDone]

@[simp] theorem lasting_putPageKey (s : State) (k : Nat) (v : BitVec 512) :
    (shell (putPageKey s k v)).lasting = (shell s).lasting := by
  unfold putPageKey; split <;> simp

@[simp] theorem lasting_unhaltAll (s : State) : (shell (unhaltAll s)).lasting = (shell s).lasting := (rfl)

@[simp] theorem lasting_lowerDebug (s : State) (v : Nat) :
    (shell (lowerDebug s v)).lasting = (shell s).lasting := (rfl)

/-! ### The stand-in pair -/

@[simp] theorem lasting_setPair (s : State) (v : Nat) : (shell (setPair s v)).lasting = (shell s).lasting := (rfl)

@[simp] theorem lasting_pairRefuse (s : State) (code : Nat) :
    (shell (pairRefuse s code)).lasting = (shell s).lasting := by
  simp [pairRefuse]

@[simp] theorem lasting_releaseHeld (s : State) : (shell (releaseHeld s)).lasting = (shell s).lasting := by
  refine (lasting_foldl (fun s id => ?_) _ _).trans (lasting_update ..)
  split <;> simp

@[simp] theorem lasting_endAtomics (s : State) : (shell (endAtomics s)).lasting = (shell s).lasting := by
  simp [endAtomics]

@[simp] theorem lasting_releaseSteps (s : State) : (shell (releaseSteps s)).lasting = (shell s).lasting := by
  simp [releaseSteps]

@[simp] theorem lasting_announce (s : State) (dev : Nat) (ok : State → Nat → Bool) :
    (shell (announce s dev ok)).lasting = (shell s).lasting := by
  simp [announce]

@[simp] theorem lasting_serveAlone (s : State) : (shell (serveAlone s)).lasting = (shell s).lasting := by
  simp [serveAlone]

@[simp] theorem lasting_takeAlias (s : State) (p : Nat) (m : AliasMsg) (k : Nat) :
    (shell (takeAlias p m s k)).lasting = (shell s).lasting := by
  simp [takeAlias]

@[simp] theorem lasting_handover (s : State) : (shell (handover s)).lasting = (shell s).lasting := by
  simp [handover]

@[simp] theorem lasting_pairEnd (s : State) : (shell (pairEnd s)).lasting = (shell s).lasting := by
  simp [pairEnd]

@[simp] theorem lasting_pairBegin (s : State) : (shell (pairBegin s)).lasting = (shell s).lasting := by
  simp [pairBegin]

@[simp] theorem lasting_settleResync (s : State) (active : Nat) :
    (shell (settleResync s active)).lasting = (shell s).lasting := by
  simp [settleResync]

@[simp] theorem lasting_pairCtl (s : State) (w : RegWrite) : (shell (pairCtl s w)).lasting = (shell s).lasting := by
  simp [pairCtl]

@[simp] theorem lasting_takeCopy (r : Nat) (s : State) (c : PageCopy) :
    (shell (takeCopy r s c)).lasting = (shell s).lasting := by
  unfold takeCopy
  simp only [shell_putText]
  split
  · rfl
  · split
    next hp => simp [lasting_placePage hp]
    next => rfl

@[simp] theorem lasting_synced (s : State) (r : CtxId) (active : Nat) :
    (shell (synced s r active)).lasting = (shell s).lasting := by
  simp [synced]

/-! ### Power and heat -/

@[simp] theorem lasting_setLimit (s : State) (k v : Nat) :
    (shell (setLimit s k v)).lasting = (shell s).lasting := (rfl)

@[simp] theorem lasting_setThermal (s : State) (k v : Nat) :
    (shell (setThermal s k v)).lasting = (shell s).lasting := (rfl)

@[simp] theorem lasting_putDuties (s : State) : (shell (putDuties s)).lasting = (shell s).lasting := (rfl)

@[simp] theorem lasting_noteSlow (s : State) : (shell (noteSlow s)).lasting = (shell s).lasting := by
  simp [noteSlow]

@[simp] theorem lasting_showConvoy (s : State) : (shell (showConvoy s)).lasting = (shell s).lasting := by
  unfold showConvoy; split <;> simp

theorem lasting_tighten {s t : State} {cls p room : Nat} (h : tighten s cls p room = some t) :
    (shell t).lasting = (shell s).lasting := by
  unfold tighten at h
  split at h
  · split at h
    · rw [← Option.some.inj h, lasting_setLimit]
    · split at h
      · rw [← Option.some.inj h, lasting_setLimit]
      · split at h
        · rw [← Option.some.inj h]
        · split at h
          · rw [← Option.some.inj h, lasting_setLimit]
          · cases h
  · split at h
    · rw [← Option.some.inj h, lasting_setLimit]
    · cases h

@[simp] theorem lasting_loosen (s : State) (cls p room : Nat) :
    (shell (loosen s cls p room)).lasting = (shell s).lasting := by
  unfold loosen; split <;> simp

@[simp] theorem lasting_shareOut (cs : List (Nat × Nat × Nat)) (short : Nat) (s : State) :
    (shell (shareOut cs short s)).lasting = (shell s).lasting := by
  induction cs generalizing short s with
  | nil => rfl
  | cons c cs ih =>
    obtain ⟨cls, p, room⟩ := c
    unfold shareOut
    extract_lets given
    split
    · simp [ih]
    · split
      next ht => simp [ih, lasting_tighten ht]
      next => exact ih ..

@[simp] theorem lasting_countEnergy (a : State) (e : Nat × Nat) :
    (shell (countEnergy a e)).lasting = (shell a).lasting := by
  simp [countEnergy]

@[simp] theorem lasting_putCap (s : State) (w : RegWrite) : (shell (putCap s w)).lasting = (shell s).lasting := by
  simp [putCap]

@[simp] theorem lasting_railsOff (s : State) : (shell (railsOff s)).lasting = (shell s).lasting := by
  simp [railsOff]

@[simp] theorem lasting_tileThermal (s : State) (t : Nat) (c : ℤ) :
    (shell (tileThermal s t c)).lasting = (shell s).lasting := by
  simp [tileThermal]

@[simp] theorem lasting_edgeThermal (s : State) (hot cool : Bool) :
    (shell (edgeThermal s hot cool)).lasting = (shell s).lasting := by
  simp [edgeThermal]

@[simp] theorem lasting_leaveRetain (s : State) : (shell (leaveRetain s)).lasting = (shell s).lasting := by
  simp [leaveRetain]

@[simp] theorem lasting_pwrCtl (s : State) (w : RegWrite) : (shell (pwrCtl s w)).lasting = (shell s).lasting := by
  unfold pwrCtl; (repeat' split) <;> simp

/-! ### Resets -/

@[simp] theorem lasting_resetFields (s : State) : (shell (resetFields s)).lasting = (shell s).lasting := by
  simp [resetFields]

@[simp] theorem lasting_warmReset (s : State) : (shell (warmReset s)).lasting = (shell s).lasting := by
  simp [warmReset]

@[simp] theorem lasting_wantFirmware (s : State) : (shell (wantFirmware s)).lasting = (shell s).lasting := by
  simp [wantFirmware]

@[simp] theorem lasting_resetKeepingLink (s : State) : (shell (resetKeepingLink s)).lasting = (shell s).lasting := by
  simp [resetKeepingLink]

@[simp] theorem lasting_beginPcie (s : State) : (shell (beginPcie s)).lasting = (shell s).lasting := by
  simp [beginPcie]

@[simp] theorem lasting_jtagHold (s : State) : (shell (jtagHold s)).lasting = (shell s).lasting := by
  simp [jtagHold]

@[simp] theorem lasting_coldCores (s : State) : (shell (coldCores s)).lasting = (shell s).lasting := by
  simp [coldCores]

@[simp] theorem lasting_coldPorts (s : State) : (shell (coldPorts s)).lasting = (shell s).lasting := by
  simp [coldPorts]

@[simp] theorem lasting_seqFail (s : State) : (shell (seqFail s)).lasting = (shell s).lasting := by
  simp [seqFail]

/-! ### BAR2 -/

@[simp] theorem lasting_busRead (s : State) (bs : Bytes) : (shell (busRead s bs)).lasting = (shell s).lasting := (rfl)

@[simp] theorem lasting_onesOrNothing (s : State) (n : Nat) (write : Bool) :
    (shell (onesOrNothing s n write)).lasting = (shell s).lasting := by
  simp [onesOrNothing]

@[simp] theorem lasting_b2Refuse (s : State) (n : Nat) (write : Bool) :
    (shell (b2Refuse s n write)).lasting = (shell s).lasting := by
  simp [b2Refuse]

@[simp] theorem lasting_b2Virtual (s : State) (r va n : Nat) (data : Option Bytes) :
    (shell (b2Virtual s r va n data)).lasting = (shell s).lasting := by
  unfold b2Virtual
  split
  · simp
  · split
    · rfl
    · split
      next he => split <;> simp [shell_of_eq he]
      all_goals
        next he => simp [shell_of_eq he]

@[simp] theorem lasting_b2Physical (s : State) (p n : Nat) :
    (shell (b2Physical s p n)).lasting = (shell s).lasting := by
  simp only [b2Physical]; (repeat' split) <;> simp

@[simp] theorem lasting_logUnit (s : State) (i r pos : Nat) :
    (shell (logUnit s i r pos)).lasting = (shell s).lasting := by
  simp [logUnit]

@[simp] theorem lasting_ingAdvance (i r k : Nat) (s : State) :
    (shell (ingAdvance i r k s)).lasting = (shell s).lasting := by
  induction k generalizing s with
  | zero => rfl
  | succ k ih => simp only [ingAdvance]; split <;> simp [ih]

@[simp] theorem lasting_ingWrite (s : State) (i off : Nat) (bs : Bytes) :
    (shell (ingWrite s i off bs)).lasting = (shell s).lasting := by
  simp only [ingWrite]
  split
  · simp
  · split
    all_goals
      next he => simp [shell_of_eq he]

@[simp] theorem lasting_placeFail (s : State) (r pg : Nat) (w : Waiter) :
    (shell (placeFail s r pg w)).lasting = (shell s).lasting := by
  unfold placeFail; split <;> simp

/-! ### The I3C target -/

@[simp] theorem lasting_i3cSet (s : State) (f : I3c → I3c) :
    (shell (i3cSet s f)).lasting = (shell s).lasting := by
  unfold i3cSet
  split
  · simp [Shell.lasting, shell]
  · rfl

@[simp] theorem lasting_i3cAnswer (s : State) (bs : Bytes) :
    (shell (i3cAnswer s bs)).lasting = (shell s).lasting := by
  simp [i3cAnswer]

@[simp] theorem lasting_i3cOpen (s : State) (n : Nat) : (shell (i3cOpen s n)).lasting = (shell s).lasting := by
  simp [i3cOpen]

@[simp] theorem lasting_mgClear (off : Nat) (bs : Bytes) (base : Nat) (s : State) (f : Fld) :
    (shell (mgClear off bs base s f)).lasting = (shell s).lasting := by
  simp [mgClear]

@[simp] theorem lasting_mgAlert (off : Nat) (bs : Bytes) (s : State) :
    (shell (mgAlert off bs s)).lasting = (shell s).lasting := by
  unfold mgAlert; split <;> simp

@[simp] theorem lasting_mgCap (off : Nat) (bs : Bytes) (s : State) :
    (shell (mgCap off bs s)).lasting = (shell s).lasting := by
  unfold mgCap; split <;> simp

@[simp] theorem lasting_mgMbctl (off : Nat) (bs : Bytes) (s : State) :
    (shell (mgMbctl off bs s)).lasting = (shell s).lasting := by
  unfold mgMbctl; split <;> simp

@[simp] theorem lasting_mgData (s : State) (off : Nat) (bs : Bytes) :
    (shell (mgData off bs s)).lasting = (shell s).lasting := by
  simp [mgData]

/-! ### The splice unit -/

@[simp] theorem lasting_roundAccs (s : State) (x : Cx) (wide : Nat) (d : Desc) (rm : RMode) (sr : SrIn)
    (places : List (Nat × Nat × Nat)) (clr : List Nat) (status : Nat) :
    (shell (roundAccs s x wide d rm sr places clr status)).lasting = (shell s).lasting := by
  simp [roundAccs]

/-! ### The reduce engines -/

@[simp] theorem lasting_ownXps (s : State) (r : Nat) (d : Bytes) (seg : Nat) (who : Waiter) :
    (shell (ownXps s r d seg who).1).lasting = (shell s).lasting := by
  simp [ownXps]

@[simp] theorem lasting_collPoison (s : State) (r lines : Nat) (seen : Bool) :
    (shell (collPoison s r lines seen)).lasting = (shell s).lasting := by
  simp [collPoison]

@[simp] theorem lasting_writeXps (s : State) (r va : Nat) (xs : List Bytes) (who : Waiter) :
    (shell (writeXps s r va xs who).1).lasting = (shell s).lasting := by
  simp only [writeXps]; split <;> simp

@[simp] theorem lasting_writeLines (s : State) (r va : Nat) (bs : Bytes) (bad : List Nat) (who : Waiter) :
    (shell (writeLines s r va bs bad who).1).lasting = (shell s).lasting := by
  unfold writeLines
  split
  next he => simp [shell_of_eq he]
  next => simp

@[simp] theorem lasting_sendColl (e : EdgeId) (r : Nat) (x : CollRun) (pass seg : Nat) (s : State)
    (p : Nat × Bytes × List Nat) : (shell (sendColl e r x pass seg s p)).lasting = (shell s).lasting := by
  simp only [sendColl]
  split
  next hr => rw [shell_request hr]
  next => simp

@[simp] theorem lasting_sendXps (s : State) (e : EdgeId) (r : Nat) (x : CollRun) (pass seg : Nat) (xs : List Bytes) :
    (shell (sendXps s e r x pass seg xs)).lasting = (shell s).lasting := by
  simp [sendXps]

@[simp] theorem lasting_sendBytes (s : State) (e : EdgeId) (r : Nat) (x : CollRun) (seg : Nat) (bs : Bytes)
    (bad : List Nat) : (shell (sendBytes s e r x seg bs bad)).lasting = (shell s).lasting := by
  simp [sendBytes]

@[simp] theorem lasting_putRun (s : State) (e r : Nat) (x : CollRun) :
    (shell (putRun s e r x)).lasting = (shell s).lasting := (rfl)

@[simp] theorem lasting_finishSum (s : State) (e : EdgeId) (r : Nat) (x : CollRun) (seg : Nat) (xs : List Bytes) :
    (shell (finishSum s e r x seg xs).1).lasting = (shell s).lasting := by
  unfold finishSum
  split
  next he => simp [shell_of_eq he]
  next => simp

@[simp] theorem lasting_reduceSeg (s : State) (e : EdgeId) (r : Nat) (x : CollRun) (seg : Nat)
    (xs : List Bytes) : (shell (reduceSeg s e r x seg xs).1).lasting = (shell s).lasting := by
  simp [reduceSeg]

@[simp] theorem lasting_takeXps (s : State) (e : EdgeId) (r : Nat) (x : CollRun) (pk : Packet) :
    (shell (takeXps s e r x pk).1).lasting = (shell s).lasting := by
  simp only [takeXps]
  split
  · split
    next ho => split <;> simp [shell_of_eq ho]
    next ho => simp [shell_of_eq ho]
  · split
    · simp
    · split
      next hw => simp [shell_of_eq hw]
      next => simp

@[simp] theorem lasting_takeBytes (s : State) (e : EdgeId) (r : Nat) (x : CollRun) (pk : Packet) :
    (shell (takeBytes s e r x pk).1).lasting = (shell s).lasting := by
  simp only [takeBytes]
  split
  next he => simp [shell_of_eq he]
  next => simp

@[simp] theorem lasting_keepWaits (s t : State) (r : Nat) :
    (shell (keepWaits s t r)).lasting = (shell s).lasting := (rfl)

@[simp] theorem lasting_serveColl (s : State) (pk : Packet) :
    (shell (serveColl s pk)).lasting = (shell s).lasting := by
  simp only [serveColl]
  split
  · simp
  · split
    · simp
    · split
      · simp
      · split
        all_goals
          next he =>
            split at he <;> simp [shell_of_eq he]

@[simp] theorem lasting_firstSeg (e : EdgeId) (r idx : Nat) (a : State × Acc) (seg : Nat) :
    (shell (firstSeg e r idx a seg).1).lasting = (shell a.1).lasting := by
  simp only [firstSeg]
  split
  · split
    · split
      all_goals
        next ho => simp [shell_of_eq ho]
    · split
      next hc =>
        split
        next hl => simp [shell_of_eq hl, shell_of_eq hc]
        next => simp [shell_of_eq hc]
      next hc => simp [shell_of_eq hc]
  · rfl

@[simp] theorem lasting_startColl (s : State) (e : EdgeId) (r : Nat) (q : CollQ) :
    (shell (startColl s e r q)).lasting = (shell s).lasting := by
  simp only [startColl]
  generalize (if e.val = 0 then F.ctxCollq0Va else F.ctxCollq1Va) = f
  split
  · simp
  next he => simp [shell_of_eq he]
  next he =>
    split
    · simp [shell_of_eq he]
    · split
      · simp [shell_of_eq he]
      next hg => simp [shell_of_eq hg, shell_of_eq he]
      next hg =>
        generalize hf : List.foldl (firstSeg e r q.head) (_, Acc.ok) _ = a
        have ha : (shell a.1).lasting = (shell s).lasting := by
          rw [← hf]
          exact List.foldlRecOn (motive := fun a : State × Acc => (shell a.1).lasting = (shell s).lasting) _ _
            (by simp [shell_of_eq hg, shell_of_eq he]) fun a ha seg _ => (lasting_firstSeg e r q.head a seg).trans ha
        split
        · exact ha
        · simp [shell_of_eq hg, shell_of_eq he]
        · simpa using ha

/-! ### BAR0 -/

@[simp] theorem lasting_readBack (s : State) (off v : Nat) :
    (shell (readBack s off v)).lasting = (shell s).lasting := (rfl)

@[simp] theorem lasting_takeField (old : State) (w : RegWrite) (i j : Nat) (s : State) (f : Fld) :
    (shell (takeField old w i j s f)).lasting = (shell s).lasting := by
  unfold takeField; split <;> simp

@[simp] theorem lasting_afterWrite (s : State) (old : State) (r : RegD) (w : RegWrite) (j : Nat) :
    (shell (afterWrite old s r w j)).lasting = (shell s).lasting := by
  simp [afterWrite]

@[simp] theorem lasting_writeReg (s : State) (r : RegD) (i j : Nat) (w : RegWrite) :
    (shell (writeReg s r i j w)).lasting = (shell s).lasting := by
  unfold writeReg; (repeat' split) <;> simp

/-! ### The control slot -/

@[simp] theorem lasting_consume (s : State) (x : Cx) (q : Nat) (k : BitVec 32) :
    (shell (consume s x q k)).lasting = (shell s).lasting := (rfl)

@[simp] theorem lasting_effRecvAny (s : State) (x : Cx) (f : AnyF) :
    (shell (effRecvAny s x f)).lasting = (shell s).lasting := by
  simp only [effRecvAny]; split <;> simp

@[simp] theorem lasting_effSendtok (s : State) (x : Cx) (f : TokF) :
    (shell (effSendtok s x f)).lasting = (shell s).lasting := by
  simp only [effSendtok]; split <;> simp

@[simp] theorem lasting_effAction (s : State) (x : Cx) (f : ActionF) :
    (shell (effAction s x f)).lasting = (shell s).lasting := by
  unfold effAction; split <;> simp

@[simp] theorem lasting_effSlate (s : State) (x : Cx) (f : SlateF) :
    (shell (effSlate s x f)).lasting = (shell s).lasting := by
  unfold effSlate; split <;> simp

@[simp] theorem lasting_effC (s : State) (x : Cx) (x2 : CInstr) :
    (shell (effC s x x2)).lasting = (shell s).lasting := by
  unfold effC; (repeat' split) <;> simp [effBrSet, effWaittok, effTrapcfg]

/-! ### The matrix slot -/

@[simp] theorem lasting_effMmul (s : State) (x : Cx) (f : MmulF) :
    (shell (effMmul s x f)).lasting = (shell s).lasting := by
  simp only [effMmul]; split <;> simp

@[simp] theorem lasting_finishMmul (s : State) (n k : Nat) (f : Finish) :
    (shell (finishMmul s n k f)).lasting = (shell s).lasting := by
  simp [finishMmul]

@[simp] theorem lasting_countRows (s : State) (n k rows : Nat) :
    (shell (countRows s n k rows)).lasting = (shell s).lasting := (rfl)

@[simp] theorem lasting_finishVred (s : State) (n k : Nat) (f : Finish) :
    (shell (finishVred s n k f)).lasting = (shell s).lasting := by
  simp [finishVred]

@[simp] theorem lasting_runVfins (m : Nat) (s : State) (n k : Nat) :
    (shell (runVfins m s n k)).lasting = (shell s).lasting := by
  induction m generalizing s with
  | zero => rfl
  | succ m ih =>
    unfold runVfins
    split
    · simp [ih]
    · simp

@[simp] theorem lasting_arrive (s : State) (n k : Nat) : (shell (arrive s n k)).lasting = (shell s).lasting := by
  unfold arrive; split <;> simp

/-! ### The mover slot -/

@[simp] theorem lasting_putS (s : State) (x : Cx) (d : Nat) (v : BitVec 32) :
    (shell (putS s x d v)).lasting = (shell s).lasting := (rfl)

@[simp] theorem lasting_effMove (s : State) (x : Cx) (kd : MKind) (f : XferF) :
    (shell (effMove s x kd f)).lasting = (shell s).lasting := by
  simp only [effMove]; split <;> simp

@[simp] theorem lasting_effD (s : State) (x : Cx) (x2 : DInstr) :
    (shell (effD s x x2)).lasting = (shell s).lasting := by
  unfold effD; (repeat' split) <;> simp [effSeti, effSethi, effSalu, effTadj, effSetvl]

/-! ### The vector slot -/

@[simp] theorem lasting_addRows (s : State) (x : Cx) (n : Nat) :
    (shell (addRows s x n)).lasting = (shell s).lasting := by
  simp [addRows]

@[simp] theorem lasting_effElems (s : State) (x : Cx) (d : Desc) (rm : RMode) (sr : SrIn) (mz : Bool)
    (val : Nat → Nat → Sys2Proof.Num × Bool) : (shell (effElems s x d rm sr mz val)).lasting = (shell s).lasting := by
  simp [effElems]

@[simp] theorem lasting_effBinary (s : State) (x : Cx) (f : VecF)
    (op : RMode → Sys2Proof.Num → Sys2Proof.Num → Sys2Proof.Num) :
    (shell (effBinary s x f op)).lasting = (shell s).lasting := by
  simp [effBinary]

@[simp] theorem lasting_effMask (s : State) (x : Cx) (d : Desc) (bit poison : Nat → Nat → Bool) :
    (shell (effMask s x d bit poison)).lasting = (shell s).lasting := by
  simp [effMask]

@[simp] theorem lasting_effVred (s : State) (x : Cx) (f : VecF) :
    (shell (effVred s x f)).lasting = (shell s).lasting := by
  unfold effVred; split <;> simp

@[simp] theorem lasting_effTrans (s : State) (x : Cx) (f : VecF) (fn : Nat → Nat) :
    (shell (effTrans s x f fn)).lasting = (shell s).lasting := by
  simp [effTrans]

@[simp] theorem lasting_bothWritten (s : State) (x : Cx) (as bs : List (Nat × Nat)) :
    (shell (bothWritten s x as bs)).lasting = (shell s).lasting := by
  simp [bothWritten]

@[simp] theorem lasting_effVrowreplay (s : State) (x : Cx) (f : VecF) :
    (shell (effVrowreplay s x f)).lasting = (shell s).lasting := by
  simp [effVrowreplay]

@[simp] theorem lasting_effV (s : State) (x : Cx) (x2 : VInstr) :
    (shell (effV s x x2)).lasting = (shell s).lasting := by
  unfold effV; (repeat' split) <;> simp [effVadd, effVmul, effVfma, effVmax, effVcmp, effVsel, effVcvt, effVexp,
    effVlog, effVrsq, effVrcp, effVtanh, effVsig, effVgelu, effVsin, effVcos, effVrand, effVupd]

/-! ### The sequencer -/

@[simp] theorem lasting_effM (s : State) (x : Cx) (i : MInstr) :
    (shell (effM s x i)).lasting = (shell s).lasting := by
  unfold effM; (repeat' split) <;> simp [effSpadd, effSpmerge, effSpround, effSpexport, effSpimport, effMcfg,
    effStage, effMdrain, effMew]

@[simp] theorem lasting_afterC (s : State) (n k : Nat) (i : CInstr) :
    (shell (afterC s n k i)).lasting = (shell s).lasting := by
  unfold afterC; split <;> simp

@[simp] theorem lasting_issueCycle (s : State) (n : Nat) (b : Slots) :
    (shell (issueCycle s n b)).lasting = (shell s).lasting := by
  unfold issueCycle; (repeat' split) <;> simp [bundleEff, unheld, issueOk, issueHold, issueWait, issueBad]

@[simp] theorem lasting_noteUnder (s : State) (n : Nat) (t : State) :
    (shell (noteUnder s n t)).lasting = (shell t).lasting := by
  unfold noteUnder; (repeat' split) <;> simp

@[simp] theorem lasting_issueSlots (s : State) (n : Nat) (b : Slots) :
    (shell (issueSlots s n b)).lasting = (shell s).lasting := by
  simp [issueSlots]

@[simp] theorem lasting_openOwed (s : State) (n k : Nat) : (shell (openOwed s n k)).lasting = (shell s).lasting := by
  simp [openOwed]

end Sys2Proof.Machine

end

section
/-! PROOFS. Scope: what fuses and the repair store keep, under every command and every step. -/

open Sys2Proof.Machine

namespace Sys2Proof.Machine

/-! ### Commands -/

/-- The next state of an outcome of `s`, where there is one, keeps all that outlives the power. -/
def Lasts (s : State) (o : Host.Outcome State Fault Refusal) : Prop :=
  ∀ t, o = .next t → (shell t).lasting = (shell s).lasting

@[simp] theorem lasts_next {s t : State} :
    Lasts s (.next t) ↔ (shell t).lasting = (shell s).lasting := by simp [Lasts]

@[simp] theorem lasts_fault (s : State) (r : Fault) : Lasts s (.fault r) := by simp [Lasts]

@[simp] theorem lasts_ite {c : Prop} [Decidable c] {s : State} {o p : Host.Outcome State Fault Refusal}
    (ho : Lasts s o) (hp : Lasts s p) : Lasts s (if c then o else p) := by
  split <;> assumption

@[simp] theorem lasts_onClock {s : State} {d : ScanDomain} {f : State → Host.Outcome State Fault Refusal}
    (hf : Lasts s (f s)) : Lasts s (onClock s d f) := lasts_ite hf (lasts_next.2 rfl)

@[simp] theorem lasts_onBar {s : State} {aon : Bool} {f : State → Host.Outcome State Fault Refusal}
    (hf : Lasts s (f s)) : Lasts s (onBar aon s f) := lasts_ite hf (lasts_next.2 rfl)

/-- A mailbox command keeps what outlives the power where its answer does. -/
theorem lasts_mbRun {src : MbSrc} {s : State} {f : State → Except Nat (State × Bytes)}
    (hf : ∀ p, f s = .ok p → (shell p.1).lasting = (shell s).lasting) : Lasts s (mbRun src s f) := by
  unfold mbRun
  split
  · simp
  · split
    · simp
    next hr => simp [hf _ hr]

@[simp] theorem lasts_onRequest (s : State) (type : Nat) (p : PortId) (pk : Packet) :
    Lasts s (onRequest type p pk s) := by
  unfold onRequest
  split
  · simp
  · split
    · simp
    · split
      all_goals
        next hi => simp [shell_of_eq hi]

theorem lasting_putTransport {s : State} {id : Nat} {v : BitVec 256} {p : State × Bytes}
    (h : putTransport s id v = .ok p) : (shell p.1).lasting = (shell s).lasting := by
  unfold putTransport at h
  split at h <;> cases h
  rfl

/-- Demotions one after another, with what remains of the rate. -/
theorem lasting_foldl_demoteOne (par : Nat) (l : List (Nat × Nat × Page)) (a : State × Nat) :
    (shell (l.foldl (demoteOne par) a).1).lasting = (shell a.1).lasting := by
  induction l generalizing a with
  | nil => rfl
  | cons e l ih => exact (ih _).trans (lasting_demoteOne par a e)

@[simp] theorem lasts_execBurstIssue (s : State) (ch : ChanRef) :
    Lasts s (execBurstIssue ch s) := by
  simp only [execBurstIssue, onClock]; (repeat' split) <;> simp

@[simp] theorem lasts_execBurstComplete (s : State) (ch : ChanRef) (k : Nat) :
    Lasts s (execBurstComplete ch k s) := by
  simp only [execBurstComplete, onClock]; (repeat' split) <;> simp

@[simp] theorem lasts_execHostReadCompletion (s : State) (ch : ChanRef) (k : Nat)
    (read : HostRead) : Lasts s (execHostReadCompletion ch k read s) := by
  simp only [execHostReadCompletion, onClock]; (repeat' split) <;> simp

@[simp] theorem lasts_execChannelPaused (s : State) (n : CoreId) (c : Fin 4) :
    Lasts s (execChannelPaused n c s) := by
  simp only [execChannelPaused, onClock]; (repeat' split) <;> simp

@[simp] theorem lasts_execBmvEnable (s : State) (b : BulkId) (w : RegWrite) :
    Lasts s (execBmvEnable b w s) := by
  simp only [execBmvEnable, onBar]; (repeat' split) <;> simp

@[simp] theorem lasts_execCoreStop (s : State) (n : CoreId) : Lasts s (execCoreStop n s) := by
  simp only [execCoreStop, onClock]; (repeat' split) <;> simp

@[simp] theorem lasts_execTakeTimeout (s : State) (n : CoreId) :
    Lasts s (execTakeTimeout n s) := by
  simp only [execTakeTimeout, onClock]; (repeat' split) <;> simp

@[simp] theorem lasts_execPageAccess (s : State) (r : CtxId) (va : Nat) (write : Bool) :
    Lasts s (execPageAccess r va write s) := by
  simp only [execPageAccess, onClock]; (repeat' split) <;> simp

@[simp] theorem lasts_execDdrRead (s : State) (ch : Fin 16) (addr : Nat)
    (err copy : List (BitVec 16)) : Lasts s (execDdrRead ch addr err copy s) := by
  simp only [execDdrRead, onClock]; (repeat' split) <;> simp

@[simp] theorem lasts_execPatrolScrub (s : State) (ch : Fin 16) (addr : Nat)
    (err copy : List (BitVec 16)) (raced : Bool) : Lasts s (execPatrolScrub ch addr err copy raced s) := by
  simp only [execPatrolScrub, onClock]; (repeat' split) <;> simp

@[simp] theorem lasts_execDdrTrainingDone (s : State) (found : List DdrModule) :
    Lasts s (execDdrTrainingDone found s) := by
  simp only [execDdrTrainingDone]; (repeat' split) <;> simp

@[simp] theorem lasts_execMigrationCopy (s : State) (r : CtxId) (page : Nat) (ok : Bool) :
    Lasts s (execMigrationCopy r page ok s) := by
  simp only [execMigrationCopy, onClock]; (repeat' split) <;> simp

@[simp] theorem lasts_execStepEnd (s : State) (r : CtxId) : Lasts s (execStepEnd r s) := by
  simp only [execStepEnd]; (repeat' split) <;> simp

@[simp] theorem lasts_execStepLaunch (s : State) (r : CtxId) : Lasts s (execStepLaunch r s) := by
  simp only [execStepLaunch]; (repeat' split) <;> simp

@[simp] theorem lasts_execLaunchGroup (s : State) (r : CtxId) (group : BitVec 8) :
    Lasts s (execLaunchGroup r group s) := by
  simp only [execLaunchGroup]; (repeat' split) <;> simp

@[simp] theorem lasts_execResume (s : State) (sl : SlotId) (w : RegWrite) (slot : Option Bytes) :
    Lasts s (execResume sl w slot s) := by
  simp only [execResume, onBar]; (repeat' split) <;> simp

@[simp] theorem lasts_execSkip (s : State) (sl : SlotId) (w : RegWrite) :
    Lasts s (execSkip sl w s) := by
  simp only [execSkip, onBar]; (repeat' split) <;> simp

@[simp] theorem lasts_execLogNote (s : State) (sl : SlotId) (w : RegWrite) :
    Lasts s (execLogNote sl w s) := by
  simp only [execLogNote, onBar]; (repeat' split) <;> simp

@[simp] theorem lasts_execConsistencyCheck (s : State) (sl : SlotId) (bytes : Option Bytes)
    (img : Option Image) (partner : Option Counterpart) : Lasts s (execConsistencyCheck sl bytes img partner s) := by
  simp only [execConsistencyCheck]; (repeat' split) <;> simp

@[simp] theorem lasts_execContextDisable (s : State) (sl : SlotId) (w : RegWrite) :
    Lasts s (execContextDisable sl w s) := by
  simp only [execContextDisable, onBar]; (repeat' split) <;> simp

@[simp] theorem lasts_execShelve (s : State) (sl : SlotId) (w : RegWrite) :
    Lasts s (execShelve sl w s) := by
  simp only [execShelve, onBar]; (repeat' split) <;> simp

@[simp] theorem lasts_execShelvingComplete (s : State) (r : CtxId) :
    Lasts s (execShelvingComplete r s) := by
  simp only [execShelvingComplete, onClock]; (repeat' split) <;> simp

@[simp] theorem lasts_execReturnComplete (s : State) (r : CtxId) (bytes : Option Bytes) :
    Lasts s (execReturnComplete r bytes s) := by
  simp only [execReturnComplete, onClock]; (repeat' split) <;> simp

@[simp] theorem lasts_execSwap (s : State) : Lasts s (execSwap s) := by
  simp only [execSwap, onClock]; (repeat' split) <;> simp

@[simp] theorem lasts_execFloatingClaim (s : State) (r : CtxId) (i : Nat) :
    Lasts s (execFloatingClaim r i s) := by
  simp only [execFloatingClaim]; (repeat' split) <;> simp

@[simp] theorem lasts_execFloatTimeout (s : State) (r : CtxId) (i : Nat) :
    Lasts s (execFloatTimeout r i s) := by
  simp only [execFloatTimeout]; (repeat' split) <;> simp

@[simp] theorem lasts_execMarker (s : State) (p : PortId) (m : Marker) :
    Lasts s (execMarker p m s) := by
  simp only [execMarker, onClock]; (repeat' split) <;> simp

@[simp] theorem lasts_execLaneFault (s : State) (p : PortId) (lane : Fin 8) :
    Lasts s (execLaneFault p lane s) := by
  simp only [execLaneFault, onClock]; (repeat' split) <;> simp

@[simp] theorem lasts_execRelaneComplete (s : State) (p : PortId) (ok : Bool)
    (markers : List Marker) : Lasts s (execRelaneComplete p ok markers s) := by
  simp only [execRelaneComplete, onClock]; (repeat' split) <;> simp

@[simp] theorem lasts_execLinkEnable (s : State) (p : PortId) (w : RegWrite) :
    Lasts s (execLinkEnable p w s) := by
  simp only [execLinkEnable, onBar]; (repeat' split) <;> simp

@[simp] theorem lasts_execLinkDisable (s : State) (p : PortId) (w : RegWrite) :
    Lasts s (execLinkDisable p w s) := by
  simp only [execLinkDisable, onBar]; (repeat' split) <;> simp

@[simp] theorem lasts_execDetectBurst (s : State) (p : PortId) (lanes : BitVec 8) :
    Lasts s (execDetectBurst p lanes s) := by
  simp only [execDetectBurst, onClock]; (repeat' split) <;> simp

@[simp] theorem lasts_execLinkTraining (s : State) (p : PortId) (lanes : Option (BitVec 8)) :
    Lasts s (execLinkTraining p lanes s) := by
  simp only [execLinkTraining, onClock]; (repeat' split) <;> simp

@[simp] theorem lasts_execKeyx (s : State) (p : PortId) (partner : Option Bytes) :
    Lasts s (execKeyx p partner s) := by
  simp only [execKeyx, onClock]; (repeat' split) <;> simp

@[simp] theorem lasts_execLinkStateTimeout (s : State) (p : PortId) :
    Lasts s (execLinkStateTimeout p s) := by
  simp only [execLinkStateTimeout, onClock]; (repeat' split) <;> simp

@[simp] theorem lasts_execRekey (s : State) (p : PortId) (partner : Option Bytes) :
    Lasts s (execRekey p partner s) := by
  simp only [execRekey, onClock]; (repeat' split) <;> simp

@[simp] theorem lasts_execFlitReceive (s : State) (p : PortId) (head : BitVec 64)
    (payload check : Bytes) : Lasts s (execFlitReceive p head payload check s) := by
  simp only [execFlitReceive, onClock]; (repeat' split) <;> simp

@[simp] theorem lasts_execRetryTimeout (s : State) (p : PortId) :
    Lasts s (execRetryTimeout p s) := by
  simp only [execRetryTimeout, onClock]; (repeat' split) <;> simp

@[simp] theorem lasts_execRqWindowEnable (s : State) (i : Fin 32) (w : RegWrite) :
    Lasts s (execRqWindowEnable i w s) := by
  simp only [execRqWindowEnable, onBar]; (repeat' split) <;> simp

@[simp] theorem lasts_execNotYetTimeout (s : State) (id : Nat) :
    Lasts s (execNotYetTimeout id s) := by
  simp only [execNotYetTimeout]; (repeat' split) <;> simp

@[simp] theorem lasts_execGoSnapshot (s : State) (sl : SlotId) (w : RegWrite) :
    Lasts s (execGoSnapshot sl w s) := by
  simp only [execGoSnapshot, onBar]; (repeat' split) <;> simp

@[simp] theorem lasts_execSnapshotStart (s : State) (r : CtxId) :
    Lasts s (execSnapshotStart r s) := by
  simp only [execSnapshotStart, onClock]; (repeat' split) <;> simp

@[simp] theorem lasts_execSnapshotPageSent (s : State) (r : CtxId) :
    Lasts s (execSnapshotPageSent r s) := by
  simp only [execSnapshotPageSent, onClock]; (repeat' split) <;> simp

@[simp] theorem lasts_execReelStreamBind (s : State) (sl : SlotId) (k : Fin 4) (w : RegWrite) :
    Lasts s (execReelStreamBind sl k w s) := by
  simp only [execReelStreamBind, onBar]; (repeat' split) <;> simp

@[simp] theorem lasts_execReelChunk (s : State) (r : CtxId) (shard chunk : Nat) (data : Bytes) :
    Lasts s (execReelChunk r shard chunk data s) := by
  simp only [execReelChunk, onClock]; (repeat' split) <;> simp

@[simp] theorem lasts_execReelSwitch (s : State) (r : CtxId) : Lasts s (execReelSwitch r s) := by
  simp only [execReelSwitch, onClock]; (repeat' split) <;> simp

@[simp] theorem lasts_execRetake (s : State) (n : CoreId) (r : CtxId) :
    Lasts s (execRetake n r s) := by
  simp only [execRetake, onClock]; (repeat' split) <;> simp

@[simp] theorem lasts_execMirrorCommit (s : State) (n : CoreId) (r : CtxId) :
    Lasts s (execMirrorCommit n r s) := by
  simp only [execMirrorCommit, onClock]; (repeat' split) <;> simp

@[simp] theorem lasts_execOnlineTest (s : State) (w : RegWrite) :
    Lasts s (execOnlineTest w s) := by
  simp only [execOnlineTest, onBar]; (repeat' split) <;> simp

@[simp] theorem lasts_execWrapTest (s : State) (w : RegWrite) : Lasts s (execWrapTest w s) := by
  simp only [execWrapTest, onBar]; (repeat' split) <;> simp

@[simp] theorem lasts_execCheckTake (s : State) (n : CoreId) (r : CtxId) (orig : Digest)
    (check : TakeRun) : Lasts s (execCheckTake n r orig check s) := by
  simp only [execCheckTake, onClock]; (repeat' split) <;> simp

@[simp] theorem lasts_execIdent (s : State) (p : PortId) (info : Option IdentInfo) :
    Lasts s (execIdent p info s) := by
  simp only [execIdent, onClock]; (repeat' split) <;> simp

@[simp] theorem lasts_execJtagWrite (s : State) (n : CoreId) (target : JtagTarget)
    (data : Bytes) : Lasts s (execJtagWrite n target data s) := by
  simp only [execJtagWrite]; (repeat' split) <;> simp

@[simp] theorem lasts_execPartnerLost (s : State) (resign : Bool) :
    Lasts s (execPartnerLost resign s) := by
  simp only [execPartnerLost]; (repeat' split) <;> simp

@[simp] theorem lasts_execPairingComplete (s : State) (info : Option PairInfo) :
    Lasts s (execPairingComplete info s) := by
  simp only [execPairingComplete]; (repeat' split) <;> simp

@[simp] theorem lasts_execPowerPeriod (s : State) (counts : List Nat) :
    Lasts s (execPowerPeriod counts s) := by
  simp only [execPowerPeriod]; (repeat' split) <;> simp

@[simp] theorem lasts_execPowerCalibration (s : State) (meas : Nat) :
    Lasts s (execPowerCalibration meas s) := by
  simp only [execPowerCalibration]; (repeat' split) <;> simp

@[simp] theorem lasts_execIngestWrite (s : State) (off : Nat) (data : Bytes) :
    Lasts s (execIngestWrite off data s) := by
  simp only [execIngestWrite]; (repeat' split) <;> simp

@[simp] theorem lasts_execBar2Access (s : State) (off size : Nat) (data : Option Bytes) :
    Lasts s (execBar2Access off size data s) := by
  simp only [execBar2Access]; (repeat' split) <;> simp

@[simp] theorem lasts_execCollectiveStart (s : State) (e : EdgeId) (r : CtxId) :
    Lasts s (execCollectiveStart e r s) := by
  simp only [execCollectiveStart, onClock]; (repeat' split) <;> simp

@[simp] theorem lasts_execCollectiveComplete (s : State) (e : EdgeId) (r : CtxId) :
    Lasts s (execCollectiveComplete e r s) := by
  simp only [execCollectiveComplete, onClock]; (repeat' split) <;> simp

@[simp] theorem lasts_execCollectiveTimeout (s : State) (e : EdgeId) (r : CtxId) :
    Lasts s (execCollectiveTimeout e r s) := by
  simp only [execCollectiveTimeout, onClock]; (repeat' split) <;> simp

@[simp] theorem lasts_execRcRead (s : State) (off size : Nat) :
    Lasts s (execRcRead off size s) := by
  simp only [execRcRead]; (repeat' split) <;> simp

@[simp] theorem lasts_execHoldEnd (s : State) (n : CoreId) : Lasts s (execHoldEnd n s) := by
  simp only [execHoldEnd, onClock]; (repeat' split) <;> simp

@[simp] theorem lasts_execSplicePartialArrival (s : State) (n : CoreId) :
    Lasts s (execSplicePartialArrival n s) := by
  simp only [execSplicePartialArrival, onClock]; (repeat' split) <;> simp

@[simp] theorem lasts_execMmulFinish (s : State) (n : CoreId) : Lasts s (execMmulFinish n s) := by
  simp only [execMmulFinish, onClock]; (repeat' split) <;> simp

@[simp] theorem lasts_execTransferComplete (s : State) (ch : ChanRef) : Lasts s (execTransferComplete ch s) := by
  refine lasts_onClock ?_
  split
  · split
    · simp
    · split
      all_goals
        next he => simp [shell_of_eq he]
  · simp

@[simp] theorem lasts_execBmvDisable (s : State) (b : BulkId) (w : RegWrite) :
    Lasts s (execBmvDisable b w s) := by
  simp only [execBmvDisable, onBar]; (repeat' split) <;> simp

@[simp] theorem lasts_execBmvDescComplete (s : State) (b : BulkId) : Lasts s (execBmvDescComplete b s) := by
  refine lasts_onClock ?_
  split
  · simp
  · split
    · simp
    · split
      · simp
      · split
        all_goals
          next he => simp [shell_of_eq he]

@[simp] theorem lasts_execTokenDelivery (s : State) (i : Nat) : Lasts s (execTokenDelivery i s) := by
  unfold execTokenDelivery
  split
  · simp
  · refine lasts_onClock ?_
    split
    all_goals
      next he => simp [shell_of_eq he]

@[simp] theorem lasts_execMigrationEpoch (s : State) (e : EdgeId) : Lasts s (execMigrationEpoch e s) := by
  refine lasts_onClock ?_
  rw [lasts_next, lasting_intPauseAll, lasting_foldl fun s f => by rw [shell_fset], lasting_lendStep]
  split
  · rfl
  · rw [lasting_clearAccesses, shell_promoteAll]
    split
    · rw [lasting_foldl_demoteOne]
    · rfl

@[simp] theorem lasts_execLenderLost (s : State) (dev : BitVec 12) :
    Lasts s (execLenderLost dev s) := by
  simp only [execLenderLost, onClock]; (repeat' split) <;> simp

@[simp] theorem lasts_execCompletionRecord (s : State) (r : CtxId) :
    Lasts s (execCompletionRecord r s) := by
  simp only [execCompletionRecord]; (repeat' split) <;> simp

@[simp] theorem lasts_execCallSheetPoll (s : State) (reads : List SheetRead) :
    Lasts s (execCallSheetPoll reads s) := by
  simp only [execCallSheetPoll]; (repeat' split) <;> simp

@[simp] theorem lasts_execLogEntryWrite (s : State) (r : CtxId) :
    Lasts s (execLogEntryWrite r s) := by
  simp only [execLogEntryWrite]; (repeat' split) <;> simp

@[simp] theorem lasts_execLogModeWrite (s : State) (sl : SlotId) (w : RegWrite) :
    Lasts s (execLogModeWrite sl w s) := by
  simp only [execLogModeWrite, onBar]; (repeat' split) <;> simp

@[simp] theorem lasts_execReplaySubmit (s : State) (r : CtxId) (entries : List LogRec) :
    Lasts s (execReplaySubmit r entries s) := by
  simp only [execReplaySubmit]; (repeat' split) <;> simp

@[simp] theorem lasts_execTimecal (s : State) (p : PortId) (markers : List Marker) :
    Lasts s (execTimecal p markers s) := by
  simp only [execTimecal, onClock]; (repeat' split) <;> simp

@[simp] theorem lasts_execCreditFloorWrite (s : State) (c : Fin 8) (w : RegWrite) :
    Lasts s (execCreditFloorWrite c w s) := by
  simp only [execCreditFloorWrite, onBar]; (repeat' split) <;> simp

@[simp] theorem lasts_execRequestResend (s : State) (id : Nat) :
    Lasts s (execRequestResend id s) := by
  simp only [execRequestResend]; (repeat' split) <;> simp

@[simp] theorem lasts_execRequestRto (s : State) (id : Nat) : Lasts s (execRequestRto id s) := by
  simp only [execRequestRto]; (repeat' split) <;> simp

@[simp] theorem lasts_execNotYetRetry (s : State) (id : Nat) :
    Lasts s (execNotYetRetry id s) := by
  simp only [execNotYetRetry]; (repeat' split) <;> simp

@[simp] theorem lasts_execReadResp (s : State) (p : PortId) (pkt : Packet) : Lasts s (execReadResp p pkt s) := by
  refine lasts_onClock ?_
  simp only
  split
  · simp
  · split
    next he => simp [shell_of_eq he]
    next he => (repeat' split) <;> simp [shell_of_eq he]

@[simp] theorem lasts_execAck (s : State) (p : PortId) (pkt : Packet) : Lasts s (execAck p pkt s) := by
  refine lasts_onClock ?_
  simp only
  split
  · simp
  · split
    next he => simp [shell_of_eq he]
    next he => split <;> simp [shell_of_eq he]

@[simp] theorem lasts_execChunkTimeout (s : State) (r : CtxId) (shard chunk : Nat) :
    Lasts s (execChunkTimeout r shard chunk s) := by
  simp only [execChunkTimeout, onClock]; (repeat' split) <;> simp

@[simp] theorem lasts_execChunkRequest (s : State) (r : CtxId) (shard chunk : Nat)
    (dev : BitVec 12) : Lasts s (execChunkRequest r shard chunk dev s) := by
  simp only [execChunkRequest, onClock]; (repeat' split) <;> simp

@[simp] theorem lasts_execArbiter (s : State) (n : CoreId) (r : CtxId) (arb : TakeRun) :
    Lasts s (execArbiter n r arb s) := by
  simp only [execArbiter, onClock]; (repeat' split) <;> simp

@[simp] theorem lasts_execGetCerts (s : State) (src : MbSrc) (req : Bytes) : Lasts s (execGetCerts src req s) := by
  refine lasts_mbRun fun p hp => ?_
  split at hp <;> cases hp
  rfl

@[simp] theorem lasts_execQuote (s : State) (src : MbSrc) (req : Bytes) : Lasts s (execQuote src req s) := by
  refine lasts_mbRun fun p hp => ?_
  split at hp <;> cases hp
  rw [shell_drawFree]

@[simp] theorem lasts_execKeyOpen (s : State) (src : MbSrc) (req : Bytes) : Lasts s (execKeyOpen src req s) := by
  refine lasts_mbRun fun p hp => ?_
  simp only at hp
  split at hp
  · cases hp
  · split at hp <;> cases hp
    simp

@[simp] theorem lasts_execKeyLoad (s : State) (src : MbSrc) (req : KeyRecord) : Lasts s (execKeyLoad src req s) := by
  refine lasts_mbRun fun p hp => ?_
  split at hp
  · cases hp
  · split at hp
    · cases hp
    · split at hp
      · cases hp
      · split at hp
        · cases hp
        · split at hp
          · cases hp
          · cases hp
            simp
          · rw [lasting_putTransport hp]

@[simp] theorem lasts_execKeyClear (s : State) (src : MbSrc) (req : Bytes) : Lasts s (execKeyClear src req s) := by
  refine lasts_mbRun fun p hp => ?_
  simp only at hp
  split at hp
  · cases hp
  · split at hp <;> cases hp <;> simp

@[simp] theorem lasts_execDbgChal (s : State) (src : MbSrc) (req : Bytes) : Lasts s (execDbgChal src req s) := by
  refine lasts_mbRun fun p hp => ?_
  simp only at hp
  split at hp
  · cases hp
  · split at hp <;> cases hp
    simp

@[simp] theorem lasts_execDbgDrop (s : State) (src : MbSrc) (req : Bytes) : Lasts s (execDbgDrop src req s) := by
  refine lasts_mbRun fun p hp => ?_
  split at hp
  · cases hp
  · split at hp <;> cases hp
    simp

@[simp] theorem lasts_execTakeoverAnnounce (s : State) (p : PortId) (m : AliasMsg) :
    Lasts s (execTakeoverAnnounce p m s) := by
  simp only [execTakeoverAnnounce, onClock]; (repeat' split) <;> simp

@[simp] theorem lasts_execMirrorStepCommit (s : State) (r : CtxId) (acked : Bool)
    (got : Option Commit) : Lasts s (execMirrorStepCommit r acked got s) := by
  simp only [execMirrorStepCommit, onClock]; (repeat' split) <;> simp

@[simp] theorem lasts_execTwinSlateExchange (s : State) (r : CtxId) (slate : BitVec 256) :
    Lasts s (execTwinSlateExchange r slate s) := by
  simp only [execTwinSlateExchange]; (repeat' split) <;> simp

@[simp] theorem lasts_execResync (s : State) (r : CtxId) (got : List PageCopy) :
    Lasts s (execResync r got s) := by
  simp only [execResync, onClock]; (repeat' split) <;> simp

@[simp] theorem lasts_execConvoyExpire (s : State) (dev : BitVec 12) :
    Lasts s (execConvoyExpire dev s) := by
  simp only [execConvoyExpire]; (repeat' split) <;> simp

@[simp] theorem lasts_execCapWrite (s : State) (src : MbSrc) (w : RegWrite) :
    Lasts s (execCapWrite src w s) := by
  simp only [execCapWrite, onBar]; (repeat' split) <;> simp

@[simp] theorem lasts_execThermalStep (s : State) (temps : List Nat) :
    Lasts s (execThermalStep temps s) := by
  simp only [execThermalStep]; (repeat' split) <;> simp

@[simp] theorem lasts_execRst (s : State) (w : RegWrite) : Lasts s (execRst w s) := by
  simp only [execRst, onBar]; (repeat' split) <;> simp

@[simp] theorem lasts_execVauxLoss (s : State) : Lasts s (execVauxLoss s) := by
  simp only [execVauxLoss, lasts_next]
  rfl

@[simp] theorem lasts_execI3cPrivateWrite (s : State) (bytes : Bytes) :
    Lasts s (execI3cPrivateWrite bytes s) := by
  simp only [execI3cPrivateWrite]; (repeat' split) <;> simp

@[simp] theorem lasts_execColl (s : State) (p : PortId) (pkt : Packet) : Lasts s (execColl p pkt s) := by
  refine lasts_onClock ?_
  split
  · simp
  · split
    · simp
    · split
      all_goals
        next he => simp [shell_of_eq he]

@[simp] theorem lasts_execAbort (s : State) (sl : SlotId) (w : RegWrite) :
    Lasts s (execAbort sl w s) := by
  simp [execAbort]

@[simp] theorem lasts_execFirmwareFetch (s : State) (w : RegWrite) :
    Lasts s (execFirmwareFetch w s) := by
  simp [execFirmwareFetch]

@[simp] theorem lasts_execGlbDetWrite (s : State) (w : RegWrite) :
    Lasts s (execGlbDetWrite w s) := by
  simp [execGlbDetWrite]

@[simp] theorem lasts_execPromote (s : State) (sl : SlotId) (w : RegWrite) :
    Lasts s (execPromote sl w s) := by
  simp [execPromote]

@[simp] theorem lasts_execReacq (s : State) (w : RegWrite) : Lasts s (execReacq w s) := by
  simp [execReacq]

@[simp] theorem lasts_execRouteEntryWrite (s : State) (w : RegWrite) :
    Lasts s (execRouteEntryWrite w s) := by
  simp [execRouteEntryWrite]

@[simp] theorem lasts_execTcSet (s : State) (w : RegWrite) : Lasts s (execTcSet w s) := by
  simp [execTcSet]

@[simp] theorem lasts_execDisableShelved (s : State) (w : RegWrite) :
    Lasts s (execDisableShelved w s) := by
  simp [execDisableShelved]

@[simp] theorem lasts_execReturnCtx (s : State) (w : RegWrite) : Lasts s (execReturnCtx w s) := by
  simp [execReturnCtx]

@[simp] theorem lasts_execContextEnable (s : State) (sl : SlotId) (w : RegWrite) :
    Lasts s (execContextEnable sl w s) := by
  simp [execContextEnable]

/-! ### Writes of BAR0 that are commands -/

@[simp] theorem lasts_writeCtl (s : State) (sl : SlotId) (w : RegWrite) : Lasts s (writeCtl s sl w) := by
  unfold writeCtl
  have ho : Lasts s (if wbit w F.ctxCtlEn = true then execContextEnable sl w s else execContextDisable sl w s) := by
    simp
  split
  next t he =>
    have ht : (shell t).lasting = (shell s).lasting := ho t he
    split
    · exact fun u hu => (lasts_execShelve t sl w u hu).trans ht
    · exact lasts_next.2 ht
  next => exact ho

@[simp] theorem lasts_writeBulk (s : State) (b : BulkId) (w : RegWrite) : Lasts s (writeBulk s b w) := by
  unfold writeBulk; (repeat' split) <;> simp

@[simp] theorem lasts_writePause (s : State) (n : CoreId) (c : Fin 4) (w : RegWrite) :
    Lasts s (writePause s n c w) := by
  unfold writePause; (repeat' split) <;> simp [execPause, execResumeTransfer]

@[simp] theorem lasts_writeRow (s : State) (r : RegD) (i j : Nat) (w : RegWrite) : Lasts s (writeRow s r i j w) := by
  unfold writeRow
  with_reducible repeat' refine lasts_ite ?_ ?_
  all_goals simp [writeDir]

@[simp] theorem lasts_execRegisterWrite (s : State) (off size : Nat) (data : BitVec 64) :
    Lasts s (execRegisterWrite off size data s) := by
  simp only [execRegisterWrite, onBar]; (repeat' split) <;> simp

/-! ### What fuses and the repair store keep -/

/-- Of the repair store and the fuses, what `State.Kept` says of two states that hold them. -/
def Nv.Keeps (n m : Nv) : Prop :=
  (if n.arbRsOk then n.arbRs else 0) ≤ (if m.arbRsOk then m.arbRs else 0) ∧ n.arbF ≤ m.arbF ∧ n.starts ≤ m.starts ∧
    n.d2cnt ≤ m.d2cnt ∧ (n.fuseDeployed = true → m.fuseDeployed = true) ∧
    (n.fuseRetired = true → m.fuseRetired = true) ∧ (n.ownerSet = true → m.ownerSet = true) ∧ n.records <+: m.records

theorem kept_iff {s t : State} : State.Kept s t ↔ t.chip = s.chip ∧ Nv.Keeps s.nv t.nv := Iff.rfl

theorem Nv.Keeps.refl (n : Nv) : Nv.Keeps n n := ⟨le_rfl, le_rfl, le_rfl, le_rfl, id, id, id, List.prefix_rfl⟩

theorem Nv.Keeps.trans {n m l : Nv} (h : Nv.Keeps n m) (g : Nv.Keeps m l) : Nv.Keeps n l := by
  obtain ⟨harb, hf, hst, hd2, hdep, hret, hown, hrec⟩ := h
  obtain ⟨garb, gf, gst, gd2, gdep, gret, gown, grec⟩ := g
  exact ⟨harb.trans garb, hf.trans gf, hst.trans gst, hd2.trans gd2, gdep ∘ hdep, gret ∘ hret, gown ∘ hown,
    hrec.trans grec⟩

theorem State.Kept.refl (s : State) : State.Kept s s := kept_iff.2 ⟨rfl, .refl _⟩

theorem State.Kept.trans {s t u : State} (h : State.Kept s t) (g : State.Kept t u) : State.Kept s u :=
  kept_iff.2 ⟨(kept_iff.1 g).1.trans (kept_iff.1 h).1, (kept_iff.1 h).2.trans (kept_iff.1 g).2⟩

/-- Only the grade, the repair store and the fuses matter. -/
theorem kept_of_lasting {s t : State} (h : (shell t).lasting = (shell s).lasting) : State.Kept s t := by
  obtain ⟨hchip, hnv⟩ := Prod.mk.inj h
  change t.chip = s.chip at hchip
  change t.nv = s.nv at hnv
  exact kept_iff.2 ⟨hchip, hnv ▸ .refl _⟩

theorem kept_foldl {α : Type} {f : State → α → State} (h : ∀ s a, State.Kept s (f s a)) (l : List α) (s : State) :
    State.Kept s (l.foldl f s) :=
  List.foldlRecOn (motive := State.Kept s) l f (.refl s) fun t ht a _ => ht.trans (h t a)

/-- What follows and leaves all that lasts takes nothing back. -/
theorem State.Kept.then {s t u : State} (h : State.Kept s t) (hu : (shell u).lasting = (shell t).lasting) :
    State.Kept s u := h.trans (kept_of_lasting hu)

/-- R523: a repair record is appended, or the store is full. -/
theorem kept_addRepair (s : State) (kind source unit sub place : Nat) :
    State.Kept s (addRepair s kind source unit sub place) := by
  unfold addRepair
  split
  · exact kept_of_lasting (by simp)
  · refine State.Kept.then (kept_iff.2 ⟨?_, ?_⟩) (lasting_daily ..)
    · rfl
    · exact ⟨le_rfl, le_rfl, le_rfl, le_rfl, id, id, id, List.prefix_append ..⟩

theorem kept_recordFails (s : State) (source : Nat) (fs : List TestFail) : State.Kept s (recordFails s source fs) :=
  kept_foldl (fun _ _ => kept_addRepair ..) fs s

/-- A core that fails leaves its repair record (R492, R493). -/
theorem kept_coreFault (s : State) (n : Nat) : State.Kept s (coreFault s n) := by
  unfold coreFault
  split
  · exact .refl s
  · refine State.Kept.then (t := addRepair (loseMirrors (fence s n) n) 0x04 2 n 0 0)
      ((kept_of_lasting ?_).trans (kept_addRepair ..)) ?_
    · simp
    · simp only [lasting_faultRecord]
      rw [lasting_foldl fun s k => lasting_losePart .., lasting_foldl]
      intro s k
      split
      · exact lasting_loseCore ..
      · rfl

theorem kept_coreTestDone (s : State) (n : Nat) (fs : List TestFail) : State.Kept s (coreTestDone s n fs) := by
  unfold coreTestDone
  lift_lets
  extract_lets s₁ s₂ s₃
  have h₂ : State.Kept s s₂ := (kept_of_lasting (by simp [s₁])).trans (kept_recordFails s₁ 1 fs)
  have h₃ : State.Kept s s₃ := by
    simp only [s₃]
    split
    · exact h₂
    · exact h₂.trans (kept_addRepair ..)
  exact h₃.then (by simp)

theorem kept_portTestDone (s : State) (kind p lane : Nat) (fs : List TestFail) :
    State.Kept s (portTestDone s kind p lane fs) := by
  unfold portTestDone
  lift_lets
  extract_lets s₁ s₂ lost s₃ s₄
  have h₂ : State.Kept s s₂ := (kept_of_lasting (by simp [s₁])).trans (kept_recordFails s₁ 1 fs)
  refine h₂.then ?_
  simp only [lasting_testEnd, s₄]
  split
  · simp [s₃]
  · split
    · simp [s₃]
    · split <;> simp [s₃]

/-- R552: an image that commits raises the minimum that is stored, and none lowers it. -/
theorem kept_bootAccept (s : State) (img : FwImage) : State.Kept s (bootAccept s img) := by
  simp only [bootAccept]
  generalize hnv : (if xf img.header 13 1 % 2 = 1 then _ else s.nv) = nv
  have hk : Nv.Keeps s.nv nv := by
    rw [← hnv]
    split
    · exact ⟨le_max_left .., le_rfl, le_rfl, le_rfl, id, id, id, List.prefix_rfl⟩
    · exact .refl _
  have hs : State.Kept s { s with nv := nv } := kept_iff.2 ⟨rfl, hk⟩
  refine hs.then ?_
  rw [shell_settleReady, shell_fset, shell_fset, lasting_fetchOver]
  rfl

/-- R559: the entry into D2 is counted. -/
theorem kept_enterD2 (s : State) : State.Kept s (enterD2 s) := by
  simp only [enterD2]
  generalize hu : fset (emptyKeys s) F.secStatDbgmax 0 0 2 = u
  have hku : State.Kept s u := kept_of_lasting (by simp [← hu])
  have hkv : State.Kept u (if lifeNow u = 1 then { u with nv := { u.nv with
      d2cnt := max u.nv.d2cnt (min 65535 (u.nv.d2cnt + 1)) } } else u) := by
    split
    · exact kept_iff.2 ⟨rfl, le_rfl, le_rfl, le_rfl, le_max_left .., id, id, id, List.prefix_rfl⟩
    · exact .refl u
  refine (hku.trans hkv).then ?_
  rw [lasting_foldl fun s p => lasting_toDetect .., lasting_foldl fun s r => by rw [shell_reelFail]]

theorem kept_grantDebug (s : State) (v : Nat) : State.Kept s (grantDebug s v) := by
  unfold grantDebug
  lift_lets
  extract_lets s₁ s₂
  have h₁ : State.Kept s s₁ := by
    simp only [s₁]
    split
    · exact kept_enterD2 s
    · exact .refl s
  exact h₁.then (by simp [s₂])

/-- R561: a change of the lifecycle blows fuses and records an owner; it undoes neither. -/
theorem kept_changeLife (s : State) (new : Nat) (owner : BitVec 256) : State.Kept s (changeLife s new owner) := by
  simp only [changeLife]
  generalize hu : (if new = 1 ∧ (lifeNow s).toNat = 2 then s else emptyStore s) = u
  have hku : State.Kept s u := by
    rw [← hu]
    split
    · exact .refl s
    · exact kept_of_lasting (by simp)
  refine hku.trans (kept_iff.2 ⟨rfl, ?_⟩)
  split <;> split <;> exact ⟨le_rfl, le_rfl, le_rfl, le_rfl, by simp, by simp, by simp, List.prefix_rfl⟩

theorem kept_tokenApply (s : State) (b : Bytes) : State.Kept s (tokenApply s b) := by
  unfold tokenApply
  split
  · exact (kept_of_lasting (lasting_update s ..)).trans (kept_grantDebug ..)
  · exact (kept_of_lasting (lasting_update s ..)).trans (kept_changeLife ..)

/-! ### Every command -/

/-- The next state of an outcome of `s`, where there is one, takes nothing back that lasts. -/
def NextKept (s : State) (o : Host.Outcome State Fault Refusal) : Prop := ∀ t, o = .next t → State.Kept s t

@[simp] theorem nextKept_next {s t : State} : NextKept s (.next t) ↔ State.Kept s t := by simp [NextKept]

theorem Lasts.kept {s : State} {o : Host.Outcome State Fault Refusal} (h : Lasts s o) : NextKept s o :=
  fun t ht => kept_of_lasting (h t ht)

theorem nextKept_execBeatTimeout (s : State) (n : CoreId) : NextKept s (execBeatTimeout n s) := by
  unfold execBeatTimeout onClock
  split
  · rw [nextKept_next]
    split
    · exact .refl s
    · exact kept_coreFault s n
  · exact nextKept_next.2 (.refl s)

theorem nextKept_execOnlineTestComplete (s : State) (fs : List TestFail) :
    NextKept s (execOnlineTestComplete fs s) := by
  unfold execOnlineTestComplete
  split
  · exact nextKept_next.2 (.refl s)
  next n lane _ =>
    rw [nextKept_next]
    have hd : State.Kept s (drainTest s) := kept_of_lasting (by simp)
    split
    · exact (hd.trans (kept_coreTestDone _ n fs)).then (by simp)
    · exact hd
  next kind p lane _ _ => exact nextKept_next.2 ((kept_portTestDone s kind p lane fs).then (by simp))

theorem nextKept_execWrapTestComplete (s : State) (fs : List TestFail) :
    NextKept s (execWrapTestComplete fs s) := by
  unfold execWrapTestComplete
  lift_lets
  extract_lets passed back lanes s₁ s₂ s₃ banks s₄ s₅ s₆
  have h₁ : State.Kept s s₁ := kept_foldl (fun _ _ => kept_addRepair ..) _ _
  have h₂ : State.Kept s s₂ := h₁.then (lasting_foldl (fun _ _ => lasting_testRecord ..) _ _)
  have h₃ : State.Kept s s₃ := h₂.trans (kept_recordFails ..)
  have h₄ : State.Kept s s₄ := h₃.trans (kept_foldl (fun _ _ => kept_addRepair ..) _ _)
  have h₅ : State.Kept s s₅ := h₄.trans (kept_foldl (fun _ _ => kept_addRepair ..) _ _)
  split
  · exact nextKept_next.2 (.refl s)
  · exact nextKept_next.2 (h₅.then (by simp [s₆]))

theorem nextKept_execBootCheck (s : State) (img : FwImage) : NextKept s (execBootCheck img s) := by
  unfold execBootCheck
  split
  · exact nextKept_next.2 (.refl s)
  · split
    · exact nextKept_next.2 (kept_of_lasting (by simp))
    · exact nextKept_next.2 (kept_bootAccept s img)

theorem nextKept_execToken (s : State) (src : MbSrc) (tk : TokenMsg) : NextKept s (execToken src tk s) := by
  unfold execToken
  split
  · exact nextKept_next.2 (.refl s)
  · split
    · exact nextKept_next.2 (kept_of_lasting (by simp))
    · exact nextKept_next.2 (kept_of_lasting (by simp))
    · exact nextKept_next.2 ((kept_tokenApply s tk.body).then (by simp))

/-- R552: the fused minimum only rises. -/
theorem nextKept_execArbFuse (s : State) (src : MbSrc) (req : Bytes) : NextKept s (execArbFuse src req s) := by
  unfold execArbFuse mbRun
  split
  · exact nextKept_next.2 (.refl s)
  · split
    · exact nextKept_next.2 (kept_of_lasting (by simp))
    next u _ he =>
      rw [nextKept_next]
      refine State.Kept.then (t := u) ?_ (by simp)
      simp only at he
      split at he
      · cases he
      · split at he
        · cases he
        · cases he
          exact kept_iff.2 ⟨rfl, le_rfl, le_max_left .., le_rfl, le_rfl, id, id, id, List.prefix_rfl⟩

/-- R608: a cold start is counted. -/
theorem nextKept_execColdStart (s : State) : NextKept s (execColdStart s) := by
  unfold execColdStart
  split
  · exact nextKept_next.2 (.refl s)
  · simp only [nextKept_next]
    refine State.Kept.then (kept_iff.2 ⟨?_, ?_⟩)
      ((lasting_beginPcie _).trans ((lasting_coldPorts _).trans ((lasting_coldCores _).trans (by rw [shell_fset]))))
    · rfl
    · exact ⟨le_rfl, le_rfl, le_max_left .., le_rfl, id, id, id, List.prefix_rfl⟩

/-- Every command takes nothing back that lasts: the eight above by their own lemmas, a row that is one instruction of a
bundle by that of the issue, and every other leaves what lasts as it is. -/
theorem nextKept_exec (i : Instr) (s : State) : NextKept s (exec i s) := by
  cases i
  case coreFault n => exact nextKept_next.2 (kept_coreFault s n)
  case beatTimeout n => exact nextKept_execBeatTimeout s n
  case onlineTestComplete fs => exact nextKept_execOnlineTestComplete s fs
  case wrapTestComplete fs => exact nextKept_execWrapTestComplete s fs
  case bootCheck img => exact nextKept_execBootCheck s img
  case token src tk => exact nextKept_execToken s src tk
  case arbFuse src req => exact nextKept_execArbFuse s src req
  case coldStart => exact nextKept_execColdStart s
  case
    bundleIssue | loop | br | brSet | waittok | recvAny | sendtok | action | slate | cut | fence | trapcfg |
    endTake | mcfg | mmul | mew | spadd | spmerge | spround | spexport | spimport | mstagea | mstageb | mdrain |
    vadd | vmul | vfma | vmax | vcmp | vsel | vcvt | vred | vexp | vlog | vrsq | vrcp | vtanh | vsig | vgelu |
    vsin | vcos | vrand | vrowreplay | vupd | seti | sethi | salu | tadj | setvl | xfer | movg | hash | fill |
    cmpm | swp =>
    exact nextKept_next.2 (kept_of_lasting (lasting_issueSlots ..))
  all_goals
    exact Lasts.kept (by
      simp [exec,
        execPause, execResumeTransfer, execDdrRefresh, execDdrTraining, execMigrationDrain, execAlloc, execFree,
        execSetattr, execClrattr, execPin, execUnpin, execClearPoison, execCompletionCoalesceTimeout,
        execStandStillEnd, execMarkerSend, execTick, execLossOfSignal, execWritePkt, execReadReq, execTokenPacket,
        execAtomic, execReelLoad, execCommit, execDeviceFault, execPartnerTestRequest, execHealthRecord,
        execFirmwareFetchTimeout, execEphemeralKeyExpire, execDebugHalt, execScan, execPairEnable, execPairDisable,
        execHandover, execHeartbeat, execAnsweredReport, execConvoyAnnounce, execConvoyReceive, execFrequencyStep,
        execDroop, execDroopEnd, execFillLightTimeout, execIdleEntry, execRetainRequest, execRetainExit,
        execWarmReset, execFunctionLevelReset, execPerstN, execPerstNDeassert, execPcieLinkL0, execD3hot,
        execD3hotExit, execExtest, execClamp, execHighz, execTestLogicReset, execRailSequenceTimeout,
        execVinUndervoltage, execPowerDown, execVauxPresent, execTcRefLoss, execPlacementTimeout, execEntdaa,
        execSetdasa, execSetnewda, execRstdaa, execGetpid, execGetbcr, execGetdcr, execGetstatus, execEnec,
        execDisec, execSetmwl, execGetmwl, execSetmrl, execGetmrl])

/-- The idle step leaves what lasts. -/
theorem lasting_idle (s : State) : (shell (idle s)).lasting = (shell s).lasting := by
  simp [idle]

end Sys2Proof.Machine

/-- Settles O4: only a repair record, an accepted image, a debug grant, a change of the lifecycle, `ARB_FUSE` and a cold
start change what outlives the power (`kept_addRepair` to `nextKept_execColdStart`), and none takes anything back; every
other function of the model leaves it (its `lasting_` lemma), and with it every other command (`nextKept_exec`). -/
theorem stepKeepsFusesAndStore : Obligations.StepKeepsFusesAndStore := by
  intro s t ht
  unfold step at ht
  split at ht
  · cases ht
    exact kept_of_lasting (lasting_idle s)
  · exact (kept_of_lasting (lasting_update s ..)).trans (nextKept_exec _ _ t ht)

end

section
/-! PROOFS. Scope: the I3C target. -/

open Sys2Proof Sys2Proof.Machine

namespace Sys2Proof.Machine

/-! ### Addresses, lengths and interrupts -/

/-- Where `VAUX` is present the target changes. -/
theorem i3cSet_of_vaux {s : State} (h : s.pins.vaux = true) (f : I3c → I3c) : i3cSet s f = { s with i3c := f s.i3c } :=
  if_pos h

/-- A target that has an address answers. -/
theorem i3cAnswer_of_addr {s : State} (hv : s.pins.vaux = true) (ha : s.i3c.addr.isSome = true) (bs : Bytes) :
    i3cAnswer s bs = emit s (.i3c bs) := by
  simp [i3cAnswer, hv, ha]

/-- A characteristic of `n` bytes is answered with `n` bytes. -/
theorem i3cOpen_of_addr {s : State} (hv : s.pins.vaux = true) (ha : s.i3c.addr.isSome = true) (n : Nat) :
    ∃ bs, i3cOpen s n = emit (drawFree s).2 (.i3c bs) ∧ bs.length = n :=
  ⟨_, i3cAnswer_of_addr (s := (drawFree s).2) hv ha _, leBytes_length ..⟩

/-- Two bytes, most significant first, are the length they were made of. -/
theorem leBytes_two_reverse (x : BitVec 16) :
    ∃ a b : Byte, (leBytes 2 x.toNat).reverse = [a, b] ∧ a.toNat * 256 + b.toNat = x.toNat := by
  refine ⟨BitVec.ofNat 8 (x.toNat / 256), BitVec.ofNat 8 x.toNat, rfl, ?_⟩
  have := x.isLt
  simp only [BitVec.toNat_ofNat]
  omega

/-! ### Writes of bytes -/

/-- A field that the bytes do not cover is left (R592). -/
theorem mgField_outside {off base : Nat} {bs : Bytes} {f : Fld}
    (h : base + f.lo / 8 < off ∨ off + bs.length ≤ base + (f.lo + f.w - 1) / 8) : mgField off bs base f = none := by
  simp only [mgField]
  exact if_neg (by omega)

/-- Bytes below `MG_MBDATA` write none of it. -/
theorem mgData_below {off : Nat} {bs : Bytes} (h : off + bs.length ≤ 0x2000) (s : State) : mgData off bs s = s := by
  have hn : bs.zipIdx.filter (fun e => decide (0x2000 ≤ off + e.2 ∧ off + e.2 < 0x4000)) = [] := by
    refine List.filter_eq_nil_iff.2 fun e he => ?_
    have := List.snd_lt_of_mem_zipIdx he
    simp only [decide_eq_true_eq, not_and, Nat.not_lt]
    omega
  simp only [mgData, hn, List.foldl_nil]

/-- Bytes below `MG_MBCTL` write none of it. -/
theorem mgMbctl_below {off : Nat} {bs : Bytes} (h : off + bs.length ≤ 0x1000) (s : State) : mgMbctl off bs s = s := by
  have hn (f : Fld) : mgField off bs mgMbctlAt f = none := mgField_outside (.inr (by unfold mgMbctlAt; omega))
  simp [mgMbctl, mgClear, hn]

/-- Bytes above `MG_ALERT` leave its fields. -/
theorem mgAlert_above {off : Nat} {bs : Bytes} (h : 0x18 ≤ off) (s : State) : mgAlert off bs s = alertPin s := by
  have hn (f : Fld) (hf : f.lo < 64) : mgField off bs mgAlertAt f = none :=
    mgField_outside (.inl (by unfold mgAlertAt; omega))
  simp [mgAlert, mgClear, hn F.mgAlertDevfault (by decide), hn F.mgAlertSeqfail (by decide),
    hn F.mgAlertBootrej (by decide), hn F.mgAlertThermal (by decide), hn F.mgAlertMask (by decide)]

/-- The two bytes of `MG_CAP`. -/
theorem mgField_mgCap (lo hi : Byte) :
    mgField 0x28 [lo, hi] mgCapAt F.mgCapWatts = some ((lo.toNat + 256 * hi.toNat) % 4096) := by
  simp [mgField, mgCapAt, F.mgCapWatts, bitsOf, leNat]

/-- `MG_CAP` written acts as `PWR_CAP` (R535). -/
theorem exec_i3cPrivateWrite_cap {s : State} (hv : s.pins.vaux = true) (lo hi : Byte) (hp : powerState s ≠ 3) :
    exec (.i3cPrivateWrite [0x28, 0, lo, hi]) s =
      .next (putCap (alertPin { s with i3c := { s.i3c with off := 0x28 } })
        ⟨.both, BitVec.ofNat 64 ((lo.toNat + 256 * hi.toNat) % 4096)⟩) := by
  have hp' : powerState (alertPin { s with i3c := { s.i3c with off := 0x28 } }) ≠ 3 := hp
  show execI3cPrivateWrite _ s = _
  have hcap (u : State) (hu : powerState u ≠ 3) : mgCap 0x28 [lo, hi] u =
      putCap u ⟨.both, BitVec.ofNat 64 ((lo.toNat + 256 * hi.toNat) % 4096)⟩ := by
    simp [mgCap, mgField_mgCap, hu]
  have hshort : ¬([0x28, 0, lo, hi].length < 2 ∨ (!s.pins.vaux) = true) := by simp [hv]
  rw [execI3cPrivateWrite, if_neg hshort]
  show Host.Outcome.next (mgData 0x28 [lo, hi] (mgMbctl 0x28 [lo, hi] (mgCap 0x28 [lo, hi] (mgAlert 0x28 [lo, hi]
    { s with i3c := { s.i3c with off := 0x28 } })))) = _
  rw [mgData_below (by simp), mgMbctl_below (by simp), mgAlert_above (by simp), hcap _ hp']

/-- A cap in range, of no fewer watts than the floors, is taken (R535). -/
theorem putCap_taken {s : State} {w : RegWrite} (hc : covered w.half F.pwrCapWatts = true)
    (hlo : 600 ≤ wval w F.pwrCapWatts) (hhi : wval w F.pwrCapWatts ≤ 2400) (hf : floorSum s ≤ wval w F.pwrCapWatts) :
    putCap s w = fset s F.pwrCapWatts 0 0 (wval w F.pwrCapWatts) := by
  have hin : ¬(wval w F.pwrCapWatts < 600 ∨ 2400 < wval w F.pwrCapWatts ∨ wval w F.pwrCapWatts < floorSum s) := by omega
  simp [putCap, hc, hin]

/-- The first byte of `MG_ALERT` holds its four flags, each at its bit. -/
theorem mgField_mgAlert {f : Fld} (hw : f.w = 1) (hl : f.lo < 8) (b : Byte) :
    mgField 0x10 [b] mgAlertAt f = some (b.toNat / 2 ^ f.lo % 2) := by
  have h0 : f.lo / 8 = 0 := by omega
  simp [mgField, mgAlertAt, hw, h0, bitsOf, leNat, Nat.mod_eq_of_lt hl]

/-- A flag of `MG_ALERT` that a byte written from its offset clears, where its bit is 1. -/
theorem mgClear_mgAlert {f : Fld} (hw : f.w = 1) (hl : f.lo < 8) (b : Byte) (s : State) :
    mgClear 0x10 [b] mgAlertAt s f = if b.getLsbD f.lo then fset s f 0 0 0 else s := by
  rw [mgClear, mgField_mgAlert hw hl]
  simp [BitVec.getLsbD, Nat.testBit_eq_decide_div_mod_eq]

/-- The flags of `MG_ALERT`. -/
def alertFlags : List Fld := [F.mgAlertDevfault, F.mgAlertSeqfail, F.mgAlertBootrej, F.mgAlertThermal]

/-- The flags that a byte has a 1 for, cleared. -/
def flagsCleared (b : Byte) (s : State) : State :=
  alertFlags.foldl (fun s f => if b.getLsbD f.lo then fset s f 0 0 0 else s) s

/-- A byte written to `MG_ALERT` clears the flags that it has a 1 for, and sets the pin anew. -/
theorem exec_i3cPrivateWrite_alert {s : State} (hv : s.pins.vaux = true) (b : Byte) :
    exec (.i3cPrivateWrite [0x10, 0, b]) s =
      .next (alertPin (flagsCleared b { s with i3c := { s.i3c with off := 0x10 } })) := by
  show execI3cPrivateWrite _ s = _
  have hshort : ¬([0x10, 0, b].length < 2 ∨ (!s.pins.vaux) = true) := by simp [hv]
  rw [execI3cPrivateWrite, if_neg hshort]
  show Host.Outcome.next (mgData 0x10 [b] (mgMbctl 0x10 [b] (mgCap 0x10 [b] (mgAlert 0x10 [b]
    { s with i3c := { s.i3c with off := 0x10 } })))) = _
  have hcap (u : State) : mgCap 0x10 [b] u = u := by
    rw [mgCap, mgField_outside (.inr (by simp [mgCapAt]; omega))]
  have hmask : mgField 0x10 [b] mgAlertAt F.mgAlertMask = none :=
    mgField_outside (.inr (by simp [mgAlertAt, F.mgAlertMask]))
  have hflags (u : State) : [F.mgAlertDevfault, F.mgAlertSeqfail, F.mgAlertBootrej, F.mgAlertThermal].foldl
      (mgClear 0x10 [b] mgAlertAt) u = flagsCleared b u :=
    List.foldl_ext _ _ _ fun s f hf => mgClear_mgAlert (by revert f; decide) (by revert f; decide) b s
  rw [mgData_below (by simp), mgMbctl_below (by simp), hcap, mgAlert, hflags]
  simp only [hmask]

/-- A flag afterwards. -/
theorem fget_flagsCleared {f : Fld} (hf : f ∈ alertFlags) (b : Byte) (s : State) :
    fget (flagsCleared b s) f 0 0 = if b.getLsbD f.lo then 0 else fget s f 0 0 := by
  have hne : ∀ f ∈ alertFlags, ∀ g ∈ alertFlags, f ≠ g → g.key 0 0 ≠ f.key 0 0 := by decide
  have step (t : State) (g : Fld) (hg : g ∈ alertFlags) :
      fget (if b.getLsbD g.lo then fset t g 0 0 0 else t) f 0 0 =
        if g = f ∧ b.getLsbD f.lo then 0 else fget t f 0 0 := by
    by_cases hgf : g = f
    · subst hgf
      split <;> simp_all
    · split
      · simp [hgf, fget_fset_ne (hne f hf g hg (Ne.symm hgf))]
      · simp [hgf]
  simp only [alertFlags, List.mem_cons, List.not_mem_nil, or_false] at hf
  unfold flagsCleared alertFlags
  simp only [List.foldl]
  rw [step _ _ (by decide), step _ _ (by decide), step _ _ (by decide), step _ _ (by decide)]
  rcases hf with rfl | rfl | rfl | rfl <;> split_ifs <;> simp_all

end Sys2Proof.Machine

/-- Settles O59: an address, a length and the interrupt enable are fields of the target (`i3cSet_of_vaux`), an answer
goes out where it has an address (`i3cAnswer_of_addr`), and the writes of bytes are those of `MG_CAP` and `MG_ALERT`
(`exec_i3cPrivateWrite_cap`, `exec_i3cPrivateWrite_alert`). -/
theorem managementTarget : Obligations.ManagementTarget := by
  intro s addr mask len hv
  have set (f : I3c → I3c) : i3cSet s f = { s with i3c := f s.i3c } := i3cSet_of_vaux hv f
  refine ⟨fun c hc => ?take, congrArg _ (set _), congrArg _ (set _), congrArg _ (set _), congrArg _ (set _),
    congrArg _ (set _), congrArg _ (set _), fun ha => ⟨?getmwl, ?getmrl, fun q hq => ?answer⟩, fun lo hi hp => ?cap,
    fun b => ⟨_, exec_i3cPrivateWrite_alert hv b, ?alert⟩⟩
  case take =>
    rcases List.mem_pair.1 hc with rfl | rfl <;> exact congrArg _ (set _)
  case getmwl =>
    obtain ⟨a, b, hab, hn⟩ := leBytes_two_reverse s.i3c.mwl
    refine ⟨a, b, ?_, hn⟩
    show Host.Outcome.next (i3cAnswer s (leBytes 2 s.i3c.mwl.toNat).reverse) = _
    rw [hab, i3cAnswer_of_addr hv ha]
  case getmrl =>
    obtain ⟨a, b, hab, hn⟩ := leBytes_two_reverse s.i3c.mrl
    refine ⟨a, b, 1, ?_, hn⟩
    show Host.Outcome.next (i3cAnswer s ((leBytes 2 s.i3c.mrl.toNat).reverse ++ [1])) = _
    rw [hab, i3cAnswer_of_addr hv ha]
    rfl
  case answer =>
    have answers (n : Nat) : ∃ bs, Host.Outcome.next (i3cOpen s n) =
        (.next (emit (drawFree s).2 (.i3c bs)) : Host.Outcome State Fault Refusal) ∧ bs.length = n := by
      obtain ⟨bs, hbs, hn⟩ := i3cOpen_of_addr hv ha n
      exact ⟨bs, congrArg _ hbs, hn⟩
    simp only [List.mem_cons, List.not_mem_nil, or_false] at hq
    rcases hq with rfl | rfl | rfl | rfl
    · exact answers 6
    · exact answers 1
    · exact answers 1
    · exact answers 2
  case cap =>
    intro v hlo hhi hf
    have hw : wval ⟨.both, BitVec.ofNat 64 v⟩ F.pwrCapWatts = v := by
      simp only [wval, bitsOf, BitVec.toNat_ofNat, F.pwrCapWatts]
      omega
    refine ⟨_, exec_i3cPrivateWrite_cap hv lo hi hp, ?_⟩
    rw [putCap_taken rfl (by rw [hw]; exact hlo) (by rw [hw]; exact hhi) (by rw [hw]; exact hf), hw]
    refine ⟨?_, rfl, rfl⟩
    rw [fget_fset_same]
    exact Nat.mod_eq_of_lt (by simp only [F.pwrCapWatts]; omega)
  case alert =>
    have flag {f : Fld} (hf : f ∈ alertFlags) : fget (alertPin (flagsCleared b
        { s with i3c := { s.i3c with off := 0x10 } })) f 0 0 = if b.getLsbD f.lo then 0 else fget s f 0 0 :=
      fget_flagsCleared hf b _
    exact ⟨fun h => (flag (by decide)).trans (if_pos h),
      fun h => (flag (by decide)).trans (if_neg (Bool.eq_false_iff.1 h)),
      fun h => (flag (by decide)).trans (if_pos h), fun h => (flag (by decide)).trans (if_pos h),
      fun h => (flag (by decide)).trans (if_pos h)⟩

end

section
/-! PROOFS. Scope: enable, check and disable of a context. -/

open Sys2Proof Sys2Proof.Machine

namespace Sys2Proof.Machine

/-! ### Writes of `CTX_CTL` -/

theorem ctx_writeFields (s : State) (w : RegWrite) (fs : List Fld) (i j r : Nat) :
    ctx (writeFields s w fs i j) r = ctx s r := congrArg (fun c => tget c r ctxInit) (writeFields_ctxs s w fs i j)

theorem slotCtx_writeFields (s : State) (w : RegWrite) (fs : List Fld) (i j sl : Nat) :
    slotCtx (writeFields s w fs i j) sl = slotCtx s sl := by simp only [slotCtx, writeFields_ctxs]

/-- R417: of a slot in use the write's `REGNUM` is not taken. -/
theorem putCtl_of_busy {s : State} {sl : Nat} (h : slotBusy s sl = true) (w : RegWrite) :
    putCtl s sl w = writeFields s w [F.ctxCtlPrio] sl 0 := by rw [putCtl, if_pos h]

theorem putCtl_of_free {s : State} {sl : Nat} (h : slotBusy s sl = false) (w : RegWrite) :
    putCtl s sl w = writeFields s w [F.ctxCtlRegnum, F.ctxCtlPrio] sl 0 := by rw [putCtl, if_neg (by simp [h])]

theorem slotBusy_of_ctx {s : State} {sl r : Nat} (h : slotCtx s sl = some r) : slotBusy s sl = true := by
  simp [slotBusy, h]

theorem slotBusy_of_checking {s : State} {sl : Nat} (h : slotChecking s sl = true) : slotBusy s sl = true := by
  simp [slotBusy, h]

/-! ### Enable, check and disable -/

variable {s : State} {sl : SlotId} {w : RegWrite}

/-- R416: an enable of a free slot makes it CHECKING. -/
theorem exec_contextEnable_free (ho : writeOpen s false = true) (hen : wbit w F.ctxCtlEn = true)
    (hf : slotBusy s sl.val = false) : exec (.contextEnable sl w) s =
      .next (fset (writeFields s w [F.ctxCtlRegnum, F.ctxCtlPrio] sl.val 0) F.ctxStatState sl.val 0 1) := by
  show execContextEnable sl w s = _
  rw [execContextEnable, onBar_open ho]
  simp [hen, hf, putCtl_of_free hf]

/-- An image of the length that the slot gives is one whose length is not wrong. -/
theorem image_length_ok {bytes : Option Bytes}
    (hl : ∀ b, bytes = some b → b.length = fget s F.ctxImagelenBytes sl.val 0) :
    (bytes.map (fun b => b.length != fget s F.ctxImagelenBytes sl.val 0)).getD false = false := by
  cases bytes with
  | none => rfl
  | some b => simp [hl b rfl]

section
variable {bytes : Option Bytes} {img : Option Image} {partner : Option Counterpart}

/-- R417: an image that passes its check registers the context. -/
theorem exec_consistencyCheck_passed {g : Image} (hc : slotChecking s sl.val = true)
    (hl : ∀ b, bytes = some b → b.length = fget s F.ctxImagelenBytes sl.val 0)
    (hp : checkCode s sl.val bytes img partner = none) (hg : img = some g) :
    exec (.consistencyCheck sl bytes img partner) s = .next (admitContext s sl g) := by
  subst hg
  show execConsistencyCheck sl bytes (some g) partner s = _
  rw [execConsistencyCheck, if_neg (by simp [hc]), if_neg (by simp [image_length_ok hl])]
  simp only [hp]

/-- R417: one that fails it is refused with the code. -/
theorem exec_consistencyCheck_failed {code : Nat} (hc : slotChecking s sl.val = true)
    (hl : ∀ b, bytes = some b → b.length = fget s F.ctxImagelenBytes sl.val 0)
    (hp : checkCode s sl.val bytes img partner = some code) :
    exec (.consistencyCheck sl bytes img partner) s = .next (refuseContext s sl.val code partner) := by
  show execConsistencyCheck sl bytes img partner s = _
  rw [execConsistencyCheck, if_neg (by simp [hc]), if_neg (by simp [image_length_ok hl])]
  simp only [hp]

end

section
variable {r : Nat} (ho : writeOpen s false = true) (hs : slotCtx s sl.val = some r)
  (hcov : covered w.half F.ctxCtlEn = true) (hen : wbit w F.ctxCtlEn = false)
include ho hs hcov hen

/-- R418: the disable of a resident context begins at once. -/
theorem exec_contextDisable_resident (hst : (ctx s r).st = .resident) :
    exec (.contextDisable sl w) s = .next (beginDisable (writeFields s w [F.ctxCtlPrio] sl.val 0) r) := by
  show execContextDisable sl w s = _
  rw [execContextDisable, onBar_open ho]
  simp [slotCtx_writeFields, ctx_writeFields, hs, hcov, hen, hst, putCtl_of_busy (slotBusy_of_ctx hs)]

/-- R418: the disable of a context that is shelved or returned waits for the copy. -/
theorem exec_contextDisable_copying (hst : (ctx s r).st = .shelving ∨ (ctx s r).st = .returning) :
    exec (.contextDisable sl w) s = .next (modCtx (writeFields s w [F.ctxCtlPrio] sl.val 0) r
      fun c => { c with res := { c.res with disableReq := true } }) := by
  show execContextDisable sl w s = _
  rw [execContextDisable, onBar_open ho]
  obtain hst | hst := hst <;>
    simp [slotCtx_writeFields, ctx_writeFields, hs, hcov, hen, hst, putCtl_of_busy (slotBusy_of_ctx hs)]

end

/-- R418: a disable of a slot that is CHECKING takes the write's `PRIO` alone. -/
theorem exec_contextDisable_checking (ho : writeOpen s false = true) (hc : slotChecking s sl.val = true)
    (hs : slotCtx s sl.val = none) :
    exec (.contextDisable sl w) s = .next (writeFields s w [F.ctxCtlPrio] sl.val 0) := by
  show execContextDisable sl w s = _
  rw [execContextDisable, onBar_open ho]
  simp [slotCtx_writeFields, hs, putCtl_of_busy (slotBusy_of_checking hc)]

/-- R418: `SCHED_DIRCTL` disables the shelved context that `SCHED_DIRSEL` names. -/
theorem exec_disableShelved (ho : writeOpen s false = true) (hd : wbit w F.schedDirctlDisable = true)
    (hst : (ctx s (fget s F.schedDirselRegnum 0 0)).st = .shelved) :
    exec (.disableShelved w) s = .next (beginDisable s (fget s F.schedDirselRegnum 0 0)) := by
  show execDisableShelved w s = _
  rw [execDisableShelved, onBar_open ho]
  simp [dirSel, hd, hst]

end Sys2Proof.Machine

/-- Settles O27: enable, check and disable act by the state of the slot and of its context. -/
theorem contextsAreEnabledAndDisabled : Obligations.ContextsAreEnabledAndDisabled := by
  intro s sl w
  exact ⟨exec_contextEnable_free, fun _ _ _ hc hl => ⟨fun _ => exec_consistencyCheck_passed hc hl,
      fun _ => exec_consistencyCheck_failed hc hl⟩,
    fun r ho hs hcov hen => ⟨exec_contextDisable_resident ho hs hcov hen, exec_contextDisable_copying ho hs hcov hen⟩,
    exec_contextDisable_checking, exec_disableShelved⟩

end

section
/-! PROOFS. Scope: a shelving that waits. -/

open Sys2Proof Sys2Proof.Machine

namespace Sys2Proof.Machine

/-- A device whose host link is up, with a resident context without work in slot 0 while another context is being
shelved. -/
def shelvingBesides : State :=
  { State.reset with
    ctxs := [(0, { ctxInit with st := .resident, slot := some 0 }), (1, { ctxInit with st := .shelving })]
    regs := [(F.pwrStatState.key 0 0, 0)]
    pcie := { State.reset.pcie with link := true } }

/-- A write of `CTX_CTL` with `SHELVE` at 1. -/
def shelveWrite : RegWrite := ⟨.both, BitVec.ofNat 64 (2 ^ F.ctxCtlShelve.lo)⟩

/-- Whether context 0 of an answer's next state is one whose shelving has been decided. -/
def decidedAfter (o : Host.Outcome State Fault Refusal) : Bool :=
  match o with
  | .next t => (ctx t 0).res.decided
  | _ => false

/-- R434: the context is blocked, so that its shelving is decided, and is not begun while the other one's copies run. -/
theorem decidedAfter_shelve : decidedAfter (exec (.shelve 0 shelveWrite) shelvingBesides) = true := by decide

end Sys2Proof.Machine

/-- Refutes O28: `SHELVE` of a blocked context while another is being copied notes, beside the request, that the
shelving is decided. -/
theorem not_contextsAreShelvedAndReturn : ¬ Obligations.ContextsAreShelvedAndReturn := by
  unfold Obligations.ContextsAreShelvedAndReturn
  intro h
  have he := (h shelvingBesides 0 shelveWrite 0).1 0 (by decide) (by decide) (by decide)
  have hd := decidedAfter_shelve
  rw [he] at hd
  exact absurd hd (by decide)

end

section
/-! PROOFS. Scope: interrupts, alerts, fields of contexts, the log of the day and messages on ports,
and what they leave. -/

open Sys2Proof Sys2Proof.Machine

namespace Sys2Proof.Machine

theorem wval_lt (w : RegWrite) (f : Fld) : wval w f < 2 ^ f.w := Nat.mod_lt _ (Nat.two_pow_pos _)

/-- A write of one field leaves another field of the slot. -/
theorem fget_writeField_sibling {f g : Fld} {i : Nat} (hs : f.s1 = g.s1) (hd : f.off * 64 + f.lo ≠ g.off * 64 + g.lo)
    (hr : F.glbErrRange.key 0 0 ≠ g.key i 0) (w : RegWrite) (s : State) :
    fget (writeField w i 0 s f) g i 0 = fget s g i 0 := by
  obtain he | he | he := writeField_cases w i 0 s f <;> rw [he]
  · exact fget_fset_sibling hs hd s i _
  · exact fget_fcount_ne hr

/-! ### Interrupts, refusals and alerts -/

theorem fget_glbIrq_same (s : State) (f : Fld) : fget (glbIrq s f) f 0 0 = 1 % 2 ^ f.w := by
  obtain he | he := glbIrq_cases s f <;> rw [he] <;> exact fget_fset_same ..

theorem fget_glbIrq_ne {f g : Fld} {a b : Nat} (h : f.key 0 0 ≠ g.key a b) (s : State) :
    fget (glbIrq s f) g a b = fget s g a b := by
  obtain he | he := glbIrq_cases s f <;> rw [he] <;> exact fget_fset_ne h

/-- An interrupt changes the registers and sends a message. -/
theorem glbIrq_frame (s : State) (f : Fld) : ∃ rs o, glbIrq s f = { s with regs := rs, out := o } := by
  obtain he | he := glbIrq_cases s f <;> exact ⟨_, _, he⟩

/-- The fields of a refusal. -/
def refuseFlds : List Fld :=
  [F.glbRefuseCode, F.glbRefuseSource, F.glbRefuseIndex, F.glbRefuseCount, F.glbIrqstatRefuse]

theorem fget_refuse_ne {g : Fld} {a b : Nat} (h : ∀ f ∈ refuseFlds, f.key 0 0 ≠ g.key a b) (s : State)
    (source index code : Nat) : fget (refuse s source index code) g a b = fget s g a b := by
  simp only [refuseFlds, List.forall_mem_cons] at h
  obtain ⟨hcode, hsource, hindex, hcount, hirq, -⟩ := h
  rw [refuse, fget_glbIrq_ne hirq, fget_fcount_ne hcount, fget_fset_ne hindex, fget_fset_ne hsource, fget_fset_ne hcode]

theorem fget_refuse_code (s : State) (source index code : Nat) :
    fget (refuse s source index code) F.glbRefuseCode 0 0 = code % 2 ^ 8 := by
  rw [refuse, fget_glbIrq_ne (by decide), fget_fcount_ne (by decide), fget_fset_ne (by decide),
    fget_fset_ne (by decide), fget_fset_same]
  rfl

/-- An alert sets its field; beside the registers it touches the pin and the bus. -/
theorem raiseAlert_regs (s : State) (f : Fld) : (raiseAlert s f).regs = (fset s f 0 0 1).regs := by
  unfold raiseAlert
  dsimp only
  split <;> rfl

theorem raiseAlert_frame (s : State) (f : Fld) :
    ∃ rs n o, raiseAlert s f = { s with regs := rs, pins := { s.pins with alertN := n }, out := o } := by
  unfold raiseAlert
  dsimp only
  split <;> exact ⟨_, _, _, rfl⟩

theorem fget_raiseAlert_same (s : State) (f : Fld) : fget (raiseAlert s f) f 0 0 = 1 % 2 ^ f.w :=
  (fget_congr (raiseAlert_regs s f) f 0 0).trans (fget_fset_same ..)

theorem fget_raiseAlert_ne {f g : Fld} {a b : Nat} (h : f.key 0 0 ≠ g.key a b) (s : State) :
    fget (raiseAlert s f) g a b = fget s g a b := (fget_congr (raiseAlert_regs s f) g a b).trans (fget_fset_ne h)

/-! ### Fields of contexts beside other registers -/

/-- A field of a context stands beside a register outside the slots. -/
theorem cget_fset_global {f g : Fld} {i j a : Nat} (h : ∀ sl : Fin 8, f.key i j ≠ g.key sl.val a) (s : State)
    (r v : Nat) :
    cget (fset s f i j v) r g a = cget s r g a := by
  unfold cget
  simp only [show ctx (fset s f i j v) r = ctx s r from rfl]
  split
  next sl _ => exact fget_fset_ne (h sl)
  next => rfl

theorem fget_cset_ne {f g : Fld} {j a b : Nat} (h : ∀ sl : Fin 8, f.key sl.val j ≠ g.key a b) (s : State) (r v : Nat) :
    fget (cset s r f j v) g a b = fget s g a b := by
  unfold cset
  split
  next sl _ => exact fget_fset_ne (h sl)
  next => rfl

theorem fget_ccount_ne {f g : Fld} {j a b : Nat} (h : ∀ sl : Fin 8, f.key sl.val j ≠ g.key a b) (s : State)
    (r n : Nat) :
    fget (ccount s r f j n) g a b = fget s g a b := fget_cset_ne h s r _

/-- A write of a field of a context changes the registers or what the context has saved of them. -/
theorem ctx_cset (s : State) (r : Nat) (f : Fld) (j v : Nat) : ∃ c, ctx (cset s r f j v) r =
    { ctx s r with res := { (ctx s r).res with saved := c } } := by
  unfold cset
  split
  next => exact ⟨_, rfl⟩
  next => exact ⟨_, ctx_modCtx_same ..⟩

theorem slot_cset (s : State) (r : Nat) (f : Fld) (j v : Nat) : (ctx (cset s r f j v) r).slot = (ctx s r).slot := by
  obtain ⟨c, hc⟩ := ctx_cset s r f j v
  rw [hc]

theorem snap_cset (s : State) (r : Nat) (f : Fld) (j v : Nat) : (ctx (cset s r f j v) r).snap = (ctx s r).snap := by
  obtain ⟨c, hc⟩ := ctx_cset s r f j v
  rw [hc]

theorem reel_cset (s : State) (r : Nat) (f : Fld) (j v : Nat) : (ctx (cset s r f j v) r).reel = (ctx s r).reel := by
  obtain ⟨c, hc⟩ := ctx_cset s r f j v
  rw [hc]

theorem actDigest_cset (s : State) (r : Nat) (f : Fld) (j v : Nat) :
    (ctx (cset s r f j v) r).actDigest = (ctx s r).actDigest := by
  obtain ⟨c, hc⟩ := ctx_cset s r f j v
  rw [hc]

/-- Two fields of a context stand beside each other, in its slot or among what it has saved. -/
theorem cget_cset_ne {f g : Fld} {j a : Nat} (h : ∀ sl : Fin 8, f.key sl.val j ≠ g.key sl.val a) (s : State)
    (r v : Nat) :
    cget (cset s r f j v) r g a = cget s r g a := by
  have hslot := slot_cset s r f j v
  unfold cget
  rw [hslot]
  cases hs : (ctx s r).slot with
  | some sl => exact (congrArg (fun t => fget t g sl.val a) (cset_of_slot hs f j v)).trans (fget_fset_ne (h sl))
  | none =>
    have he : cset s r f j v = modCtx s r fun c =>
        { c with res := { c.res with saved := tset c.res.saved (f.key 0 j) (v % 2 ^ f.w) } } := by
      unfold cset
      rw [hs]
    dsimp only
    rw [he, ctx_modCtx_same]
    exact congrArg (·.getD g.cold) (tfind_tset_ne _ _ (h 0))

theorem cget_modCtx {r : Nat} {f : Ctx → Ctx} (hs : ∀ c, (f c).slot = c.slot) (hr : ∀ c, (f c).res = c.res) (s : State)
    (g : Fld) (j : Nat) : cget (modCtx s r f) r g j = cget s r g j :=
  cget_congr (s := s) (t := modCtx s r f) rfl ((congrArg Ctx.slot (ctx_modCtx_same s r f)).trans (hs _))
    ((congrArg Ctx.res (ctx_modCtx_same s r f)).trans (hr _)) g j

/-! ### The log of the day (R525) -/

theorem dailyRing_frame (s : State) (rec : Bytes) : ∃ rs m, dailyRing s rec = { s with regs := rs, hostMem := m } := by
  obtain h | h | ⟨pad, h⟩ := dailyRing_cases s rec <;> exact ⟨_, _, h⟩

theorem fget_dailyRing_ne {g : Fld} {a b : Nat} (hd : F.relStatDldrop.key 0 0 ≠ g.key a b)
    (hh : F.relDlheadCount.key 0 0 ≠ g.key a b) (s : State) (rec : Bytes) :
    fget (dailyRing s rec) g a b = fget s g a b := by
  have hput (s : State) (bs : Bytes) : fget (dailyPut s bs) g a b = fget s g a b := fget_fset_ne hh
  obtain h | h | ⟨pad, h⟩ := dailyRing_cases s rec <;> rw [h]
  · exact fget_fcount_ne hd
  · exact hput s rec
  · rw [hput, hput]

/-- A record of the log of the day changes registers, the ring in host memory and the number of the next. -/
theorem daily_frame (s : State) (type : Nat) (own : List (Nat × Bytes)) : ∃ rs m n, daily s type own =
    { s with regs := rs, hostMem := m, dailies := { s.dailies with seq := n } } := by
  unfold daily
  split
  · exact ⟨_, _, _, rfl⟩
  · obtain ⟨rs, m, h⟩ := dailyRing_frame { s with dailies := { s.dailies with seq := s.dailies.seq + 1 } } _
    exact ⟨rs, m, _, h⟩

theorem fget_daily_ne {g : Fld} {a b : Nat} (hd : F.relStatDldrop.key 0 0 ≠ g.key a b)
    (hh : F.relDlheadCount.key 0 0 ≠ g.key a b) (s : State) (type : Nat) (own : List (Nat × Bytes)) :
    fget (daily s type own) g a b = fget s g a b := by
  unfold daily
  split
  · rfl
  · exact fget_dailyRing_ne hd hh _ _

/-! ### Messages on ports -/

theorem exceptPorts_onPorts (s : State) (ok : State → Nat → Bool) (msg : Nat) (data : List Nat) :
    exceptPorts (onPorts s ok msg data) = exceptPorts s := by
  unfold onPorts
  refine foldl_keeps exceptPorts ?_ _ s
  intro t p
  split
  · exact exceptPorts_of_ctrlView (ctrlView_portMsg t p msg data)
  · rfl

/-- Messages change the ports and what is sent. -/
theorem onPorts_frame (s : State) (ok : State → Nat → Bool) (msg : Nat) (data : List Nat) :
    ∃ ps o, onPorts s ok msg data = { s with fab := { s.fab with ports := ps }, out := o } := by
  have h := exceptPorts_onPorts s ok msg data
  generalize onPorts s ok msg data = t at h
  refine ⟨t.fab.ports, t.out, ?_⟩
  calc t = { exceptPorts t with fab := { (exceptPorts t).fab with ports := t.fab.ports }, out := t.out } := rfl
    _ = _ := by rw [h]; rfl

theorem onPorts_regs (s : State) (ok : State → Nat → Bool) (msg : Nat) (data : List Nat) :
    (onPorts s ok msg data).regs = s.regs := by
  obtain ⟨ps, o, h⟩ := onPorts_frame s ok msg data
  rw [h]

theorem onPorts_ctxs (s : State) (ok : State → Nat → Bool) (msg : Nat) (data : List Nat) :
    (onPorts s ok msg data).ctxs = s.ctxs := by
  obtain ⟨ps, o, h⟩ := onPorts_frame s ok msg data
  rw [h]

end Sys2Proof.Machine

end

section
/-! PROOFS. Scope: the boot check. -/

open Sys2Proof Sys2Proof.Machine

namespace Sys2Proof.Machine

/-! ### Alerts and the end of a fetch -/

theorem raiseAlert_sec (s : State) (f : Fld) : (raiseAlert s f).sec = s.sec := by
  unfold raiseAlert
  dsimp only
  split <;> rfl

theorem raiseAlert_nv (s : State) (f : Fld) : (raiseAlert s f).nv = s.nv := by
  unfold raiseAlert
  dsimp only
  split <;> rfl

theorem settleReady_nv (s : State) : (settleReady s).nv = s.nv := congrArg Shell.nv (shell_settleReady s)

theorem settleReady_sec (s : State) : (settleReady s).sec = s.sec := congrArg Shell.sec (shell_settleReady s)

/-- Every field but `READY` is as it was. -/
theorem fget_settleReady {f : Fld} {i j : Nat} (h : F.hostStatReady.key 0 0 ≠ f.key i j) (s : State) :
    fget (settleReady s) f i j = fget s f i j := by
  obtain he | he := settleReady_cases s
  · rw [he, fget_fset_ne h]
  · rw [he]

/-- R551: a rejected image leaves the state REJECTED, the code and the alert. -/
theorem fget_bootReject (s : State) (code : Nat) : fget (bootReject s code) F.secStatBoot 0 0 = 3 ∧
    fget (bootReject s code) F.secStatBooterr 0 0 = code % 16 ∧ fget (bootReject s code) F.mgAlertBootrej 0 0 = 1 := by
  have he (f : Fld) : fget (bootReject s code) f 0 0 = fget (fset (fset (fset (fetchOver s) F.secStatBoot 0 0 3)
      F.secStatBooterr 0 0 code) F.mgAlertBootrej 0 0 1) f 0 0 := fget_congr (raiseAlert_regs _ _) f 0 0
  refine ⟨?_, ?_, ?_⟩
  · rw [he, fget_fset_ne (by decide), fget_fset_ne (by decide), fget_fset_same]
    rfl
  · rw [he, fget_fset_ne (by decide), fget_fset_same]
    rfl
  · rw [he, fget_fset_same]
    rfl

theorem bootReject_sec (s : State) (code : Nat) : (bootReject s code).sec = s.sec := raiseAlert_sec _ _

theorem bootReject_nv (s : State) (code : Nat) : (bootReject s code).nv = s.nv := raiseAlert_nv _ _

/-! ### An image that runs -/

/-- What an accepted image makes of the fuses and the repair store (R552). -/
def acceptedNv (s : State) (img : FwImage) : Nv :=
  if xf img.header 13 1 % 2 = 1 then { s.nv with arbRs := max (arbStored s) (xf img.header 4 4), arbRsOk := true }
  else s.nv

theorem bootAccept_nv (s : State) (img : FwImage) : (bootAccept s img).nv = acceptedNv s img := settleReady_nv _

theorem bootAccept_running (s : State) (img : FwImage) : (bootAccept s img).sec.running = some img.header :=
  congrArg Sec.running (settleReady_sec _)

/-- R552: the minimum stored rises to the image's where it commits. -/
theorem arbStored_bootAccept (s : State) (img : FwImage) : arbStored (bootAccept s img) =
    if xf img.header 13 1 % 2 = 1 then max (arbStored s) (xf img.header 4 4) else arbStored s := by
  unfold arbStored
  rw [bootAccept_nv, acceptedNv]
  split <;> rfl

theorem arbF_bootAccept (s : State) (img : FwImage) : (bootAccept s img).nv.arbF = s.nv.arbF := by
  rw [bootAccept_nv, acceptedNv]
  split <;> rfl

/-- R551: the state RUNNING, the fetch over. -/
theorem fget_bootAccept (s : State) (img : FwImage) : fget (bootAccept s img) F.secStatBoot 0 0 = 2 ∧
    fget (bootAccept s img) F.hostFwctlGo 0 0 = 0 ∧ fget (bootAccept s img) F.hostStatFwwant 0 0 = 0 := by
  refine ⟨?_, ?_, ?_⟩
  · rw [bootAccept, fget_settleReady (by decide), fget_fset_ne (by decide), fget_fset_same]
    rfl
  · rw [bootAccept, fget_settleReady (by decide), fget_fset_ne (by decide), fget_fset_ne (by decide), fetchOver,
      fget_fset_ne (by decide), fget_fset_same]
    rfl
  · rw [bootAccept, fget_settleReady (by decide), fget_fset_ne (by decide), fget_fset_ne (by decide), fetchOver,
      fget_fset_same]
    rfl

/-! ### The three instructions -/

/-- Tables 17.2: an image fails by one of six codes. -/
theorem bootCode_mem {s : State} {img : FwImage} {c : Nat} (h : bootCode s img = some c) : c ∈ [1, 2, 3, 4, 5, 6] := by
  unfold bootCode at h
  grind

theorem exec_bootCheck {s : State} (hg : fbit s F.hostFwctlGo 0 0 = true) (hw : fbit s F.hostStatFwwant 0 0 = true)
    (img : FwImage) : exec (.bootCheck img) s = .next (match bootCode s img with
      | some c => bootReject s c
      | none => bootAccept s img) := by
  show execBootCheck img s = _
  rw [execBootCheck, if_neg (by simp [hg, hw])]
  cases bootCode s img <;> rfl

/-- R578: the write of `HOST_FWCTL` where the firmware is wanted: the count of bytes is taken, and `GO` is 1. -/
theorem exec_firmwareFetch {s : State} {w : RegWrite} (ho : writeOpen s false = true)
    (hgo : wbit w F.hostFwctlGo = true) (hw : fbit s F.hostStatFwwant 0 0 = true) : exec (.firmwareFetch w) s =
      .next (fset (writeField w 0 0 s F.hostFwctlBytes) F.hostFwctlGo 0 0 1) := by
  have hwant : fbit (writeField w 0 0 s F.hostFwctlBytes) F.hostStatFwwant 0 0 = true := by
    obtain he | he | he := writeField_cases w 0 0 s F.hostFwctlBytes <;> rw [he]
    · exact hw
    · rwa [fbit, fget_fset_ne (by decide)]
    · rwa [fbit, rangeErr, fget_fcount_ne (by decide)]
  show execFirmwareFetch w s = _
  rw [execFirmwareFetch, onBar_open ho]
  simp [writeFields, hgo, hwant]

end Sys2Proof.Machine

/-- Settles O55: the fetch, the check of an image and its time-out, by the code of the check. -/
theorem bootChecks : Obligations.BootChecks := by
  intro s w img
  refine ⟨fun ho hgo hw => ⟨_, exec_firmwareFetch ho hgo hw, ?go, fun hcov => ?bytes, ?others⟩,
    fun hg hw => ⟨fun c hc => ?rejected, fun hc => ?accepted⟩,
    fun hb hw => ⟨bootReject s 7, ?late, ?lateCode⟩, fun c => bootCode_mem⟩
  case go => exact fget_fset_same ..
  case bytes =>
    rw [fget_fset_ne (by decide), writeField_taken hcov (by rfl), fget_fset_same, Nat.mod_eq_of_lt (wval_lt w _)]
  case others =>
    obtain he | he | he := writeField_cases w 0 0 s F.hostFwctlBytes <;> rw [he] <;> rfl
  case rejected =>
    obtain ⟨hboot, herr, halert⟩ := fget_bootReject s c
    have hc16 : c < 16 := by
      have := bootCode_mem hc
      simp at this
      omega
    exact ⟨_, (exec_bootCheck hg hw img).trans (by rw [hc]), hboot, herr.trans (Nat.mod_eq_of_lt hc16), halert,
      bootReject_sec s c, bootReject_nv s c⟩
  case accepted =>
    obtain ⟨hboot, hgo, hwant⟩ := fget_bootAccept s img
    have harb := arbStored_bootAccept s img
    refine ⟨_, (exec_bootCheck hg hw img).trans (by rw [hc]), hboot, hgo, hwant, bootAccept_running s img, ?_,
      arbF_bootAccept s img, fun h1 => ?_, fun h0 => ?_⟩
    · rw [harb]
      split
      · exact Nat.le_max_left _ _
      · exact Nat.le_refl _
    · rw [harb, h1, if_pos rfl]
    · rw [bootAccept_nv, acceptedNv, h0, if_neg (by decide)]
  case late =>
    show execFirmwareFetchTimeout s = _
    rw [execFirmwareFetchTimeout, if_neg (by simp [hb, hw])]
  case lateCode =>
    obtain ⟨hboot, herr, -⟩ := fget_bootReject s 7
    exact ⟨hboot, herr⟩

end

section
/-! PROOFS. Scope: the mailbox commands. -/

open Sys2Proof Sys2Proof.Machine

namespace Sys2Proof.Machine

/-! ### A command that the mailbox runs -/

section
variable {s : State} {src : MbSrc} (hm : mbReady s src = true)
include hm

theorem mbRun_error {f : State → Except Nat (State × Bytes)} {e : Nat} (h : f s = .error e) :
    mbRun src s f = .next (mbDone s src e []) := by
  rw [mbRun, if_neg (by simp [hm]), h]

theorem mbRun_ok {f : State → Except Nat (State × Bytes)} {t : State} {resp : Bytes} (h : f s = .ok (t, resp)) :
    mbRun src s f = .next (mbDone t src 0 resp) := by
  rw [mbRun, if_neg (by simp [hm]), h]

/-! ### Certificates, quotes and the ephemeral pair (Table 17.3) -/

theorem exec_getCerts : exec (.getCerts src []) s = .next (mbDone s src 0 Config.certs) := by
  show execGetCerts src [] s = _
  rw [execGetCerts]
  exact mbRun_ok hm rfl

theorem exec_quote {req : Bytes} (hl : req.length = 32) :
    exec (.quote src req) s = .next (mbDone (drawFree s).2 src 0 (quoteOf s req [])) := by
  show execQuote src req s = _
  rw [execQuote]
  exact mbRun_ok hm (if_neg (not_not.2 hl))

theorem exec_keyOpen {req : Bytes} (hk : keysShut s = false) (hl : req.length = 32) :
    exec (.keyOpen src req) s = .next (mbDone
      { (drawFree s).2 with keys := { s.keys with ephemeral := some (s.freeCtr,
        sha3 (quoteBody s req (sha3 (ephemeralPub s.freeCtr)))) } } src 0
      (quoteOf s req (sha3 (ephemeralPub s.freeCtr)) ++ ephemeralPub s.freeCtr)) := by
  show execKeyOpen src req s = _
  rw [execKeyOpen]
  exact mbRun_ok hm (by rw [if_neg (by simp [hk]), if_neg (not_not.2 hl)])

theorem exec_keyOpen_shut (hk : keysShut s = true) (req : Bytes) :
    exec (.keyOpen src req) s = .next (mbDone s src 3 []) := by
  show execKeyOpen src req s = _
  rw [execKeyOpen]
  exact mbRun_error hm (if_pos hk)

/-! ### Keys (Tables 17.3 and 17.6) -/

theorem exec_keyLoad_shut (hk : keysShut s = true) (kr : KeyRecord) :
    exec (.keyLoad src kr) s = .next (mbDone s src 3 []) := by
  show execKeyLoad src kr s = _
  rw [execKeyLoad]
  exact mbRun_error hm (if_pos hk)

section
variable {kr : KeyRecord} {tgt : KeyTarget} (hk : keysShut s = false) (ht : keyTarget kr.head = some tgt)
  (hform : ¬(kr.pub.length ≠ 32 ∨ kr.kem.length ≠ 1088 ∨ kr.sealed.length ≠ tgt.size + 16))
include hk ht hform

theorem exec_keyLoad_unopened (he : s.keys.ephemeral = none) :
    exec (.keyLoad src kr) s = .next (mbDone s src 4 []) := by
  show execKeyLoad src kr s = _
  rw [execKeyLoad]
  exact mbRun_error hm (by simp only [hk, ht, hform, he, if_false, Bool.false_eq_true])

/-- R563: a key that the wrapping does not open. -/
theorem exec_keyLoad_unwrapped {e : Nat × Bytes} (he : s.keys.ephemeral = some e) (hu : unwrap e kr = none) :
    exec (.keyLoad src kr) s = .next (mbDone s src 2 []) := by
  show execKeyLoad src kr s = _
  rw [execKeyLoad]
  exact mbRun_error hm (by simp only [hk, ht, hform, he, hu, if_false, Bool.false_eq_true])

/-- R562: a key that is opened goes to its slot of the page keys. -/
theorem exec_keyLoad_page {e : Nat × Bytes} {key : Bytes} {k : Nat} (he : s.keys.ephemeral = some e)
    (hu : unwrap e kr = some key) (hp : tgt = .page k) :
    exec (.keyLoad src kr) s = .next (mbDone (putPageKey s k (BitVec.ofNat 512 (leNat key))) src 0 []) := by
  subst hp
  show execKeyLoad src kr s = _
  rw [execKeyLoad]
  exact mbRun_ok hm (by simp only [hk, ht, hform, he, hu, if_false, Bool.false_eq_true])

omit hm in
/-- R562: or under its identifier among the transport keys, as `putTransport` has it. -/
theorem exec_keyLoad_transport {e : Nat × Bytes} {key : Bytes} {id : Nat} (he : s.keys.ephemeral = some e)
    (hu : unwrap e kr = some key) (hp : tgt = .transport id) :
    exec (.keyLoad src kr) s = mbRun src s fun s => putTransport s id (BitVec.ofNat 256 (leNat key)) := by
  subst hp
  show execKeyLoad src kr s = _
  simp only [execKeyLoad, mbRun, hk, ht, hform, he, hu, if_false, Bool.false_eq_true]

end

theorem exec_keyClear_page {req : Bytes} {k : Nat} (hp : powerState s ≠ 3) (ht : keyTarget req = some (.page k)) :
    exec (.keyClear src req) s = .next (mbDone (dropPageKeys s (· == k)) src 0 []) := by
  show execKeyClear src req s = _
  rw [execKeyClear]
  exact mbRun_ok hm (by simp [mbOff, hp, ht])

theorem exec_keyClear_transport {req : Bytes} {id : Nat} (hp : powerState s ≠ 3)
    (ht : keyTarget req = some (.transport id)) : exec (.keyClear src req) s =
      .next (mbDone { s with keys := { s.keys with transport := tdel s.keys.transport id } } src 0 []) := by
  show execKeyClear src req s = _
  rw [execKeyClear]
  exact mbRun_ok hm (by simp [mbOff, hp, ht])

/-! ### Debug access and fuses (Tables 17.3 and 17.7) -/

theorem exec_dbgChal (hp : powerState s ≠ 3) : exec (.dbgChal src []) s = .next (mbDone { (drawFree s).2 with keys :=
    { s.keys with nonce := some (BitVec.ofNat 256 (drawFree s).1) } } src 0
    (leBytes 32 (BitVec.ofNat 256 (drawFree s).1).toNat)) := by
  show execDbgChal src [] s = _
  rw [execDbgChal]
  exact mbRun_ok hm (by rw [if_neg (by simp [mbOff, hp]), if_neg (by simp)])

theorem exec_dbgDrop {req : Bytes} (hp : powerState s ≠ 3) (hl : req.length = 1) (hv : xf req 0 1 < s.sec.dbg.toNat) :
    exec (.dbgDrop src req) s = .next (mbDone (lowerDebug s (xf req 0 1)) src 0 []) := by
  show execDbgDrop src req s = _
  rw [execDbgDrop]
  exact mbRun_ok hm (by rw [if_neg (by simp [mbOff, hp]), if_neg (by omega)])

theorem exec_arbFuse (hp : powerState s ≠ 3) (hlife : lifeNow s = 1) : exec (.arbFuse src []) s =
    .next (mbDone { s with nv := { s.nv with arbF := max s.nv.arbF (runSvn s / 2 ^ 26) } } src 0 []) := by
  show execArbFuse src [] s = _
  rw [execArbFuse]
  exact mbRun_ok hm (by rw [if_neg (by simp [mbOff, hp, hlife]), if_neg (by simp)])

section
variable (ho : mbOff s = true) (req : Bytes)
include ho

theorem exec_keyClear_off : exec (.keyClear src req) s = .next (mbDone s src 3 []) := by
  show execKeyClear src req s = _
  rw [execKeyClear]
  exact mbRun_error hm (if_pos ho)

theorem exec_dbgChal_off : exec (.dbgChal src req) s = .next (mbDone s src 3 []) := by
  show execDbgChal src req s = _
  rw [execDbgChal]
  exact mbRun_error hm (if_pos ho)

theorem exec_dbgDrop_off : exec (.dbgDrop src req) s = .next (mbDone s src 3 []) := by
  show execDbgDrop src req s = _
  rw [execDbgDrop]
  exact mbRun_error hm (if_pos ho)

theorem exec_arbFuse_off : exec (.arbFuse src req) s = .next (mbDone s src 3 []) := by
  show execArbFuse src req s = _
  rw [execArbFuse]
  exact mbRun_error hm (if_pos (.inl ho))

end

/-! ### Tokens (Table 17.7) -/

theorem exec_token_allowed {tk : TokenMsg} (h : tokenCode s tk = none) :
    exec (.token src tk) s = .next (mbDone (tokenApply s tk.body) src 0 []) := by
  show execToken src tk s = _
  rw [execToken, if_neg (by simp [hm]), h]

theorem exec_token_refused {tk : TokenMsg} {c : Nat} (h : tokenCode s tk = some c) (hc : c ≠ 5) :
    exec (.token src tk) s = .next (mbDone s src c []) := by
  show execToken src tk s = _
  unfold execToken
  rw [if_neg (by simp [hm]), h]
  split <;> simp_all

/-- Log entry 82 (DEDUCED): a nonce that has matched is used up. -/
theorem exec_token_late {tk : TokenMsg} (h : tokenCode s tk = some 5) : exec (.token src tk) s =
    .next (mbDone { s with keys := { s.keys with nonce := none } } src 5 []) := by
  show execToken src tk s = _
  unfold execToken
  rw [if_neg (by simp [hm]), h]
  rfl

end

end Sys2Proof.Machine

/-- Settles O56: each command by its own equation. -/
theorem mailboxCommands : Obligations.MailboxCommands := by
  intro s src req hm
  refine ⟨exec_getCerts hm, exec_quote hm, exec_keyOpen hm, fun hk => exec_keyOpen_shut hm hk req,
    fun kr => ⟨fun hk => exec_keyLoad_shut hm hk kr, fun tgt hk ht hpub hkem hsealed => ?load⟩,
    fun hp => ⟨fun k => exec_keyClear_page hm hp, fun id => exec_keyClear_transport hm hp, exec_dbgChal hm hp,
      exec_dbgDrop hm hp, exec_arbFuse hm hp⟩,
    fun tk => ⟨exec_token_allowed hm, fun c => exec_token_refused hm, exec_token_late hm⟩, fun hp => ?off⟩
  case load =>
    have hform : ¬(kr.pub.length ≠ 32 ∨ kr.kem.length ≠ 1088 ∨ kr.sealed.length ≠ tgt.size + 16) := by
      simp [hpub, hkem, hsealed]
    refine ⟨exec_keyLoad_unopened hm hk ht hform, fun e he => ⟨exec_keyLoad_unwrapped hm hk ht hform he,
      fun key hu => ⟨fun k => exec_keyLoad_page hm hk ht hform he hu,
        fun id hid => ⟨fun hroom => ?_, fun hn hfull => ?_⟩⟩⟩⟩
    · rw [exec_keyLoad_transport hk ht hform he hu hid]
      exact mbRun_ok hm (if_neg fun ⟨hnew, hfull⟩ => hroom.elim (fun h => by simp_all) (Nat.not_lt.2 hfull))
    · rw [exec_keyLoad_transport hk ht hform he hu hid]
      exact mbRun_error hm (if_pos ⟨by simp [hn], hfull⟩)
  case off =>
    have hoff : mbOff s = true := by simp [mbOff, hp]
    exact ⟨exec_keyClear_off hm hoff req, exec_dbgChal_off hm hoff req, exec_dbgDrop_off hm hoff req,
      exec_arbFuse_off hm hoff req⟩

end

section
/-! PROOFS. Scope: the host's accesses to BAR2. -/

open Sys2Proof Sys2Proof.Machine

namespace Sys2Proof.Machine

/-! ### Accesses in a context's space -/

section
variable {s t : State} {r va n : Nat}

/-- R575: a protected page refuses every access. -/
theorem b2Virtual_protected (h : touchesProt s r va n = true) (data : Option Bytes) :
    b2Virtual s r va n data = b2Refuse s n data.isSome := by rw [b2Virtual, if_pos (Or.inr (Or.inr h))]

/-- An access that nothing refuses goes to the pages. -/
theorem not_refused (hreg : registered (ctx s r) = true) (hva : va + n ≤ 2 ^ 48) (hp : touchesProt s r va n = false) :
    ¬ (!registered (ctx s r) ∨ 2 ^ 48 < va + n ∨ touchesProt s r va n) := by
  simpa [hreg, hp] using hva

theorem b2Virtual_read (hreg : registered (ctx s r) = true) (hva : va + n ≤ 2 ^ 48) (hp : touchesProt s r va n = false)
    (hh : reelHole s r va n = false) (ht : touchPages (pagesOf va n) s r false (.host n false) = (t, .ok)) :
    b2Virtual s r va n none = busRead t (vsRead (ctx t r).vs va n) := by
  rw [b2Virtual, if_neg (not_refused hreg hva hp), if_neg (by simp [hh])]
  simp only [Option.isSome_none, ht]

theorem b2Virtual_write {bs : Bytes} (hreg : registered (ctx s r) = true) (hva : va + n ≤ 2 ^ 48)
    (hp : touchesProt s r va n = false) (hh : reelHole s r va n = false) (hs : lineShips s r va n = false)
    (ht : touchPages (pagesOf va n) s r true (.host n true) = (t, .ok)) :
    b2Virtual s r va n (some bs) = putText t r va bs [] := by
  rw [b2Virtual, if_neg (not_refused hreg hva hp), if_neg (by simp [hh, hs])]
  simp only [Option.isSome_some, ht]

end

/-! ### The two instructions of BAR2 -/

section
variable {s : State} {off size : Nat} (ho : writeOpen s false = true)
include ho

section
variable {data : Option Bytes} (hpos : (data.map (·.length)).getD size ≠ 0)
  (hlim : off + (data.map (·.length)).getD size ≤ 2 ^ 34) (hw : windowAt s off = none)
include hpos hlim hw

/-- R574: an access of a segment that is off. -/
theorem exec_bar2Access_off (hm : fget s F.hostB2mapMode 0 (off / 2 ^ 31) = 0) : exec (.bar2Access off size data) s =
    .next (onesOrNothing s ((data.map (·.length)).getD size) data.isSome) := by
  show execBar2Access off size data s = _
  unfold execBar2Access
  rw [if_neg (not_or.2 ⟨hpos, Nat.not_lt.2 hlim⟩), if_neg (by simp [bar2Open, ho]), hw]
  simp only [hm]

/-- R575: an access of a segment in a context's space. -/
theorem exec_bar2Access_virtual (hm : fget s F.hostB2mapMode 0 (off / 2 ^ 31) = 1) :
    exec (.bar2Access off size data) s = .next (b2Virtual s (fget s F.hostB2mapRegnum 0 (off / 2 ^ 31))
      (fget s F.hostB2mapBase 0 (off / 2 ^ 31) * 2 ^ 21 + off % 2 ^ 31) ((data.map (·.length)).getD size) data) := by
  show execBar2Access off size data s = _
  unfold execBar2Access
  rw [if_neg (not_or.2 ⟨hpos, Nat.not_lt.2 hlim⟩), if_neg (by simp [bar2Open, ho]), hw]
  simp only [hm]

/-- R575: an access of a segment in physical space, which is read only. -/
theorem exec_bar2Access_physical (hm : fget s F.hostB2mapMode 0 (off / 2 ^ 31) = 2) :
    exec (.bar2Access off size data) s = .next (if data.isSome then b2Refuse s ((data.map (·.length)).getD size) true
      else b2Physical s (fget s F.hostB2mapBase 0 (off / 2 ^ 31) * 2 ^ 21 + off % 2 ^ 31)
        ((data.map (·.length)).getD size)) := by
  show execBar2Access off size data s = _
  unfold execBar2Access
  rw [if_neg (not_or.2 ⟨hpos, Nat.not_lt.2 hlim⟩), if_neg (by simp [bar2Open, ho]), hw]
  simp only [hm]

end

/-- R577: a write in an ingest window goes to the window. -/
theorem exec_bar2Access_window_write {bs : Bytes} (hne : bs ≠ []) (hlim : off + bs.length ≤ 2 ^ 34) {k : Nat}
    (hw : windowAt s off = some k) : exec (.bar2Access off size (some bs)) s = .next (ingWrite s k off bs) := by
  show execBar2Access off size (some bs) s = _
  unfold execBar2Access
  rw [if_neg (by simpa [hne] using hlim), if_neg (by simp [bar2Open, ho]), hw]

/-- Log entry 99 (DEDUCED): a read in an ingest window is refused. -/
theorem exec_bar2Access_window_read (hpos : 0 < size) (hlim : off + size ≤ 2 ^ 34) {k : Nat}
    (hw : windowAt s off = some k) : exec (.bar2Access off size none) s = .next (b2Refuse s size false) := by
  show execBar2Access off size none s = _
  unfold execBar2Access
  rw [if_neg (by simp; omega), if_neg (by simp [bar2Open, ho]), hw]
  rfl

theorem exec_ingestWrite_window {k : Nat} (hw : windowAt s off = some k) (bs : Bytes) :
    exec (.ingestWrite off bs) s = .next (ingWrite s k off bs) := by
  show execIngestWrite off bs s = _
  rw [execIngestWrite, if_neg (by simp [bar2Open, ho])]
  simp only [hw]

end

theorem fget_onesOrNothing (s : State) (n : Nat) (write : Bool) (f : Fld) (i j : Nat) :
    fget (onesOrNothing s n write) f i j = fget s f i j := by cases write <;> rfl

/-- R575: a refused access is counted. -/
theorem fget_b2Refuse (s : State) (n : Nat) (write : Bool) : fget (b2Refuse s n write) F.hostStatB2refused 0 0 =
    min (2 ^ F.hostStatB2refused.w - 1) (fget s F.hostStatB2refused 0 0 + 1) := by
  rw [b2Refuse, fget_onesOrNothing, fget_fcount_same]

end Sys2Proof.Machine

/-- Settles O58: an access goes to the window that holds it, or else to its segment by the segment's mode. -/
theorem hostAccessesBar2 : Obligations.HostAccessesBar2 := by
  intro s off size bs ho hrl hpos hwl hne seg mode r a
  have hlen : bs.length ≠ 0 := by simpa using hne
  refine ⟨fun hw => ?segment, fun k hw => ⟨exec_bar2Access_window_write ho hne hwl hw, exec_ingestWrite_window ho hw bs,
    exec_bar2Access_window_read ho hpos hrl hw⟩, fget_b2Refuse s size false⟩
  case segment =>
    have hrd : ((none : Option Bytes).map (·.length)).getD size ≠ 0 := hpos.ne'
    refine ⟨fun hm => ⟨?_, ?_⟩, fun t hm hreg hva hp hh ht => ?_, fun t hm hreg hva hp hh hs ht => ?_,
      fun hm hp => ?_, fun hm => ⟨?_, ?_⟩⟩
    · exact exec_bar2Access_off ho hrd hrl hw hm
    · exact exec_bar2Access_off (data := some bs) ho hlen hwl hw hm
    · rw [exec_bar2Access_virtual ho hrd hrl hw hm]
      exact congrArg _ (b2Virtual_read hreg hva hp hh ht)
    · rw [exec_bar2Access_virtual (data := some bs) ho hlen hwl hw hm]
      exact congrArg _ (b2Virtual_write hreg hva hp hh hs ht)
    · rw [exec_bar2Access_virtual ho hrd hrl hw hm]
      exact congrArg _ (b2Virtual_protected hp none)
    · rw [exec_bar2Access_physical (data := some bs) ho hlen hwl hw hm, if_pos Option.isSome_some]
      rfl
    · rw [exec_bar2Access_physical ho hrd hrl hw hm, if_neg (by simp)]
      rfl

end

section
/-! PROOFS. Scope: the host's accesses to BAR0. -/

open Sys2Proof Sys2Proof.Machine

namespace Sys2Proof.Machine

/-! ### Reads of BAR0 (R600 to R603) -/

section
variable {s : State} {off size : Nat} (ho : barOpen s = true) (hp : powerState s ≠ 2)
include ho hp

/-- R603: a refused read is counted and answers ones. -/
theorem exec_rcRead_refused (ha : accessOk off size = false) : exec (.rcRead off size) s =
    .next (readBack (fcount s F.glbErrBadacc 0 0 1) off (2 ^ (8 * size) - 1)) := by
  show execRcRead off size s = _
  unfold execRcRead
  rw [if_neg (by simp [ho, hp]), if_pos (by simp [ha])]

/-- R601: a reserved offset reads 0. -/
theorem exec_rcRead_reserved (ha : accessOk off size = true) (hr : findReg (off / 8 * 8) = none) :
    exec (.rcRead off size) s = .next (readBack s off 0) := by
  show execRcRead off size s = _
  unfold execRcRead
  rw [if_neg (by simp [ho, hp]), if_neg (by simp [ha]), hr]

/-- The part of a register's word that an access reads. -/
def partOf (h : Half) (v : Nat) : Nat :=
  match h with
  | .both => v
  | .low => v % 2 ^ 32
  | .high => v / 2 ^ 32

/-- R602: a read answers the part of the register's word that it covers, and clears the `RC` fields within it. -/
theorem exec_rcRead_register {r : RegD} {k j : Nat} {h : Half} (ha : accessOk off size = true)
    (hr : findReg (off / 8 * 8) = some (r, k, j)) (hh : halfOf off size = h) : exec (.rcRead off size) s =
      .next (readBack (readClears s r k j h) off (partOf h (regWord s r k j))) := by
  subst hh
  show execRcRead off size s = _
  unfold execRcRead
  rw [if_neg (by simp [ho, hp]), if_neg (by simp [ha]), hr]
  rfl

end

/-! ### Writes of BAR0 (R601 to R606) -/

section
variable {s : State} {off size : Nat} {data : BitVec 64} (ho : writeOpen s (alwaysOn off) = true)
include ho

theorem exec_registerWrite_refused (ha : accessOk off size = false) :
    exec (.registerWrite off size data) s = .next (fcount s F.glbErrBadacc 0 0 1) := by
  show execRegisterWrite off size data s = _
  rw [execRegisterWrite, onBar_open ho, if_pos (by simp [ha])]

theorem exec_registerWrite_reserved (ha : accessOk off size = true) (hr : findReg (off / 8 * 8) = none) :
    exec (.registerWrite off size data) s = .next s := by
  show execRegisterWrite off size data s = _
  unfold execRegisterWrite
  rw [onBar_open ho, if_neg (by simp [ha]), hr]

theorem exec_registerWrite_register {r : RegD} {k j : Nat} (ha : accessOk off size = true)
    (hr : findReg (off / 8 * 8) = some (r, k, j)) :
    exec (.registerWrite off size data) s = writeRow s r k j (placed off size data) := by
  show execRegisterWrite off size data s = _
  unfold execRegisterWrite
  rw [onBar_open ho, if_neg (by simp [ha]), hr]

end

/-- The registers whose write has a row of its own. -/
def rowRegs : List RegD :=
  [R.ctxCtl, R.bmvCtl, R.cmvCtl, R.schedDirctl, R.tcSet, R.tcCtl, R.ctxLogNote, R.ctxLogCfg, R.ctxPgcmd,
    R.lnkCtl, R.fabRtdata, R.fabCrfloor, R.fabRqcfg, R.ctxPrintctl, R.ctxReelctl, R.ctxReelstrm, R.pairCtl,
    R.ctxRelctl, R.relOtest, R.relWrap, R.pwrCap, R.pwrCtl, R.hostFwctl, R.glbCtl, R.glbDet, R.ctxCsCtl]

theorem writeRow_of_plain {r : RegD} (h : ∀ q ∈ rowRegs, r.off ≠ q.off) (s : State) (k j : Nat) (w : RegWrite) :
    writeRow s r k j w = .next (writeReg s r k j w) := by
  simp only [rowRegs, List.forall_mem_cons] at h
  simp only [writeRow, h, if_false]

/-- R605: a write of a locked register is counted where it covers a field that the lock keeps. -/
theorem writeReg_locked {s : State} {r : RegD} {l : Fld} {w : RegWrite} (hl : lockOf r = some l)
    (hs : fbit s l 0 0 = true) (hf : r.fields.any (fun f => f.acc == .rwl && covered w.half f) = true) (k j : Nat) :
    writeReg s r k j w = fcount s F.glbErrLocked 0 0 1 := by
  simp only [writeReg, hl, hs, hf, if_true]

/-- R602: a field that a write does not cover keeps its value. -/
theorem takeField_uncovered {w : RegWrite} {f : Fld} (h : covered w.half f = false) (s : State) (k j : Nat) :
    takeField s w k j s f = s := by
  unfold takeField
  split
  · rfl
  · rfl
  · rfl
  · split
    · rw [if_neg (by simp [wbit, h])]
    · rw [clearBit, if_neg (by simp [h])]
  · split
    · rfl
    · rw [if_neg (by simp [h]), writeField_uncovered h]
  · split
    · rfl
    · rw [if_neg (by simp [h]), writeField_uncovered h]

/-! ### `GLB_DET` (R613) -/

/-- Of the state that a write of `GLB_DET` finds: `ENF` is taken where no context is enabled. -/
def enfTaken (s : State) (w : RegWrite) : State := if noneEnabled s then writeField w 0 0 s F.glbDetEnf else s

theorem covered_of_low {w : RegWrite} (h : w.half ≠ .high) {f : Fld} (hf : f.lo + f.w ≤ 32) :
    covered w.half f = true := by
  unfold covered
  split
  · rfl
  · exact decide_eq_true hf
  · contradiction

/-- The write clears `NRSEEN` where it gives it 1. -/
theorem exec_glbDetWrite {s : State} {w : RegWrite} (ho : writeOpen s false = true) (hh : w.half ≠ .high) :
    exec (.glbDetWrite w) s = .next (fset (enfTaken s w) F.glbDetNrseen 0 0
      (fget (enfTaken s w) F.glbDetNrseen 0 0 - wval w F.glbDetNrseen * fget (enfTaken s w) F.glbDetNrseen 0 0)) := by
  show execGlbDetWrite w s = _
  rw [execGlbDetWrite, onBar_open ho]
  exact congrArg _ (if_pos (covered_of_low hh (by decide)))

theorem fget_enfTaken_nrseen (s : State) (w : RegWrite) :
    fget (enfTaken s w) F.glbDetNrseen 0 0 = fget s F.glbDetNrseen 0 0 := by
  unfold enfTaken
  split
  · obtain he | he | he := writeField_cases w 0 0 s F.glbDetEnf <;> rw [he]
    · exact fget_fset_ne (by decide)
    · exact fget_fcount_ne (by decide)
  · rfl

end Sys2Proof.Machine

/-- Settles O60: reads and writes by the register found, and the fields of `GLB_DET`. -/
theorem registerAccesses : Obligations.RegisterAccesses := by
  intro s off data w
  refine ⟨fun ho hp => ⟨exec_rcRead_refused ho hp, exec_rcRead_reserved ho hp, fun r k j hr => ?reads⟩,
    fun ho => ⟨fun size => exec_registerWrite_refused ho, fun size => exec_registerWrite_reserved ho,
      fun size r k j ha hr hplain => ?writes⟩,
    fun f k j h => takeField_uncovered h s k j, fun ho hh hn => ?taken, fun ho hh hn => ?kept⟩
  case reads =>
    refine ⟨fun h8 => ?_, fun h8 => ?_, fun h4 => ?_⟩
    · exact exec_rcRead_register (h := .both) ho hp (by simp [accessOk, h8]) hr (by simp [halfOf])
    · exact exec_rcRead_register (h := .low) ho hp (by simp [accessOk]; omega) hr (by simp [halfOf, h8])
    · exact exec_rcRead_register (h := .high) ho hp (by simp [accessOk]; omega) hr (by simp [halfOf, h4])
  case writes =>
    have hw : exec (.registerWrite off size data) s = .next (writeReg s r k j (placed off size data)) :=
      (exec_registerWrite_register ho ha hr).trans (writeRow_of_plain hplain s k j _)
    exact ⟨hw, fun l hl hs hf => hw.trans (congrArg _ (writeReg_locked hl hs hf k j))⟩
  case taken =>
    refine ⟨_, exec_glbDetWrite ho hh, ?_, fun h1 => ?_, fun h0 => ?_⟩
    · rw [fget_fset_ne (by decide), enfTaken, if_pos hn, writeField_taken (covered_of_low hh (by decide)) (by rfl),
        fget_fset_same]
      exact Nat.mod_eq_of_lt (Nat.mod_lt _ (Nat.two_pow_pos _))
    · rw [fget_fset_same, h1, one_mul, Nat.sub_self]
      rfl
    · rw [fget_fset_same, h0, zero_mul, Nat.sub_zero, fget_enfTaken_nrseen]
      rfl
  case kept =>
    refine ⟨_, exec_glbDetWrite ho hh, ?_⟩
    rw [fget_fset_ne (by decide), enfTaken, if_neg (by simp [hn])]

end

section
/-! PROOFS. Scope: the call sheets and the log. -/

open Sys2Proof Sys2Proof.Machine

namespace Sys2Proof.Machine

/-! ### Call sheets (R580 to R585) -/

/-- R581: a poll takes its reports in turn. -/
theorem exec_callSheetPoll {s : State} {reads : List SheetRead}
    (hl : ∀ rd ∈ reads, ∀ b ∈ rd.slots, ∀ bs, b = some bs → bs.length = 64) (hr : fbit s F.hostStatReady 0 0 = true)
    (hu : hostUp s = true) (hp : powerState s ≠ 2) (hf : s.faulted = false) :
    exec (.callSheetPoll reads) s = .next (reads.foldl pollOne s) := by
  have hform : reads.any (fun rd => rd.slots.any (fun b => (b.map (fun b => b.length != 64)).getD false)) = false := by
    simp only [List.any_eq_false]
    rintro rd hrd hany
    obtain ⟨b, hb, hbad⟩ := List.any_eq_true.1 hany
    cases b with
    | none => simp at hbad
    | some bs => simp [hl rd hrd _ hb bs rfl] at hbad
  have hp' : fget s F.pwrStatState 0 0 ≠ 2 := hp
  show execCallSheetPoll reads s = _
  rw [execCallSheetPoll, if_neg (by simp [hform]), if_neg (by simp [hr, hu, hp', hf])]

section
variable {s : State} {sl : SlotId} {w : RegWrite} {r n : Nat} (ho : writeOpen s false = true)
  (hs : slotCtx s sl.val = some r) (hb : (ctx s r).badSlot = some n)
include ho hs hb

/-- Log entry 54 (DEDUCED): after a tail that could not be used the polling is taken up again. -/
theorem exec_resume_tail (hw : wbit w F.ctxCsCtlResume = true) (hc : cget s r F.ctxCsStatBadcode 0 = 1)
    (slot : Option Bytes) : exec (.resume sl w slot) s = .next (modCtx s r fun c => { c with badSlot := none }) := by
  show execResume sl w slot s = _
  unfold execResume
  rw [onBar_open ho, hs]
  dsimp only
  rw [if_neg (by simp [hw, hb]), if_pos hc]

/-- R584: the refused slot is read again. -/
theorem exec_resume_slot (hw : wbit w F.ctxCsCtlResume = true) (hc : cget s r F.ctxCsStatBadcode 0 ≠ 1) {b : Bytes}
    (hl : b.length = 64) : exec (.resume sl w (some b)) s = .next (takeSlots 1 [some b]
      (modCtx s r fun c => { c with badSlot := none }) r (cget s r F.ctxCsHeadCount 0 + 1)) := by
  show execResume sl w (some b) s = _
  unfold execResume
  rw [onBar_open ho, hs]
  dsimp only
  rw [if_neg (by simp [hw, hb]), if_neg hc, if_neg (by simp [hl]), hl]
  rfl

theorem exec_skip (hw : wbit w F.ctxCsCtlSkip = true) :
    exec (.skip sl w) s = .next (headBy (modCtx s r fun c => { c with badSlot := none }) r n) := by
  show execSkip sl w s = _
  unfold execSkip
  rw [onBar_open ho, hs]
  dsimp only
  rw [hw, hb]

end

/-! ### The log's register and its notes (R395, R397) -/

section
variable {s : State} {sl : SlotId} {w : RegWrite} (ho : writeOpen s false = true)
include ho

theorem exec_logNote {q : Nat} (hs : slotCtx s sl.val = some q) (hl : logLive s q = true)
    (hr : registered (ctx s q) = true) (hw : w.half = .both) : exec (.logNote sl w) s =
      .next (cset (logFor s q none 7 (cget s q F.logNotes 0) w.data.toNat []) q F.logNotes 0
        (cget s q F.logNotes 0 + 1)) := by
  show execLogNote sl w s = _
  unfold execLogNote
  rw [onBar_open ho, hs]
  dsimp only
  rw [if_neg (by simp [hl, hr, hw])]

theorem exec_logModeWrite_busy (hb : slotBusy s sl.val = true) : exec (.logModeWrite sl w) s = .next s := by
  show execLogModeWrite sl w s = _
  rw [execLogModeWrite, onBar_open ho, if_pos hb]

end

/-- The fields that start again with the log. -/
def logStart : List Fld :=
  [F.ctxLogHeadCount, F.logSeq, F.logNotes, F.ctxReplayMismatch, F.ctxReplayDiverge, F.ctxReplayStepStepId]

/-- The state after a write of `CTX_LOG_CFG` that starts the log. -/
def logStarted (s : State) (sl : SlotId) (w : RegWrite) : State :=
  logStart.foldl (fun s f => fset s f sl.val 0 0)
    (writeFields s w [F.ctxLogCfgMode, F.ctxLogCfgSizelog2, F.ctxLogCfgPace] sl.val 0)

/-- R395: the write starts the log where its `MODE` is in range. -/
theorem exec_logModeWrite_free {s : State} {sl : SlotId} {w : RegWrite} (ho : writeOpen s false = true)
    (hb : slotBusy s sl.val = false) (hc : covered w.half F.ctxLogCfgMode = true)
    (hr : rangeOk F.ctxLogCfgMode (wval w F.ctxLogCfgMode) = true) :
    exec (.logModeWrite sl w) s = .next (logStarted s sl w) := by
  show execLogModeWrite sl w s = _
  rw [execLogModeWrite, onBar_open ho, if_neg (by simp [hb])]
  exact if_pos (by simp [hc, hr])

theorem rangeOk_ctxLogCfgMode {v : Nat} (h : v ≤ 2) : rangeOk F.ctxLogCfgMode v = true := by
  obtain rfl | rfl | rfl : v = 0 ∨ v = 1 ∨ v = 2 := by omega
  · decide
  · decide
  · decide

/-- Fields of a slot made 0 leave its others. -/
theorem fget_zeroed_sibling {g : Fld} {i : Nat} {l : List Fld}
    (h : ∀ f ∈ l, f.s1 = g.s1 ∧ f.off * 64 + f.lo ≠ g.off * 64 + g.lo) (s : State) :
    fget (l.foldl (fun s f => fset s f i 0 0) s) g i 0 = fget s g i 0 := by
  induction l generalizing s with
  | nil => rfl
  | cons f l ih =>
    obtain ⟨⟨hs, hd⟩, hl⟩ := List.forall_mem_cons.1 h
    exact (ih hl _).trans (fget_fset_sibling hs hd s i 0)

theorem fget_zeroed_of_mem {g : Fld} {i : Nat} {l : List Fld} (h : g ∈ l) (s : State) :
    fget (l.foldl (fun s f => fset s f i 0 0) s) g i 0 = 0 := by
  induction l generalizing s with
  | nil => exact absurd h List.not_mem_nil
  | cons f l ih =>
    obtain rfl | hl := List.mem_cons.1 h
    · exact fget_foldl_zero (f := id) (i := fun _ => i) (j := fun _ => 0) l
        ((fget_fset_same ..).trans (Nat.zero_mod _))
    · exact ih hl _

/-- The fields that start again differ from `MODE`. -/
theorem fget_logStarted_mode (s : State) (sl : SlotId) {w : RegWrite} (hc : covered w.half F.ctxLogCfgMode = true)
    (hr : rangeOk F.ctxLogCfgMode (wval w F.ctxLogCfgMode) = true) :
    fget (logStarted s sl w) F.ctxLogCfgMode sl.val 0 = wval w F.ctxLogCfgMode := by
  have hrange : F.glbErrRange.key 0 0 ≠ F.ctxLogCfgMode.key sl.val 0 := by revert sl; decide
  have other {f : Fld} (hs : f.s1 = 0x10000) (hd : f.off * 64 + f.lo ≠ 0x10C208 * 64) :=
    fget_writeField_sibling (f := f) (g := F.ctxLogCfgMode) hs hd hrange w
  rw [logStarted, fget_zeroed_sibling (by decide)]
  simp only [writeFields, List.foldl]
  rw [other (f := F.ctxLogCfgPace) rfl (by decide), other (f := F.ctxLogCfgSizelog2) rfl (by decide),
    writeField_taken hc hr, fget_fset_same, Nat.mod_eq_of_lt (wval_lt w _)]

theorem fget_logStarted_of_mem {f : Fld} (hf : f ∈ logStart) (s : State) (sl : SlotId) (w : RegWrite) :
    fget (logStarted s sl w) f sl.val 0 = 0 := fget_zeroed_of_mem hf _

theorem logStarted_regs (s : State) (sl : SlotId) (w : RegWrite) :
    logStarted s sl w = { s with regs := (logStarted s sl w).regs } := by
  have hfield (s : State) (f : Fld) : writeField w sl.val 0 s f =
      { s with regs := (writeField w sl.val 0 s f).regs } := by
    obtain he | he | he := writeField_cases w sl.val 0 s f <;> rw [he] <;> rfl
  simp only [logStarted, logStart, writeFields, List.foldl]
  rw [hfield, hfield (writeField ..), hfield s]
  rfl

/-! ### The ring (R397 to R399, R408) -/

theorem exec_logEntryWrite {s : State} {r : CtxId} {e : LogEnt} {q : List LogEnt} (hq : (ctx s r.val).log.q = e :: q)
    (hr : logRoom s r.val e = true) (hu : hostUp s = true) : exec (.logEntryWrite r) s =
      .next (settleDisable (logWrite (modCtx s r.val fun c => { c with log := { c.log with q := q } }) r.val e)
          r.val) := by
  show execLogEntryWrite r s = _
  unfold execLogEntryWrite
  rw [hq]
  exact if_pos (by simp [hr, hu])

theorem exec_replaySubmit {s : State} {r : CtxId} {entries : List LogRec} (hr : replayOpen s r.val = true)
    (hl : ∀ e ∈ entries, e.type = 1 → e.payload.length = 64 ∨ e.payload.length = 128) :
    exec (.replaySubmit r entries) s = .next (acceptDue (ctx (readRing entries s r.val) r.val).log.due.length
      (readRing entries s r.val) r.val) := by
  have hform : entries.any (fun e => e.type == 1 && e.payload.length != 64 && e.payload.length != 128) = false := by
    simp only [List.any_eq_false, Bool.and_eq_true, beq_iff_eq, bne_iff_ne]
    rintro e he ⟨⟨ht, h64⟩, h128⟩
    exact (hl e he ht).elim h64 h128
  show execReplaySubmit r entries s = _
  rw [execReplaySubmit, if_neg (by simp [hr]), if_neg (by simp [hform])]

/-- R397: an entry that the host has not made valid ends the reading. -/
theorem readRing_invalid {s : State} {r : Nat} {e : LogRec} (h : ringAhead s r < recLen e) (es : List LogRec) :
    readRing (e :: es) s r = s := if_pos h

theorem log_cset (s : State) (r : Nat) (f : Fld) (j v : Nat) : (ctx (cset s r f j v) r).log = (ctx s r).log := by
  unfold cset
  split
  · rfl
  · rw [ctx_modCtx_same]

theorem log_startClock (s : State) (r tc : Nat) : (ctx (startClock s r tc) r).log.done = (ctx s r).log.done ∧
    (ctx (startClock s r tc) r).log.due = (ctx s r).log.due := by
  unfold startClock
  split
  · exact ⟨rfl, rfl⟩
  · rw [ctx_modCtx_same]
    exact ⟨rfl, rfl⟩

/-- R399: a submission of a step not completed before is due. -/
theorem due_keepEntry (done : List (BitVec 64)) (start : Nat) (l : LogSt) (e : LogRec) :
    (keepEntry done start l e).due =
      if e.type = 1 ∧ done.contains e.stepId = false then l.due ++ [e] else l.due := by
  unfold keepEntry
  by_cases h1 : e.type = 1
  · cases hd : done.contains e.stepId <;> simp [h1]
  · cases hd : done.contains e.stepId <;> simp only [h1, false_and, if_false] <;> split_ifs <;> rfl

theorem readRing_one {s : State} {r : Nat} {e : LogRec} (h : recLen e ≤ ringAhead s r) : readRing [e] s r =
    cset (modCtx (startClock s r e.timecode.toNat) r
      fun c => { c with log := keepEntry c.log.done (cget s r F.ctxLogHeadCount 0) c.log e }) r F.ctxLogHeadCount 0
      ((cget s r F.ctxLogHeadCount 0 + recLen e) % 2 ^ 64) := if_neg (Nat.not_lt.2 h)

theorem due_readRing_one {s : State} {r : Nat} {e : LogRec} (h : recLen e ≤ ringAhead s r) :
    (ctx (readRing [e] s r) r).log.due = if e.type = 1 ∧ (ctx s r).log.done.contains e.stepId = false then
      (ctx s r).log.due ++ [e] else (ctx s r).log.due := by
  obtain ⟨hdone, hdue⟩ := log_startClock s r e.timecode.toNat
  rw [readRing_one h, log_cset, ctx_modCtx_same, due_keepEntry, hdone, hdue]

end Sys2Proof.Machine

/-- Settles O26: the call sheets, the log's register, its notes and its ring. -/
theorem callSheetsAndLog : Obligations.CallSheetsAndLog := by
  refine ⟨fun s sl w r => ⟨fun reads => exec_callSheetPoll, fun n slot ho hs hb => ⟨fun hw hc =>
      exec_resume_tail ho hs hb hw hc slot, fun b hw hc => exec_resume_slot ho hs hb hw hc, exec_skip ho hs hb⟩⟩,
    fun s sl w r => ⟨fun q ho => exec_logNote ho, fun ho hb hc hv => ?start, exec_logModeWrite_busy,
      fun e q => exec_logEntryWrite, fun entries => exec_replaySubmit, fun e es h => readRing_invalid h es,
      fun e h => ⟨?head, due_readRing_one h⟩⟩⟩
  case start =>
    have hr := rangeOk_ctxLogCfgMode hv
    exact ⟨_, exec_logModeWrite_free ho hb hc hr, fget_logStarted_mode s sl hc hr,
      fget_logStarted_of_mem (by decide) s sl w, fget_logStarted_of_mem (by decide) s sl w,
      fget_logStarted_of_mem (by decide) s sl w, logStarted_regs s sl w⟩
  case head =>
    rw [readRing_one h, cget_cset_same]
    exact Nat.mod_eq_of_lt (Nat.mod_lt _ (Nat.two_pow_pos _))

end

section
/-! PROOFS. Scope: the swap rule and floating steps. -/

open Sys2Proof Sys2Proof.Machine

namespace Sys2Proof.Machine

/-! ### The swap rule (R431 to R433) -/

/-- The contexts that wait for a place. -/
def incomers (s : State) : List Nat := (s.ctxs.map (·.1)).filter fun r => runnable s r && !canReturn s r

def residents (s : State) : List Nat := (s.ctxs.map (·.1)).filter fun r => (ctx s r).st == .resident

/-- The swap counted, and the return of the context that comes in asked for. -/
def swapCounted (s : State) (inc : Nat) : State :=
  modCtx (fcount s F.schedStatSwaps 0 0 1) inc fun c => { c with res := { c.res with returnReq := true } }

section
variable {s : State} {inc v : Nat} (hc : clockRuns s (edgeClock 0) = true) (ha : fbit s F.schedCfgAuto 0 0 = true)
  (hcopy : copying s = false) (hd : ((s.ctxs.map (·.1)).any fun r => (ctx s r).res.decided) = false)
  (hb : (residents s).all (blockedLong s) = true) (hin : (incomers s).foldl (better (inBefore s)) none = some inc)
  (hout : ((residents s).filter (victimFor s inc)).foldl (better (outBefore s)) none = some v)
include hc ha hcopy hd hb hin hout

/-- The victim is shelved, or its shelving is decided until its floating steps are over. -/
theorem exec_swap : exec .swap s = if (ctx (swapCounted s inc) v).floats.any (·.launched) = true
    then .next (modCtx (swapCounted s inc) v
      fun c => { c with res := { c.res with shelveReq := true, decided := true } })
    else .next (beginShelve (swapCounted s inc) v) := by
  have hb' : ((s.ctxs.map (·.1)).filter (fun r => (ctx s r).st == .resident)).all (blockedLong s) = true := hb
  show execSwap s = _
  unfold execSwap
  rw [onClock_runs hc]
  dsimp only
  rw [if_neg (by rw [ha, hcopy, hd, hb']; decide), show ((s.ctxs.map (·.1)).filter
    fun r => runnable s r && !canReturn s r).foldl (better (inBefore s)) none = some inc from hin]
  dsimp only
  rw [show (((s.ctxs.map (·.1)).filter (fun r => (ctx s r).st == .resident)).filter (victimFor s inc)).foldl
    (better (outBefore s)) none = some v from hout]
  rfl

end

/-! ### Floating steps (R426 to R430) -/

/-- R430: a wait of `FLOATTO` ms. -/
theorem waitedOut_of_le {s : State} {since : Nat} (h0 : fget s F.schedCfgFloatto 0 0 ≠ 0)
    (h : since + 1000000 * fget s F.schedCfgFloatto 0 0 ≤ s.tcount) : waitedOut s since = true := by
  unfold waitedOut
  rw [Bool.and_eq_true]
  exact ⟨bne_iff_ne.2 h0, decide_eq_true h⟩

section
variable {s : State} {r : CtxId} {k : Nat} {st : Step} (hk : (ctx s r.val).floats[k]? = some st)
include hk

/-- R429: a step that no spare cores can ever hold is given up. -/
theorem exec_floatingClaim_lost (hl : floatLost s r.val st = true) :
    exec (.floatingClaim r k) s = .next (killFloat r.val stCore s st) := by
  show execFloatingClaim r k s = _
  unfold execFloatingClaim
  dsimp only
  rw [hk]
  exact if_pos hl

theorem exec_floatTimeout_over (hl : st.launched = false) (hw : waitedOut s (waitFrom st) = true) :
    exec (.floatTimeout r k) s = .next (killFloat r.val stTimeout s st) := by
  show execFloatTimeout r k s = _
  unfold execFloatTimeout
  dsimp only
  rw [hk]
  exact if_neg (by simp [hl, hw])

section
variable (hl : floatLost s r.val st = false) (hr : floatReady s r.val st = true) {ps : List (Nat × CoreImage)}
  (hps : (floatCores s r.val st).zip (gridSerpentine (stepImage (ctx s r.val) st)) = ps)
include hl hr hps

theorem exec_floatingClaim_now (ht : st.launchAt = none) :
    exec (.floatingClaim r k) s = .next (startFloat s r.val st ps) := by
  show execFloatingClaim r k s = _
  unfold execFloatingClaim
  dsimp only
  rw [hk]
  dsimp only
  rw [if_neg (by simp [hl]), if_neg (by simp [hr]), ht, hps]

omit hps in
/-- Log entry 42 (DEDUCED): the first claim asks for the launch. -/
theorem exec_floatingClaim_ask {t : BitVec 64} (ht : st.launchAt = some t)
    (hp : pendingFor s r.val (.float st.id) = none) :
    exec (.floatingClaim r k) s = .next (askLaunch s r.val (.float st.id) t.toNat) := by
  show execFloatingClaim r k s = _
  unfold execFloatingClaim
  dsimp only
  rw [hk]
  dsimp only
  rw [if_neg (by simp [hl]), if_neg (by simp [hr]), ht, hp]

theorem exec_floatingClaim_due {t : BitVec 64} {l : PendLaunch} (ht : st.launchAt = some t)
    (hp : pendingFor s r.val (.float st.id) = some l) : exec (.floatingClaim r k) s = .next
      (if l.target ≤ s.tcount then startFloat (takeLaunch s r.val (.float st.id)) r.val st ps else s) := by
  show execFloatingClaim r k s = _
  unfold execFloatingClaim
  dsimp only
  rw [hk]
  dsimp only
  rw [if_neg (by simp [hl]), if_neg (by simp [hr]), ht, hp, hps]
  exact (apply_ite Host.Outcome.next _ _ _).symm

end

end

end Sys2Proof.Machine

/-- Settles O29: the swap rule, and a floating step that is lost, due, asked for or waits. -/
theorem swapAndFloatingSteps : Obligations.SwapAndFloatingSteps := by
  intro s r k
  refine ⟨fun inc v hc ha hcopy hd hb hin hout => ?swap,
    fun st cs hk hcs hl hres hdec hlost hfit hf hp hrenew hsnap hlog hroom => ?claim,
    fun st hk hl => ⟨fun hn => exec_floatingClaim_lost hk (by simp [floatLost, hl, hn]), fun hto hw =>
      exec_floatTimeout_over hk hl (waitedOut_of_le hto hw)⟩⟩
  case swap =>
    have h := exec_swap hc ha hcopy hd hb hin hout
    exact ⟨fun hfl => h.trans (if_neg (ne_true_of_eq_false hfl)), fun hfl => h.trans (if_pos hfl)⟩
  case claim =>
    subst hcs
    have hkeep : floatLost s r.val st = false := by simp [floatLost, hfit, hlost]
    have hready : floatReady s r.val st = true := by
      have hcores : decide ((stepImage (ctx s r.val) st).length ≤ (floatCores s r.val st).length) = true :=
        decide_eq_true hroom
      simp [floatReady, hl, hres, hdec, hlost, hf, hp, hrenew, hsnap, hlog, hcores]
    exact ⟨exec_floatingClaim_now hk hkeep hready rfl, fun t => exec_floatingClaim_ask hk hkeep hready,
      fun t l => exec_floatingClaim_due hk hkeep hready rfl⟩

end

section
/-! PROOFS. Scope: the chunks of a reel. -/

open Sys2Proof Sys2Proof.Machine

namespace Sys2Proof.Machine

/-! ### A chunk of the load (R475, R478) -/

section
variable {s : State} {r : CtxId} {shard i : Nat} {l : ReelLoad} {h : Shard}
  (hl : loadShard (ctx s r.val).reel shard = some (l, h))
  (hc : clockRuns s (edgeClock (chunkTile s r.val l h i)) = true)
include hl hc

/-- A chunk that is there, and one before its turn, are not taken. -/
theorem exec_reelChunk_left (hn : chunkThere l shard i = true ∨ chunkDue s r.val l h i = false) (data : Bytes) :
    exec (.reelChunk r shard i data) s = .next s := by
  show execReelChunk r shard i data s = _
  unfold execReelChunk
  rw [hl]
  dsimp only
  rw [onClock_runs hc]
  obtain hn | hn := hn
  · exact if_pos (.inr (.inl hn))
  · exact if_pos (.inr (.inr (by simp [hn])))

theorem exec_chunkTimeout_left (hn : chunkThere l shard i = true ∨ chunkDue s r.val l h i = false) :
    exec (.chunkTimeout r shard i) s = .next s := by
  show execChunkTimeout r shard i s = _
  unfold execChunkTimeout
  rw [hl]
  dsimp only
  rw [onClock_runs hc]
  obtain hn | hn := hn
  · exact if_pos (.inr (.inl hn))
  · exact if_pos (.inr (.inr (.inl (by simp [hn]))))

/-- R481: a chunk of the load is given to the device that asks. -/
theorem exec_chunkRequest_load (ht : chunkThere l shard i = true) (dev : BitVec 12) :
    exec (.chunkRequest r shard i dev) s = .next (giveChunk s r.val l h i (chunkVa s r.val l h i) dev) := by
  show execChunkRequest r shard i dev s = _
  unfold execChunkRequest
  rw [hl]
  dsimp only
  rw [onClock_runs (show clockRuns s (edgeClock (pageOf (chunkVa s r.val l h i) % 2)) = true from hc), if_pos ht]

section
variable (hi : i < shardChunks h) (ht : chunkThere l shard i = false) (hd : chunkDue s r.val l h i = true)
include hi ht hd

theorem exec_reelChunk_taken {data pt : Bytes} (ho : openChunk s l h i data = some pt) :
    exec (.reelChunk r shard i data) s = .next (takeChunk s r.val l h i pt data) := by
  show execReelChunk r shard i data s = _
  unfold execReelChunk
  rw [hl]
  dsimp only
  rw [onClock_runs hc, if_neg (by simp [ht, hd, hi]), ho]

theorem exec_reelChunk_failed {data : Bytes} (ho : openChunk s l h i data = none) :
    exec (.reelChunk r shard i data) s = .next (chunkFail 1 r.val h s i) := by
  show execReelChunk r shard i data s = _
  unfold execReelChunk
  rw [hl]
  dsimp only
  rw [onClock_runs hc, if_neg (by simp [ht, hd, hi]), ho]

/-- R478: a chunk missing for `CHUNKTO` ms fails. -/
theorem exec_chunkTimeout_missing
    (hw : chunkSince s r.val l h i + 1000000 * cget s r.val F.ctxReelcfgChunkto 0 ≤ s.tcount) :
    exec (.chunkTimeout r shard i) s = .next (chunkFail 2 r.val h s i) := by
  show execChunkTimeout r shard i s = _
  unfold execChunkTimeout
  rw [hl]
  dsimp only
  rw [onClock_runs hc, if_neg]
  rintro (h1 | h1 | h1 | h1)
  · omega
  · simp [ht] at h1
  · simp [hd] at h1
  · omega

end

end

/-- R481: a chunk of the reel served is given from where it stands. -/
theorem exec_chunkRequest_served {s : State} {r : CtxId} {shard i : Nat} {l : ReelLoad} {h : Shard}
    (hn : loadShard (ctx s r.val).reel shard = none) (hl : loadShard (ctx s r.val).served shard = some (l, h))
    (hc : clockRuns s (edgeClock (pageOf (h.va + 65536 * i) % 2)) = true) (ht : chunkThere l shard i = true)
    (dev : BitVec 12) :
    exec (.chunkRequest r shard i dev) s = .next (giveChunk s r.val l h i (h.va + 65536 * i) dev) := by
  show execChunkRequest r shard i dev s = _
  unfold execChunkRequest
  rw [hn, hl]
  dsimp only
  rw [onClock_runs hc, if_pos ht]

/-- R475: a chunk leaves sealed under the shard's key. -/
theorem giveChunk_sealed {s : State} {h : Shard} {k : BitVec 256} (hk : tfind s.keys.transport h.keyid = some k)
    (r : Nat) (l : ReelLoad) (i va : Nat) (dev : BitVec 12) :
    giveChunk s r l h i va dev = sendChunk s dev.toNat l.gen.toNat h.id i (gcmSeal (digestBytes k) (chunkIv h i)
      (chunkAad l h) (vsRead (ctx s r).vs va (min 65536 (h.bytes - 65536 * i)))) := by
  unfold giveChunk
  rw [hk]

/-- R475: what was sealed for a chunk's place opens there. -/
theorem openChunk_sealed {s : State} {h : Shard} {i : Nat} {k : BitVec 256} {pt : Bytes}
    (hk : tfind s.keys.transport h.keyid = some k) (hl : pt.length = min 65536 (h.bytes - 65536 * i)) (l : ReelLoad) :
    openChunk s l h i (gcmSeal (digestBytes k) (chunkIv h i) (chunkAad l h) pt) = some pt := by
  have hkey : (digestBytes k).length = 32 := leBytes_length ..
  rw [openChunk, hk, Option.bind_some, gcmOpen_gcmSeal _ _ _ _ hkey]
  simp [hl]

end Sys2Proof.Machine

/-- Settles O45: a chunk is there, before its turn or due, and one sealed for its place opens there. -/
theorem reelChunksAreTaken : Obligations.ReelChunksAreTaken := by
  refine ⟨fun s r shard i data l h hl hc => ⟨fun ht => ⟨exec_reelChunk_left hl hc (.inl ht) data,
      exec_chunkTimeout_left hl hc (.inl ht), fun dev k hk => ?_⟩,
    fun hd => ⟨exec_reelChunk_left hl hc (.inr hd) data, exec_chunkTimeout_left hl hc (.inr hd)⟩,
    fun hi ht hd => ⟨fun pt => exec_reelChunk_taken hl hc hi ht hd, exec_reelChunk_failed hl hc hi ht hd,
      exec_chunkTimeout_missing hl hc hi ht hd⟩⟩,
    fun s r shard i dev l h k hn hl ht hk => ?_, fun s l h i k pt hk hl => openChunk_sealed hk hl l⟩
  · rw [exec_chunkRequest_load hl hc ht, giveChunk_sealed hk]
  · intro va hc
    rw [exec_chunkRequest_served hn hl hc ht, giveChunk_sealed hk]

end

section
/-! PROOFS. Scope: the pairing. -/

open Sys2Proof Sys2Proof.Machine

namespace Sys2Proof.Machine

/-! ### What the pairing's own fields leave -/

/-- The fields of the pairing's state. -/
def pairFlds : List Fld := [F.pairCtlEn, F.pairStatState, F.pairStatActive, F.pairStatReason]

theorem twinCtxs_fset {f : Fld} (h : f ∈ pairFlds) (s : State) (v : Nat) : twinCtxs (fset s f 0 0 v) = twinCtxs s := by
  have hkey : ∀ f ∈ pairFlds, ∀ sl : Fin 8, f.key 0 0 ≠ F.ctxRelcfgPair.key sl.val 0 := by decide
  have ht (r : Nat) : twinCtx (fset s f 0 0 v) r = twinCtx s r := by
    rw [twinCtx, cget_fset_global (hkey f h)]
    rfl
  exact List.filter_congr fun r _ => ht r

theorem releaseSteps_regs (s : State) : (releaseSteps s).regs = s.regs := by
  unfold releaseSteps
  refine foldl_keeps State.regs ?_ _ s
  exact fun _ _ => rfl

theorem pairState_setPair (s : State) {v : Nat} (hv : v < 8) : pairState (setPair s v) = v :=
  (fget_fset_same ..).trans (Nat.mod_eq_of_lt hv)

theorem pairState_fset {f : Fld} (h : f.key 0 0 ≠ F.pairStatState.key 0 0) (s : State) (v : Nat) :
    pairState (fset s f 0 0 v) = pairState s := fget_fset_ne h

/-- R611: a refused pairing is over, its code shown. -/
theorem pairRefuse_fields (s : State) {c : Nat} (hc : c < 256) :
    pairState (pairRefuse s c) = 0 ∧ fget (pairRefuse s c) F.pairCtlEn 0 0 = 0 ∧
      fget (pairRefuse s c) F.pairStatReason 0 0 = c ∧ fget (pairRefuse s c) F.glbRefuseCode 0 0 = c := by
  refine ⟨?_, ?_, ?_, ?_⟩
  · rw [pairState, pairRefuse, fget_refuse_ne (by decide), fget_fset_ne (by decide), fget_fset_ne (by decide)]
    exact pairState_setPair _ (by decide)
  · rw [pairRefuse, fget_refuse_ne (by decide), fget_fset_ne (by decide), fget_fset_same]
    rfl
  · rw [pairRefuse, fget_refuse_ne (by decide), fget_fset_same]
    exact Nat.mod_eq_of_lt hc
  · rw [pairRefuse, fget_refuse_code]
    exact Nat.mod_eq_of_lt hc

/-! ### Enable, disable and handover (R510, R518) -/

section
variable {s : State} {w : RegWrite} (hc : covered w.half F.pairCtlEn = true)
include hc

theorem pairCtl_enable (hh : wbit w F.pairCtlHandover = false) (he : wbit w F.pairCtlEn = true)
    (h0 : fbit s F.pairCtlEn 0 0 = false) : pairCtl s w = pairBegin s := by
  simp [pairCtl, hc, hh, he, h0]

theorem pairCtl_disable (hh : wbit w F.pairCtlHandover = false) (he : wbit w F.pairCtlEn = false) :
    pairCtl s w = pairEnd s := by
  simp [pairCtl, hc, hh, he]

theorem pairCtl_handover (hh : wbit w F.pairCtlHandover = true) : pairCtl s w = handover s := by
  simp [pairCtl, hc, hh]

end

section
variable {s : State} {w : RegWrite} (ho : writeOpen s false = true)
include ho

theorem exec_pairEnable : exec (.pairEnable w) s = .next (pairCtl s w) := by
  show execPairEnable w s = _
  rw [execPairEnable, onBar_open ho]

theorem exec_pairDisable : exec (.pairDisable w) s = .next (pairCtl s w) := by
  show execPairDisable w s = _
  rw [execPairDisable, onBar_open ho]

theorem exec_handover : exec (.handover w) s = .next (pairCtl s w) := by
  show execHandover w s = _
  rw [execHandover, onBar_open ho]

theorem exec_promote {sl : SlotId} (hp : wbit w F.ctxRelctlPromote = true) (hs : (slotCtx s sl.val).isSome = true)
    (h2 : fget s F.ctxRelcfgPair sl.val 0 = 2) : exec (.promote sl w) s =
        .next (fset s F.ctxRelcfgPair sl.val 0 0) := by
  show execPromote sl w s = _
  rw [execPromote, onBar_open ho, if_pos ⟨hp, hs, h2⟩]

end

section
variable {s : State}

/-- Whether a port leads to the partner. -/
def partnerPort (s : State) : Bool := (List.range 48).any fun p => pairUp s p && fget s F.lnkPartnerDev p 0 == partner s

theorem pairBegin_busy (h0 : pairState s ≠ 0) (h3 : pairState s ≠ 3) : pairBegin s = pairRefuse (pairEnd s) 0x32 :=
  if_pos ⟨h0, h3⟩

section
variable (h : pairState s = 0 ∨ pairState s = 3)
include h

theorem pairBegin_no_port (hp : partnerPort s = false) : pairBegin s = pairRefuse s 0x30 :=
  (if_neg (by omega)).trans (if_pos (show (!partnerPort s) = true by simp [hp]))

theorem pairBegin_self (hp : partnerPort s = true) (hd : partner s = ownDev s) : pairBegin s = pairRefuse s 0x31 :=
  (if_neg (by omega)).trans ((if_neg (show ¬(!partnerPort s) = true by simp [hp])).trans (if_pos hd))

theorem pairBegin_pairing (hp : partnerPort s = true) (hd : partner s ≠ ownDev s) : pairBegin s =
    setPair { s with pair := { s.pair with solo := pairState s == 3, synced := [] } } 1 :=
  (if_neg (by omega)).trans ((if_neg (show ¬(!partnerPort s) = true by simp [hp])).trans (if_neg hd))

end

/-- R518: a handover makes the renewed twin RENEWING. -/
theorem handover_fields (h : pairState s = 2) :
    pairState (handover s) = 4 ∧ fget (handover s) F.pairStatActive 0 0 = 0 := by
  have hregs (f : Fld) (t : State) : fget (releaseSteps t) f 0 0 = fget t f 0 0 :=
    fget_congr (releaseSteps_regs t) f 0 0
  rw [handover, if_neg (not_not.2 h)]
  refine ⟨?_, ?_⟩
  · rw [pairState, hregs, fget_fset_ne (by decide)]
    exact pairState_setPair _ (by decide)
  · rw [hregs, fget_fset_same]
    rfl

end

/-! ### The end of PAIRING (R511 to R513, Table 15.6) -/

/-- Once every twin context is resynced, the pair is PAIRED. -/
theorem settleResync_fields (s : State) {active : Nat} (ha : active < 2) (hact : fget s F.pairStatActive 0 0 = active) :
    pairState (settleResync s active) = (if (twinCtxs s).all (resynced s) then 2 else pairState s) ∧
      fget (settleResync s active) F.pairStatActive 0 0 = active ∧
      fget (settleResync s active) F.pairCtlEn 0 0 = fget s F.pairCtlEn 0 0 := by
  unfold settleResync
  split
  · refine ⟨?_, ?_, ?_⟩
    · rw [pairState_fset (by decide)]
      exact pairState_setPair _ (by decide)
    · rw [fget_fset_same]
      exact Nat.mod_eq_of_lt ha
    · rw [fget_fset_ne (by decide), setPair, fget_fset_ne (by decide)]
      rfl
  · exact ⟨rfl, hact, rfl⟩

/-- Whether the lower of the two device numbers is this one's. -/
def lowTwin (s : State) : Bool := decide (ownDev s < partner s)

theorem lowTwin_fset_ctl (s : State) (v : Nat) : lowTwin (fset s F.pairCtlEn 0 0 v) = lowTwin s := by
  have hown : ownDev (fset s F.pairCtlEn 0 0 v) = ownDev s := fget_fset_ne (by decide)
  have hpar : partner (fset s F.pairCtlEn 0 0 v) = partner s := fget_fset_ne (by decide)
  rw [lowTwin, hown, hpar]
  rfl

section
variable {s : State} (h1 : pairState s = 1)
include h1

theorem exec_pairingComplete_lost : exec (.pairingComplete none) s = .next (pairRefuse s 0x31) :=
  if_neg (not_not.2 h1)

section
variable {x : PairInfo}

theorem exec_pairingComplete_refused {c : Nat} (hx : pairCode s x = some c) :
    exec (.pairingComplete (some x)) s = .next (pairRefuse s c) := by
  show execPairingComplete (some x) s = _
  unfold execPairingComplete
  rw [if_neg (not_not.2 h1)]
  dsimp only
  rw [hx]

variable (hx : pairCode s x = none)
include hx

/-- R512: of two fresh twins the one with the lower number is active. -/
theorem exec_pairingComplete_fresh (hs : s.pair.solo = false) (hxs : x.solo = false) :
    exec (.pairingComplete (some x)) s = .next (fset (setPair { fset s F.pairCtlEn 0 0 1 with
      pair := { s.pair with renewed := false } } 2) F.pairStatActive 0 0 (bitNat (lowTwin s))) := by
  rw [← lowTwin_fset_ctl s 1]
  show execPairingComplete (some x) s = _
  unfold execPairingComplete
  rw [if_neg (not_not.2 h1)]
  dsimp only
  rw [hx]
  dsimp only
  rw [if_neg (by simp [hs]), if_neg (by simp [hxs])]
  rfl

/-- Log entry 78 (DEDUCED): the twin that goes on serving, of two that served alone that with the lower number. -/
theorem exec_pairingComplete_serves (hs : s.pair.solo = true) (hv : (!x.solo || lowTwin s) = true) :
    exec (.pairingComplete (some x)) s =
      .next (settleResync (fset (setPair (fset s F.pairCtlEn 0 0 1) 3) F.pairStatActive 0 0 1) 1) := by
  show execPairingComplete (some x) s = _
  unfold execPairingComplete
  rw [if_neg (not_not.2 h1)]
  dsimp only
  rw [hx]
  dsimp only
  exact if_pos (Bool.and_eq_true_iff.2 ⟨hs, by rw [← hv, ← lowTwin_fset_ctl s 1]; rfl⟩)

theorem exec_pairingComplete_renewed (hxs : x.solo = true)
    (hv : (s.pair.solo && (!x.solo || lowTwin s)) = false) : exec (.pairingComplete (some x)) s =
      .next (settleResync (fset (setPair { fset s F.pairCtlEn 0 0 1 with pair := { s.pair with solo := false } } 5)
        F.pairStatActive 0 0 0) 0) := by
  show execPairingComplete (some x) s = _
  unfold execPairingComplete
  rw [if_neg (not_not.2 h1)]
  dsimp only
  rw [hx]
  dsimp only
  rw [← lowTwin_fset_ctl s 1] at hv
  exact (if_neg (ne_true_of_eq_false hv)).trans (if_pos hxs)

end

end

end Sys2Proof.Machine

/-- Settles O50: enable, disable, handover and the end of PAIRING, each by its own equation. -/
theorem pairingBeginsAndEnds : Obligations.PairingBeginsAndEnds := by
  intro s w sl
  refine ⟨fun ho hc => ⟨fun hh he h0 => ?enable, fun hh he _ => ?disable, fun hh h2 => ?handover⟩,
    fun h1 => ⟨exec_pairingComplete_lost h1, fun x c => exec_pairingComplete_refused h1, fun x hx hs hxs => ?fresh,
      fun x hx hsolo => ?solo⟩, fun c => pairRefuse_fields s, fun ho => exec_promote ho⟩
  case enable =>
    have hb := (exec_pairEnable ho).trans (congrArg _ (pairCtl_enable hc hh he h0))
    refine ⟨fun h0 h3 => hb.trans (congrArg _ (pairBegin_busy h0 h3)), fun h => ⟨fun hp =>
      hb.trans (congrArg _ (pairBegin_no_port h hp)), fun hp hd => hb.trans (congrArg _ (pairBegin_self h hp hd)),
      fun hp hd => ⟨_, hb.trans (congrArg _ (pairBegin_pairing h hp hd)), pairState_setPair _ (by decide), rfl⟩⟩⟩
  case disable => exact (exec_pairDisable ho).trans (congrArg _ (pairCtl_disable hc hh he))
  case handover => exact ⟨_, (exec_handover ho).trans (congrArg _ (pairCtl_handover hc hh)), handover_fields h2⟩
  case fresh =>
    refine ⟨_, exec_pairingComplete_fresh h1 hx hs hxs, ?_, ?_, ?_, rfl⟩
    · rw [pairState_fset (by decide)]
      exact pairState_setPair _ (by decide)
    · rw [fget_fset_ne (by decide), setPair, fget_fset_ne (by decide)]
      exact fget_fset_same ..
    · rw [fget_fset_same, ← decide_eq_true_iff (p := ownDev s < partner s)]
      show bitNat (lowTwin s) % 2 = 1 ↔ lowTwin s = true
      cases lowTwin s <;> decide
  case solo =>
    show ∃ t, _ ∧ _ ∧ _ = bitNat (s.pair.solo && (!x.solo || lowTwin s)) ∧ _ = if (twinCtxs s).all (resynced s) = true
      then 2 else if (s.pair.solo && (!x.solo || lowTwin s)) = true then 3 else 5
    have htwins (p : Pair) (v a : Nat) : twinCtxs (fset (setPair { fset s F.pairCtlEn 0 0 1 with pair := p } v)
        F.pairStatActive 0 0 a) = twinCtxs s := by
      rw [twinCtxs_fset (by decide), setPair, twinCtxs_fset (by decide)]
      exact twinCtxs_fset (by decide) s 1
    have hen (p : Pair) (v a : Nat) : fget (fset (setPair { fset s F.pairCtlEn 0 0 1 with pair := p } v)
        F.pairStatActive 0 0 a) F.pairCtlEn 0 0 = 1 := by
      rw [fget_fset_ne (by decide), setPair, fget_fset_ne (by decide)]
      exact fget_fset_same ..
    by_cases hv : (s.pair.solo && (!x.solo || lowTwin s)) = true
    · obtain ⟨hs, hx'⟩ := Bool.and_eq_true_iff.1 hv
      obtain ⟨hst, hact, hctl⟩ := settleResync_fields (active := 1)
        (fset (setPair (fset s F.pairCtlEn 0 0 1) 3) F.pairStatActive 0 0 1) (by decide) (fget_fset_same ..)
      refine ⟨_, exec_pairingComplete_serves h1 hx hs hx', hctl.trans (hen s.pair 3 1), hact.trans (by rw [hv]; rfl),
          ?_⟩
      have htw := htwins s.pair 3 1
      rw [hst, show twinCtxs (fset (setPair (fset s F.pairCtlEn 0 0 1) 3) F.pairStatActive 0 0 1) = _ from htw,
          if_pos hv, pairState_fset (by decide), pairState_setPair _ (by decide)]
      rfl
    · have hv' := Bool.eq_false_iff.2 hv
      have hxs : x.solo = true := by
        cases hxs : x.solo
        · simp_all
        · rfl
      obtain ⟨hst, hact, hctl⟩ := settleResync_fields (active := 0)
        (fset (setPair { fset s F.pairCtlEn 0 0 1 with pair := { s.pair with solo := false } } 5) F.pairStatActive 0
            0 0)
        (by decide) (fget_fset_same ..)
      refine ⟨_, exec_pairingComplete_renewed h1 hx hxs hv', hctl.trans (hen _ 5 0), hact.trans (by rw [hv']; rfl), ?_⟩
      rw [hst, htwins _ 5 0, if_neg hv, pairState_fset (by decide), pairState_setPair _ (by decide)]
      rfl

end

section
/-! PROOFS. Scope: what twins and mirrors exchange. -/

open Sys2Proof Sys2Proof.Machine

namespace Sys2Proof.Machine

/-! ### Mirrors (R511, R515) -/

section
variable {s : State} {r : CtxId} (hc : clockRuns s (edgeClock 0) = true)
include hc

/-- Log entry 115 (DEDUCED): an acknowledgement lets the oldest step that waits go on. -/
theorem exec_mirrorStepCommit_acked {st : Step} (h1 : cget s r.val F.ctxRelcfgPair 0 = 1)
    (hw : waitsPair s r.val = some st) (got : Option Commit) : exec (.mirrorStepCommit r true got) s =
      .next (modCtx s r.val fun x =>
        { x with ended := x.ended.map (fun e => if e.id = st.id then { e with pairWait := false } else e)
                 vs := { x.vs with shipping := x.vs.shipping.filter (fun l => l.1 != st.id.toNat) } }) := by
  show execMirrorStepCommit r true got s = _
  unfold execMirrorStepCommit
  rw [onClock_runs hc, h1, hw]
  rfl

/-- A stand-in after a commit: its lines, its step identifier, and the acknowledgement. -/
def commitApplied (s : State) (r : CtxId) (c : Commit) : State :=
  onPorts (cset (c.lines.foldl (fun s l => putText s r.val l.1 l.2.1 l.2.2) s) r.val F.ctxRelmirStepId 0 c.step.toNat)
    pairUp msgCommitted [r.val, c.step.toNat]

theorem exec_mirrorStepCommit_come (h2 : cget s r.val F.ctxRelcfgPair 0 = 2) (hr : registered (ctx s r.val) = true)
    (c : Commit) (acked : Bool) : exec (.mirrorStepCommit r acked (some c)) s = .next (commitApplied s r c) := by
  show execMirrorStepCommit r acked (some c) s = _
  unfold execMirrorStepCommit
  rw [onClock_runs hc, h2]
  exact if_neg (by simp [hr])

end

theorem cget_onPorts (s : State) (ok : State → Nat → Bool) (msg : Nat) (data : List Nat) (r : Nat) (f : Fld) (j : Nat) :
    cget (onPorts s ok msg data) r f j = cget s r f j := by
  obtain ⟨ps, o, h⟩ := onPorts_frame s ok msg data
  rw [h]
  rfl

theorem ctx_onPorts (s : State) (ok : State → Nat → Bool) (msg : Nat) (data : List Nat) (r : Nat) :
    ctx (onPorts s ok msg data) r = ctx s r := by
  obtain ⟨ps, o, h⟩ := onPorts_frame s ok msg data
  rw [h]
  rfl

theorem cget_commitApplied (s : State) (r : CtxId) (c : Commit) :
    cget (commitApplied s r c) r.val F.ctxRelmirStepId 0 = c.step.toNat := by
  rw [commitApplied, cget_onPorts, cget_cset_same]
  exact Nat.mod_eq_of_lt c.step.isLt

theorem vs_commitApplied (s : State) (r : CtxId) (c : Commit) : (ctx (commitApplied s r c) r.val).vs =
    (ctx (c.lines.foldl (fun u l => putText u r.val l.1 l.2.1 l.2.2) s) r.val).vs := by
  rw [commitApplied, ctx_onPorts, vs_cset]

/-! ### Slates of twins (R514) -/

/-- The mismatch of a replayed slate is counted in the fields of its context. -/
theorem fget_noteMismatch_slatemiss (s : State) (r : Nat) (st : Step) :
    fget (noteMismatch s r st) F.pairStatSlatemiss 0 0 = fget s F.pairStatSlatemiss 0 0 := by
  have hcount : fget (ccount s r F.ctxReplayMismatch 0 1) F.pairStatSlatemiss 0 0 = fget s F.pairStatSlatemiss 0 0 :=
    fget_ccount_ne (by decide) s r 1
  unfold noteMismatch
  dsimp only
  split
  · exact (fget_cset_ne (by decide) ..).trans hcount
  · exact hcount

theorem fget_failEnded_slatemiss (s : State) (r : Nat) (id : BitVec 64) (o : Nat) :
    fget (failEnded s r id o) F.pairStatSlatemiss 0 0 = fget s F.pairStatSlatemiss 0 0 :=
  foldl_keeps (fun s => fget s F.pairStatSlatemiss 0 0) (fun s st => fget_noteMismatch_slatemiss s r st) _ _

theorem failEnded_dailies (s : State) (r : Nat) (id : BitVec 64) (o : Nat) :
    (failEnded s r id o).dailies = s.dailies :=
  foldl_keeps State.dailies (fun s st => congrArg Shell.dailies (shell_noteMismatch s r st)) _ _

section
variable {s : State} {r : CtxId} {st : Step} (hw : waitsPair s r.val = some st) (ht : twinCtx s r.val = true)
include hw ht

/-- The step that waited goes on. -/
def slateHeard (s : State) (r : CtxId) (st : Step) : State :=
  modCtx s r.val fun x =>
    { x with ended := x.ended.map fun e => if e.id = st.id then { e with pairWait := false } else e }

theorem exec_twinSlateExchange_equal {slate : BitVec 256} (he : slate = st.slate) :
    exec (.twinSlateExchange r slate) s = .next (slateHeard s r st) := by
  show execTwinSlateExchange r slate s = _
  unfold execTwinSlateExchange
  rw [if_pos ht, hw]
  exact if_pos he.symm

/-- Slates that differ: the step fails, the mismatch is counted twice over, and recorded. -/
def slateMissed (s : State) (r : CtxId) (st : Step) : State :=
  let u := fcount (failEnded (slateHeard s r st) r.val st.id stDigest) F.pairStatSlatemiss 0 0 1
  faultRecord { u with dailies := { u.dailies with slates := u.dailies.slates + 1 } } (6, 0) 0x08 2 [(r.val,
      st.id.toNat)]

theorem exec_twinSlateExchange_differs {slate : BitVec 256} (he : slate ≠ st.slate) :
    exec (.twinSlateExchange r slate) s = .next (slateMissed s r st) := by
  show execTwinSlateExchange r slate s = _
  unfold execTwinSlateExchange
  rw [if_pos ht, hw]
  exact if_neg (Ne.symm he)

end

theorem fget_slateMissed (s : State) (r : CtxId) (st : Step) : fget (slateMissed s r st) F.pairStatSlatemiss 0 0 =
    min (2 ^ F.pairStatSlatemiss.w - 1) (fget s F.pairStatSlatemiss 0 0 + 1) := by
  rw [slateMissed, faultRecord, fget_daily_ne (by decide) (by decide)]
  refine (fget_fcount_same ..).trans ?_
  rw [fget_failEnded_slatemiss]
  rfl

theorem slateMissed_dailies (s : State) (r : CtxId) (st : Step) :
    (slateMissed s r st).dailies.slates = s.dailies.slates + 1 := by
  have hd := failEnded_dailies (slateHeard s r st) r.val st.id stDigest
  rw [slateMissed, faultRecord]
  obtain ⟨rs, m, n, h⟩ := daily_frame _ 1 _
  rw [h]
  exact congrArg (fun d => d.slates + 1) hd

theorem slateMissed_ctxs (s : State) (r : CtxId) (st : Step) :
    (slateMissed s r st).ctxs = (failEnded (slateHeard s r st) r.val st.id stDigest).ctxs := by
  rw [slateMissed, faultRecord]
  obtain ⟨rs, m, n, h⟩ := daily_frame _ 1 _
  rw [h]
  rfl

/-! ### Takeover (R516, R517) -/

theorem exec_heartbeat_paired {s : State} (h : pairState s ≠ 0) :
    exec .heartbeat s = .next (onPorts s pairUp msgHeartbeat []) := congrArg _ (if_neg h)

theorem exec_heartbeat_alone {s : State} (h : pairState s = 0) : exec .heartbeat s = .next s := congrArg _ (if_pos h)

/-- The loss of the partner, counted. -/
def lossCounted (s : State) : State :=
  let u := fcount (fset s F.pairStatLostevt 0 0 1) F.pairStatLosses 0 0 1
  { u with dailies := { u.dailies with losses := u.dailies.losses + 1 } }

/-- The steps of twin contexts under way. -/
def twinSteps (s : State) : List (Nat × Nat) := (openSteps s).filter (fun q => twinCtx s q.1)

section
variable {s : State} (h2 : pairState s = 2)
include h2

theorem exec_partnerLost_passive (hp : passiveTwin s = true) (resign : Bool) : exec (.partnerLost resign) s = .next
    (glbIrq
    (faultRecord (serveAlone (announce (lossCounted s) (ownDev (lossCounted s)) fabricUp)) (6, 0) 9 4 (twinSteps s))
    F.glbIrqstatPair) := by
  show execPartnerLost resign s = _
  unfold execPartnerLost
  dsimp only
  rw [if_neg (by omega), if_neg (by omega), hp]
  rfl

theorem exec_partnerLost_active (hp : passiveTwin s = false) (resign : Bool) : exec (.partnerLost resign) s = .next
    (glbIrq
    (faultRecord (serveAlone (lossCounted s)) (6, 0) 9 0 (twinSteps s)) F.glbIrqstatPair) := by
  show execPartnerLost resign s = _
  unfold execPartnerLost
  dsimp only
  rw [if_neg (by omega), if_neg (by omega), hp]
  rfl

end

theorem exec_partnerLost_unpaired {s : State} (h2 : pairState s ≠ 2) (h5 : pairState s ≠ 5) (resign : Bool) :
    exec (.partnerLost resign) s = .next s := if_pos ⟨h2, h5⟩

/-- Whether an announcement is news to the pair. -/
def newsOfPair (s : State) (m : AliasMsg) : Bool :=
  (pairAliases s).any fun k =>
    fget s F.pairAliasAlias 0 k == m.aliasDev.toNat && decide (fget s F.pairAliasEpoch 0 k < m.epoch.toNat)

section
variable {s : State} {p : PortId} {m : AliasMsg} (hc : clockRuns s (portClock p.val) = true)
include hc

/-- An announcement that names this twin. -/
theorem exec_takeoverAnnounce_named (hu : pairUp s p.val = true) (hm : m.active.toNat = ownDev s)
    (h2 : pairState s = 2) :
    exec (.takeoverAnnounce p m) s = .next (if activeTwin s then serveAlone ((List.range 16).foldl (takeAlias p.val
        m) s)
      else glbIrq (serveAlone ((List.range 16).foldl (takeAlias p.val m) s)) F.glbIrqstatPair) := by
  show execTakeoverAnnounce p m s = _
  unfold execTakeoverAnnounce
  rw [onClock_runs hc]
  exact if_pos ⟨hu, hm, h2⟩

/-- R517: an active twin that hears of its partner as active serves no more. -/
theorem exec_takeoverAnnounce_partner (hm : m.active.toNat ≠ ownDev s) (hn : newsOfPair s m = true)
    (ha : fbit s F.pairStatActive 0 0 = true) (hst : pairState s = 2 ∨ pairState s = 3)
    (hp : m.active.toNat = partner s) : ∃ u, exec (.takeoverAnnounce p m) s =
      .next (fset (fset (setPair u 3) F.pairCtlEn 0 0 0) F.pairStatActive 0 0 0) := by
  have hserving : (fbit s F.pairStatActive 0 0 && (pairState s == 2 || pairState s == 3)) = true := by
    obtain hst | hst := hst <;> simp [ha, hst]
  show ∃ u, execTakeoverAnnounce p m s = _
  unfold execTakeoverAnnounce
  rw [onClock_runs hc]
  exact ⟨_, (if_neg fun ⟨_, h, _⟩ => hm h).trans (if_pos ⟨hn, hserving, hp⟩)⟩

theorem exec_takeoverAnnounce_other (hm : m.active.toNat ≠ ownDev s) (hn : newsOfPair s m = false) :
    exec (.takeoverAnnounce p m) s = .next ((List.range 16).foldl (takeAlias p.val m) s) := by
  show execTakeoverAnnounce p m s = _
  unfold execTakeoverAnnounce
  rw [onClock_runs hc]
  exact (if_neg fun ⟨_, h, _⟩ => hm h).trans (if_neg fun ⟨h, _⟩ => ne_true_of_eq_false hn h)

end

/-! ### Renewal (R518) -/

section
variable {s : State} {r : CtxId} (hc : clockRuns s (edgeClock 0) = true) (ht : twinCtx s r.val = true)
  (hs : (ctx s r.val).step = none) (hd : s.pair.synced.contains r = false)
include hc ht hs hd

omit hc in
theorem resync_due : ¬(!twinCtx s r.val ∨ (ctx s r.val).step.isSome ∨ s.pair.synced.contains r) := by
  rw [ht, hs, hd]
  decide

theorem exec_resync_renewed (h5 : pairState s = 5) (got : List PageCopy) :
    exec (.resync r got) s = .next (synced (got.foldl (takeCopy r.val) s) r 0) := by
  show execResync r got s = _
  unfold execResync
  rw [onClock_runs hc, if_neg (resync_due ht hs hd), if_pos h5]

theorem exec_resync_serving (h3 : pairState s = 3) (hsolo : s.pair.solo = true) (got : List PageCopy) :
    exec (.resync r got) s = .next (synced (((ctx s r.val).vs.pages.map (·.1)).foldl
      (fun t pg => onPorts t pairUp msgResync (copyNats s r.val pg)) s) r 1) := by
  show execResync r got s = _
  unfold execResync
  rw [onClock_runs hc, if_neg (resync_due ht hs hd), if_neg (by omega), if_pos ⟨h3, hsolo⟩]

end

end Sys2Proof.Machine

/-- Settles O51: mirrors, slates, the loss and the announcements of the partner, and the pages of a renewal. -/
theorem twinsExchangeAndTakeOver : Obligations.TwinsExchangeAndTakeOver := by
  refine ⟨fun s r st => ⟨fun hw => ⟨fun got hc h1 => exec_mirrorStepCommit_acked hc h1 hw got, fun slate ht => ?slates⟩,
    fun c acked hc h2 hr => ⟨_, exec_mirrorStepCommit_come hc h2 hr c acked, cget_commitApplied s r c,
      vs_commitApplied s r c⟩, exec_heartbeat_paired, exec_heartbeat_alone, fun id => rfl⟩,
    fun s p m r got resign => ⟨fun h2 => ?lost, fun h2 h5 => exec_partnerLost_unpaired h2 h5 resign, fun hc => ?news,
      fun hc ht hs hd => ⟨fun h5 => exec_resync_renewed hc ht hs hd h5 got,
        fun h3 hsolo => exec_resync_serving hc ht hs hd h3 hsolo got⟩⟩⟩
  case slates =>
    exact ⟨exec_twinSlateExchange_equal hw ht, fun he => ⟨_, exec_twinSlateExchange_differs hw ht he,
      fget_slateMissed s r st, slateMissed_dailies s r st, slateMissed_ctxs s r st⟩⟩
  case lost =>
    exact ⟨fun hp => exec_partnerLost_passive h2 hp resign, fun hp => exec_partnerLost_active h2 hp resign⟩
  case news =>
    refine ⟨fun hu hm h2 ha => ?_, fun hu hm h2 ha => ?_, fun hm hn ha hst hp => ?_, exec_takeoverAnnounce_other hc⟩
    · rw [exec_takeoverAnnounce_named hc hu hm h2, if_pos ha]
    · rw [exec_takeoverAnnounce_named hc hu hm h2, if_neg (by simp [ha])]
    · obtain ⟨u, hu⟩ := exec_takeoverAnnounce_partner hc hm hn ha hst hp
      refine ⟨_, hu, ?_, ?_⟩
      · rw [pairState, fget_fset_ne (by decide), fget_fset_ne (by decide), setPair, fget_fset_same]
        rfl
      · rw [fget_fset_same]
        rfl

end

section
/-! PROOFS. Scope: the switch of a reel, and weight streams. -/

open Sys2Proof Sys2Proof.Machine

namespace Sys2Proof.Machine

/-! ### The pages of a switch (R485) -/

/-- What the exchange of a context's pages leaves: the registers, and of the context all but its address space. -/
def PagesOnly (r : Nat) (s t : State) : Prop := t.regs = s.regs ∧ ∃ v, ctx t r = { ctx s r with vs := v }

theorem PagesOnly.refl (r : Nat) (s : State) : PagesOnly r s s := ⟨rfl, _, rfl⟩

theorem PagesOnly.trans {r : Nat} {s t u : State} (h : PagesOnly r s t) (h' : PagesOnly r t u) : PagesOnly r s u := by
  obtain ⟨hr, v, hv⟩ := h
  obtain ⟨hr', v', hv'⟩ := h'
  exact ⟨hr'.trans hr, v', by rw [hv', hv]⟩

theorem PagesOnly.cget {r : Nat} {s t : State} (h : PagesOnly r s t) (f : Fld) (j : Nat) :
    cget t r f j = Machine.cget s r f j := by
  obtain ⟨hr, v, hv⟩ := h
  exact cget_congr hr (by rw [hv]) (by rw [hv]) f j

theorem releaseFrame_frame (s : State) (p : Page) : ∃ fr, releaseFrame s p = { s with frames := fr } := by
  unfold releaseFrame
  dsimp only
  split <;> split_ifs <;> exact ⟨_, rfl⟩

theorem pagesOnly_unmapPage (s : State) (r pg : Nat) : PagesOnly r s (unmapPage s r pg) := by
  unfold unmapPage
  split
  next => exact .refl r s
  next p _ =>
    obtain ⟨fr, h⟩ := releaseFrame_frame s p
    rw [h]
    exact ⟨rfl, _, ctx_modCtx_same ..⟩

/-- A page moved from its staging page's number. -/
def stagedPlaced (off pg : Nat) (p : Page) (x : Ctx) : Ctx :=
  { x with vs := { movePageData x.vs (pg + off) pg with pages := tset (tdel x.vs.pages (pg + off)) pg p } }

theorem addTable_regs (s : State) (r pg : Nat) : (addTable s r pg).regs = s.regs := by
  unfold addTable
  dsimp only
  split <;> rfl

theorem switchPage_staged {s : State} {r off pg : Nat} {p : Page}
    (h : tfind (ctx (unmapPage s r pg) r).vs.pages (pg + off) = some p) :
    ∃ u, u.regs = (unmapPage s r pg).regs ∧ u.ctxs = (unmapPage s r pg).ctxs ∧
      switchPage r off s pg = modCtx u r (stagedPlaced off pg p) := by
  unfold switchPage
  dsimp only
  rw [h]
  refine ⟨_, ?_, ?_, rfl⟩
  · rw [addTable_regs]
    split <;> rfl
  · rw [addTable_ctxs]
    split <;> rfl

theorem switchPage_unstaged {s : State} {r off pg : Nat}
    (h : tfind (ctx (unmapPage s r pg) r).vs.pages (pg + off) = none) : switchPage r off s pg = unmapPage s r pg := by
  unfold switchPage
  dsimp only
  rw [h]

theorem pagesOnly_switchPage (s : State) (r off pg : Nat) : PagesOnly r s (switchPage r off s pg) := by
  refine (pagesOnly_unmapPage s r pg).trans ?_
  cases h : tfind (ctx (unmapPage s r pg) r).vs.pages (pg + off) with
  | none =>
    rw [switchPage_unstaged h]
    exact .refl ..
  | some p =>
    obtain ⟨u, hr, hc, he⟩ := switchPage_staged h
    have hu : ctx u r = ctx (unmapPage s r pg) r := congrArg (tget · r ctxInit) hc
    rw [he]
    exact ⟨hr, _, by rw [ctx_modCtx_same, hu]; rfl⟩

theorem pagesOnly_switchPages (r off : Nat) (pgs : List Nat) (s : State) :
    PagesOnly r s (pgs.foldl (switchPage r off) s) := by
  induction pgs generalizing s with
  | nil => exact .refl r s
  | cons pg pgs ih => exact (pagesOnly_switchPage s r off pg).trans (ih _)

theorem pages_unmapPage (s : State) (r pg x : Nat) : tfind (ctx (unmapPage s r pg) r).vs.pages x =
    if x = pg then none else tfind (ctx s r).vs.pages x := by
  unfold unmapPage
  split
  next h =>
    split
    next hx => rw [hx, h]
    next => rfl
  next p h =>
    obtain ⟨fr, hfr⟩ := releaseFrame_frame s p
    rw [hfr, ctx_modCtx_same]
    split
    next hx => rw [hx]; exact tfind_tdel_same ..
    next hx => exact tfind_tdel_ne _ (Ne.symm hx)

/-- A page takes the place of its staging page, which is there no more. -/
theorem pages_switchPage {off : Nat} (ho : off ≠ 0) (s : State) (r pg x : Nat) :
    tfind (ctx (switchPage r off s pg) r).vs.pages x =
      if x = pg then tfind (ctx s r).vs.pages (pg + off)
      else if x = pg + off then none else tfind (ctx s r).vs.pages x := by
  have hu := pages_unmapPage s r pg
  have hstage : tfind (ctx (unmapPage s r pg) r).vs.pages (pg + off) = tfind (ctx s r).vs.pages (pg + off) := by
    rw [hu, if_neg (by omega)]
  cases h : tfind (ctx s r).vs.pages (pg + off) with
  | none =>
    rw [switchPage_unstaged (hstage.trans h), hu]
    split_ifs with h1 h2
    · rfl
    · rw [h2, h]
    · rfl
  | some p =>
    obtain ⟨u, -, hc, he⟩ := switchPage_staged (hstage.trans h)
    have hctx : ctx u r = ctx (unmapPage s r pg) r := congrArg (tget · r ctxInit) hc
    rw [he, ctx_modCtx_same, hctx]
    show tfind (tset (tdel (ctx (unmapPage s r pg) r).vs.pages (pg + off)) pg p) x = _
    split_ifs with h1 h2
    · rw [h1, tfind_tset_same]
    · rw [tfind_tset_ne _ _ (Ne.symm h1), h2, tfind_tdel_same]
    · rw [tfind_tset_ne _ _ (Ne.symm h1), tfind_tdel_ne _ (Ne.symm h2), hu, if_neg h1]

/-- Pages that the exchange of others does not touch. -/
theorem pages_switchPages_other {off : Nat} (ho : off ≠ 0) {r x : Nat} {pgs : List Nat} (s : State)
    (h : ∀ pg ∈ pgs, x ≠ pg ∧ x ≠ pg + off) :
    tfind (ctx (pgs.foldl (switchPage r off) s) r).vs.pages x = tfind (ctx s r).vs.pages x := by
  induction pgs generalizing s with
  | nil => rfl
  | cons pg pgs ih =>
    obtain ⟨⟨h1, h2⟩, hr⟩ := List.forall_mem_cons.1 h
    rw [List.foldl_cons, ih _ hr, pages_switchPage ho, if_neg h1, if_neg h2]

/-- R485: each page of the ranges takes its staging page's content. -/
theorem pages_switchPages {off : Nat} (ho : off ≠ 0) {r : Nat} {pgs : List Nat} (hn : pgs.Nodup)
    (hd : ∀ pg ∈ pgs, pg + off ∉ pgs) (s : State) {pg : Nat} (hp : pg ∈ pgs) :
    tfind (ctx (pgs.foldl (switchPage r off) s) r).vs.pages pg = tfind (ctx s r).vs.pages (pg + off) ∧
      tfind (ctx (pgs.foldl (switchPage r off) s) r).vs.pages (pg + off) = none := by
  induction pgs generalizing s with
  | nil => cases hp
  | cons q pgs ih =>
    obtain ⟨hq, hn⟩ := List.nodup_cons.1 hn
    have hqo : q + off ∉ pgs := fun h => hd q List.mem_cons_self (List.mem_cons_of_mem _ h)
    have hd' : ∀ pg ∈ pgs, pg + off ∉ pgs := fun pg h h' => hd pg (List.mem_cons_of_mem _ h) (List.mem_cons_of_mem _ h')
    have hoq : ∀ pg ∈ pgs, pg + off ≠ q := fun pg h h' => hd pg (List.mem_cons_of_mem _ h) (h' ▸ List.mem_cons_self)
    rw [List.foldl_cons]
    obtain rfl | hp := List.mem_cons.1 hp
    · have hne : ∀ x ∈ pgs, pg ≠ x := fun x hx h => hq (h ▸ hx)
      rw [pages_switchPages_other (x := pg) ho _ fun x hx => ⟨hne x hx, fun h => hoq x hx h.symm⟩,
        pages_switchPages_other (x := pg + off) ho _ fun x hx => ⟨fun h => hqo (h ▸ hx), fun h => hne x hx (by omega)⟩,
        pages_switchPage ho, if_pos rfl, pages_switchPage ho, if_neg (by omega), if_pos rfl]
      exact ⟨rfl, rfl⟩
    · have hqp : pg ≠ q := fun h => hq (h ▸ hp)
      obtain ⟨h1, h2⟩ := ih hn hd' (switchPage r off s q) hp
      rw [h1, h2, pages_switchPage ho, if_neg (hoq pg hp), if_neg (by omega)]
      exact ⟨rfl, rfl⟩

/-! ### The switch -/

section
variable {s : State} {r : CtxId} {l : ReelLoad} (hc : clockRuns s (edgeClock 0) = true) (hl :
    (ctx s r.val).reel = some l)
include hc hl

theorem exec_reelSwitch_waits (h : switchReady s r.val l = false) : exec (.reelSwitch r) s = .next s := by
  show execReelSwitch r s = _
  unfold execReelSwitch
  rw [onClock_runs hc, hl]
  exact if_pos (by simp [h])

/-- The pages of the shards. -/
def reelPages (l : ReelLoad) : List Nat := (l.shards.map shardPages).flatten

/-- The pages exchanged, and the generations. -/
def generationsSwitched (s : State) (r : Nat) (l : ReelLoad) : State :=
  cset (cset (cset ((reelPages l).foldl (switchPage r (stagePages s r)) s) r F.ctxReelgenActgen 0 l.gen.toNat)
    r F.ctxReelgenStggen 0 0) r F.ctxReelctlCommit 0 0

/-- The load of a switched context: over, or still streaming. -/
def loadSwitched (full : Bool) (l : ReelLoad) (x : Ctx) : Ctx :=
  { x with actDigest := l.digest, reel := if full then none else some l, served := if full then some l else none }

/-- The state after a switch. -/
def reelSwitched (s : State) (r : Nat) (l : ReelLoad) : State :=
  let full := cget s r F.ctxReelstatState 0 == 2
  let t := modCtx (generationsSwitched s r l) r (loadSwitched full l)
  if full then cset t r F.ctxReelstatState 0 0 else t

theorem exec_reelSwitch_due (h : switchReady s r.val l = true) :
    exec (.reelSwitch r) s = .next (reelSwitched s r.val l) := by
  show execReelSwitch r s = _
  unfold execReelSwitch
  rw [onClock_runs hc, hl]
  exact if_neg (by simp [h])

end

section
variable (s : State) (r : Nat) (l : ReelLoad)

theorem vs_generationsSwitched : (ctx (generationsSwitched s r l) r).vs =
    (ctx ((reelPages l).foldl (switchPage r (stagePages s r)) s) r).vs := by
  rw [generationsSwitched, vs_cset, vs_cset, vs_cset]

theorem cget_generationsSwitched :
    cget (generationsSwitched s r l) r F.ctxReelgenActgen 0 = l.gen.toNat ∧
      cget (generationsSwitched s r l) r F.ctxReelgenStggen 0 = 0 ∧
      cget (generationsSwitched s r l) r F.ctxReelctlCommit 0 = 0 ∧
      cget (generationsSwitched s r l) r F.ctxReelstatState 0 = cget s r F.ctxReelstatState 0 := by
  refine ⟨?_, ?_, ?_, ?_⟩
  · rw [generationsSwitched, cget_cset_ne (by decide), cget_cset_ne (by decide), cget_cset_same]
    exact Nat.mod_eq_of_lt l.gen.isLt
  · rw [generationsSwitched, cget_cset_ne (by decide), cget_cset_same]
    rfl
  · rw [generationsSwitched, cget_cset_same]
    rfl
  · rw [generationsSwitched, cget_cset_ne (by decide), cget_cset_ne (by decide), cget_cset_ne (by decide)]
    exact (pagesOnly_switchPages r (stagePages s r) (reelPages l) s).cget _ _

theorem cget_loadSwitched (full : Bool) (t : State) (f : Fld) :
    cget (modCtx t r (loadSwitched full l)) r f 0 = cget t r f 0 :=
  cget_modCtx (f := loadSwitched full l) (fun _ => rfl) (fun _ => rfl) t f 0

/-- A field that the end of a full load does not clear. -/
theorem cget_reelSwitched {f : Fld} (hf : ∀ sl : Fin 8, F.ctxReelstatState.key sl.val 0 ≠ f.key sl.val 0) :
    cget (reelSwitched s r l) r f 0 = cget (generationsSwitched s r l) r f 0 := by
  unfold reelSwitched
  dsimp only
  split
  · rw [cget_cset_ne hf, cget_loadSwitched]
  · rw [cget_loadSwitched]

theorem ctx_reelSwitched : (ctx (reelSwitched s r l) r).actDigest = l.digest ∧
    (ctx (reelSwitched s r l) r).vs = (ctx (generationsSwitched s r l) r).vs ∧
    (ctx (reelSwitched s r l) r).reel = if cget s r F.ctxReelstatState 0 == 2 then none else some l := by
  have hsame (full : Bool) (t : State) : ctx (modCtx t r (loadSwitched full l)) r = loadSwitched full l (ctx t r) :=
    ctx_modCtx_same ..
  unfold reelSwitched
  dsimp only
  split
  next hfull =>
    rw [actDigest_cset, vs_cset, reel_cset, hsame, hfull]
    exact ⟨rfl, rfl, rfl⟩
  next hfull =>
    rw [hsame, Bool.eq_false_iff.2 hfull]
    exact ⟨rfl, rfl, rfl⟩

theorem state_reelSwitched_full (h : cget s r F.ctxReelstatState 0 = 2) :
    cget (reelSwitched s r l) r F.ctxReelstatState 0 = 0 := by
  unfold reelSwitched
  dsimp only
  rw [if_pos (by simp [h]), cget_cset_same]
  rfl

theorem state_reelSwitched_streaming (h : cget s r F.ctxReelstatState 0 = 1) :
    cget (reelSwitched s r l) r F.ctxReelstatState 0 = 1 := by
  obtain ⟨-, -, -, hstate⟩ := cget_generationsSwitched s r l
  unfold reelSwitched
  dsimp only
  rw [if_neg (by simp [h]), cget_loadSwitched, hstate, h]

end

/-! ### Weight streams (R488) -/

section
variable {s : State} {r : Nat} {l : ReelLoad}

/-- The units of the layer that a line reads, as the load has them. -/
def lineUnits (s : State) (r : Nat) (l : ReelLoad) (k : Nat) : BitVec 32 :=
  BitVec.ofNat 32 (streamUnits l (l.shards.filter fun h => h.layer == cget s r F.ctxReelstrmLayer k))

/-- The total of one line. -/
def putLine (r : Nat) (l : ReelLoad) (s : State) (k : Nat) : State :=
  if cget s r F.ctxReelstrmEn k = 1 then
    { s with fab := { s.fab with lineTot := tset s.fab.lineTot k (lineUnits s r l k) } }
  else s

theorem putLines_eq (hl : (ctx s r).reel = some l) : putLines s r = (List.range 4).foldl (putLine r l) s := by
  unfold putLines
  rw [hl]
  rfl

theorem putLine_frame (s : State) (r : Nat) (l : ReelLoad) (k : Nat) :
    ∃ ts, putLine r l s k = { s with fab := { s.fab with lineTot := ts } } := by
  unfold putLine
  split <;> exact ⟨_, rfl⟩

theorem putLines_frame (s : State) (r : Nat) : ∃ ts, putLines s r = { s with fab := { s.fab with lineTot := ts } } := by
  cases hl : (ctx s r).reel with
  | none =>
    refine ⟨s.fab.lineTot, ?_⟩
    unfold putLines
    rw [hl]
  | some l =>
    rw [putLines_eq hl]
    generalize List.range 4 = ks
    induction ks generalizing s with
    | nil => exact ⟨_, rfl⟩
    | cons k ks ih =>
      obtain ⟨ts, h⟩ := putLine_frame s r l k
      rw [List.foldl_cons, h]
      obtain ⟨ts', h'⟩ := ih { s with fab := { s.fab with lineTot := ts } } hl
      exact ⟨ts', h'⟩

/-- A line that is bound has the units of its layer as its total once its turn has come. -/
theorem lineTot_putLine_fold {k : Nat} (ks : List Nat) (he : cget s r F.ctxReelstrmEn k = 1)
    (h : k ∈ ks ∨ tget s.fab.lineTot k 1 = lineUnits s r l k) :
    tget (ks.foldl (putLine r l) s).fab.lineTot k 1 = lineUnits s r l k := by
  induction ks generalizing s with
  | nil => exact h.resolve_left List.not_mem_nil
  | cons j ks ih =>
    obtain ⟨ts, hf⟩ := putLine_frame s r l j
    have hcget (f : Fld) : cget (putLine r l s j) r f k = cget s r f k := by rw [hf]; rfl
    have hunits : lineUnits (putLine r l s j) r l k = lineUnits s r l k := by rw [lineUnits, hcget]; rfl
    rw [List.foldl_cons, ← hunits]
    refine ih ((hcget _).trans he) ?_
    rw [hunits]
    by_cases hj : j = k
    · subst hj
      refine .inr ?_
      rw [putLine, if_pos he]
      exact tget_tset_same ..
    · refine (h.imp (fun hm => (List.mem_cons.1 hm).resolve_left (Ne.symm hj)) fun ht => ?_)
      unfold putLine
      split
      · exact (tget_tset_ne _ _ _ hj).trans ht
      · exact ht

theorem lineTot_putLines {k : Nat} (hl : (ctx s r).reel = some l) (hk : k < 4) (he : cget s r F.ctxReelstrmEn k = 1) :
    tget (putLines s r).fab.lineTot k 1 = lineUnits s r l k := by
  rw [putLines_eq hl]
  exact lineTot_putLine_fold _ he (.inl (List.mem_range.2 hk))

end

section
variable {s : State} {sl : SlotId} {k : Fin 4} {w : RegWrite} (ho : writeOpen s false = true)
include ho

theorem exec_reelStreamBind_end (he : wbit w F.ctxReelstrmEn = false) : exec (.reelStreamBind sl k w) s =
    .next (writeFields s w [F.ctxReelstrmLayer, F.ctxReelstrmEn] sl.val k.val) := by
  show execReelStreamBind sl k w s = _
  rw [execReelStreamBind, onBar_open ho, if_neg (by simp [he])]
  exact if_pos (by simp [he])

theorem exec_reelStreamBind_held (he : wbit w F.ctxReelstrmEn = true) (hh : lineHeld s sl.val k.val = true) :
    exec (.reelStreamBind sl k w) s = .next s := by
  show execReelStreamBind sl k w s = _
  rw [execReelStreamBind, onBar_open ho, if_pos (by simp [he, hh])]

omit ho in
/-- The line's fields taken, its total at 0. -/
def lineBound (s : State) (sl : SlotId) (k : Fin 4) (w : RegWrite) : State :=
  let u := writeFields s w [F.ctxReelstrmLayer, F.ctxReelstrmEn] sl.val k.val
  { u with fab := { u.fab with lineTot := tset u.fab.lineTot k.val 0 } }

omit ho in
theorem slotCtx_lineBound : slotCtx (lineBound s sl k w) sl.val = slotCtx s sl.val := by
  have hc : (lineBound s sl k w).ctxs = s.ctxs := writeFields_ctxs ..
  simp only [slotCtx, hc]

theorem exec_reelStreamBind_free (he : wbit w F.ctxReelstrmEn = true) (hh : lineHeld s sl.val k.val = false)
    (hs : slotCtx s sl.val = none) : exec (.reelStreamBind sl k w) s = .next (lineBound s sl k w) := by
  rw [← slotCtx_lineBound (k := k) (w := w)] at hs
  show execReelStreamBind sl k w s = _
  rw [execReelStreamBind, onBar_open ho, if_neg (by simp [hh])]
  dsimp only
  rw [if_neg (by simp [he])]
  unfold lineBound at hs ⊢
  dsimp only at hs ⊢
  rw [hs]

theorem exec_reelStreamBind_used (he : wbit w F.ctxReelstrmEn = true) (hh : lineHeld s sl.val k.val = false) {r : Nat}
    (hs : slotCtx s sl.val = some r) :
    exec (.reelStreamBind sl k w) s = .next (putLines (lineBound s sl k w) r) := by
  rw [← slotCtx_lineBound (k := k) (w := w)] at hs
  show execReelStreamBind sl k w s = _
  rw [execReelStreamBind, onBar_open ho, if_neg (by simp [hh])]
  dsimp only
  rw [if_neg (by simp [he])]
  unfold lineBound at hs ⊢
  dsimp only at hs ⊢
  rw [hs]

end

section
variable (s : State) (sl : SlotId) (k : Fin 4) {w : RegWrite}

theorem strmKeys_ne : F.ctxReelstrmEn.key sl.val k.val ≠ F.ctxReelstrmLayer.key sl.val k.val := by
  revert sl k
  decide

theorem en_lineBound (he : wbit w F.ctxReelstrmEn = true) : fget
    (lineBound s sl k w) F.ctxReelstrmEn sl.val k.val = 1 := by
  obtain ⟨hc, hv⟩ := Bool.and_eq_true_iff.1 he
  show fget (writeField w sl.val k.val (writeField w sl.val k.val s F.ctxReelstrmLayer) F.ctxReelstrmEn) _ _ _ = 1
  rw [writeField_taken hc (by rfl), fget_fset_same, beq_iff_eq.1 hv]
  rfl

theorem layer_lineBound (he : wbit w F.ctxReelstrmEn = true) (hl : covered w.half F.ctxReelstrmLayer = true) :
    fget (lineBound s sl k w) F.ctxReelstrmLayer sl.val k.val = wval w F.ctxReelstrmLayer := by
  obtain ⟨hc, -⟩ := Bool.and_eq_true_iff.1 he
  show fget (writeField w sl.val k.val (writeField w sl.val k.val s F.ctxReelstrmLayer) F.ctxReelstrmEn) _ _ _ = _
  rw [writeField_taken hc (by rfl), fget_fset_ne (strmKeys_ne sl k), writeField_taken hl (by rfl), fget_fset_same,
    Nat.mod_eq_of_lt (wval_lt w _)]

theorem ctx_lineBound (r : Nat) : ctx (lineBound s sl k w) r = ctx s r :=
  congrArg (tget · r ctxInit) (writeFields_ctxs s w [F.ctxReelstrmLayer, F.ctxReelstrmEn] sl.val k.val)

end

end Sys2Proof.Machine

/-- Settles O46: the exchange of the pages, the generations, and a line's fields and total. -/
theorem reelSwitchesAndStreams : Obligations.ReelSwitchesAndStreams := by
  refine ⟨fun s r l hc hl => ⟨exec_reelSwitch_waits hc hl, fun hw hstep hfl hst => ?switch⟩,
    fun s sl k w ho => ⟨exec_reelStreamBind_end ho, exec_reelStreamBind_held ho, fun he hh => ?bind⟩⟩
  case switch =>
    intro off pgs hmove
    have hready : switchReady s r.val l = true := by
      have hstate : (cget s r.val F.ctxReelstatState 0 == 2 ||
          (cget s r.val F.ctxReelstatState 0 == 1 && cget s r.val F.ctxReelcfgStream 0 == 1)) = true := by
        obtain h | ⟨h, h'⟩ := hst
        · simp [h]
        · simp [h, h']
      unfold switchReady reelMaySwitch
      dsimp only
      rw [hw, hstep, hfl, hstate]
      refine List.all_eq_true.2 fun pg hpg => ?_
      cases hg : tfind (ctx s r.val).vs.pages pg with
      | none => rfl
      | some g => exact Option.isNone_iff_eq_none.2 (hmove pg hpg g hg)
    obtain ⟨hact, hstg, hcommit, -⟩ := cget_generationsSwitched s r.val l
    obtain ⟨hdigest, hvs, hreel⟩ := ctx_reelSwitched s r.val l
    refine ⟨_, exec_reelSwitch_due hc hl hready, fun hn hd pg hp => ?_, ?_, ?_, ?_, hdigest,
      fun h2 => ⟨state_reelSwitched_full s r.val l h2, ?_⟩, state_reelSwitched_streaming s r.val l⟩
    · have hoff : off ≠ 0 := fun h0 => hd pg hp (by rwa [h0])
      rw [hvs, vs_generationsSwitched]
      exact pages_switchPages hoff hn hd s hp
    · rw [cget_reelSwitched s r.val l (by decide), hact]
    · rw [cget_reelSwitched s r.val l (by decide), hstg]
    · rw [cget_reelSwitched s r.val l (by decide), hcommit]
    · rw [hreel, h2]
      rfl
  case bind =>
    have hzero : tget (lineBound s sl k w).fab.lineTot k.val 1 = 0 := tget_tset_same ..
    cases hs : slotCtx s sl.val with
    | none =>
      exact ⟨_, exec_reelStreamBind_free ho he hh hs, en_lineBound s sl k he, layer_lineBound s sl k he,
        fun _ => hzero, fun r l h => by cases h⟩
    | some q =>
      obtain ⟨ts, hf⟩ := putLines_frame (lineBound s sl k w) q
      have hregs (f : Fld) (i j : Nat) : fget (putLines (lineBound s sl k w) q) f i j =
          fget (lineBound s sl k w) f i j := by
        rw [hf]
        rfl
      refine ⟨_, exec_reelStreamBind_used ho he hh hs, (hregs ..).trans (en_lineBound s sl k he),
        fun hl => (hregs ..).trans (layer_lineBound s sl k he hl), fun hn => ?_, fun r l hr hslot hl => ?_⟩
      · have hnone : (ctx (lineBound s sl k w) q).reel = none := by rw [ctx_lineBound, hn q rfl]
        unfold putLines
        rw [hnone]
        exact hzero
      · cases hr
        have hslot' : (ctx (lineBound s sl k w) q).slot = some sl := by rw [ctx_lineBound, hslot]
        have hc (f : Fld) : cget (lineBound s sl k w) q f k.val = fget (lineBound s sl k w) f sl.val k.val :=
          cget_of_slot hslot' f k.val
        rw [lineTot_putLines (l := l) (by rw [ctx_lineBound, hl]) k.isLt ((hc _).trans (en_lineBound s sl k he)),
          lineUnits, hc, hregs]

end

section
/-! PROOFS. Scope: the load of a reel. -/

open Sys2Proof Sys2Proof.Machine

namespace Sys2Proof.Machine

/-! ### A write of `CTX_REELCTL` (R479, R484, R490) -/

/-- The fields of `CTX_REELCTL` that are taken as written. -/
def reelWritten (s : State) (sl : SlotId) (w : RegWrite) : State :=
  writeFields s w [F.ctxReelctlCommit, F.ctxReelctlIrq] sl.val 0

theorem ctx_reelWritten (s : State) (sl : SlotId) (w : RegWrite) (r : Nat) : ctx (reelWritten s sl w) r = ctx s r :=
  congrArg (tget · r ctxInit) (writeFields_ctxs s w [F.ctxReelctlCommit, F.ctxReelctlIrq] sl.val 0)

theorem slotCtx_reelWritten (s : State) (sl : SlotId) (w : RegWrite) :
    slotCtx (reelWritten s sl w) sl.val = slotCtx s sl.val := by
  have hc : (reelWritten s sl w).ctxs = s.ctxs := writeFields_ctxs ..
  simp only [slotCtx, hc]

/-- The fields of the slot beside the two. -/
theorem fget_reelWritten {g : Fld} {sl : SlotId} (hs : g.s1 = 0x10000)
    (hcommit : g.off * 64 + g.lo ≠ 0x10C420 * 64 + 1) (hirq : g.off * 64 + g.lo ≠ 0x10C420 * 64 + 3)
    (hr : F.glbErrRange.key 0 0 ≠ g.key sl.val 0) (s : State) (w : RegWrite) :
    fget (reelWritten s sl w) g sl.val 0 = fget s g sl.val 0 :=
  (fget_writeField_sibling (f := F.ctxReelctlIrq) hs.symm hirq.symm hr w _).trans
    (fget_writeField_sibling (f := F.ctxReelctlCommit) hs.symm hcommit.symm hr w s)

theorem state_reelWritten (s : State) (sl : SlotId) (w : RegWrite) :
    fget (reelWritten s sl w) F.ctxReelstatState sl.val 0 = fget s F.ctxReelstatState sl.val 0 :=
  fget_reelWritten rfl (by decide) (by decide) (by revert sl; decide) s w

theorem stageoff_reelWritten (s : State) (sl : SlotId) (w : RegWrite) :
    fget (reelWritten s sl w) F.ctxReelcfgStageoff sl.val 0 = fget s F.ctxReelcfgStageoff sl.val 0 :=
  fget_reelWritten rfl (by decide) (by decide) (by revert sl; decide) s w

theorem commit_reelWritten {w : RegWrite} (h : covered w.half F.ctxReelctlCommit = true) (s : State) (sl : SlotId) :
    fget (reelWritten s sl w) F.ctxReelctlCommit sl.val 0 = wval w F.ctxReelctlCommit := by
  have hirq := fget_writeField_sibling (f := F.ctxReelctlIrq) (g := F.ctxReelctlCommit) (i := sl.val) rfl (by decide)
    (by revert sl; decide) w (writeField w sl.val 0 s F.ctxReelctlCommit)
  refine hirq.trans ?_
  rw [writeField_taken h (by rfl), fget_fset_same, Nat.mod_eq_of_lt (wval_lt w _)]

section
variable {s : State} {sl : SlotId} {w : RegWrite} {r : Nat} (ho : writeOpen s false = true)
  (hs : slotCtx s sl.val = some r)
include ho hs

omit ho in
theorem reelCtl_of_slot (m : Option Bytes) : reelCtl s sl.val w m =
    let t := if wbit w F.ctxReelctlAbort then reelFail (reelWritten s sl w) r 7 else reelWritten s sl w
    if wbit w F.ctxReelctlGo then reelGoLoad t r m else t := by
  rw [← slotCtx_reelWritten s sl w] at hs
  unfold reelCtl
  unfold reelWritten at hs ⊢
  dsimp only
  rw [hs]

theorem exec_reelLoad_go (hg : wbit w F.ctxReelctlGo = true) (ha : wbit w F.ctxReelctlAbort = false)
    (m : Option Bytes) : exec (.reelLoad sl w m) s = .next (reelGoLoad (reelWritten s sl w) r m) := by
  show execReelLoad sl w m s = _
  rw [execReelLoad, onBar_open ho, reelCtl_of_slot hs, hg, ha]
  rfl

theorem exec_abort_alone (hg : wbit w F.ctxReelctlGo = false) (ha : wbit w F.ctxReelctlAbort = true) :
    exec (.abort sl w) s = .next (reelFail (reelWritten s sl w) r 7) := by
  show execAbort sl w s = _
  rw [execAbort, onBar_open ho, reelCtl_of_slot hs, hg, ha]
  rfl

theorem exec_commit_alone (hg : wbit w F.ctxReelctlGo = false) (ha : wbit w F.ctxReelctlAbort = false) :
    exec (.commit sl w) s = .next (reelWritten s sl w) := by
  show execCommit sl w s = _
  rw [execCommit, onBar_open ho, reelCtl_of_slot hs, hg, ha]
  rfl

end

/-! ### `GO` -/

section
variable {s : State} {r : Nat} {m : Option Bytes}

theorem reelGoLoad_busy (h : cget s r F.ctxReelstatState 0 ≠ 0) : reelGoLoad s r m = reelRefuse s r 3 := if_pos h

theorem reelGoLoad_refused {code : Nat} (h : cget s r F.ctxReelstatState 0 = 0) (hc : reelCheck s r m = .error code) :
    reelGoLoad s r m = reelRefuse s r code := by
  unfold reelGoLoad
  rw [if_neg (not_not.2 h), hc]

/-- A load that has begun: its generation staged, `STATE` LOADING. -/
def reelBegun (s : State) (r : Nat) (l : ReelLoad) : State :=
  cset (cset (cset (modCtx (wake s []) r fun x => { x with reel := some l }) r F.ctxReelgenStggen 0 l.gen.toNat)
    r F.ctxReelstatState 0 1) r F.ctxReelstatResult 0 0

theorem reelGoLoad_begun {l : ReelLoad} (h : cget s r F.ctxReelstatState 0 = 0) (hc : reelCheck s r m = .ok l)
    (hl : l.shards ≠ []) : reelGoLoad s r m = readNext (readNext (putLines (reelBegun s r l) r) r 0) r 1 := by
  unfold reelGoLoad
  rw [if_neg (not_not.2 h), hc]
  exact if_neg (by simp [hl])

/-- The first reads of a load change nothing but what is sent. -/
theorem readNext_frame (s : State) (r tile : Nat) : ∃ o, readNext s r tile = { s with out := o } := by
  unfold readNext
  split
  next => exact ⟨_, rfl⟩
  next =>
    split
    next =>
      split
      · unfold readChunk
        split <;> exact ⟨_, rfl⟩
      · exact ⟨_, rfl⟩
    next => exact ⟨_, rfl⟩

/-- What a load's beginning leaves is what `reelBegun` is, but for the totals of lines and what is sent. -/
theorem reelBegun_reads (s : State) (r : Nat) (l : ReelLoad) : ∃ ts o,
    readNext (readNext (putLines (reelBegun s r l) r) r 0) r 1 =
      { reelBegun s r l with fab := { (reelBegun s r l).fab with lineTot := ts }, out := o } := by
  obtain ⟨ts, h⟩ := putLines_frame (reelBegun s r l) r
  rw [h]
  obtain ⟨o, h⟩ := readNext_frame { reelBegun s r l with fab := { (reelBegun s r l).fab with lineTot := ts } } r 0
  rw [h]
  obtain ⟨o, h⟩ := readNext_frame
    { reelBegun s r l with fab := { (reelBegun s r l).fab with lineTot := ts }, out := o } r 1
  exact ⟨ts, o, h⟩

theorem reel_reelBegun (s : State) (r : Nat) (l : ReelLoad) : (ctx (reelBegun s r l) r).reel = some l := by
  rw [reelBegun, reel_cset, reel_cset, reel_cset, ctx_modCtx_same]

theorem cget_reelBegun (s : State) (r : Nat) (l : ReelLoad) :
    cget (reelBegun s r l) r F.ctxReelgenStggen 0 = l.gen.toNat ∧ cget (reelBegun s r l) r F.ctxReelstatState 0 =
        1 := by
  refine ⟨?_, ?_⟩
  · rw [reelBegun, cget_cset_ne (by decide), cget_cset_ne (by decide), cget_cset_same]
    exact Nat.mod_eq_of_lt l.gen.isLt
  · rw [reelBegun, cget_cset_ne (by decide), cget_cset_same]
    rfl

theorem ctx_wake (s : State) (ns : List Nat) (r : Nat) : ctx (wake s ns) r = ctx s r := by
  unfold wake
  split
  · rfl
  · refine foldl_keeps (fun s => ctx s r) ?_ _ _
    exact fun _ _ => rfl

theorem slot_reelBegun (s : State) (r : Nat) (l : ReelLoad) : (ctx (reelBegun s r l) r).slot = (ctx s r).slot := by
  rw [reelBegun, slot_cset, slot_cset, slot_cset, ctx_modCtx_same, ctx_wake]

end

/-! ### The end of a load -/

/-- Staging pages that are freed are there no more. -/
theorem pages_freed {r : Nat} (pgs : List Nat) (s : State) {off x : Nat}
    (h : x ∈ pgs ∨ tfind (ctx s r).vs.pages (x + off) = none) (ho : stagePages s r = off) :
    tfind (ctx (pgs.foldl (fun s pg => unmapPage s r (pg + stagePages s r)) s) r).vs.pages (x + off) = none := by
  induction pgs generalizing s with
  | nil => exact h.resolve_left List.not_mem_nil
  | cons pg pgs ih =>
    have hoff : stagePages (unmapPage s r (pg + off)) r = off := by
      rw [← ho]
      exact congrArg (· / 2 ^ 21) ((pagesOnly_unmapPage s r _).cget _ _)
    rw [List.foldl_cons, ho]
    refine ih _ ?_ hoff
    rw [pages_unmapPage]
    by_cases hx : x = pg
    · exact .inr (if_pos (by rw [hx]))
    · exact h.imp (fun hm => (List.mem_cons.1 hm).resolve_left hx) fun hn => by rw [hn, ite_self]

section
variable {s : State} {r : Nat} {l : ReelLoad}

/-- A load that is over: not staged, failed with its result. -/
def reelEnded (s : State) (r : Nat) (l : ReelLoad) (result : Nat) : State :=
  cset (cset (cset (cset (freeStaging s r l) r F.ctxReelstatState 0 0) r F.ctxReelstatFail 0 1)
    r F.ctxReelstatResult 0 result) r F.ctxReelgenStggen 0 0

/-- The context of a load that is over. -/
def reelDropped (done : Bool) (l : ReelLoad) (x : Ctx) : Ctx :=
  { x with reel := none, served := if done then some l else x.served }

/-- A load that no stream and no launch uses ends by itself. -/
theorem reelFail_alone (hl : (ctx s r).reel = some l) (hs : streaming s r = false) (hw : waitsForReel s r = false)
    (result : Nat) : reelFail s r result = reelSignal (modCtx (reelEnded s r l result) r
      (reelDropped (switched s r l && cget s r F.ctxReelstatState 0 == 2) l)) r := by
  unfold reelFail
  rw [hl]
  dsimp only
  rw [hs, hw]
  rfl

theorem reelSignal_frame (s : State) (r : Nat) : ∃ o, reelSignal s r = { s with out := o } := by
  unfold reelSignal signal
  split <;> exact ⟨_, rfl⟩

theorem cget_reelEnded (s : State) (r : Nat) (l : ReelLoad) {result : Nat} (h : result < 16) :
    cget (reelEnded s r l result) r F.ctxReelstatState 0 = 0 ∧ cget (reelEnded s r l result) r F.ctxReelstatFail 0 = 1 ∧
      cget (reelEnded s r l result) r F.ctxReelstatResult 0 = result := by
  refine ⟨?_, ?_, ?_⟩
  · rw [reelEnded, cget_cset_ne (by decide), cget_cset_ne (by decide), cget_cset_ne (by decide), cget_cset_same]
    rfl
  · rw [reelEnded, cget_cset_ne (by decide), cget_cset_ne (by decide), cget_cset_same]
    rfl
  · rw [reelEnded, cget_cset_ne (by decide), cget_cset_same]
    exact Nat.mod_eq_of_lt h

theorem pagesOnly_freeStaging (s : State) (r : Nat) (l : ReelLoad) : PagesOnly r s (freeStaging s r l) := by
  unfold freeStaging
  split
  next => exact .refl r s
  next hsw =>
    clear hsw
    generalize (l.shards.map shardPages).flatten = pgs
    induction pgs generalizing s with
    | nil => exact .refl r s
    | cons pg pgs ih => exact (pagesOnly_unmapPage s r _).trans (ih _)

theorem slot_reelEnded (s : State) (r : Nat) (l : ReelLoad) (result : Nat) :
    (ctx (reelEnded s r l result) r).slot = (ctx s r).slot := by
  obtain ⟨-, v, hv⟩ := pagesOnly_freeStaging s r l
  rw [reelEnded, slot_cset, slot_cset, slot_cset, slot_cset, hv]

/-- R484: the staging pages of a load that was not switched are free. -/
theorem pages_reelEnded (hs : switched s r l = false) (result : Nat) {h : Shard} (hh : h ∈ l.shards) {pg : Nat}
    (hp : pg ∈ shardPages h) : tfind (ctx (reelEnded s r l result) r).vs.pages (pg + stagePages s r) = none := by
  rw [reelEnded, vs_cset, vs_cset, vs_cset, vs_cset, freeStaging, if_neg (by simp [hs])]
  exact pages_freed _ s (.inl (List.mem_flatten.2 ⟨_, List.mem_map_of_mem hh, hp⟩)) rfl

theorem cget_reelDropped (t : State) (r : Nat) (done : Bool) (l : ReelLoad) (f : Fld) :
    cget (modCtx t r (reelDropped done l)) r f 0 = cget t r f 0 :=
  cget_modCtx (f := reelDropped done l) (fun _ => rfl) (fun _ => rfl) t f 0

/-- R484, R490: the load is gone, `STATE` is IDLE, `FAIL` is set with the result, and the staging pages are free. -/
theorem reelFail_ended (hl : (ctx s r).reel = some l) (hs : streaming s r = false) (hw : waitsForReel s r = false)
    {result : Nat} (h16 : result < 16) :
    (ctx (reelFail s r result) r).slot = (ctx s r).slot ∧ (ctx (reelFail s r result) r).reel = none ∧
      cget (reelFail s r result) r F.ctxReelstatState 0 = 0 ∧ cget (reelFail s r result) r F.ctxReelstatFail 0 = 1 ∧
      cget (reelFail s r result) r F.ctxReelstatResult 0 = result ∧
      (switched s r l = false → ∀ h ∈ l.shards, ∀ pg ∈ shardPages h,
        tfind (ctx (reelFail s r result) r).vs.pages (pg + stagePages s r) = none) := by
  obtain ⟨hst, hfail, hres⟩ := cget_reelEnded s r l h16
  have hslot := slot_reelEnded s r l result
  have hpages (hsw : switched s r l = false) (h : Shard) (hh : h ∈ l.shards) (pg : Nat) (hp : pg ∈ shardPages h) :=
    pages_reelEnded hsw result hh hp
  rw [reelFail_alone hl hs hw]
  generalize reelEnded s r l result = e at hst hfail hres hslot hpages
  generalize (switched s r l && cget s r F.ctxReelstatState 0 == 2) = done
  obtain ⟨o, hsig⟩ := reelSignal_frame (modCtx e r (reelDropped done l)) r
  have hctx : ctx (reelSignal (modCtx e r (reelDropped done l)) r) r = reelDropped done l (ctx e r) := by
    rw [hsig]
    exact ctx_modCtx_same ..
  have hcget (f : Fld) : cget (reelSignal (modCtx e r (reelDropped done l)) r) r f 0 = cget e r f 0 := by
    rw [hsig]
    exact cget_reelDropped e r done l f
  rw [hctx, hcget, hcget, hcget]
  exact ⟨hslot, rfl, hst, hfail, hres, hpages⟩

end

end Sys2Proof.Machine

/-- Settles O44: `GO`, `ABORT` and `COMMIT` of a reel's load. -/
theorem reelLoadsStart : Obligations.ReelLoadsStart := by
  intro s sl w r m ho hs hslot t
  have ht : t = reelWritten s sl w := rfl
  clear_value t
  subst ht
  have hslot' : (ctx (reelWritten s sl w) r).slot = some sl := by rw [ctx_reelWritten, hslot]
  have hc (f : Fld) : cget (reelWritten s sl w) r f 0 = fget (reelWritten s sl w) f sl.val 0 := cget_of_slot hslot' f 0
  have hstate : cget (reelWritten s sl w) r F.ctxReelstatState 0 = fget s F.ctxReelstatState sl.val 0 :=
    (hc _).trans (state_reelWritten s sl w)
  refine ⟨fun hg ha => ⟨fun hbusy => ?busy, fun hidle => ⟨fun code hcode => ?refused, fun l hok hne => ?begun⟩⟩,
    fun ha hg l hl hstream hwait => ?ended, fun ha hg => ⟨exec_commit_alone ho hs hg ha, fun hcov =>
      commit_reelWritten hcov s sl⟩⟩
  case busy => rw [exec_reelLoad_go ho hs hg ha, reelGoLoad_busy (by rwa [hstate])]
  case refused => rw [exec_reelLoad_go ho hs hg ha, reelGoLoad_refused (hstate.trans hidle) hcode]
  case begun =>
    obtain ⟨ts, o, hreads⟩ := reelBegun_reads (reelWritten s sl w) r l
    obtain ⟨hgen, hst⟩ := cget_reelBegun (reelWritten s sl w) r l
    have hreel := reel_reelBegun (reelWritten s sl w) r l
    have hb (f : Fld) := cget_of_slot ((slot_reelBegun (reelWritten s sl w) r l).trans hslot') f 0
    rw [exec_reelLoad_go ho hs hg ha m, reelGoLoad_begun (hstate.trans hidle) hok hne, hreads]
    generalize reelBegun (reelWritten s sl w) r l = b at hgen hst hreel hb
    exact ⟨_, rfl, (hb _).symm.trans hgen, (hb _).symm.trans hst, hreel⟩
  case ended =>
    have hl' : (ctx (reelWritten s sl w) r).reel = some l := by rw [ctx_reelWritten, hl]
    have hstage : stagePages s r = stagePages (reelWritten s sl w) r := by
      rw [stagePages, stagePages, hc, cget_of_slot hslot]
      exact congrArg (· / 2 ^ 21) (stageoff_reelWritten s sl w).symm
    obtain ⟨hsl, hreel, hst, hfail, hres, hpages⟩ := reelFail_ended hl' hstream hwait (show 7 < 16 by decide)
    have he (f : Fld) := cget_of_slot (hsl.trans hslot') f 0
    rw [hstage]
    exact ⟨_, exec_abort_alone ho hs hg ha, hreel, (he _).symm.trans hst, (he _).symm.trans hfail,
      (he _).symm.trans hres, hpages⟩

end

section
/-! PROOFS. Scope: tests and records. -/

open Sys2Proof Sys2Proof.Machine

namespace Sys2Proof.Machine

/-! ### The test of a core (R520, Table 15.9) -/

theorem writeField_frame (w : RegWrite) (i j : Nat) (s : State) (f : Fld) :
    ∃ rs, writeField w i j s f = { s with regs := rs } := by
  obtain h | h | h := writeField_cases w i j s f <;> exact ⟨_, h⟩

theorem writeFields_frame (s : State) (w : RegWrite) (fs : List Fld) (i j : Nat) :
    ∃ rs, writeFields s w fs i j = { s with regs := rs } := by
  unfold writeFields
  induction fs generalizing s with
  | nil => exact ⟨s.regs, rfl⟩
  | cons f fs ih =>
    obtain ⟨rs, h⟩ := writeField_frame w i j s f
    rw [List.foldl_cons, h]
    exact ih _

/-- A bit that a write clears. -/
theorem clearBit_frame (w : RegWrite) (i j : Nat) (s : State) (f : Fld) :
    ∃ rs, clearBit w i j s f = { s with regs := rs } := by
  unfold clearBit
  split <;> exact ⟨_, rfl⟩

/-- The state that a write of `REL_OTEST` finds, `DONE` cleared. -/
def otestCleared (s : State) (w : RegWrite) : State := clearBits s w [F.relOtestDone] 0 0

/-- The state with the fields of the write taken. -/
def otestWritten (s : State) (w : RegWrite) : State :=
  writeFields (otestCleared s w) w [F.relOtestKind, F.relOtestIndex, F.relOtestLane] 0 0

theorem otestWritten_frame (s : State) (w : RegWrite) : ∃ rs, otestWritten s w = { s with regs := rs } := by
  obtain ⟨rs, h⟩ := clearBit_frame w 0 0 s F.relOtestDone
  obtain ⟨rs', h'⟩ := writeFields_frame (otestCleared s w) w [F.relOtestKind, F.relOtestIndex, F.relOtestLane] 0 0
  refine ⟨rs', h'.trans ?_⟩
  rw [show otestCleared s w = _ from h]

section
variable {s : State} {w : RegWrite} (ho : writeOpen s false = true) (hg : wbit w F.relOtestGo = true)
include ho hg

theorem exec_onlineTest_busy (h : s.test.online.isSome = true) :
    exec (.onlineTest w) s = .next (fset (otestCleared s w) F.relOtestResult 0 0 3) := by
  obtain ⟨rs, hf⟩ := clearBit_frame w 0 0 s F.relOtestDone
  have ht : (otestCleared s w).test.online.isSome = true := by rw [show otestCleared s w = _ from hf]; exact h
  show execOnlineTest w s = _
  rw [execOnlineTest, onBar_open ho]
  exact (if_pos ht).trans (congrArg _ (if_pos hg))

theorem exec_onlineTest_free (h : s.test.online = none) : exec (.onlineTest w) s = .next (testStart (otestWritten s w)
    (fget (otestWritten s w) F.relOtestKind 0 0) (fget (otestWritten s w) F.relOtestIndex 0 0)
    (fget (otestWritten s w) F.relOtestLane 0 0)) := by
  obtain ⟨rs, hf⟩ := clearBit_frame w 0 0 s F.relOtestDone
  have ht : (otestCleared s w).test.online = none := by rw [show otestCleared s w = _ from hf]; exact h
  show execOnlineTest w s = _
  rw [execOnlineTest, onBar_open ho]
  exact (if_neg (by simp [show clearBits s w [F.relOtestDone] 0 0 = otestCleared s w from rfl, ht])).trans (if_pos hg)

end

/-- A test that has ended. -/
theorem testEnd_fields (s : State) {result : Nat} (h : result < 8) :
    fget (testEnd s result) F.relOtestResult 0 0 = result ∧ fget (testEnd s result) F.relOtestDone 0 0 = 1 ∧
      fget (testEnd s result) F.relOtestGo 0 0 = 0 := by
  refine ⟨?_, ?_, ?_⟩
  · rw [testEnd, fget_fset_ne (by decide), fget_fset_same]
    exact Nat.mod_eq_of_lt h
  · rw [testEnd, fget_fset_same]
    rfl
  · rw [testEnd, fget_fset_ne (by decide), fget_fset_ne (by decide), fget_fset_same]
    rfl

section
variable {s : State} {n : Nat}

theorem testStart_refused (h : 1344 ≤ n ∨ 2 ≤ (core s n).use.toNat ∨ (core s n).fenced) (lane : Nat) :
    testStart s 0 n lane = testEnd s 4 := by
  unfold testStart
  dsimp only
  rw [if_pos rfl, if_pos h]

/-- The state of a test that has begun. -/
def testBegun (s : State) (n lane : Nat) : State :=
  fset { s with test := { s.test with online := some (0, n, lane) } } F.relOtestGo 0 0 1

theorem moveAll_of_no_home (h : (core s n).vmap = []) : moveAll s n = some s := by
  rw [moveAll, h]
  rfl

/-- A pause of the channels leaves what a core is used for. -/
theorem use_intPauseAll (s : State) (n : Nat) : (core (intPauseAll s) n).use = (core s n).use := by
  have hmap := tfind_map (fun _ (c : Core) => { c with chans := c.chans.map fun h => (h.1,
      askPause s (c.use == 3) h.2) })
    s.cores n
  unfold core tget
  rw [show tfind (intPauseAll s).cores n = _ from hmap]
  cases tfind s.cores n <;> rfl

/-- A core whose work is put aside. -/
def workAside (s : State) (n : Nat) : State :=
  modCore s n fun c =>
    { c with running := none, hold := 0,
             takes := match c.running with | some k => c.takes ++ [⟨k, true, 0⟩] | none => c.takes }

theorem drainTest_of_test {lane : Nat} (ht : s.test.online = some (0, n, lane)) : drainTest s =
    if (core s n).use = 3 ∨ !coreAtCut s n ∨ runsFloat (core s n) then s
    else match moveAll (workAside s n) n with
      | some t => intPauseAll (modCore t n fun c => { c with use := 3, takes := [] })
      | none => workAside s n := by
  unfold drainTest
  rw [ht]
  rfl

/-- A core without virtual cores that is idle is under test at once. -/
theorem drainTest_idle {lane : Nat} (ht : s.test.online = some (0, n, lane)) (hu : (core s n).use ≠ 3)
    (hv : (core s n).vmap = []) (hr : (core s n).running = none) (hf : runsFloat (core s n) = false) :
    (core (drainTest s) n).use = 3 ∧ (drainTest s).regs = s.regs ∧ (drainTest s).test = s.test := by
  have hcut : coreAtCut s n = true := by simp [coreAtCut, hr]
  have hidle : ¬((core s n).use = 3 ∨ !coreAtCut s n ∨ runsFloat (core s n)) := by
    rintro (h | h | h)
    · exact hu h
    · simp [hcut] at h
    · simp [hf] at h
  have hnone : (core (workAside s n) n).vmap = [] := by rw [workAside, core_modCore_same]; exact hv
  rw [drainTest_of_test ht, if_neg hidle, moveAll_of_no_home hnone]
  dsimp only
  rw [use_intPauseAll, core_modCore_same]
  exact ⟨rfl, rfl, rfl⟩

theorem testStart_idle (hn : n < 1344) (hu : (core s n).use.toNat < 2) (hfe : (core s n).fenced = false)
    (hv : (core s n).vmap = []) (lane : Nat) : testStart s 0 n lane = drainTest (testBegun s n lane) := by
  have hok : ¬(1344 ≤ n ∨ 2 ≤ (core s n).use.toNat ∨ (core s n).fenced) := by simp [hfe]; omega
  unfold testStart
  dsimp only
  rw [if_pos rfl, if_neg hok, if_neg (by simp [moveAll_of_no_home hv])]
  rfl

/-- The state of a core that has passed. -/
def corePassed (s : State) (n : Nat) : State :=
  testEnd (intPauseAll (modCore (testRecord s (1, n) 0 none) n fun c => { c with use := 1 })) 0

theorem coreTestDone_passed (s : State) (n : Nat) : coreTestDone s n [] = corePassed s n := by
  simp [coreTestDone, corePassed, recordFails]

theorem autoTest_of_no_queue (h : s.test.queue = []) : autoTest s = s := by
  unfold autoTest
  rw [h]
  rfl

theorem corePassed_test (s : State) (n : Nat) : (corePassed s n).test = { s.test with online := none } := by
  have ht : (testRecord s (1, n) 0 none).test = s.test := by
    rw [testRecord]
    obtain ⟨rs, m, k, h⟩ := daily_frame s 3 _
    rw [h]
  exact congrArg (fun t : Test => { t with online := none }) ht

theorem use_corePassed (s : State) (n : Nat) : (core (corePassed s n) n).use = 1 := by
  show (core (intPauseAll (modCore (testRecord s (1, n) 0 none) n fun c => { c with use := 1 })) n).use = 1
  rw [use_intPauseAll, core_modCore_same]

theorem exec_onlineTestComplete_core {lane : Nat} (ht : s.test.online = some (0, n, lane)) (fails : List TestFail) :
    exec (.onlineTestComplete fails) s = .next (if (core (drainTest s) n).use = 3
      then autoTest (coreTestDone (drainTest s) n fails) else drainTest s) := by
  show execOnlineTestComplete fails s = _
  unfold execOnlineTestComplete
  rw [ht]
  rfl

theorem exec_onlineTestComplete_passed {lane : Nat} (ht : s.test.online = some (0, n, lane)) (hq : s.test.queue = [])
    (hu : (core s n).use = 3) : exec (.onlineTestComplete []) s = .next (corePassed s n) := by
  have hdrain : drainTest s = s := (drainTest_of_test ht).trans (if_pos (.inl hu))
  rw [exec_onlineTestComplete_core ht, hdrain, if_pos hu, coreTestDone_passed,
      autoTest_of_no_queue (by rw [corePassed_test, hq])]

end

/-! ### Ports and the wrap test (R521, R522) -/

theorem exec_onlineTestComplete_port {s : State} {kind q l : Nat} (h : s.test.online = some (kind + 1, q, l))
    (fails : List TestFail) :
    exec (.onlineTestComplete fails) s = .next (autoTest (portTestDone s (kind + 1) q l fails)) := by
  show execOnlineTestComplete fails s = _
  unfold execOnlineTestComplete
  rw [h]
  rfl

/-- Log entry 77 (DEDUCED): the port that the partner tests goes to DETECT. -/
theorem exec_partnerTestRequest {s : State} {p : PortId} (hc : clockRuns s (portClock p.val) = true)
    (hp : portState s p.val = 6) : exec (.partnerTestRequest p) s = .next (toDetect s p.val) := by
  show execPartnerTestRequest p s = _
  rw [execPartnerTestRequest, onClock_runs hc, if_pos hp]

section
variable {s : State} {w : RegWrite} (ho : writeOpen s false = true) (hg : wbit w F.relWrapGo = true)
  (h0 : fget s F.relWrapState 0 0 = 0)
include ho hg h0

theorem exec_wrapTest_refused (h : noneEnabled s = false ∨ s.bulk ≠ []) :
    exec (.wrapTest w) s = .next (fset s F.relWrapState 0 0 3) := by
  show execWrapTest w s = _
  rw [execWrapTest, onBar_open ho]
  dsimp only
  rw [if_neg (by simp [hg, h0]), if_pos]
  obtain h | h := h
  · exact .inl (by simp [h])
  · exact .inr (by simpa using h)

theorem exec_wrapTest_runs (hn : noneEnabled s = true) (hb : s.bulk = []) : exec (.wrapTest w) s =
    .next (fset (fset (fset s F.relWrapGo 0 0 1) F.relWrapState 0 0 1) F.relWrapFails 0 0 0) := by
  show execWrapTest w s = _
  rw [execWrapTest, onBar_open ho]
  dsimp only
  rw [if_neg (by simp [hg, h0]), if_neg (by simp [hn, hb])]

end

/-- R522: the end of the wrap test: the failing blocks counted, `STATE` done. -/
theorem exec_wrapTestComplete {s : State} (h : fget s F.relWrapState 0 0 = 1) (fails : List TestFail) :
    ∃ u, exec (.wrapTestComplete fails) s = .next (fset (fset (fset u F.relWrapFails 0 0
      (min 255 ((fails.map failBlock).eraseDups).length)) F.relWrapGo 0 0 0) F.relWrapState 0 0 2) :=
  ⟨_, if_neg (not_not.2 h)⟩

/-! ### Repair records (R523) -/

theorem crc32Bits_lt (n : Nat) {c : Nat} (h : c < 2 ^ 32) : crc32Bits n c < 2 ^ 32 := by
  induction n generalizing c with
  | zero => exact h
  | succ n ih =>
    have hhalf : c / 2 < 2 ^ 32 := by omega
    unfold crc32Bits
    split
    · exact ih (Nat.xor_lt_two_pow hhalf (by decide))
    · exact ih hhalf

theorem crc32_lt (bs : Bytes) : crc32 bs < 2 ^ 32 := by
  refine Nat.xor_lt_two_pow ?_ (by decide)
  have hstep : ∀ (bs : Bytes) (c : Nat), c < 2 ^ 32 →
      bs.foldl (fun c b => crc32Bits 8 (c ^^^ b.toNat)) c < 2 ^ 32 := by
    intro bs
    induction bs with
    | nil => exact fun _ h => h
    | cons b bs ih =>
      exact fun c h => ih _ (crc32Bits_lt 8 (Nat.xor_lt_two_pow h (by have := b.isLt; omega)))
  exact hstep bs _ (by decide)

/-- The twelve bytes of a record before its CRC. -/
def recordBody (kind source unit sub place starts : Nat) : Bytes :=
  leBytes 1 kind ++ leBytes 1 source ++ leBytes 2 unit ++ leBytes 1 sub ++ leBytes 1 0 ++ leBytes 2 place ++
    leBytes 4 starts

/-- A record: its twelve bytes and their CRC. -/
def repairRecord (kind source unit sub place starts : Nat) : RepairRec :=
  recordBody kind source unit sub place starts ++ leBytes 4 (crc32 (recordBody kind source unit sub place starts))

section
variable (kind source unit sub place starts : Nat)

theorem length_recordBody : (recordBody kind source unit sub place starts).length = 12 := by
  simp [recordBody, leBytes_length]

theorem length_repairRecord : (repairRecord kind source unit sub place starts).length = 16 := by
  rw [repairRecord, List.length_append, length_recordBody, leBytes_length]

/-- R523: the last four bytes of a record are the CRC of the others. -/
theorem recordOk_repairRecord : recordOk (repairRecord kind source unit sub place starts) = true := by
  have h12 := length_recordBody kind source unit sub place starts
  have htake : (repairRecord kind source unit sub place starts).take 12 =
      recordBody kind source unit sub place starts :=
    List.take_left' h12
  have hdrop : (repairRecord kind source unit sub place starts).drop 12 = leBytes 4 (crc32 (recordBody kind source unit
    sub place starts)) := List.drop_left' h12
  have hcrc : (leBytes 4 (crc32 (recordBody kind source unit sub place starts))).take 4 =
      leBytes 4 (crc32 (recordBody kind source unit sub place starts)) := List.take_of_length_le (leBytes_length ..).le
  rw [recordOk, htake, hdrop, hcrc, leNat_leBytes_of_lt (crc32_lt _), beq_self_eq_true]

/-- A field of a record, between what stands before it and after it. -/
theorem xf_between (a c : Bytes) (n v : Nat) : xf (a ++ (leBytes n v ++ c)) a.length n = v % 256 ^ n := by
  rw [xf, List.drop_left, List.take_left' (leBytes_length n v), leNat_leBytes_mod]

theorem fields_repairRecord :
    recKind (repairRecord kind source unit sub place starts) = kind % 256 ∧
      recUnit (repairRecord kind source unit sub place starts) = unit % 65536 ∧
      recSub (repairRecord kind source unit sub place starts) = sub % 256 ∧
      recPlace (repairRecord kind source unit sub place starts) = place % 65536 := by
  have hlen (n v : Nat) : (leBytes n v).length = n := leBytes_length n v
  refine ⟨?_, ?_, ?_, ?_⟩
  · simpa [repairRecord, recordBody, recKind, hlen] using xf_between [] _ 1 kind
  · simpa [repairRecord, recordBody, recUnit, hlen] using xf_between (leBytes 1 kind ++ leBytes 1 source) _ 2 unit
  · simpa [repairRecord, recordBody, recSub, hlen] using
      xf_between (leBytes 1 kind ++ leBytes 1 source ++ leBytes 2 unit) _ 1 sub
  · simpa [repairRecord, recordBody, recPlace, hlen] using
      xf_between (leBytes 1 kind ++ leBytes 1 source ++ leBytes 2 unit ++ leBytes 1 sub ++ leBytes 1 0) _ 2 place

end

theorem addRepair_full {s : State} (h : 4096 ≤ s.nv.records.length) (kind source unit sub place : Nat) :
    addRepair s kind source unit sub place = fset s F.relStatRsfull 0 0 1 := if_pos h

theorem addRepair_nv {s : State} (h : s.nv.records.length < 4096) (kind source unit sub place : Nat) :
    (addRepair s kind source unit sub place).nv =
      { s.nv with records := s.nv.records ++ [repairRecord kind source unit sub place s.nv.starts] } := by
  unfold addRepair
  rw [if_neg (Nat.not_le.2 h)]
  dsimp only
  obtain ⟨rs, m, n, hd⟩ := daily_frame { s with nv := { s.nv with records := s.nv.records ++
    [repairRecord kind source unit sub place s.nv.starts] } } 4 _
  exact congrArg State.nv hd

/-! ### The log of the day (R525, R526) -/

theorem length_dailyRecord (item : Bytes) : (dailyRecord item).length % 64 = 0 ∧
    item.length + 4 ≤ (dailyRecord item).length := by
  simp only [dailyRecord, pad64, List.length_append, List.length_replicate, leBytes_length]
  omega

section
variable {s : State} {rec : Bytes}

/-- The room that the ring has. -/
def dayRingFree (s : State) : Nat :=
  2 ^ fget s F.relDlcfgSizelog2 0 0 - (fget s F.relDlheadCount 0 0 + 2 ^ 64 - fget s F.relDltailCount 0 0) % 2 ^ 64

theorem dailyRing_dropped (h : dayRingFree s < rec.length) : dailyRing s rec = fcount s F.relStatDldrop 0 0 1 := by
  unfold dailyRing
  exact if_pos (.inl (Nat.lt_of_lt_of_le h (Nat.le_add_left ..)))

theorem dailyRing_put (h : rec.length ≤ dayRingFree s) (hend : rec.length ≤ 2 ^ fget s F.relDlcfgSizelog2 0 0 -
    fget s F.relDlheadCount 0 0 % 2 ^ fget s F.relDlcfgSizelog2 0 0) (hu : hostUp s = true) :
    dailyRing s rec = dailyPut s rec := by
  unfold dailyRing
  dsimp only
  rw [if_neg (Nat.not_lt.2 hend), if_neg, if_pos rfl]
  rintro (hf | hf)
  · exact absurd hf (Nat.not_lt.2 (by rw [Nat.zero_add]; exact h))
  · simp [hu] at hf

end

theorem exec_healthRecord_off {s : State} (h : fget s F.relDlcfgPeriod 0 0 = 0 ∨ fbit s F.relDlcfgEn 0 0 = false) :
    exec .healthRecord s = .next s := by
  have hoff : fget s F.relDlcfgPeriod 0 0 = 0 ∨ (!fbit s F.relDlcfgEn 0 0) = true := h.imp id fun h => by simp [h]
  show execHealthRecord s = _
  unfold execHealthRecord
  rw [if_pos hoff]

theorem dailyRing_dailies (s : State) (rec : Bytes) : (dailyRing s rec).dailies = s.dailies := by
  obtain ⟨rs, m, h⟩ := dailyRing_frame s rec
  rw [h]

theorem daily_on {s : State} (he : fbit s F.relDlcfgEn 0 0 = true) (type : Nat) (own : List (Nat × Bytes)) :
    ∃ rec, daily s type own = dailyRing { s with dailies := { s.dailies with seq := s.dailies.seq + 1 } } rec := by
  unfold daily
  exact ⟨_, if_neg (by simp [he])⟩

theorem seq_daily {s : State} (he : fbit s F.relDlcfgEn 0 0 = true) (type : Nat) (own : List (Nat × Bytes)) :
    (daily s type own).dailies.seq = s.dailies.seq + 1 := by
  obtain ⟨rec, h⟩ := daily_on he type own
  rw [h, dailyRing_dailies]

/-- R526: a health record takes the next number, and its counts start again. -/
theorem exec_healthRecord_on {s : State} (hp : fget s F.relDlcfgPeriod 0 0 ≠ 0) (he : fbit s F.relDlcfgEn 0 0 = true) :
    ∃ t, exec .healthRecord s = .next t ∧ t.dailies = ⟨s.dailies.seq + 1, [], [], 0, 0, 0, 0, 0⟩ := by
  have hon : ¬(fget s F.relDlcfgPeriod 0 0 = 0 ∨ (!fbit s F.relDlcfgEn 0 0) = true) := by simp [hp, he]
  show ∃ t, execHealthRecord s = _ ∧ _
  unfold execHealthRecord
  rw [if_neg hon]
  refine ⟨_, rfl, ?_⟩
  dsimp only
  rw [seq_daily he]

end Sys2Proof.Machine

/-- Settles O49: the tests of cores and ports, the wrap test, the repair records and the log of the day. -/
theorem testsAndRecords : Obligations.TestsAndRecords := by
  refine ⟨fun s w p => ⟨fun ho => ?otest, fun n l ht hq hu => ?passed, fun kind q l fails h =>
      exec_onlineTestComplete_port h fails, exec_partnerTestRequest, fun ho hg h0 => ⟨exec_wrapTest_refused ho hg h0,
        fun hn hb => ?runs⟩, fun fails h => ?wrapped⟩,
    fun s kind source unit sub place item => ⟨fun h => addRepair_full h .., fun h => ?record, ?_, ?_, ⟨?_, ?put⟩,
      exec_healthRecord_on, exec_healthRecord_off⟩⟩
  case otest =>
    intro u n hg
    have hu : u = otestWritten s w := rfl
    obtain ⟨rs, hf⟩ := otestWritten_frame s w
    have hcore (m : Nat) : core u m = core s m := by
      rw [hu, hf]
      rfl
    have hstart (h : s.test.online = none) (hk : fget u F.relOtestKind 0 0 = 0) : exec (.onlineTest w) s =
        .next (testStart u 0 n (fget u F.relOtestLane 0 0)) := by
      rw [exec_onlineTest_free ho hg h, ← hu, hk]
    clear_value u
    refine ⟨fun h => ⟨_, exec_onlineTest_busy ho hg h, fget_fset_same .., ?_⟩, fun h hk hbad => ?_,
      fun h hk hn huse hfe hv hr hfl => ?_⟩
    · obtain ⟨rs, hf⟩ := clearBit_frame w 0 0 s F.relOtestDone
      rw [show otestCleared s w = _ from hf]
      rfl
    · refine ⟨_, hstart h hk, ?_⟩
      rw [testStart_refused (by rwa [hcore])]
      exact testEnd_fields u (by decide)
    · have hb (m : Nat) : core (testBegun u n (fget u F.relOtestLane 0 0)) m = core s m := hcore m
      obtain ⟨h3, hregs, htest⟩ := drainTest_idle (s := testBegun u n (fget u F.relOtestLane 0 0)) (n := n) rfl
        (by rw [hb]; intro h; rw [h] at huse; exact absurd huse (by decide)) (by rw [hb, hv]) (by rw [hb, hr])
        (by rw [hb, hfl])
      refine ⟨_, hstart h hk, ?_⟩
      rw [testStart_idle hn (by rwa [hcore]) (by rwa [hcore]) (by rwa [hcore])]
      refine ⟨h3, ?_, fget u F.relOtestLane 0 0, ?_⟩
      · rw [fget_congr hregs]
        exact fget_fset_same ..
      · rw [htest]
        rfl
  case passed =>
    obtain ⟨hres, hdone, hgo⟩ := testEnd_fields (intPauseAll (modCore (testRecord s (1, n) 0 none) n
      fun c => { c with use := 1 })) (show 0 < 8 by decide)
    exact ⟨_, exec_onlineTestComplete_passed ht hq hu, use_corePassed s n, hres, hdone, hgo,
      congrArg Test.online (corePassed_test s n)⟩
  case runs =>
    refine ⟨_, exec_wrapTest_runs ho hg h0 hn hb, ?_, ?_, fget_fset_same .., rfl⟩
    · rw [fget_fset_ne (by decide), fget_fset_same]
      rfl
    · rw [fget_fset_ne (by decide), fget_fset_ne (by decide), fget_fset_same]
      rfl
  case wrapped =>
    obtain ⟨u, hu⟩ := exec_wrapTestComplete h fails
    refine ⟨_, hu, fget_fset_same .., ?_, ?_⟩
    · rw [fget_fset_ne (by decide), fget_fset_same]
      rfl
    · rw [fget_fset_ne (by decide), fget_fset_ne (by decide), fget_fset_same]
      exact Nat.mod_eq_of_lt (Nat.lt_of_le_of_lt (Nat.min_le_left ..) (by decide))
  case record =>
    exact ⟨_, addRepair_nv h kind source unit sub place, length_repairRecord .., recordOk_repairRecord ..,
      fields_repairRecord ..⟩
  · exact (length_dailyRecord item).1
  · exact (length_dailyRecord item).2
  · exact dailyRing_dropped
  case put =>
    intro hroom hend hu t
    have ht : t = dailyPut s (dailyRecord item) := dailyRing_put hroom hend hu
    rw [ht]
    exact ⟨rfl, fget_fset_same ..⟩

end

section
/-! PROOFS. Scope: a grant of D2, and debug access. -/

open Sys2Proof Sys2Proof.Machine

namespace Sys2Proof.Machine

/-! ### What a grant of D2 sets first, under the work that it ends (R559) -/

/-- The keys, and the highest level of debug access that has been granted. -/
def guarded (s : State) : Keys × Nat := (s.keys, fget s F.secStatDbgmax 0 0)

@[simp] theorem guarded_update (s : State) (pending : List Instr) (tcount : Nat) (time : TimeSt) (cores : Tbl Core)
    (ctxs : Tbl Ctx) (frames : Tbl FrameUse) (promote : Tbl (Nat × List (CtxId × Nat))) (tables : Tbl Nat)
    (poolGen : Nat) (fab : Fabric) (bulk : Tbl Xfer) (nv : Nv) (out : List Out) (freeCtr : Nat) :
    guarded { s with
      pending, tcount, time, cores, ctxs, frames, promote, tables, poolGen, fab, bulk, nv, out, freeCtr } = guarded s :=
  rfl

@[simp] theorem guarded_ite {c : Prop} [Decidable c] (s t : State) :
    guarded (if c then s else t) = if c then guarded s else guarded t := apply_ite guarded c s t

@[simp] theorem guarded_foldl {α : Type} {f : State → α → State} (h : ∀ s a, guarded (f s a) = guarded s) (l : List α)
    (s : State) : guarded (l.foldl f s) = guarded s := foldl_keeps guarded h l s

/-- `DBGMAX` is the one field from bit 12 of its word that any of this writes or reads. -/
@[simp] theorem guarded_fset {f : Fld} (h : f.lo % 64 ≠ 12) (s : State) (i j v : Nat) :
    guarded (fset s f i j v) = guarded s := by
  have hk : f.key i j ≠ F.secStatDbgmax.key 0 0 := by
    simp only [Fld.key, F.secStatDbgmax]
    omega
  unfold guarded
  rw [fget_fset_ne hk]
  rfl

@[simp] theorem guarded_cset {f : Fld} (h : f.lo % 64 ≠ 12) (s : State) (r j v : Nat) :
    guarded (cset s r f j v) = guarded s := by
  unfold cset
  split
  · exact guarded_fset h ..
  · rfl

@[simp] theorem guarded_ccount {f : Fld} (h : f.lo % 64 ≠ 12) (s : State) (r j n : Nat) :
    guarded (ccount s r f j n) = guarded s := guarded_cset h ..

@[simp] theorem guarded_emit (s : State) (o : Out) : guarded (emit s o) = guarded s := (rfl)

@[simp] theorem guarded_setCore (s : State) (n : Nat) (c : Core) : guarded (setCore s n c) = guarded s := (rfl)

@[simp] theorem guarded_modCore (s : State) (n : Nat) (f : Core → Core) : guarded (modCore s n f) = guarded s := (rfl)

@[simp] theorem guarded_setCtx (s : State) (r : Nat) (c : Ctx) : guarded (setCtx s r c) = guarded s := (rfl)

@[simp] theorem guarded_modCtx (s : State) (r : Nat) (f : Ctx → Ctx) : guarded (modCtx s r f) = guarded s := (rfl)

@[simp] theorem guarded_modPort (s : State) (p : Nat) (f : Port → Port) : guarded (modPort s p f) = guarded s := (rfl)

@[simp] theorem guarded_signal (s : State) (on : Bool) (vector : Nat) : guarded (signal s on vector) = guarded s := by
  simp +decide [signal]

@[simp] theorem guarded_modKeyStep (s : State) (n k : Nat) (f : Step → Step) : guarded (modKeyStep s n k f) =
    guarded s := by
  unfold modKeyStep; split <;> simp +decide

@[simp] theorem guarded_putFlit (s : State) (p : Nat) (f : SentFlit) : guarded (putFlit s p f) = guarded s := by
  simp +decide [putFlit]

@[simp] theorem guarded_sendFlit (s : State) (p : Nat) (ctrl : Bool) (payload : Bytes) :
    guarded (sendFlit s p ctrl payload) = guarded s := by
  simp +decide [sendFlit]

@[simp] theorem guarded_flushPort (s : State) (p : Nat) : guarded (flushPort s p) = guarded s := by
  simp +decide [flushPort]

@[simp] theorem guarded_sendCtrl (s : State) (p : Nat) (m : Nat × List Nat) : guarded (sendCtrl s p m) = guarded s := by
  simp +decide [sendCtrl]

@[simp] theorem guarded_drainCtrl (s : State) (p : Nat) : guarded (drainCtrl s p) = guarded s := by
  simp +decide [drainCtrl]

@[simp] theorem guarded_portMsg (s : State) (p msg : Nat) (data : List Nat) : guarded (portMsg s p msg data) =
    guarded s := by
  simp +decide [portMsg]

@[simp] theorem guarded_onPorts (s : State) (ok : State → Nat → Bool) (msg : Nat) (data : List Nat) :
    guarded (onPorts s ok msg data) = guarded s := by
  simp +decide [onPorts]

@[simp] theorem guarded_standNoMore (s : State) : guarded (standNoMore s) = guarded s :=
  guarded_fset (by decide) ..

@[simp] theorem guarded_dropSlew (s : State) : guarded (dropSlew s) = guarded s := (rfl)

@[simp] theorem guarded_enterAcquire (s : State) : guarded (enterAcquire s) = guarded s :=
  (guarded_fset (by decide) ..).trans (guarded_standNoMore s)

@[simp] theorem guarded_follow (s : State) : guarded (follow s) = guarded s := by
  unfold follow
  split
  · simp only; split <;> simp +decide
  · simp +decide

@[simp] theorem guarded_unhear (s : State) (p : Nat) : guarded (unhear s p) = guarded s := by
  simp +decide [unhear]

@[simp] theorem guarded_dropBuffer (s : State) (p : Nat) : guarded (dropBuffer s p) = guarded s := (rfl)

@[simp] theorem guarded_dropLink (s : State) (p : Nat) : guarded (dropLink s p) = guarded s := by
  simp +decide [dropLink]

@[simp] theorem guarded_releaseFrame (s : State) (p : Page) : guarded (releaseFrame s p) = guarded s := by
  unfold releaseFrame; split <;> simp +decide

@[simp] theorem guarded_unmapPage (s : State) (r pg : Nat) : guarded (unmapPage s r pg) = guarded s := by
  unfold unmapPage; split <;> simp +decide

@[simp] theorem guarded_endWaits (s : State) (w : Waiter) : guarded (endWaits s w) = guarded s := (rfl)

@[simp] theorem guarded_beginFloat (s : State) (n k : Nat) : guarded (beginFloat s n k) = guarded s := by
  unfold beginFloat; split <;> simp +decide

@[simp] theorem guarded_chooseTake (s : State) (n : Nat) : guarded (chooseTake s n) = guarded s := by
  simp only [chooseTake]
  split
  · simp +decide
  · split <;> simp +decide

@[simp] theorem guarded_removeTake (s : State) (n k : Nat) : guarded (removeTake s n k) = guarded s := by
  simp +decide [removeTake]

@[simp] theorem guarded_addUnder (s : State) (n r : Nat) : guarded (addUnder s n r) = guarded s := by
  simp +decide [addUnder]

@[simp] theorem guarded_endUnder (s : State) (n : Nat) : guarded (endUnder s n) = guarded s := by
  unfold endUnder; split <;> simp +decide

@[simp] theorem guarded_replaceHome (s : State) (n k r : Nat) : guarded (replaceHome s n k r) = guarded s := by
  unfold replaceHome; split <;> simp +decide

@[simp] theorem guarded_freePart (k : Nat) (s : State) (c : StepCore) : guarded (freePart k s c) = guarded s := by
  have h : guarded ((keyCtx s k).elim s (replaceHome s c.core.val k)) = guarded s := by
    cases keyCtx s k <;> simp +decide
  simp [freePart, h]

@[simp] theorem guarded_dropXfers (k : Nat) (s : State) (n : Nat) : guarded (dropXfers k s n) = guarded s := by
  simp +decide [dropXfers]

@[simp] theorem guarded_killPart (k : Nat) (s : State) (c : StepCore) : guarded (killPart k s c) = guarded s := by
  simp +decide [killPart]

@[simp] theorem guarded_freeFloat (r k : Nat) (s : State) (c : StepCore) : guarded (freeFloat r k s c) = guarded s := by
  simp +decide [freeFloat]

@[simp] theorem guarded_noteMismatch (s : State) (r : Nat) (st : Step) : guarded (noteMismatch s r st) = guarded s := by
  simp +decide [noteMismatch]

@[simp] theorem guarded_pairShip (s : State) (r : Nat) (st : Step) : guarded (pairShip s r st) = guarded s := by
  simp +decide [pairShip]

@[simp] theorem guarded_closeStep (s : State) (r : Nat) (st : Step) : guarded (closeStep s r st) = guarded s := by
  simp +decide [closeStep]

@[simp] theorem guarded_dropStep (s : State) (r o : Nat) (st : Step) : guarded (dropStep s r o st) = guarded s := by
  simp +decide [dropStep]

@[simp] theorem guarded_takeLaunch (s : State) (r : Nat) (w : LaunchOf) : guarded (takeLaunch s r w) =
    guarded s := (rfl)

@[simp] theorem guarded_killHome (s : State) (r o : Nat) : guarded (killHome s r o) = guarded s := by
  simp only [killHome]
  split
  · rfl
  · simp only [guarded_closeStep, guarded_modCtx]; split <;> simp

@[simp] theorem guarded_killFloat (r o : Nat) (s : State) (st : Step) : guarded (killFloat r o s st) = guarded s := by
  simp [killFloat]

@[simp] theorem guarded_endHolding (s : State) (r : Nat) : guarded (endHolding s r) = guarded s := by
  simp +decide [endHolding]

@[simp] theorem guarded_freeStaging (s : State) (r : Nat) (l : ReelLoad) : guarded (freeStaging s r l) = guarded s := by
  simp +decide [freeStaging]

@[simp] theorem guarded_reelSignal (s : State) (r : Nat) : guarded (reelSignal s r) = guarded s := by
  simp +decide [reelSignal]

@[simp] theorem guarded_reelFail (s : State) (r result : Nat) : guarded (reelFail s r result) = guarded s := by
  unfold reelFail
  split
  · rfl
  · simp only [reelSignal, guarded_signal]; split <;> simp +decide

@[simp] theorem guarded_toDetect (s : State) (p : Nat) : guarded (toDetect s p) = guarded s := by
  simp +decide [toDetect]


@[simp] theorem guarded_keyLoss (r slot : Nat) (s : State) : guarded (keyLoss r slot s) = guarded s := by
  unfold keyLoss
  split <;> simp

/-! ### The grant of D2 -/

/-- R559: no key is left. -/
theorem keys_emptyKeys (s : State) :
    (emptyKeys s).keys = { s.keys with page := [], transport := [], ephemeral := none } := by
  have h : (dropPageKeys s fun _ => true).keys = { s.keys with page := [] } := by
    simp only [dropPageKeys]
    refine (congrArg Prod.fst (guarded_foldl (fun s k => guarded_keyLoss ..) _ _)).trans ?_
    simp [guarded]
  simp only [emptyKeys, emptyStore, h]

/-- What the grant of D2 ends: the loads of reels and the links,
once the keys are empty and `DBGMAX` and the count stand. -/
def endedByD2 (s : State) : State :=
  ((List.range 48).filter fun p =>
      portState ((s.ctxs.map (·.1)).foldl (fun s r => reelFail s r 4) s) p == 6).foldl toDetect
    ((s.ctxs.map (·.1)).foldl (fun s r => reelFail s r 4) s)

theorem enterD2_eq (s : State) : ∃ nv, enterD2 s =
    endedByD2 { fset (emptyKeys s) F.secStatDbgmax 0 0 2 with nv := nv } := by
  simp only [enterD2]
  split
  · exact ⟨_, rfl⟩
  · exact ⟨(emptyKeys s).nv, rfl⟩

theorem guarded_endedByD2 (s : State) : guarded (endedByD2 s) = guarded s := by
  simp [endedByD2]

theorem sec_endedByD2 (s : State) : (endedByD2 s).sec = s.sec := by
  have h : shell (endedByD2 s) = shell s := by
    simp [endedByD2, toDetect]
  exact congrArg Shell.sec h

/-- R559: what the grant ends does not touch the keys, `DBGMAX` and the level of access. -/
theorem enterD2_fields (s : State) : (enterD2 s).keys = (emptyKeys s).keys ∧
    fget (enterD2 s) F.secStatDbgmax 0 0 = 2 ∧ (enterD2 s).sec = s.sec := by
  obtain ⟨nv, h⟩ := enterD2_eq s
  obtain ⟨hk, hd⟩ := Prod.mk.inj (guarded_endedByD2 { fset (emptyKeys s) F.secStatDbgmax 0 0 2 with nv := nv })
  rw [h]
  exact ⟨hk, hd.trans (fget_fset_same ..), (sec_endedByD2 _).trans (congrArg Shell.sec (shell_emptyKeys s))⟩

theorem grantDebug_d2 (s : State) (h : s.sec.dbg.toNat < 2) : (grantDebug s 2).keys = (emptyKeys s).keys ∧
    (grantDebug s 2).sec.dbg = 2 ∧ fget (grantDebug s 2) F.secStatDbgmax 0 0 = 2 := by
  obtain ⟨hk, hd, hs⟩ := enterD2_fields s
  have hne : (2 = 2 ∧ s.sec.dbg ≠ 2) := ⟨rfl, fun h2 => by simp [h2] at h⟩
  unfold grantDebug
  rw [if_pos hne]
  generalize enterD2 s = u at *
  refine ⟨hk, ?_, ?_⟩
  · show BitVec.ofNat 2 (max 2 u.sec.dbg.toNat) = 2
    rw [hs, max_eq_left h.le]
    rfl
  · show fget (fset u F.secStatDbgmax 0 0 _) F.secStatDbgmax 0 0 = 2
    rw [hd, fget_fset_same]
    rfl

/-! ### Halts, scans and writes by JTAG (R566, Table 17.8) -/

theorem debugAccess_off {s : State} (h : invasive s = false) (n : CoreId) (domains : List ScanDomain) (tgt : JtagTarget)
    (data : Bytes) : exec (.debugHalt n) s = .next s ∧ exec (.scan domains) s = .next s ∧
      exec (.jtagWrite n tgt data) s = .next s := by
  refine ⟨?_, ?_, ?_⟩
  · show execDebugHalt n s = _
    simp [execDebugHalt, h]
  · show execScan domains s = _
    simp [execScan, h]
  · show execJtagWrite n tgt data s = _
    simp [execJtagWrite, h]

theorem exec_debugHalt {s : State} (h : invasive s = true) (n : CoreId) : ∃ t, exec (.debugHalt n) s = .next t ∧
    (core t n.val).dbgHalt = true ∧ ∀ m, m ≠ n.val → core t m = core s m := by
  refine ⟨_, by show execDebugHalt n s = _; rw [execDebugHalt, h]; rfl, ?_, fun m hm => ?_⟩
  · rw [core_modCore_same]
  · rw [core_modCore_ne hm.symm]

theorem exec_scan {s : State} (h : invasive s = true) (domains : List ScanDomain) :
    ∃ t, exec (.scan domains) s = .next t ∧ t = { s with jtag := t.jtag } ∧ t.jtag.held = s.jtag.held ∧
      ∀ d, d ∈ t.jtag.scanned ↔ d ∈ s.jtag.scanned ∨ d ∈ domains := by
  refine ⟨{ s with jtag :=
      { s.jtag with scanned := s.jtag.scanned ++ domains.filter fun d => !s.jtag.scanned.contains d } }, ?_, rfl, rfl,
    fun d => ?_⟩
  · show execScan domains s = _
    simp [execScan, h]
  simp only [List.mem_append, List.mem_filter, Bool.not_eq_true', List.contains_eq_mem, decide_eq_false_iff_not]
  tauto

section
variable {s : State} {n : CoreId} (h : invasive s = true) (hh : (core s n.val).dbgHalt = true)
include h hh

theorem exec_jtagWrite_scratch {a : Nat} {data : Bytes} (ha : a + data.length ≤ 24 * 32768) :
    exec (.jtagWrite n (.scratch a) data) s = .next (modCore s n.val (scratchPut · a data)) := by
  show execJtagWrite n (.scratch a) data s = _
  simp [execJtagWrite, h, hh, ha]

theorem exec_jtagWrite_istore {b : Nat} {data : Bytes} (hd : data.length % 16 = 0)
    (hb : b + data.length / 16 ≤ 4096) :
    exec (.jtagWrite n (.istore b) data) s = .next (modCore s n.val (istorePut · b data)) := by
  show execJtagWrite n (.istore b) data s = _
  simp [execJtagWrite, h, hh, hd, hb]

end

end Sys2Proof.Machine

/-- Settles O57: what a grant of D2 ends leaves the keys and `DBGMAX`,
and the rows of debug access are taken one by one. -/
theorem debugAccess : Obligations.DebugAccess := by
  unfold Obligations.DebugAccess
  intro s n domains data
  refine ⟨fun h => ?_, rfl, fun h tgt => debugAccess_off h n domains tgt data, fun h => ⟨exec_debugHalt h n,
    exec_scan h domains, fun hh => ⟨fun a => exec_jtagWrite_scratch h hh, fun b => exec_jtagWrite_istore h hh⟩⟩,
    fun a _ x hx => mget_mwrite_ne hx⟩
  obtain ⟨hk, hs, hd⟩ := grantDebug_d2 s h
  intro t
  rw [show t.keys = _ from hk.trans (keys_emptyKeys s)]
  exact ⟨rfl, rfl, rfl, hs, hd⟩

end

section
/-! PROOFS. Scope: a device fault. -/

open Sys2Proof Sys2Proof.Machine

namespace Sys2Proof.Machine

/-! ### A device fault under a core that replaces one of a number that no core has

A core notes the number of the failed core that it replaces (R503), and the model gives that number no bound. Where its
part ends, the failed core's bit of `CTX_HOME` is cleared: word `458816 / 64` of slot 0 would stand where `REL_STAT`
    does. -/

/-- A device with a step in progress on core 0, which notes that it replaces core 458,816 for slot 0. -/
def replacingNoCore : State :=
  { State.reset with
    ctxs := [(0, { ctxInit with
      st := .resident, slot := some 0
      step := some { submission State.reset [] [] 0 with cores := [⟨0, 0, 0, .running⟩] } })]
    cores := [(0, { coreInit State.reset.chip 0 with replaces := [(0, 458816)] })] }

theorem key_home_eq_devfault : F.ctxHomeCores.key 0 (458816 / 64) = F.relStatDevfault.key 0 0 := by decide

/-- The end of the step clears the bit that the fault has just set. -/
theorem devfault_deviceFault_replacingNoCore :
    fget (deviceFault replacingNoCore) F.relStatDevfault 0 0 = 0 := by decide +kernel

end Sys2Proof.Machine

/-- Refutes O47: where a core's note of the core that it replaces names a number past the last core (a state that no run
reaches, but that the statement, made of every state, takes in), a device fault leaves `DEVFAULT` of `REL_STAT` at 0. -/
theorem not_coreFaultsAndRetakes : ¬ Obligations.CoreFaultsAndRetakes := by
  unfold Obligations.CoreFaultsAndRetakes
  intro h
  obtain ⟨-, -, -, -, hfault, -⟩ := h replacingNoCore 0 0
  obtain ⟨t, ht, -, hdev, -⟩ := hfault rfl
  obtain rfl : deviceFault replacingNoCore = t := Host.Outcome.next.inj ht
  rw [devfault_deviceFault_replacingNoCore] at hdev
  cases hdev

end

section
/-! PROOFS. Scope: power, convoys and heat. -/

open Sys2Proof Sys2Proof.Machine

namespace Sys2Proof.Machine

/-! ### The limits of the classes, and what a period leaves (R534, R535) -/

/-- An update of the limits alone. -/
def OnlyLimits (s t : State) : Prop := ∃ ls, t = { s with power := { s.power with limits := ls } }

theorem OnlyLimits.refl (s : State) : OnlyLimits s s := ⟨s.power.limits, rfl⟩

theorem OnlyLimits.trans {s t u : State} (h : OnlyLimits s t) (h' : OnlyLimits t u) : OnlyLimits s u := by
  obtain ⟨ls, rfl⟩ := h
  obtain ⟨ms, rfl⟩ := h'
  exact ⟨ms, rfl⟩

theorem onlyLimits_setLimit (s : State) (k v : Nat) : OnlyLimits s (setLimit s k v) := ⟨_, rfl⟩

theorem onlyLimits_ite {s a b : State} {c : Prop} [Decidable c] (ha : OnlyLimits s a) (hb : OnlyLimits s b) :
    OnlyLimits s (if c then a else b) := by
  split
  · exact ha
  · exact hb

theorem onlyLimits_loosen (s : State) (cls p room : Nat) : OnlyLimits s (loosen s cls p room) := by
  have hset := onlyLimits_setLimit s
  have hid := OnlyLimits.refl s
  unfold loosen
  split
  · exact onlyLimits_ite (onlyLimits_ite (hset ..) hid) (onlyLimits_ite (onlyLimits_ite (hset ..) hid)
      (onlyLimits_ite (hset ..) hid))
  · exact onlyLimits_ite (hset ..) hid

theorem onlyLimits_tighten {s t : State} {cls p room : Nat} (h : tighten s cls p room = some t) : OnlyLimits s t := by
  have hset := onlyLimits_setLimit s
  unfold tighten at h
  split at h
  · split at h
    · exact Option.some.inj h ▸ hset ..
    split at h
    · exact Option.some.inj h ▸ hset ..
    split at h
    · exact Option.some.inj h ▸ OnlyLimits.refl s
    split at h
    · exact Option.some.inj h ▸ hset ..
    · cases h
  · split at h
    · exact Option.some.inj h ▸ hset ..
    · cases h

theorem onlyLimits_shareOut (l : List (Nat × Nat × Nat)) (short : Nat) (s : State) :
    OnlyLimits s (shareOut l short s) := by
  induction l generalizing short s with
  | nil => exact OnlyLimits.refl s
  | cons e before ih =>
    obtain ⟨cls, p, room⟩ := e
    simp only [shareOut]
    generalize (if short = 0 then room else min p room - short) = given
    split
    · exact (onlyLimits_loosen ..).trans (ih ..)
    · split
      next t ht => exact (onlyLimits_tighten ht).trans (ih ..)
      next => exact ih ..

/-- Whether a class is throttled is read from the limits alone. -/
theorem capped_congr {s t : State} (h : t.power.limits = s.power.limits) : capped t = capped s := by
  unfold capped powerLimit
  rw [h]

/-- The end of a slowdown, or its going on, touches the ports and its own times. -/
theorem noteSlow_frame (s : State) : ∃ ps o since ann, noteSlow s = { s with
    fab := { s.fab with ports := ps }, out := o
    power := { s.power with capSince := since, announced := ann } } := by
  unfold noteSlow
  dsimp only
  split
  · exact ⟨_, _, _, _, rfl⟩
  split
  · obtain ⟨ps, o, h⟩ := onPorts_frame s fabricUp msgConvoy (convoyNats (ownConvoy s true))
    rw [h]
    exact ⟨_, _, _, _, rfl⟩
  · exact ⟨_, _, _, _, rfl⟩

theorem noteSlow_regs (s : State) : (noteSlow s).regs = s.regs := by
  obtain ⟨ps, o, since, ann, h⟩ := noteSlow_frame s
  rw [h]

theorem putDuties_frame (s : State) : ∃ rs, putDuties s = { s with regs := rs } := ⟨_, rfl⟩

theorem fget_putDuties_ne {g : Fld} {a b : Nat} (h : ∀ k, k < 4 → F.pwrTileDuty.key 0 k ≠ g.key a b) (s : State) :
    fget (putDuties s) g a b = fget s g a b := by
  have h0 := h 0 (by omega)
  have h1 := h 1 (by omega)
  have h2 := h 2 (by omega)
  have h3 := h 3 (by omega)
  show fget (fset (fset (fset (fset s F.pwrTileDuty 0 0 _) F.pwrTileDuty 0 1 _) F.pwrTileDuty 0 2 _)
    F.pwrTileDuty 0 3 _) g a b = _
  rw [fget_fset_ne h3, fget_fset_ne h2, fget_fset_ne h1, fget_fset_ne h0]

/-- The energy of a period counts in its registers. -/
theorem limits_countEnergy (s : State) (e : Nat × Nat) : (countEnergy s e).power.limits = s.power.limits := by
  unfold countEnergy
  dsimp only
  split
  · rfl
  · exact congrArg (·.power.limits) (shell_cset ..)

theorem fget_countEnergy_ne {g : Fld} {a b : Nat} (hu : F.pwrEnergyUj.key 0 0 ≠ g.key a b)
    (hn : F.pwrUnattrUj.key 0 0 ≠ g.key a b) (hc : ∀ sl : Fin 8, F.ctxAcctEnergyUj.key sl.val 0 ≠ g.key a b) (s : State)
    (e : Nat × Nat) : fget (countEnergy s e) g a b = fget s g a b := by
  unfold countEnergy
  dsimp only
  split
  · rw [fget_fset_ne hn, fget_fset_ne hu]; rfl
  · rw [fget_cset_ne hc, fget_fset_ne hu]; rfl

/-- A period's estimates, before the limits move (R533). -/
def estimated (s : State) (counts : List Nat) : State :=
  let p := classPower s counts
  let est := p 0 + p 1 + p 2 + fixedPower s
  let watts (v : Nat) : Nat := min 65535 (v / 10000000)
  let s := fset (fset (fset s F.pwrEstTotal 0 0 (watts est)) F.pwrEstLinks 0 0 (watts (p 0)))
    F.pwrEstCompute 0 0 (watts (p 2))
  { s with power := { s.power with ms := s.power.ms ++ [est] } }

/-- What a period shows and counts once the limits have moved (R535). -/
def shown (s : State) : State :=
  let s := noteSlow (putDuties (fset s F.pwrStatCapped 0 0 (bitNat (capped s))))
  let s := if capped s then fcount s F.pwrThrotCapus 0 0 10 else s
  if (convoyRate s).isSome then fcount s F.pwrConvstatFollowus 0 0 10 else s

/-- The estimates with the limits moved, class by class from the last (R535). -/
def limited (s : State) (counts : List Nat) : State :=
  shareOut (allocate (classPower s counts) (classOrder (estimated s counts))
    (fget (estimated s counts) F.pwrCapWatts 0 0 * 10000000 - fixedPower s)).reverse 0 (estimated s counts)

/-- A period estimates, moves the limits, shows what came of it, and counts the energy. -/
theorem exec_powerPeriod_eq {s : State} (h : powerState s ≠ 3) (counts : List Nat) : exec (.powerPeriod counts) s =
    .next ((energyShares s counts (fixedPower s)).foldl countEnergy (shown (limited s counts))) := by
  show execPowerPeriod counts s = _
  unfold execPowerPeriod shown limited estimated
  rw [if_neg h]

theorem limits_shown (s : State) : (shown s).power.limits = s.power.limits := by
  obtain ⟨ps, o, since, ann, h⟩ := noteSlow_frame (putDuties (fset s F.pwrStatCapped 0 0 (bitNat (capped s))))
  unfold shown
  rw [h]
  dsimp only
  split <;> split <;> rfl

theorem fget_shown_ne {g : Fld} {a b : Nat} (hf : ∀ f ∈ [F.pwrThrotCapus, F.pwrConvstatFollowus], f.key 0 0 ≠ g.key a b)
    (hd : ∀ k, k < 4 → F.pwrTileDuty.key 0 k ≠ g.key a b) (s : State) :
    fget (shown s) g a b = fget (fset s F.pwrStatCapped 0 0 (bitNat (capped s))) g a b := by
  simp only [List.forall_mem_cons] at hf
  obtain ⟨hcap, hfollow, -⟩ := hf
  refine Eq.trans ?_ ((fget_congr (noteSlow_regs _) g a b).trans (fget_putDuties_ne hd _))
  unfold shown
  generalize noteSlow _ = u
  dsimp only
  generalize hv : (if capped u then fcount u F.pwrThrotCapus 0 0 10 else u) = v
  have hvu : fget v g a b = fget u g a b := by
    rw [← hv]
    split
    · exact fget_fcount_ne hcap
    · rfl
  split
  · rw [fget_fcount_ne hfollow, hvu]
  · exact hvu

theorem fget_estimates (s : State) (counts : List Nat) :
    fget (estimated s counts) F.pwrEstLinks 0 0 = min 65535 (classPower s counts 0 / 10000000) ∧
    fget (estimated s counts) F.pwrEstCompute 0 0 = min 65535 (classPower s counts 2 / 10000000) ∧
    fget (estimated s counts) F.pwrEstTotal 0 0 = min 65535
      ((classPower s counts 0 + classPower s counts 1 + classPower s counts 2 + fixedPower s) / 10000000) := by
  have hw (v : Nat) : min 65535 v % 2 ^ 16 = min 65535 v := Nat.mod_eq_of_lt (by omega)
  refine ⟨Eq.trans ?_ (hw _), Eq.trans ?_ (hw _), Eq.trans ?_ (hw _)⟩
  · exact (fget_fset_ne (by decide)).trans (fget_fset_same ..)
  · exact fget_fset_same ..
  · exact (fget_fset_ne (by decide)).trans ((fget_fset_ne (by decide)).trans (fget_fset_same ..))

/-- R533, R534: what a period reports. -/
theorem exec_powerPeriod {s : State} (h : powerState s ≠ 3) (counts : List Nat) :
    ∃ t, exec (.powerPeriod counts) s = .next t ∧
      fget t F.pwrEstLinks 0 0 = min 65535 (classPower s counts 0 / 10000000) ∧
      fget t F.pwrEstCompute 0 0 = min 65535 (classPower s counts 2 / 10000000) ∧
      fget t F.pwrEstTotal 0 0 = min 65535
        ((classPower s counts 0 + classPower s counts 1 + classPower s counts 2 + fixedPower s) / 10000000) ∧
      fget t F.pwrStatCapped 0 0 = bitNat (capped t) := by
  have he := exec_powerPeriod_eq h counts
  have hu : OnlyLimits (estimated s counts) (limited s counts) := onlyLimits_shareOut ..
  generalize limited s counts = u at he hu
  generalize energyShares s counts (fixedPower s) = shares at he
  have hkept {g : Fld} (hu : F.pwrEnergyUj.key 0 0 ≠ g.key 0 0) (hn : F.pwrUnattrUj.key 0 0 ≠ g.key 0 0)
      (hc : ∀ sl : Fin 8, F.ctxAcctEnergyUj.key sl.val 0 ≠ g.key 0 0) :
      fget (shares.foldl countEnergy (shown u)) g 0 0 = fget (shown u) g 0 0 :=
    foldl_keeps (fget · g 0 0) (fun s e => fget_countEnergy_ne hu hn hc s e) shares _
  have hcapped : capped (shares.foldl countEnergy (shown u)) = capped u :=
    capped_congr ((foldl_keeps (·.power.limits) limits_countEnergy shares _).trans (limits_shown u))
  obtain ⟨ls, rfl⟩ := hu
  obtain ⟨hlinks, hcompute, htotal⟩ := fget_estimates s counts
  refine ⟨_, he, ?_, ?_, ?_, ?_⟩
  · rw [hkept (by decide) (by decide) (by decide), fget_shown_ne (by decide) (by decide), fget_fset_ne (by decide)]
    exact hlinks
  · rw [hkept (by decide) (by decide) (by decide), fget_shown_ne (by decide) (by decide), fget_fset_ne (by decide)]
    exact hcompute
  · rw [hkept (by decide) (by decide) (by decide), fget_shown_ne (by decide) (by decide), fget_fset_ne (by decide)]
    exact htotal
  · rw [hkept (by decide) (by decide) (by decide), fget_shown_ne (by decide) (by decide), fget_fset_same, hcapped]
    generalize capped _ = b
    cases b <;> rfl

/-! ### The calibration (R538) -/

theorem newGain_bounds (g meas sum n : Nat) : 2048 ≤ newGain g meas sum n ∧ newGain g meas sum n ≤ 8192 := by
  unfold newGain
  dsimp only
  omega

/-- The measurement, and the next millisecond. -/
def measured (s : State) (meas : Nat) : State :=
  let s := fset (fset (fset s F.pwrMeasVin 0 0 (bitsOf meas 0 16)) F.pwrMeasIin 0 0 (bitsOf meas 16 16))
    F.pwrMeasWatts 0 0 (bitsOf meas 32 16)
  { s with power := { s.power with ms := [] } }

theorem exec_powerCalibration_eq {s : State} (h : powerState s ≠ 3) (meas : Nat) :
    exec (.powerCalibration meas) s = .next (if s.power.ms.sum = 0 then measured s meas
      else fset (measured s meas) F.pwrEstGain 0 0
        (newGain (fget (measured s meas) F.pwrEstGain 0 0) (bitsOf meas 32 16) s.power.ms.sum s.power.ms.length)) := by
  show execPowerCalibration meas s = _
  unfold execPowerCalibration
  rw [if_neg h]
  rfl

theorem fget_measured (s : State) (meas : Nat) : fget (measured s meas) F.pwrMeasVin 0 0 = bitsOf meas 0 16 ∧
    fget (measured s meas) F.pwrMeasIin 0 0 = bitsOf meas 16 16 ∧
    fget (measured s meas) F.pwrMeasWatts 0 0 = bitsOf meas 32 16 := by
  have hb (lo : Nat) : bitsOf meas lo 16 % 2 ^ 16 = bitsOf meas lo 16 := Nat.mod_mod _ _
  refine ⟨Eq.trans ?_ (hb _), Eq.trans ?_ (hb _), Eq.trans ?_ (hb _)⟩
  · exact (fget_fset_ne (by decide)).trans ((fget_fset_ne (by decide)).trans (fget_fset_same ..))
  · exact (fget_fset_ne (by decide)).trans (fget_fset_same ..)
  · exact fget_fset_same ..

theorem exec_powerCalibration {s : State} (h : powerState s ≠ 3) (meas : Nat) :
    ∃ t, exec (.powerCalibration meas) s = .next t ∧ t.power.ms = [] ∧
      fget t F.pwrMeasVin 0 0 = bitsOf meas 0 16 ∧ fget t F.pwrMeasIin 0 0 = bitsOf meas 16 16 ∧
      fget t F.pwrMeasWatts 0 0 = bitsOf meas 32 16 ∧
      (s.power.ms.sum ≠ 0 → 2048 ≤ fget t F.pwrEstGain 0 0 ∧ fget t F.pwrEstGain 0 0 ≤ 8192) := by
  obtain ⟨hvin, hiin, hwatts⟩ := fget_measured s meas
  refine ⟨_, exec_powerCalibration_eq h meas, ?_⟩
  have hms : (measured s meas).power.ms = [] := rfl
  generalize measured s meas = u at *
  split
  next h0 => exact ⟨hms, hvin, hiin, hwatts, fun hne => absurd h0 hne⟩
  next =>
    rw [fget_fset_ne (by decide), fget_fset_ne (by decide), fget_fset_ne (by decide), fget_fset_same]
    refine ⟨hms, hvin, hiin, hwatts, fun _ => ?_⟩
    obtain ⟨hlow, hhigh⟩ := newGain_bounds (fget u F.pwrEstGain 0 0) (bitsOf meas 32 16) s.power.ms.sum
        s.power.ms.length
    rw [Nat.mod_eq_of_lt (lt_of_le_of_lt hhigh (by decide))]
    exact ⟨hlow, hhigh⟩

/-! ### The cap, RETAIN and IDLE (R539, R541, R569) -/

theorem fbit_powerFlag_same (s : State) {f : Fld} (hw : f.w = 1) (hf : F.glbIrqstatPower.key 0 0 ≠ f.key 0 0) :
    fbit (powerFlag s f) f 0 0 = true := by
  unfold powerFlag
  split
  next h => exact h
  next =>
    rw [fbit, fget_glbIrq_ne hf, fget_fset_same, hw]
    rfl

theorem fget_powerFlag_ne {f g : Fld} {a b : Nat} (h : f.key 0 0 ≠ g.key a b)
    (hi : F.glbIrqstatPower.key 0 0 ≠ g.key a b)
    (s : State) : fget (powerFlag s f) g a b = fget s g a b := by
  unfold powerFlag
  split
  · rfl
  · rw [fget_glbIrq_ne hi, fget_fset_ne h]

theorem exec_capWrite {s : State} {src : MbSrc} (hp : src = .pcie → writeOpen s true = true)
    (hi : src = .i3c → s.pins.vaux = true ∧ powerState s ≠ 3) (w : RegWrite) :
    exec (.capWrite src w) s = .next (putCap s w) := by
  show execCapWrite src w s = _
  unfold execCapWrite
  cases src with
  | pcie => exact onBar_open (hp rfl) _
  | i3c =>
    obtain ⟨hv, h3⟩ := hi rfl
    simp [hv, h3]

theorem putCap_refused {s : State} {w : RegWrite} (hc : covered w.half F.pwrCapWatts = true)
    (h : wval w F.pwrCapWatts < 600 ∨ 2400 < wval w F.pwrCapWatts ∨
    wval w F.pwrCapWatts < floorSum s) : putCap s w = powerFlag s F.pwrStatCapref := by
  unfold putCap
  rw [if_neg (by simp [hc])]
  exact if_pos h

section
variable {s : State} {w : RegWrite} (hw : writeOpen s true = true) (hc : covered w.half F.pwrCtlReq = true)
include hw hc

theorem exec_retainRequest (h1 : wval w F.pwrCtlReq = 1) (hp : powerState s ≤ 1) : exec (.retainRequest w) s =
    .next (if mbBusy s then fset s F.pwrCtlReq 0 0 1 else retain s) := by
  show execRetainRequest w s = _
  rw [execRetainRequest, onBar_open hw, pwrCtl, if_neg (by simp [hc]), h1]
  exact congrArg Host.Outcome.next (if_neg (by omega))

theorem exec_retainExit (h2 : wval w F.pwrCtlReq = 2) (hp : powerState s = 2) : exec (.retainExit w) s =
    .next (leaveRetain s) := by
  show execRetainExit w s = _
  rw [execRetainExit, onBar_open hw, pwrCtl, if_neg (by simp [hc]), h2]
  exact congrArg Host.Outcome.next (if_pos hp)

end

/-- The end of a request for RETAIN does not make a device busy. -/
theorem deviceBusy_fset_req (s : State) (v : Nat) : deviceBusy (fset s F.pwrCtlReq 0 0 v) = deviceBusy s := by
  unfold deviceBusy
  congr 1
  refine List.any_congr rfl fun e => ?_
  rw [cget_fset_global (by decide)]

theorem retain_refused {s : State} (h : deviceBusy s = true ∨ s.ctxs.any (fun e => queued e.2 != 0) = true) :
    retain s = powerFlag (fset s F.pwrCtlReq 0 0 0) F.pwrStatReqref := by
  unfold retain
  exact if_pos (by rwa [deviceBusy_fset_req])

theorem retain_entered {s : State} (hb : deviceBusy s = false) (hq : s.ctxs.any (fun e => queued e.2 != 0) = false) :
    retain s = enterRetain (fset s F.pwrCtlReq 0 0 0) := by
  unfold retain
  refine if_neg ?_
  rw [deviceBusy_fset_req]
  show ¬(_ ∨ s.ctxs.any _ = true)
  simp only [hb, hq, Bool.false_eq_true, or_self, not_false_eq_true]

theorem powerState_enterRetain (s : State) : powerState (enterRetain s) = 2 := fget_fset_same ..

theorem powerState_leaveRetain (s : State) : powerState (leaveRetain s) = 0 := fget_fset_same ..

/-! ### Clocks, droops and fill-light (R533, R543) -/

theorem exec_idleEntry {s : State} (hp : powerState s = 0) (hb : deviceBusy s = false) :
    exec .idleEntry s = .next (fset s F.pwrStatState 0 0 1) := by
  show execIdleEntry s = _
  rw [execIdleEntry, if_neg (by simp [hp, hb])]

section
variable {s : State} {t : TileId} (hp : powerState s < 2)
include hp

theorem exec_frequencyStep (hne : tileFreq s t.val ≠ freqTarget s t.val) : exec (.frequencyStep t) s =
    .next (fset s F.pwrTileFreq 0 t.val
      (if tileFreq s t.val < freqTarget s t.val then max (tileFreq s t.val + 1) (fMin s) else tileFreq s t.val - 1))
          := by
  show execFrequencyStep t s = _
  unfold execFrequencyStep
  exact if_neg (by omega)

theorem exec_droop (ht : tget s.power.stretch t.val false = false) : exec (.droop t) s = .next (fcount
    { s with power := { s.power with stretch := tset s.power.stretch t.val true } } F.pwrThrotDroops 0 0 1) := by
  show execDroop t s = _
  rw [execDroop, if_neg (by simp [ht]; omega)]

end

theorem exec_frequencyStep_still {s : State} {t : TileId} (h : freqTarget s t.val = tileFreq s t.val) :
    exec (.frequencyStep t) s = .next s := by
  show execFrequencyStep t s = _
  unfold execFrequencyStep
  exact if_pos (.inr h.symm)

theorem exec_fillLightTimeout {s : State} {n : CoreId} (hc : clockRuns s (coreClock n.val) = true)
    (h : fillLevel s n.val ≠ 0) : exec (.fillLightTimeout n) s =
      .next (modCore s n.val fun c => { c with unlit := some (c.running, c.cycle) }) := by
  show execFillLightTimeout n s = _
  rw [execFillLightTimeout, onClock_runs hc, if_neg h]

/-! ### Convoys (R544, R545) -/

/-- Whether the slowdown is due to be announced. -/
def announceDue (s : State) : Bool :=
  match s.power.capSince, s.power.announced with
  | some _, some t => decide (t + 100000 ≤ s.tcount)
  | some t, none => decide (t + 200000 ≤ s.tcount)
  | none, _ => false

/-- The slowdown announced on every port, and counted. -/
def announced (s : State) : State :=
  let u := onPorts s fabricUp msgConvoy (convoyNats (ownConvoy s false))
  fcount { u with power := { u.power with announced := some u.tcount } } F.pwrThrotAnnounces 0 0 1

theorem exec_convoyAnnounce {s : State} (ha : fbit s F.pwrConvoyAnnounce 0 0 = true) (hp : powerState s = 0) :
    exec .convoyAnnounce s = .next (if announceDue s then announced s else s) := by
  show execConvoyAnnounce s = _
  unfold execConvoyAnnounce
  by_cases hd : announceDue s = true
  · rw [if_pos hd]
    exact if_neg (show ¬(_ ∨ (!announceDue s) = true ∨ _) by simp [ha, hp, hd])
  · rw [if_neg hd]
    exact if_pos (show _ ∨ (!announceDue s) = true ∨ _ by simp [hd])

/-- Whether the same announcement was heard less than 50 µs ago. -/
def heardAgain (s : State) (m : Convoy) (rate : Nat) : Bool :=
  match tfind s.power.heard m.dev.toNat with
  | some (g, r, t) => g == m.group && r == rate && decide (s.tcount < t + 50000)
  | none => false

/-- An announcement that says something else than the last one, or comes 50 µs after it, is new. -/
theorem heardAgain_new {s : State} {m : Convoy} {rate : Nat}
    (h : ∀ g r last, tfind s.power.heard m.dev.toNat = some (g, r, last) →
      g ≠ m.group ∨ r ≠ rate ∨ last + 50000 ≤ s.tcount) : ¬heardAgain s m rate = true := by
  unfold heardAgain
  cases ht : tfind s.power.heard m.dev.toNat with
  | none => simp
  | some e =>
    obtain ⟨g, r, last⟩ := e
    obtain hg | hr | hlast := h g r last ht
    · simp [hg]
    · simp [hr]
    · simp only [Bool.and_eq_true, decide_eq_true_eq]
      omega

theorem exec_convoyReceive {s : State} {p : PortId} {m : Convoy} (hc : clockRuns s (portClock p.val) = true)
    (hf : fabricUp s p.val = true) (hd : m.dev.toNat ≠ ownDev s) :
    exec (.convoyReceive p m) s = .next (if heardAgain s m (if m.release then 0 else m.rate) then s else
      let u := onPorts s (fun s q => fabricUp s q && q != p.val) msgConvoy (convoyNats m)
      showConvoy { u with power := { u.power with
        heard := tset u.power.heard m.dev.toNat (m.group, if m.release then 0 else m.rate, u.tcount) } }) := by
  show execConvoyReceive p m s = _
  unfold execConvoyReceive
  rw [onClock_runs hc]
  change (if (!fabricUp s p.val || heardAgain s m (if m.release then 0 else m.rate) || m.dev.toNat == ownDev s) =
      true then _
    else _) = _
  rw [hf, beq_false_of_ne hd]
  cases heardAgain s m (if m.release then 0 else m.rate) <;> rfl

theorem exec_convoyExpire {s : State} {dev : BitVec 12} {g : BitVec 16} {rate last : Nat}
    (h : tfind s.power.heard dev.toNat = some (g, rate, last)) : exec (.convoyExpire dev) s =
      .next (if s.tcount < last + 500000 then s
        else showConvoy { s with power := { s.power with heard := tdel s.power.heard dev.toNat } }) := by
  show execConvoyExpire dev s = _
  unfold execConvoyExpire
  rw [h]
  exact (apply_ite Host.Outcome.next ..).symm

/-! ### Heat (R546, R547) -/

/-- A thermal step moves the limits of the tiles and of the edges, nothing else. -/
def OnlyThermal (s t : State) : Prop := ∃ ls, t = { s with power := { s.power with thermal := ls } }

theorem OnlyThermal.refl (s : State) : OnlyThermal s s := ⟨s.power.thermal, rfl⟩

theorem OnlyThermal.trans {s t u : State} (h : OnlyThermal s t) (h' : OnlyThermal t u) : OnlyThermal s u := by
  obtain ⟨ls, rfl⟩ := h
  obtain ⟨ms, rfl⟩ := h'
  exact ⟨ms, rfl⟩

theorem onlyThermal_foldl {α : Type} {f : State → α → State} (h : ∀ s a, OnlyThermal s (f s a)) (l : List α)
    (s : State) :
    OnlyThermal s (l.foldl f s) := by
  induction l generalizing s with
  | nil => exact OnlyThermal.refl s
  | cons a l ih => exact (h s a).trans (ih _)

theorem onlyThermal_setThermal (s : State) (k v : Nat) : OnlyThermal s (setThermal s k v) := ⟨_, rfl⟩

theorem onlyThermal_tileThermal (s : State) (t : Nat) (c : Int) : OnlyThermal s (tileThermal s t c) := by
  unfold tileThermal
  dsimp only
  split
  · split <;> exact onlyThermal_setThermal ..
  split
  · split <;> exact onlyThermal_setThermal ..
  · exact OnlyThermal.refl s

theorem onlyThermal_edgeThermal (s : State) (hot cool : Bool) : OnlyThermal s (edgeThermal s hot cool) := by
  refine onlyThermal_foldl (fun s k => ?_) _ s
  dsimp only
  split
  · exact onlyThermal_setThermal ..
  split
  · exact onlyThermal_setThermal ..
  · exact OnlyThermal.refl s

/-- The temperatures as they are reported. -/
def reported (s : State) (temps : List Nat) : State :=
  fset ((List.range 4).foldl (fun s t => fset s F.pwrTileTemp 0 t (temps.getD (t + 1) 0)) s) F.mgTempTemp 0 0
    (leNat (temps.map (BitVec.ofNat 8)))

/-- A temperature, with its sign. -/
def celsius (temps : List Nat) (i : Nat) : Int := signed8 (temps.getD i 0 % 256)

/-- The limits moved by the temperatures. -/
def heated (s : State) (temps : List Nat) : State :=
  edgeThermal ((List.range 4).foldl (fun s t => tileThermal s t (celsius temps (t + 1))) (reported s temps))
    (decide (100 ≤ celsius temps 0 ∨ 100 ≤ celsius temps 5)) (decide (celsius temps 0 < 98 ∧ celsius temps 5 < 98))

/-- The limit shown, with its alert. -/
def alerted (s : State) : State :=
  if (List.range 4).any fun t => decide (thermalLimit s t < 100) then
    raiseAlert (powerFlag s F.pwrStatThermal) F.mgAlertThermal
  else fset s F.pwrStatThermal 0 0 0

def allCelsius (temps : List Nat) : List Int := (List.range 6).map (celsius temps)

/-- `THERM_N` after a thermal step. -/
def thermPin (temps : List Nat) (was : Bool) : Bool :=
  if (allCelsius temps).any (fun x => decide (105 ≤ x)) then false
  else was || (allCelsius temps).all (fun x => decide (x < 100))

/-- A thermal step, but for the rails. -/
def thermalDone (s : State) (temps : List Nat) : State :=
  let s := alerted (heated s temps)
  noteSlow (putDuties { s with pins := { s.pins with thermN := thermPin temps s.pins.thermN } })

/-- The rails off after a device fault, with `THERM_N` as it was. -/
def meltdown (s : State) : State :=
  let pin := s.pins.thermN
  let s := railsOff (deviceFault s)
  { s with pins := { s.pins with thermN := pin } }

theorem exec_thermalStep_eq {s : State} {temps : List Nat} (hl : temps.length = 6) (hp : powerState s ≠ 3) :
    exec (.thermalStep temps) s = .next (if (allCelsius temps).any (fun x => decide (110 ≤ x)) then
      meltdown (thermalDone s temps) else thermalDone s temps) := by
  show execThermalStep temps s = _
  unfold execThermalStep
  rw [if_neg (by simp [hl]), if_neg hp, apply_ite Host.Outcome.next]
  rfl

theorem leNat_lt (bs : Bytes) : leNat bs < 256 ^ bs.length := by
  induction bs with
  | nil => decide
  | cons b bs ih =>
    have := b.isLt
    simp only [leNat, List.length_cons, Nat.pow_succ]
    omega

section
variable {temps : List Nat} (hl : temps.length = 6) (hr : ∀ x ∈ temps, x < 128)
include hl hr

/-- Temperatures below 128 are what they are. -/
theorem allCelsius_eq : allCelsius temps = temps.map fun x : Nat => (x : Int) := by
  refine List.ext_getElem (by simp [allCelsius, hl]) fun i h _ => ?_
  have hi : i < temps.length := by simpa [allCelsius, hl] using h
  have hx := hr _ (List.getElem_mem hi)
  simp only [allCelsius, celsius, signed8, List.getElem_map, List.getElem_range, List.getD_eq_getElem _ _ hi]
  rw [Nat.mod_eq_of_lt (by omega), if_pos hx]

theorem any_celsius (k : Nat) : (allCelsius temps).any (fun x => decide
    ((k : Int) ≤ x)) = true ↔ ∃ x ∈ temps, k ≤ x := by
  simp [allCelsius_eq hl hr]

theorem all_celsius (k : Nat) : (allCelsius temps).all (fun x => decide (x <
    (k : Int))) = true ↔ ∀ x ∈ temps, x < k := by
  simp [allCelsius_eq hl hr]

/-- R547: `THERM_N` asserts at 105 °C, and releases below 100 °C. -/
theorem thermPin_hot (was : Bool) (h : ∃ x ∈ temps, 105 ≤ x) : thermPin temps was = false :=
  if_pos ((any_celsius hl hr 105).2 h)

theorem thermPin_cool (was : Bool) (h : ∀ x ∈ temps, x < 105) :
    thermPin temps was = (was || (allCelsius temps).all (fun x => decide (x < 100))) :=
  if_neg fun hx => by
    obtain ⟨x, hm, hx⟩ := (any_celsius hl hr 105).1 hx
    exact absurd (h x hm) (by omega)

theorem fget_reported_temp (s : State) {k : Nat} (hk : k < 4) :
    fget (reported s temps) F.pwrTileTemp 0 k = temps.getD (k + 1) 0 := by
  have hx : temps.getD (k + 1) 0 < 128 := by
    rw [List.getD_eq_getElem _ _ (by omega)]
    exact hr _ (List.getElem_mem _)
  refine Eq.trans ?_ (Nat.mod_eq_of_lt (b := 2 ^ F.pwrTileTemp.w) (lt_trans hx (by decide)))
  have hk4 : ∀ j : Fin 4, F.mgTempTemp.key 0 0 ≠ F.pwrTileTemp.key 0 j.val := by decide
  unfold reported
  rw [fget_fset_ne (hk4 ⟨k, hk⟩)]
  show fget (fset (fset (fset (fset s F.pwrTileTemp 0 0 _) F.pwrTileTemp 0 1 _) F.pwrTileTemp 0 2 _)
    F.pwrTileTemp 0 3 _) F.pwrTileTemp 0 k = _
  obtain rfl | rfl | rfl | rfl : k = 0 ∨ k = 1 ∨ k = 2 ∨ k = 3 := by omega
  · rw [fget_fset_ne (by decide), fget_fset_ne (by decide), fget_fset_ne (by decide), fget_fset_same]
  · rw [fget_fset_ne (by decide), fget_fset_ne (by decide), fget_fset_same]
  · rw [fget_fset_ne (by decide), fget_fset_same]
  · rw [fget_fset_same]

omit hr in
theorem fget_reported_mg (s : State) :
    fget (reported s temps) F.mgTempTemp 0 0 = leNat (temps.map (BitVec.ofNat 8)) := by
  refine (fget_fset_same ..).trans (Nat.mod_eq_of_lt ?_)
  have := leNat_lt (temps.map (BitVec.ofNat 8))
  rwa [List.length_map, hl] at this

end

theorem onlyThermal_heated (s : State) (temps : List Nat) : OnlyThermal (reported s temps) (heated s temps) :=
  (onlyThermal_foldl (fun _ _ => onlyThermal_tileThermal ..) _ _).trans (onlyThermal_edgeThermal ..)

theorem alerted_frame (s : State) : ∃ rs n o, alerted s =
    { s with regs := rs, pins := { s.pins with alertN := n }, out := o } := by
  unfold alerted
  split
  · obtain ⟨rs, n, o, h⟩ := raiseAlert_frame (powerFlag s F.pwrStatThermal) F.mgAlertThermal
    rw [h]
    unfold powerFlag
    split
    · exact ⟨_, _, _, rfl⟩
    · obtain ⟨rs', o', h'⟩ := glbIrq_frame (fset s F.pwrStatThermal 0 0 1) F.glbIrqstatPower
      rw [h']
      exact ⟨_, _, _, rfl⟩
  · exact ⟨_, s.pins.alertN, s.out, rfl⟩

theorem fget_alerted_ne {g : Fld} {a b : Nat}
    (h : ∀ f ∈ [F.pwrStatThermal, F.mgAlertThermal, F.glbIrqstatPower], f.key 0 0 ≠ g.key a b) (s : State) :
    fget (alerted s) g a b = fget s g a b := by
  simp only [List.forall_mem_cons] at h
  obtain ⟨ht, ha, hi, -⟩ := h
  unfold alerted
  split
  · rw [fget_raiseAlert_ne ha, fget_powerFlag_ne ht hi]
  · exact fget_fset_ne ht

/-- What a thermal step leaves of a report, and of the pins. -/
theorem thermalDone_fields (s : State) (temps : List Nat) :
    (thermalDone s temps).faulted = s.faulted ∧
    (thermalDone s temps).pins.thermN = thermPin temps s.pins.thermN := by
  obtain ⟨ls, hh⟩ := onlyThermal_heated s temps
  obtain ⟨rs, n, o, ha⟩ := alerted_frame (heated s temps)
  unfold thermalDone
  obtain ⟨ps, o', since, ann, hn⟩ := noteSlow_frame (putDuties { alerted (heated s temps) with
    pins := { (alerted (heated s temps)).pins with thermN := thermPin temps (alerted (heated s temps)).pins.thermN } })
  dsimp only
  rw [hn, ha, hh]
  exact ⟨rfl, rfl⟩

theorem fget_thermalDone_ne {g : Fld} {a b : Nat}
    (h : ∀ f ∈ [F.pwrStatThermal, F.mgAlertThermal, F.glbIrqstatPower], f.key 0 0 ≠ g.key a b)
    (hd : ∀ k, k < 4 → F.pwrTileDuty.key 0 k ≠ g.key a b) (s : State) (temps : List Nat) :
    fget (thermalDone s temps) g a b = fget (reported s temps) g a b := by
  obtain ⟨ls, hh⟩ := onlyThermal_heated s temps
  refine (fget_congr (noteSlow_regs _) g a b).trans ((fget_putDuties_ne hd _).trans ((fget_alerted_ne h _).trans ?_))
  rw [hh]
  rfl

/-- R494: a device fault ends with the alert and the interrupt. -/
theorem deviceFault_ends {s : State} (h : s.faulted = false) :
    ∃ u, deviceFault s = glbIrq (raiseAlert u F.mgAlertDevfault) F.glbIrqstatDevfault := by
  unfold deviceFault
  rw [if_neg (by simp [h])]
  exact ⟨_, rfl⟩

theorem fget_deviceFault_alert {s : State} (h : s.faulted = false) : fget
    (deviceFault s) F.mgAlertDevfault 0 0 = 1 := by
  obtain ⟨u, hu⟩ := deviceFault_ends h
  rw [hu, fget_glbIrq_ne (by decide), fget_raiseAlert_same]
  rfl

/-- Of the registers the rails take all but those of the always-on domain. -/
theorem fget_railsOff_on {s : State} {g : Fld} {a b : Nat} (hk : aonReg (g.key a b, 0) = true)
    (hs : F.secMbctlGo.key 0 0 ≠ g.key a b) (hm : F.mgMbctlGo.key 0 0 ≠ g.key a b) :
    fget (railsOff s) g a b = fget s g a b := by
  refine Eq.trans ?_ ((fget_fset_ne (v := 0) hm).trans (fget_fset_ne (v := 0) hs))
  exact congrArg (·.getD g.cold) (tfind_filter_keep _ (f := fun k => aonReg (k, 0)) hk)

theorem fget_railsOff_off (s : State) {g : Fld} {a b : Nat} (hk : aonReg (g.key a b, 0) = false) :
    fget (railsOff s) g a b = g.cold :=
  congrArg (·.getD g.cold) (tfind_filter_drop _ (f := fun k => aonReg (k, 0)) hk)

/-- R547: at 110 °C the rails go off, and the fault stands in the always-on domain. -/
theorem meltdown_fields (s : State) : powerState (meltdown s) = 3 ∧ (meltdown s).power.railsUp = false ∧
    (meltdown s).pins.thermN = s.pins.thermN ∧ (s.faulted = false → fget (meltdown s) F.mgAlertDevfault 0 0 = 1) :=
  ⟨fget_railsOff_off (deviceFault s) (by decide), rfl, rfl, fun h =>
    (fget_railsOff_on (s := deviceFault s) (by decide) (by decide) (by decide)).trans (fget_deviceFault_alert h)⟩

section
variable {s : State} {temps : List Nat} (hl : temps.length = 6) (hr : ∀ x ∈ temps, x < 128) (hp : powerState s ≠ 3)
include hl hr hp

theorem exec_thermalStep_below (h : ∀ x ∈ temps, x < 110) :
    exec (.thermalStep temps) s = .next (thermalDone s temps) := by
  rw [exec_thermalStep_eq hl hp, if_neg]
  intro hx
  obtain ⟨x, hm, hx⟩ := (any_celsius hl hr 110).1 hx
  exact absurd (h x hm) (by omega)

theorem exec_thermalStep_above (h : ∃ x ∈ temps, 110 ≤ x) :
    exec (.thermalStep temps) s = .next (meltdown (thermalDone s temps)) := by
  rw [exec_thermalStep_eq hl hp]
  exact congrArg Host.Outcome.next (if_pos ((any_celsius hl hr 110).2 h))

theorem thermalStep_below (h : ∀ x ∈ temps, x < 110) : ∃ t, exec (.thermalStep temps) s = .next t ∧
    (∀ k, k < 4 → fget t F.pwrTileTemp 0 k = temps.getD (k + 1) 0) ∧
    fget t F.mgTempTemp 0 0 = leNat (temps.map (BitVec.ofNat 8)) ∧
    ((∃ x ∈ temps, 105 ≤ x) → t.pins.thermN = false) ∧ ((∀ x ∈ temps, x < 100) → t.pins.thermN = true) ∧
    ((∀ x ∈ temps, x < 105) → (∃ x ∈ temps, 100 ≤ x) → t.pins.thermN = s.pins.thermN) := by
  obtain ⟨-, hpin⟩ := thermalDone_fields s temps
  refine ⟨_, exec_thermalStep_below hl hr hp h, fun k hk => ?_, ?_, fun h => ?_, fun h => ?_, fun h h' => ?_⟩
  · have htherm : ∀ j : Fin 4, ∀ f ∈ [F.pwrStatThermal, F.mgAlertThermal, F.glbIrqstatPower],
        f.key 0 0 ≠ F.pwrTileTemp.key 0 j.val := by decide
    have hduty : ∀ j : Fin 4, ∀ i, i < 4 → F.pwrTileDuty.key 0 i ≠ F.pwrTileTemp.key 0 j.val := by decide
    rw [fget_thermalDone_ne (htherm ⟨k, hk⟩) (hduty ⟨k, hk⟩), fget_reported_temp hl hr s hk]
  · rw [fget_thermalDone_ne (by decide) (by decide), fget_reported_mg hl]
  · rw [hpin, thermPin_hot hl hr _ h]
  · have hall : (allCelsius temps).all (fun x => decide (x < 100)) = true := (all_celsius hl hr 100).2 h
    rw [hpin, thermPin_cool hl hr _ fun x hx => lt_trans (h x hx) (by decide), hall, Bool.or_true]
  · have hnot : (allCelsius temps).all (fun x => decide (x < 100)) = false := by
      refine Bool.eq_false_iff.2 fun hall => ?_
      obtain ⟨x, hm, hx⟩ := h'
      exact absurd ((all_celsius hl hr 100).1 hall x hm) (by omega)
    rw [hpin, thermPin_cool hl hr _ h, hnot, Bool.or_false]

theorem thermalStep_above (h : ∃ x ∈ temps, 110 ≤ x) : ∃ t, exec (.thermalStep temps) s = .next t ∧
    powerState t = 3 ∧ t.power.railsUp = false ∧ t.pins.thermN = false ∧
    (s.faulted = false → fget t F.mgAlertDevfault 0 0 = 1) := by
  obtain ⟨hfault, hpin⟩ := thermalDone_fields s temps
  obtain ⟨hstate, hrails, htherm, halert⟩ := meltdown_fields (thermalDone s temps)
  obtain ⟨x, hm, hx⟩ := h
  refine ⟨_, exec_thermalStep_above hl hr hp ⟨x, hm, hx⟩, hstate, hrails, ?_, fun hf => halert (hfault.trans hf)⟩
  rw [htherm, hpin, thermPin_hot hl hr _ ⟨x, hm, by omega⟩]

end

end Sys2Proof.Machine

/-- Settles O54, clause by clause: what each command of power, convoys and heat runs to, and what it leaves. -/
theorem powerConvoysAndHeat : Obligations.PowerConvoysAndHeat := by
  unfold Obligations.PowerConvoysAndHeat
  refine ⟨fun s w t4 n => ⟨fun counts hp => exec_powerPeriod hp counts, fun meas hp => exec_powerCalibration hp meas,
      fun src hp hi hc => ?cap, fun hw hc => ?retain, fun hp hb => exec_idleEntry hp hb, fun hp => ?clock, rfl,
      fun hc h => exec_fillLightTimeout hc h⟩,
    fun s p m dev => ⟨fun ha hp since hs => ?announce, fun hc hf hd => ?receive, fun g rate last h => ?expire,
      fun temps hl hr hp => ⟨thermalStep_below hl hr hp, thermalStep_above hl hr hp⟩⟩⟩
  case cap =>
    refine ⟨fun h600 h2400 hf => ?_, fun h => ⟨_, exec_capWrite hp hi w, ?_⟩⟩
    · rw [exec_capWrite hp hi, putCap_taken hc h600 h2400 hf]
    · rw [putCap_refused hc h]
      exact ⟨fbit_powerFlag_same s rfl (by decide), fget_powerFlag_ne (by decide) (by decide) s⟩
  case retain =>
    refine ⟨fun h1 hp => ⟨fun hb => ?_, fun hb h => ⟨_, exec_retainRequest hw hc h1 hp, ?_⟩,
      fun hb hd hq => ⟨_, exec_retainRequest hw hc h1 hp, ?_⟩⟩, fun h2 hp => ⟨_, exec_retainExit hw hc h2 hp, ?_⟩⟩
    · rw [exec_retainRequest hw hc h1 hp, if_pos hb]
    · rw [hb, if_neg Bool.false_ne_true, retain_refused h]
      exact ⟨fbit_powerFlag_same _ rfl (by decide),
        (fget_powerFlag_ne (by decide) (by decide) _).trans (fget_fset_ne (by decide))⟩
    · rw [hb, if_neg Bool.false_ne_true, retain_entered hd hq, powerState_enterRetain]
    · exact powerState_leaveRetain s
  case clock =>
    refine ⟨fun h => ?_, fun h => ?_, exec_frequencyStep_still, fun ht => ⟨_, exec_droop hp ht, ?_, ?_⟩⟩
    · rw [exec_frequencyStep hp (Nat.ne_of_lt h), if_pos h]
    · rw [exec_frequencyStep hp (Nat.ne_of_gt h), if_neg (by omega)]
    · exact tget_tset_same ..
    · exact (fget_fset_same ..).trans (Nat.mod_eq_of_lt (lt_of_le_of_lt (min_le_left _ _) (by decide)))
  case announce =>
    intro u sent
    refine ⟨fun hn => ?_, fun last hl => ?_⟩
    · rw [exec_convoyAnnounce ha hp]
      simp only [announceDue, hs, hn, decide_eq_true_eq]
      exact ⟨fun h => by rw [if_pos h]; rfl, fun h => by rw [if_neg (by omega)]⟩
    · rw [exec_convoyAnnounce ha hp]
      simp only [announceDue, hs, hl, decide_eq_true_eq]
      exact ⟨fun h => by rw [if_pos h]; rfl, fun h => by rw [if_neg (by omega)]⟩
  case receive =>
    intro rate
    refine ⟨fun g r last h hg hr ht => ?_, fun h => ?_⟩
    · rw [exec_convoyReceive hc hf hd, if_pos]
      simp [heardAgain, h, hg, hr, ht, rate]
    · rw [exec_convoyReceive hc hf hd, if_neg]
      exact heardAgain_new h
  case expire =>
    rw [exec_convoyExpire h]
    exact ⟨fun ht => by rw [if_pos ht], fun ht => by rw [if_neg (by omega)]⟩

end

section
/-! PROOFS. Scope: the start of a snapshot by GO. -/

open Sys2Proof Sys2Proof.Machine

namespace Sys2Proof.Machine

/-! ### Fields of a context, and what their writes leave -/

theorem signal_frame (s : State) (on : Bool) (vector : Nat) : ∃ o, signal s on vector = { s with out := o } := by
  unfold signal
  split <;> exact ⟨_, rfl⟩

theorem ctx_printSignal (s : State) (r q : Nat) : ctx (printSignal s r) q = ctx s q := by
  obtain ⟨o, h⟩ := signal_frame s (cget s r F.ctxPrintctlIrqen 0 == 1) (cget s r F.ctxPrintctlIrq 0)
  rw [printSignal, h]
  rfl

theorem cget_printSignal (s : State) (r q : Nat) (f : Fld) (j : Nat) : cget (printSignal s r) q f j = cget s q f j := by
  obtain ⟨o, h⟩ := signal_frame s (cget s r F.ctxPrintctlIrqen 0 == 1) (cget s r F.ctxPrintctlIrq 0)
  rw [printSignal, h]
  rfl

/-! ### The write of `CTX_PRINTCTL` (Table 13.5) -/

/-- The state with the fields of the write taken. -/
def printWritten (s : State) (sl : SlotId) (w : RegWrite) : State :=
  writeFields s w [F.ctxPrintctlHash, F.ctxPrintctlIrq, F.ctxPrintctlIrqen] sl.val 0

theorem printWritten_frame (s : State) (sl : SlotId) (w : RegWrite) :
    ∃ rs, printWritten s sl w = { s with regs := rs } := writeFields_frame ..

theorem ctx_printWritten (s : State) (sl : SlotId) (w : RegWrite) (r : Nat) : ctx
    (printWritten s sl w) r = ctx s r := by
  obtain ⟨rs, h⟩ := printWritten_frame s sl w
  rw [h]
  rfl

theorem fget_writeField_ne {f g : Fld} {i j a b : Nat} (hf : f.key i j ≠ g.key a b)
    (hr : F.glbErrRange.key 0 0 ≠ g.key a b) (w : RegWrite) (s : State) :
    fget (writeField w i j s f) g a b = fget s g a b := by
  obtain he | he | he := writeField_cases w i j s f <;> rw [he]
  · exact fget_fset_ne hf
  · exact fget_fcount_ne hr

/-- The write leaves every field but its own three and the count of values out of range. -/
theorem fget_printWritten {s : State} {sl : SlotId} {w : RegWrite} {g : Fld} {a b : Nat}
    (h : ∀ f ∈ [F.ctxPrintctlHash, F.ctxPrintctlIrq, F.ctxPrintctlIrqen], f.key sl.val 0 ≠ g.key a b)
    (hr : F.glbErrRange.key 0 0 ≠ g.key a b) : fget (printWritten s sl w) g a b = fget s g a b := by
  simp only [List.forall_mem_cons] at h
  obtain ⟨hhash, hirq, hirqen, -⟩ := h
  show fget (writeField w sl.val 0 (writeField w sl.val 0 (writeField w sl.val 0 s _) _) _) g a b = _
  rw [fget_writeField_ne hirqen hr, fget_writeField_ne hirq hr, fget_writeField_ne hhash hr]

/-- A field of the same slot elsewhere. -/
theorem cget_printWritten {s : State} {sl : SlotId} {r : Nat} (hs : (ctx s r).slot = some sl) (w : RegWrite) {g : Fld}
    {a : Nat} (h : ∀ k : Fin 8, ∀ f ∈ [F.ctxPrintctlHash, F.ctxPrintctlIrq, F.ctxPrintctlIrqen],
      f.key k.val 0 ≠ g.key k.val a) (hr : ∀ k : Fin 8, F.glbErrRange.key 0 0 ≠ g.key k.val a) :
    cget (printWritten s sl w) r g a = cget s r g a := by
  have hs' : (ctx (printWritten s sl w) r).slot = some sl := by rw [ctx_printWritten, hs]
  rw [cget_of_slot hs', cget_of_slot hs, fget_printWritten (h sl) (hr sl)]

theorem exec_goSnapshot {s : State} {sl : SlotId} {w : RegWrite} {r : Nat} (hw : writeOpen s false = true)
    (hg : wbit w F.ctxPrintctlGo = true) (hb : fbit s F.ctxPrintctlGo sl.val 0 = false) (hs : slotCtx s sl.val =
        some r) :
    exec (.goSnapshot sl w) s = .next (printGo (printWritten s sl w) r) := by
  have hs' : slotCtx (printWritten s sl w) sl.val = some r := by
    obtain ⟨rs, h⟩ := printWritten_frame s sl w
    rw [h]
    exact hs
  show execGoSnapshot sl w s = _
  unfold execGoSnapshot
  rw [onBar_open hw]
  change (match wbit w F.ctxPrintctlGo && !fbit s F.ctxPrintctlGo sl.val 0, slotCtx (printWritten s sl w) sl.val with
    | true, some r => Host.Outcome.next (printGo (printWritten s sl w) r)
    | _, _ => .next (printWritten s sl w)) = _
  rw [hg, hb, hs']
  rfl

/-! ### The outcome of `GO` -/

/-- A refused snapshot sets `FAIL` and its result. -/
theorem printGo_error {s u : State} {r code : Nat} (h : printCheck s r = (u, .error code)) :
    cget (printGo s r) r F.ctxPrintstatFail 0 = 1 ∧ cget (printGo s r) r F.ctxPrintstatResult 0 = code % 2 ^ 4 ∧
    (ctx (printGo s r) r).snap = (ctx u r).snap := by
  have he : printGo s r =
      printSignal (cset (cset u r F.ctxPrintstatFail 0 1) r F.ctxPrintstatResult 0 code) r := by
    rw [printGo, h]
  rw [he, cget_printSignal, cget_printSignal, ctx_printSignal, snap_cset, snap_cset, cget_cset_same,
    cget_cset_ne (by decide), cget_cset_same]
  exact ⟨rfl, rfl, rfl⟩

/-- An armed snapshot. -/
theorem printGo_ok {s u : State} {r : Nat} {p : Snap} (h : printCheck s r = (u, .ok p)) :
    (ctx (printGo s r) r).snap = some p ∧ cget (printGo s r) r F.ctxPrintctlGo 0 = 1 ∧
    cget (printGo s r) r F.ctxPrintstatState 0 = 1 ∧ cget (printGo s r) r F.ctxPrintstatSent 0 = 0 ∧
    (ctx (printGo s r) r).vs = (ctx u r).vs := by
  have he : printGo s r = cset (cset (cset (cset (modCtx u r fun x => { x with snap := some p }) r F.ctxPrintctlGo 0 1)
      r F.ctxPrintstatState 0 1) r F.ctxPrintstatResult 0 0) r F.ctxPrintstatSent 0 0 := by
    rw [printGo, h]
  rw [he]
  refine ⟨?_, ?_, ?_, ?_, ?_⟩
  · rw [snap_cset, snap_cset, snap_cset, snap_cset, ctx_modCtx_same]
  · rw [cget_cset_ne (by decide), cget_cset_ne (by decide), cget_cset_ne (by decide), cget_cset_same]
    rfl
  · rw [cget_cset_ne (by decide), cget_cset_ne (by decide), cget_cset_same]
    rfl
  · rw [cget_cset_same]
    rfl
  · rw [vs_cset, vs_cset, vs_cset, vs_cset, ctx_modCtx_same]

/-! ### The destination table -/

/-- A read is cut where its bytes are. -/
theorem vsRead_slice (vs : VSpace) (va : Nat) {n i k : Nat} (h : i + k ≤ n) :
    ((vsRead vs va n).drop i).take k = vsRead vs (va + i) k := by
  refine List.ext_getElem (by simp [vsRead]; omega) fun j hj _ => ?_
  simp [vsRead, Nat.add_assoc]

theorem pagesOnly_setPage (s : State) (r pg : Nat) (p : Page) : PagesOnly r s (setPage s r pg p) :=
  ⟨rfl, _, ctx_modCtx_same ..⟩

/-- Touches change the pages of the context alone. -/
theorem pagesOnly_touchPages {r : Nat} (who : Waiter) {pgs : List Nat} {s : State}
    (h : ∀ pg ∈ pgs, ∃ g, tfind (ctx s r).vs.pages pg = some g ∧ pageAllows s r g false = .ok) :
    PagesOnly r s (touchPages pgs s r false who).1 := by
  induction pgs generalizing s with
  | nil => exact .refl r s
  | cons pg pgs ih =>
    obtain ⟨g, hg, hok⟩ := h pg (List.mem_cons_self ..)
    rw [touchPages, touchPage_of_ok hg hok]
    refine (pagesOnly_setPage ..).trans (ih fun q hq => ?_)
    by_cases hpq : pg = q
    · subst hpq
      exact ⟨_, page_setPage_same .., hok⟩
    · obtain ⟨g', hg', hok'⟩ := h q (List.mem_cons_of_mem _ hq)
      exact ⟨g', (page_setPage_ne hpq).trans hg', hok'⟩

section
variable {s : State} {r n : Nat}

/-- The entries of the table. -/
def tableEntry (s : State) (r i : Nat) : Nat :=
  leNat (vsRead (ctx s r).vs (cget s r F.ctxPrinttblVa 0 + 8 * i) 8)

theorem destTable_past (h : 2 ^ 48 < cget s r F.ctxPrinttblVa 0 + 8 * n) : destTable s r n = (s, none) := if_pos h

/-- A table that can be read is read, and the pages touched. -/
theorem destTable_read (h48 : cget s r F.ctxPrinttblVa 0 + 8 * n ≤ 2 ^ 48)
    (hh : reelHole s r (cget s r F.ctxPrinttblVa 0) (8 * n) = false)
    (hp : ∀ pg ∈ pagesOf (cget s r F.ctxPrinttblVa 0) (8 * n), ∃ g, tfind (ctx s r).vs.pages pg = some g ∧
      pageAllows s r g false = .ok) :
    ∃ u, destTable s r n = (u, some ((List.range n).map (tableEntry s r))) ∧ PagesOnly r s u ∧ text r u = text r s := by
  obtain ⟨u, hu, htext⟩ := touchPages_ok .access hp
  have honly := pagesOnly_touchPages .access hp
  rw [hu] at honly
  refine ⟨u, ?_, honly, htext⟩
  have hread : cvRead s r (cget s r F.ctxPrinttblVa 0) (8 * n) .access =
      (u, .ok, vsRead (ctx s r).vs (cget s r F.ctxPrinttblVa 0) (8 * n),
        vsPoison (ctx u r).vs (cget s r F.ctxPrinttblVa 0) (8 * n)) := by
    simp only [cvRead, hh, hu, vsRead_of_text htext, Bool.false_eq_true, if_false]
  have hslice (i : Nat) (hi : i ∈ List.range n) : leNat (((vsRead (ctx s r).vs (cget s r F.ctxPrinttblVa 0) (8 *
      n)).drop
      (8 * i)).take 8) = tableEntry s r i := by
    have := List.mem_range.1 hi
    rw [vsRead_slice _ _ (by omega)]
    rfl
  unfold destTable
  rw [if_neg (by omega), hread]
  exact congrArg (fun ds => (u, some ds)) (List.map_congr_left hslice)

end

/-! ### The check of a snapshot (R462, R464) -/

/-- The pages of the range. -/
def printRange (s : State) (r : Nat) : List Nat :=
  (List.range (cget s r F.ctxPrintcntPages 0)).map (pageOf (cget s r F.ctxPrintvaVa 0) + ·)

section
variable {s : State} {r : Nat}

/-- A range or a table past the address space is refused. -/
theorem printCheck_past (h : cget s r F.ctxPrintcntPages 0 = 0 ∨
    2 ^ 48 < cget s r F.ctxPrintvaVa 0 + cget s r F.ctxPrintcntPages 0 * 2 ^ 21 ∨
    2 ^ 48 < cget s r F.ctxPrinttblVa 0 + 8 * cget s r F.ctxPrintcntPages 0) : printCheck s r = (s, .error 1) := by
  unfold printCheck
  dsimp only
  split
  next => rfl
  next hin =>
    rw [destTable_past (by omega)]

variable (hn : cget s r F.ctxPrintcntPages 0 ≠ 0)
  (hva : cget s r F.ctxPrintvaVa 0 + cget s r F.ctxPrintcntPages 0 * 2 ^ 21 ≤ 2 ^ 48)
  (h48 : cget s r F.ctxPrinttblVa 0 + 8 * cget s r F.ctxPrintcntPages 0 ≤ 2 ^ 48)
  (hh : reelHole s r (cget s r F.ctxPrinttblVa 0) (8 * cget s r F.ctxPrintcntPages 0) = false)
  (hp : ∀ pg ∈ pagesOf (cget s r F.ctxPrinttblVa 0) (8 * cget s r F.ctxPrintcntPages 0),
    ∃ g, tfind (ctx s r).vs.pages pg = some g ∧ pageAllows s r g false = .ok)
include hn hva h48 hh hp

/-- Past the table, the entries are looked at, then the pages. -/
theorem printCheck_read : ∃ u, PagesOnly r s u ∧ text r u = text r s ∧ printCheck s r = (u,
    if !((List.range (cget s r F.ctxPrintcntPages 0)).map (tableEntry s r)).all (destOk s) then .error 1
    else if !(printRange s r).all (fun pg => (tfind (ctx s r).vs.pages pg).isSome) then .error 2
    else .ok ⟨false, printRange s r, (List.range (cget s r F.ctxPrintcntPages 0)).map (tableEntry s r), [], 0⟩) := by
  obtain ⟨u, hu, honly, htext⟩ := destTable_read h48 hh hp
  refine ⟨u, honly, htext, ?_⟩
  have hdest : destOk u = destOk s := by
    funext a
    unfold destOk ownDev
    rw [fget_congr honly.1]
  have hsome (pg : Nat) : (tfind (ctx u r).vs.pages pg).isSome = (tfind (ctx s r).vs.pages pg).isSome := by
    have := congrArg Option.isSome (congrFun (congrArg (·.2) htext) pg)
    simpa [text] using this
  unfold printCheck
  dsimp only
  rw [if_neg (by omega), hu]
  dsimp only
  simp only [hdest, hsome]
  rw [apply_ite (Prod.mk u), apply_ite (Prod.mk u)]
  rfl

end

/-! ### `GO` (R462) -/

section
variable {s : State} {sl : SlotId} {r : Nat} (hs : (ctx s r).slot = some sl) (w : RegWrite)
include hs

/-- What the check of a snapshot reads, after the write as before it. -/
theorem printFields_printWritten : cget (printWritten s sl w) r F.ctxPrintvaVa 0 = cget s r F.ctxPrintvaVa 0 ∧
    cget (printWritten s sl w) r F.ctxPrintcntPages 0 = cget s r F.ctxPrintcntPages 0 ∧
    cget (printWritten s sl w) r F.ctxPrinttblVa 0 = cget s r F.ctxPrinttblVa 0 :=
  ⟨cget_printWritten hs w (by decide) (by decide), cget_printWritten hs w (by decide) (by decide),
    cget_printWritten hs w (by decide) (by decide)⟩

theorem reelHole_printWritten (va n : Nat) : reelHole (printWritten s sl w) r va n = reelHole s r va n := by
  have hst : streaming (printWritten s sl w) r = streaming s r := by
    unfold streaming
    rw [ctx_printWritten, cget_printWritten hs w (by decide) (by decide),
        cget_printWritten hs w (by decide) (by decide)]
  unfold reelHole
  rw [ctx_printWritten, hst]

omit hs in
theorem pageAllows_printWritten (p : Page) (write : Bool) :
    pageAllows (printWritten s sl w) r p write = pageAllows s r p write := by
  obtain ⟨rs, h⟩ := printWritten_frame s sl w
  rw [h]
  rfl

omit hs in
theorem destOk_printWritten : destOk (printWritten s sl w) = destOk s := by
  funext a
  have hsl : ∀ k : Fin 8, ∀ f ∈ [F.ctxPrintctlHash, F.ctxPrintctlIrq, F.ctxPrintctlIrqen],
      f.key k.val 0 ≠ F.fabCfgDevnum.key 0 0 := by decide
  unfold destOk ownDev
  rw [fget_printWritten (hsl sl) (by decide)]

/-- The check after the write, where the table can be read. -/
theorem printCheck_printWritten (hn : cget s r F.ctxPrintcntPages 0 ≠ 0)
    (hva : cget s r F.ctxPrintvaVa 0 + cget s r F.ctxPrintcntPages 0 * 2 ^ 21 ≤ 2 ^ 48)
    (h48 : cget s r F.ctxPrinttblVa 0 + 8 * cget s r F.ctxPrintcntPages 0 ≤ 2 ^ 48)
    (hh : reelHole s r (cget s r F.ctxPrinttblVa 0) (8 * cget s r F.ctxPrintcntPages 0) = false)
    (hp : ∀ pg ∈ pagesOf (cget s r F.ctxPrinttblVa 0) (8 * cget s r F.ctxPrintcntPages 0),
      ∃ g, tfind (ctx s r).vs.pages pg = some g ∧ pageAllows s r g false = .ok) :
    ∃ u, (ctx u r).snap = (ctx s r).snap ∧ (ctx u r).vs.mem = (ctx s r).vs.mem ∧
      printCheck (printWritten s sl w) r = (u,
        if !((List.range (cget s r F.ctxPrintcntPages 0)).map (tableEntry s r)).all (destOk s) then .error 1
        else if !(printRange s r).all (fun pg => (tfind (ctx s r).vs.pages pg).isSome) then .error 2
        else .ok ⟨false, printRange s r, (List.range (cget s r F.ctxPrintcntPages 0)).map (tableEntry s r), [],
            0⟩) := by
  obtain ⟨hva', hn', htbl'⟩ := printFields_printWritten hs w
  obtain ⟨u, ⟨-, v, hv⟩, htext, hu⟩ := printCheck_read (s := printWritten s sl w) (r := r) (by rwa [hn'])
    (by rwa [hva', hn']) (by rwa [htbl', hn']) (by rwa [reelHole_printWritten hs, htbl', hn'])
    (by rw [htbl', hn', ctx_printWritten]; simpa only [pageAllows_printWritten] using hp)
  have hentry : tableEntry (printWritten s sl w) r = tableEntry s r := by
    funext i
    unfold tableEntry
    rw [ctx_printWritten, htbl']
  have hrange : printRange (printWritten s sl w) r = printRange s r := by
    unfold printRange
    rw [hn', hva']
  rw [hentry, hrange, hn', destOk_printWritten, ctx_printWritten] at hu
  refine ⟨u, by rw [hv, ctx_printWritten], ?_, hu⟩
  exact (congrArg (·.1) htext).trans (congrArg (·.vs.mem) (ctx_printWritten s sl w r))

end

end Sys2Proof.Machine

end

section
/-! PROOFS. Scope: the start of a snapshot and what its pages leave. -/

open Sys2Proof Sys2Proof.Machine

namespace Sys2Proof.Machine

/-! ### Requests on their way, and the routes (R463) -/

/-- What a request that leaves, or is held for the twin, leaves in place. -/
def shipView (s : State) : (Tbl Ctx × Tbl FrameUse × Tbl (Nat × List (CtxId × Nat)) × (Nat → Option Nat)) ×
    (Fld → Nat → Nat) × Tbl (BitVec 64) := (paged s, linkRegs s, s.fab.routes)

theorem shipView_outPort (s : State) (p : Nat) (pk : Packet) :
    linkRegs (outPort s p none pk) = linkRegs s ∧ (outPort s p none pk).fab.routes = s.fab.routes := by
  have h := sendView_outPort s p none pk
  exact ⟨linkRegs_of_sendView h, congrArg (·.1.fab.routes) h⟩

theorem shipView_request {s t : State} {pk : Packet} {reqid : Option Nat} {chan : Option (ChanRef × Nat)}
    {coll : Option (EdgeId × Nat)} {r : Option Nat} (h : request s pk reqid chan coll r = some t) :
    shipView t = shipView s := by
  have hpaged := paged_request h
  suffices hrest : linkRegs t = linkRegs s ∧ t.fab.routes = s.fab.routes by
    simp only [shipView, hpaged, hrest]
  obtain ⟨u, hu, rfl⟩ := Option.map_eq_some_iff.1 h
  change linkRegs u = linkRegs s ∧ u.fab.routes = s.fab.routes
  split at hu
  · obtain ⟨p, -, rfl⟩ := Option.map_eq_some_iff.1 hu
    exact shipView_outPort ..
  · split at hu <;> cases hu <;> exact ⟨rfl, rfl⟩

/-- The fields of the aliases. -/
def aliasFlds : List Fld := [F.pairAliasValid, F.pairAliasAlias, F.pairAliasActb, F.pairAliasDevb, F.pairAliasDeva]

theorem aliasOf_congr {s t : State} (h : ∀ f ∈ aliasFlds, ∀ k : Fin 16, fget t f 0 k.val = fget s f 0 k.val)
    (dst : Nat) :
    aliasOf t dst = aliasOf s dst := by
  simp only [aliasFlds, List.forall_mem_cons] at h
  obtain ⟨hvalid, halias, hactb, hdevb, hdeva, -⟩ := h
  have hfind : (List.range 16).find? (fun k => fbit t F.pairAliasValid 0 k && fget t F.pairAliasAlias 0 k == dst) =
      (List.range 16).find? (fun k => fbit s F.pairAliasValid 0 k && fget s F.pairAliasAlias 0 k == dst) :=
    List.find?_congr fun k hk => by
      have hk' := List.mem_range.1 hk
      rw [fbit, fbit, hvalid ⟨k, hk'⟩, halias ⟨k, hk'⟩]
  unfold aliasOf
  rw [hfind]
  cases hf : (List.range 16).find? (fun k => fbit s F.pairAliasValid 0 k && fget s F.pairAliasAlias 0 k == dst) with
  | none => rfl
  | some k =>
    have hk := List.mem_range.1 (List.mem_of_find?_eq_some hf)
    dsimp only
    rw [fbit, fbit, hactb ⟨k, hk⟩, hdevb ⟨k, hk⟩, hdeva ⟨k, hk⟩]

theorem routePorts_congr {s t : State} (ha : ∀ f ∈ aliasFlds, ∀ k : Fin 16, fget t f 0 k.val = fget s f 0 k.val)
    (hl : linkRegs t = linkRegs s) (hr : t.fab.routes = s.fab.routes) (dst : Nat) : routePorts t dst =
        routePorts s dst := by
  unfold routePorts
  rw [aliasOf_congr ha, hr]
  refine List.filter_congr fun p hp => ?_
  have hp' := List.mem_range.1 hp
  unfold fabricUp
  rw [fget_of_linkRegs hl (by decide) hp', fget_of_linkRegs hl (by decide) hp']

theorem routePorts_of_shipView {s t : State} (h : shipView t = shipView s) (dst : Nat) :
    routePorts t dst = routePorts s dst := by
  obtain ⟨hpaged, hl, hr⟩ : paged t = paged s ∧ linkRegs t = linkRegs s ∧ t.fab.routes = s.fab.routes := by
    simpa [shipView] using h
  have hlow : ∀ f ∈ aliasFlds, ∀ k : Fin 16, f.key 0 k.val < 0x300000 * 64 := by decide
  exact routePorts_congr (fun f hf k => fget_of_lowRegs (paged_lowRegs hpaged) (hlow f hf k)) hl hr dst

theorem routePort_isSome {s : State} {pk : Packet} (h : routePorts s pk.dst ≠ []) : ∃ p, routePort s pk = some p :=
  ⟨_, List.getElem?_eq_getElem (Nat.mod_lt _ (List.length_pos_of_ne_nil h))⟩

theorem routePort_none {s : State} {pk : Packet} (h : routePorts s pk.dst = []) : routePort s pk = none := by
  unfold routePort
  rw [h]
  rfl

/-- A request with a route goes out, or is held. -/
theorem request_isSome {s : State} {pk : Packet} (h : routePorts s pk.dst ≠ []) (reqid : Option Nat)
    (chan : Option (ChanRef × Nat)) (coll : Option (EdgeId × Nat)) (r : Option Nat) :
    ∃ t, request s pk reqid chan coll r = some t := by
  unfold request
  refine Option.isSome_iff_exists.1 (Option.isSome_map.trans ?_)
  split
  · obtain ⟨p, hp⟩ := routePort_isSome (s := s) (pk := { pk with
      src := ownDev s, hops := fget s F.fabTimersHops 0 0, reqid := newReqid s reqid chan r,
      birth := s.tcount % 2 ^ 32, pool := poolFor s r }) h
    rw [sendPkt, sendFrom, hp]
    rfl
  · split <;> rfl

/-- Without one, and without a partner to serve in its place, it does not. -/
theorem request_none {s : State} {pk : Packet} (h : routePorts s pk.dst = []) {r : Nat} (hp : passiveFor s r = false)
    (reqid : Option Nat) (chan : Option (ChanRef × Nat)) (coll : Option (EdgeId × Nat)) :
    request s pk reqid chan coll (some r) = none := by
  unfold request
  refine Option.map_eq_none_iff.2 ?_
  rw [if_pos (by simp [hp]), sendPkt, sendFrom]
  exact Option.map_eq_none_iff.2 (routePort_none h)

/-! ### A page that leaves -/

/-- The write of one line of 4 KiB of a page, with its poison. -/
def linePkt (x : Bytes × List Nat) (dst i : Nat) : Packet :=
  let bad := (x.2.filter (fun o => decide (4096 * i ≤ o ∧ o < 4096 * (i + 1)))).map (· - 4096 * i)
  { pktInit with
    type := 1, dst := gDev dst, addr := dst + 4096 * i
    data := (x.1.drop (4096 * i)).take 4096, poison := poisonMap bad }

/-- The write sent, and marked with its page. -/
def shipLine (x : Bytes × List Nat) (r pg dst : Nat) (s : State) (i : Nat) : Option State :=
  (request s (linePkt x dst i) none none none (some r)).map
    fun t => modReq t s.fab.nextReq fun q => { q with snap := some pg }

theorem shipPage_eq (s : State) (r pg dst : Nat) : shipPage s r pg dst =
    (List.range 512).foldl (fun a i => a.bind fun u => shipLine (pageText s r pg) r pg dst u i) (some s) := by
  unfold shipPage shipLine linePkt
  generalize pageText s r pg = x
  generalize List.range 512 = l
  rfl

section
variable {s : State} {r pg dst : Nat} (x : Bytes × List Nat)

theorem shipLine_isSome (h : routePorts s (gDev dst) ≠ []) (i : Nat) :
    ∃ t, shipLine x r pg dst s i = some t ∧ shipView t = shipView s := by
  obtain ⟨u, hu⟩ := request_isSome (s := s) (pk := linePkt x dst i) h none none none (some r)
  refine ⟨modReq u s.fab.nextReq fun q => { q with snap := some pg }, ?_,
    Eq.trans (b := shipView u) rfl (shipView_request hu)⟩
  rw [shipLine, hu]
  rfl

theorem shipLine_none (h : routePorts s (gDev dst) = []) (hp : passiveFor s r = false) (i : Nat) :
    shipLine x r pg dst s i = none := by
  rw [shipLine, request_none (pk := linePkt x dst i) h hp]
  rfl

theorem shipLines_isSome (h : routePorts s (gDev dst) ≠ []) (is : List Nat) :
    ∃ t, is.foldl (fun a i => a.bind fun s => shipLine x r pg dst s i) (some s) = some t ∧ shipView t = shipView s := by
  induction is generalizing s with
  | nil => exact ⟨s, rfl, rfl⟩
  | cons i is ih =>
    obtain ⟨u, hu, hview⟩ := shipLine_isSome x h i (r := r) (pg := pg)
    obtain ⟨t, ht, hview'⟩ := ih (s := u) (by rwa [routePorts_of_shipView hview])
    refine ⟨t, ?_, hview'.trans hview⟩
    rw [List.foldl_cons, Option.bind_some, hu]
    exact ht

theorem foldl_bind_none {α : Type} (f : State → α → Option State) (l : List α) :
    l.foldl (fun a i => a.bind fun s => f s i) none = none := by
  induction l with
  | nil => rfl
  | cons _ _ ih => exact ih

/-- A page leaves where a route leads. -/
theorem shipPage_isSome (h : routePorts s (gDev dst) ≠ []) :
    ∃ t, shipPage s r pg dst = some t ∧ shipView t = shipView s := by
  rw [shipPage_eq]
  exact shipLines_isSome _ h _

theorem shipPage_none (h : routePorts s (gDev dst) = []) (hp : passiveFor s r = false) :
    shipPage s r pg dst = none := by
  obtain ⟨i, is, hl⟩ : ∃ i is, List.range 512 = i :: is := List.exists_cons_of_ne_nil (by simp)
  rw [shipPage_eq, hl, List.foldl_cons, Option.bind_some, shipLine_none _ h hp]
  exact foldl_bind_none ..

end

theorem shipView_shipPages {r : Nat} (l : List (Nat × Nat)) {s : State} (h : ∀ e ∈ l, routePorts s (gDev e.2) ≠ []) :
    shipView (shipPages l s r) = shipView s := by
  induction l generalizing s with
  | nil => rfl
  | cons e l ih =>
    obtain ⟨t, ht, hview⟩ := shipPage_isSome (h e (List.mem_cons_self ..)) (r := r) (pg := e.1)
    rw [shipPages_cons, ht]
    refine (ih fun e' he' => ?_).trans hview
    rw [routePorts_of_shipView hview]
    exact h e' (List.mem_cons_of_mem _ he')

theorem ctx_of_shipView {s t : State} (h : shipView t = shipView s) (r : Nat) : ctx t r = ctx s r :=
  congrArg (tget · r ctxInit) (congrArg (·.1.1) h)

/-- A field of a context, under packets that leave. -/
theorem cget_of_shipView {s t : State} (h : shipView t = shipView s) {f : Fld} {j : Nat}
    (hk : ∀ sl : Fin 8, f.key sl.val j < 0x300000 * 64) (r : Nat) : cget t r f j = cget s r f j := by
  have hl : lowRegs t = lowRegs s := congrArg (·.1.2.2.2) h
  unfold cget
  rw [ctx_of_shipView h]
  split
  next sl _ => exact fget_of_lowRegs hl (hk sl)
  next => rfl

/-! ### Pages marked (R464, R466) -/

/-- A change of one page. -/
theorem pages_modPage (s : State) (r pg q : Nat) (f : Page → Page) :
    tfind (ctx (modPage s r pg f) r).vs.pages q =
      (tfind (ctx s r).vs.pages q).map fun e => if q = pg then f e else e := by
  cases h : tfind (ctx s r).vs.pages pg with
  | none =>
    rw [modPage_of_none h]
    by_cases hq : q = pg
    · simp [hq, h]
    · simp [hq]
  | some e =>
    rw [modPage_of_some h]
    by_cases hq : q = pg
    · subst hq
      simp [h]
    · rw [page_setPage_ne fun hp => hq hp.symm]
      simp [hq]

theorem pagesOnly_modPage (s : State) (r pg : Nat) (f : Page → Page) : PagesOnly r s (modPage s r pg f) := by
  unfold modPage
  split
  · exact pagesOnly_setPage ..
  · exact .refl r s

theorem modPage_rest (s : State) (r pg : Nat) (f : Page → Page) :
    (modPage s r pg f).fab = s.fab ∧ (modPage s r pg f).pair = s.pair := by
  unfold modPage
  split <;> exact ⟨rfl, rfl⟩

/-- The pages of a snapshot, marked or unmarked as `PRINTING`. -/
def markPages (s : State) (r : Nat) (pgs : List Nat) (b : Bool) : State :=
  pgs.foldl (fun s pg => modPage s r pg fun e => { e with printing := b }) s

theorem pages_markPages (s : State) (r : Nat) (pgs : List Nat) (b : Bool) (q : Nat) :
    tfind (ctx (markPages s r pgs b) r).vs.pages q =
      (tfind (ctx s r).vs.pages q).map fun e => if q ∈ pgs then { e with printing := b } else e := by
  induction pgs generalizing s with
  | nil => simp [markPages]
  | cons pg pgs ih =>
    refine (ih _).trans ?_
    rw [pages_modPage, Option.map_map]
    refine congrArg (Option.map · _) (funext fun e => ?_)
    by_cases hq : q = pg <;> by_cases hm : q ∈ pgs <;> simp [hq, hm]

theorem pagesOnly_markPages (s : State) (r : Nat) (pgs : List Nat) (b : Bool) : PagesOnly r s
    (markPages s r pgs b) := by
  induction pgs generalizing s with
  | nil => exact .refl r s
  | cons pg pgs ih => exact (pagesOnly_modPage ..).trans (ih _)

theorem markPages_rest (s : State) (r : Nat) (pgs : List Nat) (b : Bool) :
    (markPages s r pgs b).fab = s.fab ∧ (markPages s r pgs b).pair = s.pair :=
  ⟨foldl_keeps (·.fab) (fun s pg => (modPage_rest s r pg _).1) pgs s,
    foldl_keeps (·.pair) (fun s pg => (modPage_rest s r pg _).2) pgs s⟩

/-! ### The start of a snapshot (R463, R464) -/

/-- A snapshot that has started. -/
def begunSnap (s : State) (r : Nat) (p : Snap) : Snap :=
  { p with
    started := true
    digest := digestNat (rootOf (p.pages.map (fun pg => (pageText (markPages (wake s []) r p.pages true) r
        pg).1)).flatten) }

/-- The state in which its pages are sent. -/
def printing (s : State) (r : Nat) (p : Snap) : State :=
  cset (modCtx (markPages (wake s []) r p.pages true) r fun x => { x with snap := some (begunSnap s r p) }) r
    F.ctxPrintstatState 0 2

theorem exec_snapshotStart {s : State} {c : CtxId} {p : Snap} (hc : clockRuns s (edgeClock 0) = true)
    (hs : (ctx s c.val).snap = some p) (hp : p.started = false) (hstep : (ctx s c.val).step = none)
    (hf : (ctx s c.val).floats.any (·.launched) = false) :
    exec (.snapshotStart c) s = .next (shipPages (p.pages.zip p.dests) (printing s c.val p) c.val) := by
  show execSnapshotStart c s = _
  unfold execSnapshotStart
  rw [onClock_runs hc]
  dsimp only
  rw [hs]
  dsimp only
  rw [if_neg (by simp [hp, hstep, hf])]
  rfl

theorem linkRegs_cset {f : Fld} {j : Nat} (h : ∀ sl : Fin 8, f.key sl.val j < 0x300000 * 64) (s : State) (r v : Nat) :
    linkRegs (cset s r f j v) = linkRegs s := by
  unfold cset
  split
  next sl _ => exact linkRegs_fset (.inl (h sl)) ..
  next => rfl

theorem cset_fab (s : State) (r : Nat) (f : Fld) (j v : Nat) : (cset s r f j v).fab = s.fab := by
  unfold cset
  split <;> rfl

theorem cset_pair (s : State) (r : Nat) (f : Fld) (j v : Nat) : (cset s r f j v).pair = s.pair := by
  unfold cset
  split <;> rfl

/-- A device that wakes changes its power state alone. -/
theorem wake_none (s : State) : wake s [] = s ∨ wake s [] = fset s F.pwrStatState 0 0 0 := by
  unfold wake
  split
  · exact .inl rfl
  · exact .inr rfl

theorem fget_wake {s : State} {f : Fld} {i j : Nat} (h : F.pwrStatState.key 0 0 ≠ f.key i j) :
    fget (wake s []) f i j = fget s f i j := by
  obtain h' | h' := wake_none s <;> rw [h']
  exact fget_fset_ne h

theorem wake_rest (s : State) : linkRegs (wake s []) = linkRegs s ∧ (wake s []).fab = s.fab ∧
    (wake s []).pair = s.pair := by
  obtain h | h := wake_none s <;> rw [h]
  · exact ⟨rfl, rfl, rfl⟩
  · exact ⟨linkRegs_fset (by decide) .., rfl, rfl⟩

section
variable (s : State) (r : Nat) (p : Snap)

theorem ctx_printing : ∃ c v, ctx (printing s r p) r =
    { ctx s r with vs := v, snap := some (begunSnap s r p), res := { (ctx s r).res with saved := c } } := by
  obtain ⟨c, hc⟩ := ctx_cset (modCtx (markPages (wake s []) r p.pages true) r fun x =>
    { x with snap := some (begunSnap s r p) }) r F.ctxPrintstatState 0 2
  obtain ⟨-, v, hv⟩ := pagesOnly_markPages (wake s []) r p.pages true
  refine ⟨c, v, hc.trans ?_⟩
  rw [ctx_modCtx_same, hv, ctx_wake]

theorem pages_printing (q : Nat) : tfind (ctx (printing s r p) r).vs.pages q =
    (tfind (ctx s r).vs.pages q).map fun e => if q ∈ p.pages then { e with printing := true } else e := by
  unfold printing
  rw [vs_cset, ctx_modCtx_same]
  exact (pages_markPages ..).trans (by rw [ctx_wake])

/-- The registers but for the power state and the state of the snapshot. -/
theorem fget_printing {f : Fld} {i j : Nat} (hw : F.pwrStatState.key 0 0 ≠ f.key i j)
    (hs : ∀ sl : Fin 8, F.ctxPrintstatState.key sl.val 0 ≠ f.key i j) :
    fget (printing s r p) f i j = fget s f i j := by
  unfold printing
  rw [fget_cset_ne hs]
  exact (fget_congr (pagesOnly_markPages (wake s []) r p.pages true).1 f i j).trans (fget_wake hw)

theorem routePorts_printing (dst : Nat) : routePorts (printing s r p) dst = routePorts s dst := by
  have hkey : ∀ f ∈ aliasFlds, ∀ k : Fin 16, F.pwrStatState.key 0 0 ≠ f.key 0 k.val ∧
      ∀ sl : Fin 8, F.ctxPrintstatState.key sl.val 0 ≠ f.key 0 k.val := by decide
  obtain ⟨hlink, hfab, -⟩ := wake_rest s
  obtain ⟨hmark, -⟩ := markPages_rest (wake s []) r p.pages true
  refine routePorts_congr (fun f hf k => fget_printing s r p (hkey f hf k).1 (hkey f hf k).2) ?_ ?_ dst
  · refine (linkRegs_cset (by decide) ..).trans (Eq.trans ?_ hlink)
    exact linkRegs_congr (pagesOnly_markPages (wake s []) r p.pages true).1
  · unfold printing
    rw [cset_fab]
    exact congrArg Fabric.routes (hmark.trans hfab)

theorem cget_printing {f : Fld} {j : Nat} (hw : ∀ sl : Fin 8, F.pwrStatState.key 0 0 ≠ f.key sl.val j)
    (hs : ∀ sl : Fin 8, F.ctxPrintstatState.key sl.val 0 ≠ f.key sl.val j) :
    cget (printing s r p) r f j = cget s r f j := by
  unfold printing
  rw [cget_cset_ne hs, cget_modCtx (f := fun x => { x with snap := some (begunSnap s r p) }) (fun _ => rfl) fun _ =>
      rfl,
    (pagesOnly_markPages (wake s []) r p.pages true).cget]
  obtain h | h := wake_none s <;> rw [h]
  exact cget_fset_global hw s r 0

theorem passiveFor_printing : passiveFor (printing s r p) r = passiveFor s r := by
  obtain ⟨c, v, hx⟩ := ctx_printing s r p
  have hpair : (printing s r p).pair = s.pair := by
    unfold printing
    rw [cset_pair]
    exact (markPages_rest (wake s []) r p.pages true).2.trans (wake_rest s).2.2
  unfold passiveFor twinCtx passiveTwin resynced fbit
  rw [cget_printing s r p (by decide) (by decide), fget_printing s r p (by decide) (by decide),
    fget_printing s r p (by decide) (by decide), hpair, hx]
  rfl

/-- A snapshot whose targets have routes starts. -/
theorem snapshotStart_ships (h : ∀ d ∈ p.dests, routePorts s (gDev d) ≠ []) :
    shipView (shipPages (p.pages.zip p.dests) (printing s r p) r) = shipView (printing s r p) :=
  shipView_shipPages _ fun e he => by
    rw [routePorts_printing]
    exact h e.2 (List.of_mem_zip he).2

/-- One whose first target has none fails. -/
theorem snapshotStart_fails {pg d : Nat} {rest : List (Nat × Nat)} (hz : p.pages.zip p.dests = (pg, d) :: rest)
    (h : routePorts s (gDev d) = []) (hp : passiveFor s r = false) :
    shipPages (p.pages.zip p.dests) (printing s r p) r = printFail (printing s r p) r 4 := by
  rw [hz, shipPages_cons, shipPage_none (by rwa [routePorts_printing]) (by rwa [passiveFor_printing])]

end

/-- The end of a snapshot that fails. -/
theorem printFail_fields {s : State} {r : Nat} {p : Snap} (h : (ctx s r).snap = some p) (result : Nat) :
    (ctx (printFail s r result) r).snap = none ∧ cget (printFail s r result) r F.ctxPrintstatFail 0 = 1 ∧
    cget (printFail s r result) r F.ctxPrintstatResult 0 = result % 2 ^ 4 ∧
    cget (printFail s r result) r F.ctxPrintctlGo 0 = 0 := by
  unfold printFail
  rw [h]
  dsimp only
  rw [cget_printSignal, cget_printSignal, cget_printSignal, ctx_printSignal, snap_cset, snap_cset, snap_cset, snap_cset,
    ctx_modCtx_same, cget_cset_ne (by decide), cget_cset_ne (by decide), cget_cset_same, cget_cset_ne (by decide),
    cget_cset_same, cget_cset_same]
  exact ⟨rfl, rfl, rfl, rfl⟩

end Sys2Proof.Machine

end

section
/-! PROOFS. Scope: the end of a page of a snapshot, and obligation O43. -/

open Sys2Proof Sys2Proof.Machine

namespace Sys2Proof.Machine

/-! ### A page whose writes have been acknowledged (R466, R467) -/

/-- The state with the page's copy dropped and counted. -/
def pageSent (s : State) (r pg : Nat) (p : Snap) : State :=
  ccount (modCtx (unshadow (modPage s r pg fun e => { e with printing := false }) (fun v => v != shadowName r pg)) r
    fun x => { x with snap := some { p with sent := p.sent ++ [pg] } }) r F.ctxPrintstatSent 0 1

theorem exec_snapshotPageSent {s : State} {c : CtxId} {p : Snap} {pg : Nat} (hc : clockRuns s (edgeClock 0) = true)
    (hs : (ctx s c.val).snap = some p) (hp : p.started = true)
    (hf : p.pages.find? (fun pg => !p.sent.contains pg && !pageFlies s c pg) = some pg) :
    exec (.snapshotPageSent c) s = .next (resumePg
      (if p.sent.length + 1 = p.pages.length then
        printDone (pageSent s c.val pg p) c.val { p with sent := p.sent ++ [pg] } else pageSent s c.val pg p) c.val)
            := by
  show execSnapshotPageSent c s = _
  unfold execSnapshotPageSent
  rw [onClock_runs hc]
  dsimp only
  rw [hs]
  dsimp only
  rw [if_pos hp, hf]
  dsimp only
  rw [List.length_append]
  rfl

section
variable (s : State) (r pg : Nat) (p : Snap)

theorem pageSent_fields : (ctx (pageSent s r pg p) r).snap = some { p with sent := p.sent ++ [pg] } ∧
    (ctx (pageSent s r pg p) r).vs = (ctx (modPage s r pg fun e => { e with printing := false }) r).vs ∧
    (ctx (pageSent s r pg p) r).slot = (ctx s r).slot ∧
    cget (pageSent s r pg p) r F.ctxPrintstatSent 0 = min (2 ^ 32 - 1) (cget s r F.ctxPrintstatSent 0 + 1) := by
  unfold pageSent ccount
  refine ⟨?_, ?_, ?_, ?_⟩
  · rw [snap_cset, ctx_modCtx_same]
  · rw [vs_cset, ctx_modCtx_same]
    rfl
  · rw [slot_cset, ctx_modCtx_same]
    exact slot_modPage ..
  · rw [cget_cset_same, cget_modCtx (f := fun x => { x with snap := some { p with sent := p.sent ++ [pg] } })
      (fun _ => rfl) fun _ => rfl]
    refine (Nat.mod_eq_of_lt (lt_of_le_of_lt (min_le_left _ _) (by decide))).trans ?_
    exact congrArg (fun v => min (2 ^ 32 - 1) (v + 1)) ((pagesOnly_modPage s r pg _).cget F.ctxPrintstatSent 0)

theorem fget_pageSent {f : Fld} {i j : Nat} (h : ∀ sl : Fin 8, F.ctxPrintstatSent.key sl.val 0 ≠ f.key i j) :
    fget (pageSent s r pg p) f i j = fget s f i j :=
  (fget_ccount_ne h ..).trans (fget_congr (modPage_regs ..) f i j)

end

/-- The digest of the snapshot, where it is asked for. -/
def digestPut (s : State) (r : Nat) (p : Snap) : State :=
  if cget s r F.ctxPrintctlHash 0 = 1 then
    (List.range 4).foldl (fun s w => cset s r F.ctxPrintdigData w (bitsOf p.digest.toNat (64 * w) 64)) s
  else s

theorem digestPut_cases (s : State) (r : Nat) (p : Snap) : digestPut s r p = s ∨ ∃ a b c d, digestPut s r p =
    cset (cset (cset (cset s r F.ctxPrintdigData 0 a) r F.ctxPrintdigData 1 b) r F.ctxPrintdigData 2 c) r
      F.ctxPrintdigData 3 d := by
  unfold digestPut
  split
  · exact .inr ⟨_, _, _, _, rfl⟩
  · exact .inl rfl

theorem digestPut_ctx (s : State) (r : Nat) (p : Snap) : (ctx (digestPut s r p) r).vs = (ctx s r).vs ∧
    (ctx (digestPut s r p) r).slot = (ctx s r).slot := by
  obtain h | ⟨a, b, c, d, h⟩ := digestPut_cases s r p <;> rw [h]
  · exact ⟨rfl, rfl⟩
  · simp only [vs_cset, slot_cset, and_self]

theorem fget_digestPut (s : State) (r : Nat) (p : Snap) {f : Fld} {i j : Nat}
    (h : ∀ w : Fin 4, ∀ sl : Fin 8, F.ctxPrintdigData.key sl.val w.val ≠ f.key i j) :
    fget (digestPut s r p) f i j = fget s f i j := by
  obtain h' | ⟨a, b, c, d, h'⟩ := digestPut_cases s r p <;> rw [h']
  rw [fget_cset_ne (j := 3) (h 3), fget_cset_ne (j := 2) (h 2), fget_cset_ne (j := 1) (h 1),
    fget_cset_ne (j := 0) (h 0)]

theorem cget_digestPut (s : State) (r : Nat) (p : Snap) {f : Fld} {j : Nat}
    (h : ∀ w : Fin 4, ∀ sl : Fin 8, F.ctxPrintdigData.key sl.val w.val ≠ f.key sl.val j) :
    cget (digestPut s r p) r f j = cget s r f j := by
  obtain h' | ⟨a, b, c, d, h'⟩ := digestPut_cases s r p <;> rw [h']
  rw [cget_cset_ne (j := 3) (h 3), cget_cset_ne (j := 2) (h 2), cget_cset_ne (j := 1) (h 1),
    cget_cset_ne (j := 0) (h 0)]

theorem printDone_eq (s : State) (r : Nat) (p : Snap) : printDone s r p =
    printSignal (cset (cset (cset (modCtx (digestPut s r p) r fun x => { x with snap := none }) r F.ctxPrintstatState
        0 0) r
      F.ctxPrintctlGo 0 0) r F.ctxPrintstatDone 0 1) r := rfl

/-- The last page's end. -/
theorem printDone_fields (s : State) (r : Nat) (p : Snap) : (ctx (printDone s r p) r).snap = none ∧
    (ctx (printDone s r p) r).vs = (ctx s r).vs ∧ (ctx (printDone s r p) r).slot = (ctx s r).slot ∧
    cget (printDone s r p) r F.ctxPrintstatDone 0 = 1 ∧ cget (printDone s r p) r F.ctxPrintctlGo 0 = 0 ∧
    cget (printDone s r p) r F.ctxPrintstatSent 0 = cget s r F.ctxPrintstatSent 0 := by
  obtain ⟨hvs, hslot⟩ := digestPut_ctx s r p
  have hsent := cget_digestPut s r p (f := F.ctxPrintstatSent) (j := 0) (by decide)
  rw [printDone_eq]
  generalize digestPut s r p = u at *
  simp only [cget_printSignal, ctx_printSignal, snap_cset, vs_cset, slot_cset, ctx_modCtx_same]
  refine ⟨trivial, hvs, hslot, ?_, ?_, ?_⟩
  · rw [cget_cset_same]
    rfl
  · rw [cget_cset_ne (by decide), cget_cset_same]
    rfl
  · rw [cget_cset_ne (by decide), cget_cset_ne (by decide), cget_cset_ne (by decide),
      cget_modCtx (f := fun x => { x with snap := none }) (fun _ => rfl) fun _ => rfl, hsent]

theorem fget_printDone (s : State) (r : Nat) (p : Snap) {f : Fld} {i j : Nat}
    (hd : ∀ w : Fin 4, ∀ sl : Fin 8, F.ctxPrintdigData.key sl.val w.val ≠ f.key i j)
    (h : ∀ g ∈ [F.ctxPrintstatState, F.ctxPrintctlGo, F.ctxPrintstatDone], ∀ sl : Fin 8, g.key sl.val 0 ≠ f.key i j) :
    fget (printDone s r p) f i j = fget s f i j := by
  simp only [List.forall_mem_cons] at h
  obtain ⟨hstate, hgo, hdone, -⟩ := h
  obtain ⟨o, ho⟩ := signal_frame (cset (cset (cset (modCtx (digestPut s r p) r fun x => { x with snap := none }) r
    F.ctxPrintstatState 0 0) r F.ctxPrintctlGo 0 0) r F.ctxPrintstatDone 0 1) _ _
  rw [printDone_eq, printSignal, ho, ← fget_digestPut s r p hd]
  exact (fget_cset_ne hdone ..).trans ((fget_cset_ne hgo ..).trans (fget_cset_ne hstate ..))

/-- Where no page command is under way none goes on. -/
theorem resumePg_idle {s : State} {r : Nat} (h : ∀ k, (ctx s r).slot = some k → fbit s F.ctxPgcmdGo k.val 0 = false) :
    resumePg s r = s := by
  unfold resumePg
  split
  next k hk => rw [h k hk, if_neg Bool.false_ne_true]
  next => rfl

/-- After the page's end no page command goes on. -/
theorem exec_snapshotPageSent_idle {s : State} {c : CtxId} {p : Snap} {pg : Nat} (hc : clockRuns s (edgeClock 0) = true)
    (hs : (ctx s c.val).snap = some p) (hp : p.started = true)
    (hf : p.pages.find? (fun pg => !p.sent.contains pg && !pageFlies s c pg) = some pg)
    (hidle : ∀ k, (ctx s c.val).slot = some k → fbit s F.ctxPgcmdGo k.val 0 = false) :
    exec (.snapshotPageSent c) s = .next (if p.sent.length + 1 = p.pages.length then
      printDone (pageSent s c.val pg p) c.val { p with sent := p.sent ++ [pg] } else pageSent s c.val pg p) := by
  obtain ⟨-, -, hslot, -⟩ := pageSent_fields s c.val pg p
  have hsent : ∀ k : Fin 8, ∀ sl : Fin 8, F.ctxPrintstatSent.key sl.val 0 ≠ F.ctxPgcmdGo.key k.val 0 := by decide
  have hdig : ∀ k : Fin 8, ∀ w : Fin 4, ∀ sl : Fin 8, F.ctxPrintdigData.key sl.val w.val ≠ F.ctxPgcmdGo.key k.val 0
      := by
    decide
  have hdone : ∀ k : Fin 8, ∀ g ∈ [F.ctxPrintstatState, F.ctxPrintctlGo, F.ctxPrintstatDone], ∀ sl : Fin 8,
      g.key sl.val 0 ≠ F.ctxPgcmdGo.key k.val 0 := by decide
  rw [exec_snapshotPageSent hc hs hp hf, resumePg_idle]
  intro k hk
  by_cases hl : p.sent.length + 1 = p.pages.length
  · rw [if_pos hl] at hk ⊢
    obtain ⟨-, -, hslot', -⟩ := printDone_fields (pageSent s c.val pg p) c.val { p with sent := p.sent ++ [pg] }
    rw [fbit, fget_printDone _ _ _ (hdig k) (hdone k), fget_pageSent s c.val pg p (hsent k)]
    exact hidle k (hslot.symm.trans (hslot'.symm.trans hk))
  · rw [if_neg hl] at hk ⊢
    rw [fbit, fget_pageSent s c.val pg p (hsent k)]
    exact hidle k (hslot.symm.trans hk)

/-- The page sent is `PRINTING` no more. -/
theorem page_pageSent {s : State} {r pg : Nat} {e : Page} (he : tfind (ctx s r).vs.pages pg = some e) (p : Snap) :
    tfind (ctx (pageSent s r pg p) r).vs.pages pg = some { e with printing := false } := by
  obtain ⟨-, hvs, -⟩ := pageSent_fields s r pg p
  rw [hvs, pages_modPage, he, Option.map_some, if_pos rfl]

/-- A choice by a test of all elements. -/
theorem ite_not_all {α β : Type} (l : List α) (f : α → Bool) (a b : β) :
    (if !l.all f then a else b) = if ∀ x ∈ l, f x = true then b else a := by
  by_cases h : l.all f = true
  · rw [if_neg (by simp [h]), if_pos (List.all_eq_true.1 h)]
  · rw [if_pos (by simpa using h), if_neg fun hall => h (List.all_eq_true.2 hall)]

end Sys2Proof.Machine

/-- Settles O43: the check of a snapshot after the write of `GO`, the start by the routes of its targets, and the end of
one page at a time. -/
theorem snapshotsShip : Obligations.SnapshotsShip := by
  unfold Obligations.SnapshotsShip
  intro s sl w r
  refine ⟨fun hw hg hb hs hsl => ?go, fun c p hc hs hp hstep hf => ⟨fun hd => ?ships,
      fun pg d rest hz hr hpass => ?fails⟩,
    fun c p pg e hc hs hp hf he hidle => ?sent⟩
  case go =>
    intro va n tbl range entry refused
    have hexec := exec_goSnapshot hw hg hb hs
    obtain ⟨hva', hn', htbl'⟩ := printFields_printWritten hsl w
    refine ⟨fun h => ?_, fun hn hva h48 hh hp => ?_⟩
    · have hcheck : printCheck (printWritten s sl w) r = (printWritten s sl w, .error 1) :=
        printCheck_past (by rwa [hva', hn', htbl'])
      obtain ⟨hfail, hresult, hsnap⟩ := printGo_error hcheck
      exact ⟨_, hexec, hfail, hresult, hsnap.trans (by rw [ctx_printWritten])⟩
    · obtain ⟨u, hsnap, hmem, hcheck⟩ := printCheck_printWritten hsl w hn hva h48 hh hp
      rw [ite_not_all, ite_not_all] at hcheck
      have hentries : (∀ d ∈ (List.range n).map (tableEntry s r), destOk s d = true) ↔
          ∀ i, i < n → destOk s (entry i) = true :=
        List.forall_mem_map.trans (forall_congr' fun i => imp_congr_left List.mem_range)
      refine ⟨fun ⟨i, hi, hdest⟩ => ?_, fun hdest ⟨pg, hpg, hnone⟩ => ?_, fun hdest hall => ?_⟩
      · rw [if_neg fun h => Bool.eq_false_iff.1 hdest (hentries.1 h i hi)] at hcheck
        obtain ⟨hfail, hresult, hsnap'⟩ := printGo_error hcheck
        exact ⟨_, hexec, hfail, hresult, hsnap'.trans hsnap⟩
      · rw [if_pos (hentries.2 hdest), if_neg fun h => by simpa [hnone] using h pg hpg] at hcheck
        obtain ⟨hfail, hresult, hsnap'⟩ := printGo_error hcheck
        exact ⟨_, hexec, hfail, hresult, hsnap'.trans hsnap⟩
      · rw [if_pos (hentries.2 hdest),
          if_pos (show ∀ pg ∈ printRange s r, (tfind (ctx s r).vs.pages pg).isSome = true from hall)] at hcheck
        obtain ⟨hsnap', hgo, hstate, hsent, hvs⟩ := printGo_ok hcheck
        exact ⟨_, hexec, hsnap', hgo, hstate, hsent, (congrArg VSpace.mem hvs).trans hmem⟩
  case ships =>
    have hview := snapshotStart_ships s c.val p hd
    obtain ⟨x, v, hx⟩ := ctx_printing s c.val p
    refine ⟨_, exec_snapshotStart hc hs hp hstep hf, ?_, ⟨(begunSnap s c.val p).digest, ?_⟩, fun pg hpg e he => ?_⟩
    · rw [cget_of_shipView hview (by decide)]
      exact cget_cset_same ..
    · rw [ctx_of_shipView hview, hx]
      rfl
    · rw [ctx_of_shipView hview, pages_printing, he, Option.map_some, if_pos hpg]
  case fails =>
    obtain ⟨x, v, hx⟩ := ctx_printing s c.val p
    obtain ⟨hsnap, hfail, hresult, hgo⟩ := printFail_fields (s := printing s c.val p) (r := c.val)
      (p := begunSnap s c.val p) (by rw [hx]) 4
    refine ⟨_, exec_snapshotStart hc hs hp hstep hf, ?_⟩
    rw [snapshotStart_fails s c.val p hz hr hpass]
    exact ⟨hsnap, hfail, hresult, hgo⟩
  case sent =>
    obtain ⟨hsnap, hvs, -, hsent⟩ := pageSent_fields s c.val pg p
    have hpage := page_pageSent he p
    refine ⟨_, exec_snapshotPageSent_idle hc hs hp hf hidle, ?_⟩
    split
    next hlast =>
      obtain ⟨hsnap', hvs', -, hdone, hgo, hsent'⟩ :=
        printDone_fields (pageSent s c.val pg p) c.val { p with sent := p.sent ++ [pg] }
      exact ⟨by rw [hvs', hpage], hsent'.trans hsent, fun hne => absurd hlast hne, fun _ => ⟨hsnap', hdone, hgo⟩⟩
    next hmore => exact ⟨hpage, hsent, fun _ => hsnap, fun heq => absurd heq hmore⟩

end
